-- ==== Sys2Proof/Word.lean ====
section
/-!
DEFINITION. Word.lean: the word types of the model (00_scope R5 to R10: registers are 32-bit,
register pairs are 64-bit, memories are bytes).
-/
namespace Sys2Proof

/-- One byte of a memory, a buffer or a frame. -/
abbrev Byte := BitVec 8

/-- One register (R10). -/
abbrev W32 := BitVec 32

/-- One register pair (R19), or one accumulator word. -/
abbrev W64 := BitVec 64

/-- A string of bytes in the order in which they lie in memory or leave on a wire. -/
abbrev Bytes := List Byte

end Sys2Proof
end

