-- ==== Sys2Proof/Syntax.lean ====
section
/-!
DEFINITION. Syntax.lean: the commands of the block, one constructor of `Instr` per row of the
opcode table, with the operands that each command carries. A command is an event on a pin or a
wire, an access to a register, a frame or message received, a step of one of the device's own
engines or timers, or an operation of a descriptor named by its partition and tag.
-/
namespace Sys2Proof

/-- Who makes a register access: a function through its own BAR0 (0 is the PF), the MP, or JTAG
(00_scope R20). -/
inductive Req where
  | fn (f : Fin 64)
  | mp
  | jtag
deriving DecidableEq, Repr

/-- What a lane reports (13 R565): alignment lost for 10 ms, or corrected and uncorrectable codewords of its FEC. -/
inductive LaneCause where
  | align
  | fec (corr uncorr : Nat)
deriving DecidableEq, Repr

/-- How far a recovery operation goes in a command (11_tally R463, R472): to its end, one more group begun, or `n` more
elements of the masks of a group that runs. -/
inductive RecGo where
  | whole
  | start
  | lines (index n : Nat)
deriving DecidableEq, Repr

/-- The two Strongbox mailboxes (15_strongbox R627): the PF's registers and the MP's own. -/
inductive Mbx where
  | pf
  | mp
deriving DecidableEq, Repr

/-- What the patrol scrub finds in a Hoard row of 64 words (06_hoard R254 to R256). -/
inductive RowResult where
  | clean
  | corrected
  | double (word : Fin 64)
  | verifyFail
deriving DecidableEq, Repr

/-- What an operation meets in the words of core scratch that it reads (03_matrix R85, R140): a number of single-bit
errors, or a double-bit error of a line, before its drain or after some lines of its output are written. -/
inductive ScratchErr where
  | clean
  | corrected (n : Fin 65536)
  | double (line : Fin 65536)
  | drain (line : Fin 65536) (written : Nat)
deriving DecidableEq, Repr

/-- What the reads of a folio transfer meet in LPDDR5X (06_hoard R268, R269): corrected bytes, an error that the code does
not detect in line `line`, or an uncorrectable source. -/
inductive ReadResult where
  | ok
  | corrected (n : Fin 65536)
  | undetected (line : Fin 1024)
  | bad
deriving DecidableEq, Repr

/-- The commands, in the order of the opcode table. An operand `sub` is the instant of a stamped event within the reference
cycle, in 820ths of it (08 R352, R364). -/
inductive Instr where
  /-- VIN_RISE (R760). VIN rises through 40 V. The power dies, the reference clock and the domain rails come up in sequence, and PWR_GOOD rises. -/
  | vinRise (mv : BitVec 16)
  /-- VIN_FALL (R762). VIN falls below 40 V. PWR_GOOD falls within 1 µs, and no new MRAM or flash write starts. -/
  | vinFall (mv : BitVec 16)
  /-- VIN_HIGH (R756). VIN rises above 60 V, which sets PWR_STATUS.VIN_HIGH and PWR_EVENTS.VIN_HIGH. -/
  | vinHigh (mv : BitVec 16)
  /-- PERST_N_ASSERT (R17). Assertion of PERST_N warm-resets the package, ends every tenancy and reloads the last device charter. -/
  | perstNAssert
  /-- PERST_N_DEASSERT (R761). Deassertion of PERST_N lets the boot ROM start once PWR_GOOD is also high. -/
  | perstNDeassert (recoveryN : Bool)
  /-- BOOT_ROM_START (R698). The boot ROM checks tamper, measures D_0, picks a slot, checks the image and loads its components. -/
  | bootRomStart (bistFail : Nat)
  /-- START_COMPLETE (R617). The MP firmware's start-complete command sets START_DONE. Held and late window openings then act, and readiness is signalled. -/
  | startComplete
  /-- MP_WATCHDOG_RESET (R18). Expiry of the MP watchdog restarts the management domain on the running slot, or causes a fallback during TRIAL. -/
  | mpWatchdogReset
  /-- STAGE (R695). MGMT_UPD_CTRL OP 1 copies an image from host memory into the inactive slot. -/
  | stage (req : Req)
  /-- STAGE_COMPLETE (R697). Completion of the STAGE copy sets the update state to STAGED and adds a ledger entry. -/
  | stageComplete (readOk : Bool)
  /-- UPDATE_DISCARD (R697). MGMT_UPD_CTRL OP 2 (DISCARD) returns the state from STAGED to IDLE. -/
  | updateDiscard (req : Req)
  /-- ACTIVATE (R702). MGMT_UPD_CTRL OP 3 sets CHECKING and restarts the management domain on the staged image, once partitions are quiesced. -/
  | activate (req : Req)
  /-- UPDATE_LEDGER_READ (R714). MGMT_UPD_CTRL OP 4 copies the newest update-ledger entries to host memory. -/
  | updateLedgerRead (req : Req) (count : Byte)
  /-- HEALTH_CONFIRM (R706). Confirmation of a trial makes TRIAL_SLOT active and writes the boot record. `lost` is the
  VIN in mV below 40 V to which the supply falls after that write and before the fuses are blown (R715), if it does. -/
  | healthConfirm (lost : Option (BitVec 16))
  /-- REJECT_SELF (R706). Firmware on trial abandons itself, and the device falls back to the old slot. -/
  | rejectSelf
  /-- FALLBACK_TIMEOUT (R706). TRIAL_S elapses without confirmation, and the device falls back. -/
  | fallbackTimeout
  /-- ENTER_IDLE (R764). After 100 µs with no work, no active window and no hamper slot, the compute clocks are gated. -/
  | enterIdle
  /-- DOZE (R765). PWR_CTRL.DOZE requests entry to DOZE, which is refused unless every partition is quiesced. -/
  | doze (req : Req)
  /-- DOZE_WAKE (R764). The host link leaving L1.2 moves the package from DOZE to WAKING. -/
  | dozeWake
  /-- WAKING_DONE (R764). Once the rails and LPDDR5X are back, the package becomes ACTIVE, retrains its ports and sets WOKE. -/
  | wakingDone
  /-- THROTTLE_STEP (R770). The per-ms throttle evaluation steps the arithmetic clock down or up. -/
  | throttleStep (tj : Byte) (sensor : Byte) (inputW : BitVec 16)
  /-- THERMAL_TRIP (R772). Tj at 115 °C, or sustained throttling, turns off the rails and zeroises volatile keys. -/
  | thermalTrip (tj : Byte)
  /-- TAMPER_ALARM (R648). A tamper source latches an alarm. Key operations abort, and the configured response runs. -/
  | tamperAlarm (src : Fin 5)
  /-- SWEEP_MARK_CLEARED (R648). Both MRAM banks of every persistent slot are zeroised, and SWEEP_PENDING is cleared. -/
  | sweepMarkCleared
  /-- ORPHAN_ZEROISE_DONE (R633). Background zeroisation of orphaned slots completes, and the slots are freed. -/
  | orphanZeroiseDone
  /-- KEY_WRITE (R627). A mailbox command writes a key in clear into a slot. -/
  | keyWrite (m : Mbx) (readBack : Bool)
  /-- KEY_DERIVE (R616). A mailbox command derives a key into a slot from a parent under SP 800-108. -/
  | keyDerive (m : Mbx) (readBack : Bool)
  /-- KEY_WRAP (R631). A mailbox command returns the blob of a slot under a WRAP key. -/
  | keyWrap (m : Mbx)
  /-- KEY_UNWRAP (R632). A mailbox command loads a blob into a slot after checking it. -/
  | keyUnwrap (m : Mbx) (readBack : Bool)
  /-- KEY_ORPHAN (R633). A mailbox command orphans a slot and its descendants. -/
  | keyOrphan (m : Mbx)
  /-- KEY_ZEROISE (R639). A mailbox command orphans and then zeroises a slot. -/
  | keyZeroise (m : Mbx) (readBack : Bool)
  /-- KEY_INFO (R627). A mailbox command returns the attribute word of a slot. -/
  | keyInfo (m : Mbx)
  /-- SIGN (R627). A mailbox command signs a digest with a SIGN slot. -/
  | sign (m : Mbx)
  /-- MEM_ROTATE (R641). A mailbox command rotates a partition's MEMORY key generation, or is refused with ROTATION_BUSY. -/
  | memRotate (m : Mbx)
  /-- LC_ADVANCE (R608). A mailbox command requests a one-way life-cycle transition with a token. -/
  | lcAdvance (m : Mbx)
  /-- FACTORY_TRANSITION (R608). The factory JTAG flow fuses the UDS and moves BLANK to FACTORY. -/
  | factoryTransition
  /-- TAMPER_READ (R651). A mailbox command returns four tamper-ledger entries. -/
  | tamperRead (m : Mbx)
  /-- RNG_STARTUP_DONE (R661). 1,024 samples pass both health tests, and the generator enters SEEDING. -/
  | rngStartupDone
  /-- RNG_SEEDED (R661). The pool fills and the DRBG is instantiated. READY is set, and waiting calls are served. -/
  | rngSeeded (katOk : Bool)
  /-- HEALTH_TEST_FAILURE (R661). A health test reaches its cutoff, which restarts the generator or sends it to FAILED. -/
  | healthTestFailure (rct : Bool) (apt : Bool)
  /-- DRBG_RESEED (R657). The DRBG is reseeded after 2^20 calls or 1 s. -/
  | drbgReseed
  /-- GENERATE_CALL (R664). A waiting random-number call is served as one generate call. -/
  | generateCall
  /-- RNG_TEST_WRITE (R666). A write of RNG_TEST substitutes the LFSR pattern and restarts the generator, in FACTORY only. -/
  | rngTestWrite (req : Req) (v : W32)
  /-- DEVICE_CHARTER_LOAD (R60). CHARTER_LOAD_CTRL GO with KIND 0 checks a device charter image. -/
  | deviceCharterLoad (req : Req)
  /-- JOB_CHARTER_LOAD (R60). CHARTER_LOAD_CTRL GO with KIND 1, or GO through a tenant view, checks a job charter image. -/
  | jobCharterLoad (req : Req) (p : Fin 16)
  /-- CHARTER_PAUSE (R70). The pause of an affected partition begins: admission stops and in-flight operations finish. -/
  | charterPause (p : Fin 16)
  /-- PAUSE_CUTOFF (R71). At 8 ms into a pause, every unfinished operation of the partition is cancelled. -/
  | pauseCutoff (p : Fin 16)
  /-- CHARTER_APPLY (R64). The structure registers are written, the hash is placed, admission resumes and the completion interrupt is raised. -/
  | charterApply
  /-- CHARTER_REMOVE (R672). CHARTER_REMOVE_CTRL GO starts removal of a tenant, which cancels its work and orphans its keys. -/
  | charterRemove (req : Req) (p : Fin 16)
  /-- REMOVAL_COMPLETE (R675). The in-flight count reaches 0, and the removal completes with fresh keys drawn. -/
  | removalComplete
  /-- REMOVAL_FORCED (R676). After 10 ms, the remaining entries are released and their records are discarded. -/
  | removalForced
  /-- RWL_WRITE (R79). A write to an RWL register sets the field and the EXPERT flag, unless the register is locked. -/
  | rwlWrite (req : Req) (off : Nat) (size : Nat) (v : W32)
  /-- REGISTER_WRITE (R13). A write to a register that has no row of its own acts by its access code. `same` says
  that it reaches the register in the cycle of the hardware events just before it (00_scope R23). -/
  | registerWrite (req : Req) (off : Nat) (size : Nat) (v : W32) (same : Bool)
  /-- PAIR_LO_READ (R19). A read of a _LO register latches its _HI for the requester. -/
  | pairLoRead (req : Req) (off : Nat) (size : Nat)
  /-- PAIR_LO_WRITE (R22). A write of _LO of a writable pair is held pending. -/
  | pairLoWrite (req : Req) (off : Nat) (v : W32)
  /-- PAIR_HI_WRITE (R21). A write of _HI makes the 64-bit pair take effect as a whole. -/
  | pairHiWrite (req : Req) (off : Nat) (v : W32)
  /-- ERR_INDEX_WRITE (R736). A write of GLOBAL_ERR_INDEX latches the selected entry into GLOBAL_ERR_DATA. -/
  | errIndexWrite (req : Req) (v : W32)
  /-- SLOT_WRITE (R202). A host write into a command-window slot, which issues the descriptor when it sets OWNER. -/
  | slotWrite (f : Fin 64) (off : Nat) (data : Bytes)
  /-- DESCRIPTOR_FETCH (R204). The fetcher takes the owned slot at its pointer, copies the descriptor and clears OWNER. -/
  | descriptorFetch (f : Fin 64)
  /-- ADMIT (R211). A held descriptor is admitted once quota, a window entry and the partition state allow. -/
  | admitDesc (f : Fin 64)
  /-- OP_DISPATCH (R217). An engine starts the earliest-admitted ready operation in its queue. -/
  | opDispatch (p : Fin 16) (tag : Fin 4096)
  /-- OP_COMPLETE (R215). An operation finishes, its scoreboard entry is set, and its dependants are released or cancelled. -/
  | opComplete (p : Fin 16) (tag : Fin 4096)
  /-- RECORD_WRITE (R237). The completion record is written once the ring has room, and its entry is freed. -/
  | recordWrite (f : Fin 64) (r : Fin 8)
  /-- COAL_TIMEOUT (R239). COAL_US µs pass with records pending, and the message is sent. -/
  | coalTimeout (f : Fin 64) (r : Fin 8)
  /-- CQ_HEAD_WRITE (R237). A host write of CQ_HEAD frees ring space for waiting records. -/
  | cqHeadWrite (f : Fin 64) (r : Fin 8) (v : W32)
  /-- CQ_CFG_WRITE (R249). A write of SIZE_LOG2 configures the ring and resets TAIL. -/
  | cqCfgWrite (f : Fin 64) (r : Fin 8) (v : W32)
  /-- WIN_ENABLE (R205). SCHED_WIN_CTRL.ENABLE starts or stops the fetcher serving the window. -/
  | winEnable (f : Fin 64) (v : W32)
  /-- WIN_RESET (R203). SCHED_WIN_CTRL.RESET clears OWNER in every slot and sets FETCH_PTR to 0. -/
  | winReset (f : Fin 64)
  /-- CANCEL_ALL (R233). SCHED_WIN_CTRL.CANCEL_ALL cancels every operation of the function's partitions at once. -/
  | cancelAll (f : Fin 64)
  /-- CANCEL (R230). A CANCEL descriptor cancels one tag or every earlier operation of the partition. -/
  | cancel (f : Fin 64)
  /-- PHASE_SWITCH (R227). A PHASE_SWITCH descriptor is fetched, and the partition enters DRAINING. -/
  | phaseSwitch (f : Fin 64)
  /-- DRAIN_TIMEOUT (R227). DRAIN_MS elapses, and unfinished operations are cancelled. -/
  | drainTimeout (p : Fin 16)
  /-- PHASE_OPEN (R339). The barrier is met, so pins, BIAS and streams are set, and the phase opens. -/
  | phaseOpen (p : Fin 16)
  /-- CORE_FAULT (R720). A residue, parity, scratch or self-test fault fences a core and replays its work. -/
  | coreFault (c : Fin 8) (k : Fin 9) (cause : Fin 4) (line : W32)
  /-- CORE_HANG (R720). An engine holds one operation beyond four times its nominal cycles plus 100 µs. -/
  | coreHang (c : Fin 8) (k : Fin 9)
  /-- MMA (R124). Matrix tile operation. -/
  | mma (p : Fin 16) (tag : Fin 4096) (err : ScratchErr)
  /-- VEC (R135). Vector engine operation. -/
  | vec (p : Fin 16) (tag : Fin 4096) (err : ScratchErr)
  /-- ACC_EXPORT (R183). Closes a chain and writes a partial record. -/
  | accExport (p : Fin 16) (tag : Fin 4096) (err : ScratchErr)
  /-- ACC_SETTLE (R187). Combines partial records into D. -/
  | accSettle (p : Fin 16) (tag : Fin 4096) (err : ScratchErr)
  /-- CTX_CLOSE (R193). A write of CORE_CTX_CLOSE closes contexts, after any operation using them. -/
  | ctxClose (req : Req) (c : Fin 8) (k : Fin 9) (v : W32)
  /-- SCRATCH_SPLIT_WRITE (R144). A write of CORE_SCRATCH_SPLIT is checked and held until the core is idle. -/
  | scratchSplitWrite (req : Req) (c : Fin 8) (k : Fin 9) (v : W32)
  /-- SCRATCH_SPLIT_APPLY (R140). The held split takes effect when the core becomes idle. -/
  | scratchSplitApply (c : Fin 8) (k : Fin 9)
  /-- SR_SEED_WRITE (R174). A write of CORE_SR_SEED applies to every core of the partition. -/
  | srSeedWrite (req : Req) (c : Fin 8) (k : Fin 9) (hi : W32)
  /-- ACC_POLICY_WRITE (R196). A write of CORE_ACC_POLICY, discarded when a field is out of range. -/
  | accPolicyWrite (req : Req) (c : Fin 8) (k : Fin 9) (v : W32)
  /-- CORE_ECC_CLEAR (R85). CORE_ECC.CLEAR sets the scratch error counts to 0. -/
  | coreEccClear (req : Req) (c : Fin 8) (k : Fin 9)
  /-- HOARD_ECC_CLEAR (R254). FOLIO_HOARD_ECC.CLEAR sets the Hoard error counts to 0. -/
  | hoardEccClear (req : Req)
  /-- COPY (R302). Folio operation that copies bytes between virtual ranges. -/
  | copy (p : Fin 16) (tag : Fin 4096)
  /-- FILL (R302). Folio operation that writes a 64-bit pattern over a range. -/
  | fill (p : Fin 16) (tag : Fin 4096)
  /-- DISCARD (R306). Folio operation that moves every folio in a range to SCRUB. -/
  | discard (p : Fin 16) (tag : Fin 4096)
  /-- STREAM_OPEN (R307). Opens a prefetch stream. -/
  | streamOpen (p : Fin 16) (tag : Fin 4096)
  /-- STREAM_CLOSE (R311). Closes a prefetch stream. -/
  | streamClose (p : Fin 16) (tag : Fin 4096)
  /-- MAP (R305). Maps ABSENT folios to host memory or to a peer. -/
  | map (p : Fin 16) (tag : Fin 4096)
  /-- PIN (R313). Expert operation that makes folios Hoard-resident and pinned. -/
  | pin (p : Fin 16) (tag : Fin 4096)
  /-- UNPIN (R302). Expert operation that clears PIN. -/
  | unpin (p : Fin 16) (tag : Fin 4096)
  /-- PLACE (R314). Expert operation that moves one folio to a named free frame. -/
  | place (p : Fin 16) (tag : Fin 4096)
  /-- EVICT (R315). Expert operation that evicts the unpinned folios of a range. -/
  | evict (p : Fin 16) (tag : Fin 4096)
  /-- MOVE_COMMIT (R279). A folio transfer or move commits, and held writes are applied. -/
  | moveCommit (p : Fin 16) (vfn : Nat) (res : ReadResult)
  /-- LOW_WATER_EVICTION (R291). The folio unit evicts ahead of demand to keep LOW_WATER frames free in each column. -/
  | lowWaterEviction (col : Fin 8)
  /-- AGE_TICK (R287). Every AGE_TICK_US, the AGE of every unaccessed resident folio rises. -/
  | ageTick
  /-- PATROL_SCRUB (R255). The patrol reads and corrects the Hoard rows. -/
  | patrolScrub (frame : Fin 131072) (row : Fin 128) (res : RowResult) (by_ : Option (Fin 16 × Fin 4096))
  /-- CHANNEL_RETIRE (R270). An LPDDR5X channel that fails retraining or exceeds its error limit is retired, and its folios are moved. -/
  | channelRetire (ch : Fin 128) (bad : List (Fin 16 × Nat))
  /-- WALKER_MOVE (R299). The re-encryption walker copies one folio under the current generation. -/
  | walkerMove (p : Fin 16)
  /-- SCRUB_ZEROED (R678). A SCRUB frame has been zeroed and returns to the free pool. -/
  | scrubZeroed (hoard : Bool) (frame : Nat)
  /-- STREAM_PREFETCH (R308). A stream fetches the folios ahead of POS into its column. -/
  | streamPrefetch (c : Fin 8) (st : Fin 16)
  /-- STREAM_CTRL_WRITE (R321). A direct write of CLUS_STREAM_CTRL with ENABLE opens a stream at POS 0. -/
  | streamCtrlWrite (req : Req) (c : Fin 8) (st : Fin 16) (v : W32)
  /-- PULL_REQ (R342). A MOVE frame with KIND PULL_REQ is served, held or refused by phase. -/
  | pullReq (port : Fin 64) (frame : Bytes)
  /-- CONFIRM (R346). A MOVE frame with KIND CONFIRM releases a HANDOFF copy to SCRUB. -/
  | confirm (port : Fin 64) (frame : Bytes)
  /-- REFUSE (R342). A MOVE frame with KIND REFUSE leaves the pull behind. -/
  | refuse (port : Fin 64) (frame : Bytes)
  /-- MOVE_WAIT_EXPIRY (R345). MOVE_WAIT_MS expires, and uncommitted pulls are left behind. -/
  | moveWaitExpiry (p : Fin 16)
  /-- PTP_MESSAGE (R356). Receipt of a PTP message on the PTP port. -/
  | ptpMessage (port : Fin 64) (frame : Bytes) (sub : Fin 820)
  /-- PTP_SEND (R356). The device sends PTP messages on its port, as master or for delay requests. -/
  | ptpSend (kind : Fin 5) (sub : Fin 820)
  /-- PPS_IN_EDGE (R359). A rising edge of PPS_IN gives a time update. -/
  | ppsInEdge (sub : Fin 820)
  /-- TOD (R594). An MCTP time-of-day message gives the TAI seconds of the next edge. -/
  | tod (msg : Bytes)
  /-- SOURCE_LOST (R362). Four Sync intervals pass without a Sync, and FT leaves LOCKED. -/
  | sourceLost
  /-- HOLDOVER_LIMIT_EXCEEDED (R362). The estimated error exceeds HOLDOVER_LIMIT, and FT becomes UNLOCKED. -/
  | holdoverLimitExceeded
  /-- FTIME_HOLD_WRITE (R379). A write of FTIME_HOLD changes the holdover limit and the growth rate. -/
  | ftimeHoldWrite (req : Req) (v : W32)
  /-- WINDOW_DEFINE (R417). Creates a window from a template, binds hampers and reserves frames. -/
  | windowDefine (p : Fin 16) (tag : Fin 4096)
  /-- WINDOW_OPEN (R423). Opens a DEFINED window by command while FT is UNLOCKED. -/
  | windowOpen (p : Fin 16) (tag : Fin 4096)
  /-- WINDOW_CLOSE (R423). Closes an OPEN window by command while FT is UNLOCKED. -/
  | windowClose (p : Fin 16) (tag : Fin 4096)
  /-- WINDOW_DISCARD (R422). Sends a window to DISCARDED. -/
  | windowDiscard (p : Fin 16) (tag : Fin 4096)
  /-- WINDOW_FREE (R422). Frees a window in a terminal state. -/
  | windowFree (p : Fin 16) (tag : Fin 4096)
  /-- TALLY_INGEST (R442). Pushes one host-read segment into a window. -/
  | tallyIngest (p : Fin 16) (tag : Fin 4096) (hostOk : Bool) (sub : Fin 820)
  /-- LEDGER_READ (R443). Copies contributor-ledger entries to tenant memory. -/
  | ledgerRead (p : Fin 16) (tag : Fin 4096)
  /-- OPEN_AT (R422). FT reaches OPEN_AT while locked, and the window opens with its shard layout fixed. -/
  | openAt (w : Fin 64)
  /-- CLOSE_AT (R422). FT reaches CLOSE_AT while locked, and the window enters GRACE. -/
  | closeAt (w : Fin 64)
  /-- GRACE_END (R422). GRACE_US elapses. Open submissions abort as LATE, and the window enters RECOVERING. -/
  | graceEnd (w : Fin 64)
  /-- IDLE_TIMEOUT (R433). A submission's idle timer reaches IDLE_US, and it aborts. -/
  | idleTimeout (w : Fin 64) (contributor : Nat)
  /-- REVERSAL_DONE (R434). Reversal completes, and the submission leaves the open set. -/
  | reversalDone (w : Fin 64) (contributor : Nat)
  /-- SUBMIT (R538). Receipt of an RYT SUBMIT frame carrying a segment. -/
  | submit (port : Fin 64) (frame : Bytes) (sub : Fin 820)
  /-- HAMPER_POP (R384). The consumer takes the oldest visible slot for summation. -/
  | hamperPop (h : Fin 64)
  /-- SLOT_SUMMED (R437). Every element of a popped slot has been summed into the accumulators. -/
  | slotSummed (h : Fin 64)
  /-- RETENTION_APPEND (R398). A segment's payload is appended to the retention ring once the free space allows. -/
  | retentionAppend
  /-- COMMIT (R432). The END segment's seal is judged, and the submission commits or aborts for SEAL. -/
  | commit (w : Fin 64) (contributor : Nat)
  /-- SLICE_FAIL (R439). A Tally slice fails, and its blocks move to the next working slice. -/
  | sliceFail (k : Fin 8)
  /-- RECOVER_SELF (R469). Runs self-mask recovery groups for committed contributors. -/
  | recoverSelf (p : Fin 16) (tag : Fin 4096) (go : RecGo)
  /-- RECOVER_PAIR (R456). Runs pair-mask recovery groups for dropped contributors. -/
  | recoverPair (p : Fin 16) (tag : Fin 4096) (go : RecGo)
  /-- RECOVER_FINISH (R475). Declares recovery complete and moves the window to RECOVERED. -/
  | recoverFinish (p : Fin 16) (tag : Fin 4096)
  /-- RELEASE (R476). Starts or retries the copy of the sum to DEST. -/
  | release (p : Fin 16) (tag : Fin 4096)
  /-- REC_LEDGER_READ (R468). Copies recovery-ledger bytes to tenant memory. -/
  | recLedgerRead (p : Fin 16) (tag : Fin 4096)
  /-- TIMED_RELEASE (R478). The release time falls with FT locked and the window RECOVERED, and the copy starts. -/
  | timedRelease (w : Fin 64)
  /-- RELEASE_COPY_DONE (R449). The copy completes and the window is RELEASED, or the copy fails with RELEASE_FAILED. -/
  | releaseCopyDone (w : Fin 64)
  /-- PARAM_LOAD (R496). Loads a parameter set into a slot. -/
  | paramLoad (p : Fin 16) (tag : Fin 4096)
  /-- PARAM_DROP (R497). Frees a parameter slot. -/
  | paramDrop (p : Fin 16) (tag : Fin 4096)
  /-- KEY_BIND (R509). Binds an evaluation key to a slot and a Galois element. -/
  | keyBind (p : Fin 16) (tag : Fin 4096)
  /-- CT_ADD (R505). Adds two ciphertexts. -/
  | ctAdd (p : Fin 16) (tag : Fin 4096)
  /-- CT_SUB (R505). Subtracts two ciphertexts. -/
  | ctSub (p : Fin 16) (tag : Fin 4096)
  /-- PT_ADD (R505). Adds a plaintext to a ciphertext. -/
  | ptAdd (p : Fin 16) (tag : Fin 4096)
  /-- PT_MUL (R505). Multiplies a ciphertext by a plaintext. -/
  | ptMul (p : Fin 16) (tag : Fin 4096)
  /-- CT_MUL (R505). Forms the tensor product of two ciphertexts. -/
  | ctMul (p : Fin 16) (tag : Fin 4096)
  /-- RELIN (R501). Key-switches a 3-polynomial ciphertext to 2 polynomials. -/
  | relin (p : Fin 16) (tag : Fin 4096)
  /-- ROTATE (R501). Applies an automorphism, then a key switch. -/
  | rotate (p : Fin 16) (tag : Fin 4096)
  /-- RESCALE (R505). Divides by the top prime and lowers the level. -/
  | rescale (p : Fin 16) (tag : Fin 4096)
  /-- MOD_DROP (R505). Drops the top limb. -/
  | modDrop (p : Fin 16) (tag : Fin 4096)
  /-- NTT (R501). Transforms every limb to the evaluation domain. -/
  | ntt (p : Fin 16) (tag : Fin 4096)
  /-- INTT (R501). Transforms every limb to the coefficient domain. -/
  | intt (p : Fin 16) (tag : Fin 4096)
  /-- LIMB_MULADD (R501). Elementwise multiply-add over raw limb arrays. -/
  | limbMuladd (p : Fin 16) (tag : Fin 4096)
  /-- MACRO (R514). Runs a library macro as a sequence of internal operations. -/
  | macroOp (p : Fin 16) (tag : Fin 4096)
  /-- POLY_ENGINE_FAIL (R520). A polynomial engine fails, and its operations move to the remaining engines. -/
  | polyEngineFail (e : Fin 8)
  /-- ACK (R543). Receipt of an RYT ACK frame with acknowledgements, credit and grants. -/
  | ack (port : Fin 64) (frame : Bytes)
  /-- ACK_DELAY_EXPIRY (R543). 2 µs pass without a reverse frame, or 16 acceptances accumulate, and an ACK frame is sent. -/
  | ackDelayExpiry (p : Fin 16) (peer : Nat)
  /-- FETCH (R539). Receipt of a FETCH frame, which the package answers with FOLIO data. -/
  | fetch (port : Fin 64) (frame : Bytes)
  /-- FOLIO (R539). Receipt of a FOLIO frame carrying folio data or an absent mark. -/
  | folio (port : Fin 64) (frame : Bytes)
  /-- FRAME_TRANSMIT (R550). A port sends its next frame under credit and the beat plan. -/
  | frameTransmit (port : Fin 64) (sub : Fin 820)
  /-- REKEY_AT (R563). An FT time of REKEY_AT is reached while FT is locked, and every stream advances. -/
  | rekeyAt (p : Fin 16)
  /-- KEYGEN_RETIRE (R563). PEER_TIMEOUT after the new generation's first frame, the old generation is retired. -/
  | keygenRetire (p : Fin 16) (peer : Nat)
  /-- RTO_EXPIRY (R544). An unacknowledged frame is retransmitted after RTO. -/
  | rtoExpiry (p : Fin 16) (peer : Nat)
  /-- EVIDENCE_REQ (R564). Receipt of an evidence request, answered with signed evidence. -/
  | evidenceReq (port : Fin 64) (frame : Bytes)
  /-- ADMIT_HELLO (R561). Receipt of an admission hello, which is checked and answered with ADMIT_REPLY. -/
  | admitHello (port : Fin 64) (frame : Bytes)
  /-- ADMIT_CONFIRM (R562). Receipt of the confirm installs the job keys and the peer table. -/
  | admitConfirm (port : Fin 64) (frame : Bytes)
  /-- ADMIT_TIMEOUT (R562). 10 s pass without a confirm, and admission returns to NONE. -/
  | admitTimeout (p : Fin 16)
  /-- ADDRESS_RESOLUTION (R529). An ARP or Neighbor Solicitation frame for the port's address is answered. -/
  | addressResolution (port : Fin 64) (frame : Bytes)
  /-- LANE_FAIL (R565). A lane fails, and its port retrains at reduced width. -/
  | laneFail (lane : Fin 64) (cause : LaneCause)
  /-- RETRAIN_COMPLETE (R566). The port finishes retraining and runs at the new width. -/
  | retrainComplete (port : Fin 64)
  /-- RETRAIN (R567). RYT_PORT_CTRL.RETRAIN retrains a port on all its lanes. -/
  | retrain (req : Req) (port : Fin 64)
  /-- CONFIG_REQUEST (R575). A PCI Express configuration request, answered with Request Retry Status until firmware is ready. -/
  | configRequest (f : Fin 64) (off : BitVec 12) (wr : Option W32)
  /-- FLR (R601). A Function Level Reset of a VF. -/
  | flr (f : Fin 64)
  /-- LOCK_INTERFACE_REQUEST (R588). TDISP request that locks a TDI's configuration. -/
  | lockInterfaceRequest (f : Fin 64)
  /-- START_INTERFACE_REQUEST (R588). TDISP request that moves a TDI to RUN. -/
  | startInterfaceRequest (f : Fin 64)
  /-- STOP_INTERFACE_REQUEST (R588). TDISP request that returns a TDI to CONFIG_UNLOCKED. -/
  | stopInterfaceRequest (f : Fin 64)
  /-- IDE_INTEGRITY_FAILURE (R588). An IDE failure, or the stream leaving Secure, sends the TDI to ERROR. -/
  | ideIntegrityFailure (f : Fin 64)
  /-- LOCKED_SETTING_WRITE (R588). A write to a locked VF setting sends the TDI to ERROR. -/
  | lockedSettingWrite (f : Fin 64)
  /-- REQUEST_WITHOUT_T_BIT (R589). A request to a RUN TDI without the T bit completes with Unsupported Request. -/
  | requestWithoutTBit (f : Fin 64)
  /-- IDE_KM (R585). IDE key programming over the secure session. -/
  | ideKm (f : Fin 64) (stream : Fin 64) (key : BitVec 256) (secure : Bool)
  /-- DOE_DISCOVERY (R591). A DOE Discovery request. -/
  | doeDiscovery (f : Fin 64) (index : Byte)
  /-- GET_VERSION (R592). SPDM GET_VERSION request. -/
  | getVersion (f : Fin 66) (msg : Bytes)
  /-- GET_CAPABILITIES (R592). SPDM GET_CAPABILITIES request. -/
  | getCapabilities (f : Fin 66) (msg : Bytes)
  /-- NEGOTIATE_ALGORITHMS (R592). SPDM NEGOTIATE_ALGORITHMS request. -/
  | negotiateAlgorithms (f : Fin 66) (msg : Bytes)
  /-- GET_DIGESTS (R592). SPDM GET_DIGESTS request. -/
  | getDigests (f : Fin 66) (msg : Bytes)
  /-- GET_CERTIFICATE (R592). SPDM GET_CERTIFICATE request. -/
  | getCertificate (f : Fin 66) (msg : Bytes)
  /-- CHALLENGE (R592). SPDM CHALLENGE request. -/
  | challenge (f : Fin 66) (msg : Bytes)
  /-- GET_MEASUREMENTS (R686). SPDM request returning measurement blocks 0 to 10. -/
  | getMeasurements (f : Fin 66) (msg : Bytes)
  /-- KEY_EXCHANGE (R663). SPDM KEY_EXCHANGE, which waits for random numbers. -/
  | keyExchange (f : Fin 66) (msg : Bytes)
  /-- FINISH (R592). SPDM FINISH request. -/
  | finish (f : Fin 64) (sess : W32) (msg : Bytes)
  /-- HEARTBEAT (R592). SPDM HEARTBEAT request. -/
  | heartbeat (f : Fin 64) (sess : W32) (msg : Bytes)
  /-- KEY_UPDATE (R592). SPDM KEY_UPDATE request. -/
  | keyUpdate (f : Fin 64) (sess : W32) (msg : Bytes)
  /-- END_SESSION (R592). SPDM END_SESSION request. -/
  | endSession (f : Fin 64) (sess : W32) (msg : Bytes)
  /-- VENDOR_DEFINED_REQUEST (R592). SPDM vendor-defined request carrying IDE_KM or TDISP. -/
  | vendorDefinedRequest (f : Fin 64) (sess : W32) (msg : Bytes)
  /-- MCTP_CONTROL (R593). An MCTP control message. -/
  | mctpControl (i3c : Bool) (msg : Bytes)
  /-- DMA_IN (R595). Copies host memory into tenant memory. -/
  | dmaIn (p : Fin 16) (tag : Fin 4096) (hostOk : Bool)
  /-- DMA_OUT (R597). Copies tenant memory into host memory. -/
  | dmaOut (p : Fin 16) (tag : Fin 4096) (hostOk : Bool)
  /-- BME_CLEAR (R599). Clearing Bus Master Enable cancels running DMA and holds records. -/
  | bmeClear (f : Fin 64)
  /-- BME_SET (R599). Setting Bus Master Enable releases held records and messages. -/
  | bmeSet (f : Fin 64)
  /-- HOARD_APERTURE_ACCESS (R263). A PF access through BAR4 to a Hoard frame, declared in block 8. -/
  | hoardApertureAccess (addr : Nat) (len : Nat) (wr : Option Bytes)
  /-- DBG_MUX_CTRL_WRITE (R742). A write of DBG_MUX_CTRL selects and enables the test multiplexer. -/
  | dbgMuxCtrlWrite (req : Req) (v : W32)
  /-- PROF_CLEAR (R745). DBG_PROF_CTRL.CLEAR zeroes every profiling counter. -/
  | profClear (req : Req)
  /-- COUNTER_SNAPSHOT (R746). Every SNAP_MS, the permitted counters are written into each partition's last folio. -/
  | counterSnapshot
  /-- JTAG_INSTRUCTION (R753). Loading a JTAG instruction opens or closes a session. -/
  | jtagInstruction (ins : Byte)
  /-- DBG_ACCESS (R752). A JTAG register access with the MP's rights. -/
  | dbgAccess (off : Nat) (wr : Option W32)
  /-- HOST_LINK_RETRAIN (R574). The PCI Express link trains, retrains at a lower rate or width, or leaves L0 outside ASPM, which updates HOST_LINK and sets HOST_EVENTS bits that raise EVENT 7. -/
  | hostLinkRetrain (up : Bool) (flit : Bool) (width : Nat) (speed : Nat)
  /-- PPS_OUT_PULSE (R366). At each FT instant whose FT_NS is a multiple of 10^9 PPS_OUT rises while FT is locked and OUT_EN is 1, and it falls 100 ms later. -/
  | ppsOutPulse (fall : Bool)
  /-- STRONGBOX_SELF_CHECK_FAILURE (R729). A failed Strongbox self-check puts the package in tamper hold and writes a tamper-ledger entry of source PIN. -/
  | strongboxSelfCheckFailure
  /-- ALARM_CONDITION_ENDS (R644). A tamper source's alarm condition stops holding, so its SECMBX_TAMPER.ACTIVE bit clears and a later start may leave tamper hold. -/
  | alarmConditionEnds (src : Fin 5)
  /-- VIN_HIGH_CLEARED (R756). VIN falls from above 60 V back into 40 V to 60 V, and PWR_STATUS.VIN_HIGH clears. -/
  | vinHighCleared (mv : BitVec 16)
  /-- JTAG_TAP_RESET (R753). A TAP reset through TRST_N or TMS returns the instruction register to its reset instruction, which closes any open JTAG session and clears NOW bit 3 of block 8. -/
  | jtagTapReset
deriving DecidableEq, Repr

end Sys2Proof
end

