-- ==== Sys2Proof/Decode.lean ====
section
/-!
DEFINITION. Decode.lean: the words of the command table. No row of the table gives bits, so no word spells a
command.
-/
namespace Sys2Proof

/-- The command that a word of `nbits` bits spells: none, since the table gives no row an encoding. -/
def decodeTableWord (_nbits _w : Nat) : Option Instr := none

end Sys2Proof
end

