-- ==== Sys2Proof/Machine/Bits.lean ====
section
/-!
DEFINITION. Machine/Bits.lean: bit fields, byte orders and lists of bytes. Everything here is
used by the decoders of descriptors, charters and frames.
-/
namespace Sys2Proof.Machine

/-- Bits `[hi:lo]` of a number, as the manual writes them (R8). -/
def bits (x hi lo : Nat) : Nat := (x / 2 ^ lo) % 2 ^ (hi + 1 - lo)

/-- Bit `i` of a number. -/
def bit (x i : Nat) : Bool := x.testBit i

/-- 1 for true, 0 for false. -/
def b2n (b : Bool) : Nat := if b then 1 else 0

/-- `x` with bits `[hi:lo]` replaced by `v`. -/
def putBits (x hi lo v : Nat) : Nat :=
  x - bits x hi lo * 2 ^ lo + (v % 2 ^ (hi + 1 - lo)) * 2 ^ lo

/-- A little-endian string of bytes as a number. -/
def leNat : Bytes → Nat
  | [] => 0
  | b :: bs => b.toNat + 256 * leNat bs

/-- A big-endian string of bytes as a number. -/
def beNat (bs : Bytes) : Nat := leNat bs.reverse

/-- The `n` low bytes of a number, least significant first. -/
def toLE : Nat → Nat → Bytes
  | 0, _ => []
  | n + 1, x => BitVec.ofNat 8 x :: toLE n (x / 256)

/-- The `n` low bytes of a number, most significant first. -/
def toBE (n x : Nat) : Bytes := (toLE n x).reverse

/-- `n` bytes from offset `o` (shorter where the string ends). -/
def slice (bs : Bytes) (o n : Nat) : Bytes := (bs.drop o).take n

/-- The little-endian number of `n` bytes at offset `o`. -/
def le (bs : Bytes) (o n : Nat) : Nat := leNat (slice bs o n)

/-- The big-endian number of `n` bytes at offset `o`. -/
def be (bs : Bytes) (o n : Nat) : Nat := beNat (slice bs o n)

/-- The byte at offset `o`, 0 past the end. -/
def byteAt (bs : Bytes) (o : Nat) : Byte := bs.getD o 0

/-- `n` bytes of 0. -/
def zeros (n : Nat) : Bytes := List.replicate n 0

/-- The string cut or padded with 0 to `n` bytes. -/
def fit (n : Nat) (bs : Bytes) : Bytes := bs.take n ++ zeros (n - bs.length)

/-- Every byte is 0. -/
def allZero (bs : Bytes) : Bool := bs.all (· == 0)

/-- The exclusive or of two strings of one length. -/
def xorBytes (a b : Bytes) : Bytes := List.zipWith (· ^^^ ·) a b

/-- The string cut into pieces of `n` bytes, with fuel for the number of pieces. -/
def chunksF {α : Type} (n : Nat) : Nat → List α → List (List α)
  | 0, _ => []
  | k + 1, l => if l.isEmpty then [] else l.take n :: chunksF n k (l.drop n)

/-- The string cut into pieces of `n` bytes; the last may be shorter. -/
def chunks {α : Type} (n : Nat) (l : List α) : List (List α) := chunksF n (l.length) l

/-- The bytes of an ASCII text. -/
def ascii (t : String) : Bytes := t.toList.map (fun c => BitVec.ofNat 8 c.toNat)

/-- Rounded-up quotient. -/
def ceilDiv (a b : Nat) : Nat := (a + b - 1) / b

/-- The list of the set bits of `x` below `n`, ascending. -/
def setBits (n x : Nat) : List Nat := (List.range n).filter (fun i => x.testBit i)

/-- The number of set bits of `x` below `n`. -/
def popCount (n x : Nat) : Nat := (setBits n x).length

/-- A two's-complement number of `n` bits. -/
def sgn (n x : Nat) : Int := if x < 2 ^ (n - 1) then (x : Int) else (x : Int) - (2 : Int) ^ n

/-- The low `n` bits of an integer, as a number. -/
def unsgn (n : Nat) (x : Int) : Nat := (x % (2 : Int) ^ n).toNat

/-- Saturating increment of an `n`-bit count. -/
def satInc (n x : Nat) : Nat := if x + 1 < 2 ^ n then x + 1 else 2 ^ n - 1

end Sys2Proof.Machine
end

