-- ==== Sys2Proof/Machine/Kem.lean ====
section
/-!
DEFINITION. Machine/Kem.lean: encapsulation of ML-KEM-768 (FIPS 203), which the hybrid of 13 R558 uses, with
SHA-3 and SHAKE (FIPS 202). The manual names these standards and does not restate them (log entry 42).
-/
namespace Sys2Proof.Machine

/-! ### Keccak -/

/-- A lane of the state. -/
abbrev Lane := BitVec 64

/-- Bit `t` of the round constants' generator: x^t of GF(2)[x] modulo x^8 + x^6 + x^5 + x^4 + 1, at 0. -/
def keccakBit (t : Nat) : Bool :=
  (Nat.repeat (fun r => if 128 ≤ r then (2 * r ^^^ 0x171) % 256 else 2 * r) (t % 255) 1) % 2 == 1

/-- The constant of round `i`. -/
def keccakConst (i : Nat) : Lane :=
  BitVec.ofNat 64 (((List.range 7).map (fun j => if keccakBit (j + 7 * i) then 2 ^ (2 ^ j - 1) else 0)).foldl (· + ·) 0)

/-- Where each lane comes from, on the walk that begins at lane (1, 0): lane number 5y + x, and its rotation. -/
def keccakWalk : Nat → Nat → Nat → Nat → List (Nat × Nat)
  | 0, _, _, _ => []
  | n + 1, t, x, y => (5 * y + x, (t + 1) * (t + 2) / 2 % 64) :: keccakWalk n (t + 1) y ((2 * x + 3 * y) % 5)

/-- The rotations of the lanes. -/
def keccakTurns : List Nat :=
  let w := keccakWalk 24 0 1 0
  (List.range 25).map (fun k => ((w.find? (fun e => e.1 == k)).map (·.2)).getD 0)

/-- One round on 25 lanes. -/
def keccakRound (a : List Lane) (rc : Lane) : List Lane :=
  let at_ (l : List Lane) (x y : Nat) : Lane := l.getD (5 * (y % 5) + x % 5) 0
  let c := (List.range 5).map (fun x => (List.range 5).foldl (fun v y => v ^^^ at_ a x y) 0)
  let d := (List.range 5).map (fun x => c.getD ((x + 4) % 5) 0 ^^^ (c.getD ((x + 1) % 5) 0).rotateLeft 1)
  let r := (List.range 25).map (fun k => (a.getD k 0 ^^^ d.getD (k % 5) 0).rotateLeft (keccakTurns.getD k 0))
  let b := (List.range 25).map (fun k => at_ r (k % 5 + 3 * (k / 5)) (k % 5))
  let e := (List.range 25).map (fun k => at_ b (k % 5) (k / 5) ^^^ (~~~(at_ b (k % 5 + 1) (k / 5)) &&& at_ b (k % 5 + 2) (k / 5)))
  match e with
  | l :: ls => (l ^^^ rc) :: ls
  | [] => []

/-- Keccak-f[1600]. -/
def keccak (a : List Lane) : List Lane := (List.range 24).foldl (fun x i => keccakRound x (keccakConst i)) a

/-- The state after a message, padded after the suffix byte. -/
def absorb (rate : Nat) (suffix : Byte) (m : Bytes) : List Lane :=
  let n := rate - m.length % rate
  let pad : Bytes := if n = 1 then [suffix ||| 0x80] else suffix :: zeros (n - 2) ++ [0x80]
  (chunks rate (m ++ pad)).foldl (fun st b =>
    keccak (List.zipWith (· ^^^ ·) st ((chunks 8 (b ++ zeros (200 - rate))).map (fun w => BitVec.ofNat 64 (leNat w)))))
    (List.replicate 25 0)

/-- The bytes of the state. -/
def laneBytes (a : List Lane) : Bytes := a.flatMap (fun w => toLE 8 w.toNat)

/-- Output in blocks of the rate. -/
def squeeze (rate : Nat) : Nat → List Lane → Bytes
  | 0, _ => []
  | n + 1, a => (laneBytes a).take rate ++ squeeze rate n (keccak a)

/-- SHA3-256, SHA3-512 and SHAKE256. -/
def sha3_256 (m : Bytes) : Bytes := (laneBytes (absorb 136 0x06 m)).take 32
def sha3_512 (m : Bytes) : Bytes := (laneBytes (absorb 72 0x06 m)).take 64
def shake256 (m : Bytes) (n : Nat) : Bytes := (squeeze 136 (ceilDiv n 136) (absorb 136 0x1F m)).take n

/-! ### The ring of ML-KEM -/

/-- The modulus. -/
def kemQ : Nat := 3329

/-- A polynomial's 256 coefficients. -/
abbrev KemPoly := List Nat

/-- A power of the root 17. -/
def kemRoot (e : Nat) : Nat := 17 ^ (e % 256) % kemQ

/-- Seven bits reversed. -/
def rev7 (i : Nat) : Nat := ((List.range 7).map (fun j => if i.testBit j then 2 ^ (6 - j) else 0)).foldl (· + ·) 0

/-- Sum and difference of polynomials. -/
def kemAdd (a b : KemPoly) : KemPoly := List.zipWith (fun x y => (x + y) % kemQ) a b
def kemSub (a b : KemPoly) : KemPoly := List.zipWith (fun x y => (x + kemQ - y) % kemQ) a b
def kemScale (z : Nat) (a : KemPoly) : KemPoly := a.map (fun x => z * x % kemQ)

/-- The number-theoretic transform: the layers of block `i`. -/
def kemNtt : Nat → Nat → KemPoly → KemPoly
  | 0, _, f => f
  | n + 1, i, f =>
    let h := f.length / 2
    let t := kemScale (kemRoot (rev7 i)) (f.drop h)
    kemNtt n (2 * i) (kemAdd (f.take h) t) ++ kemNtt n (2 * i + 1) (kemSub (f.take h) t)

/-- Its inverse, without the factor 1/128. -/
def kemUnNtt : Nat → Nat → KemPoly → KemPoly
  | 0, _, f => f
  | n + 1, i, f =>
    let h := f.length / 2
    let a := kemUnNtt n (2 * i) (f.take h)
    let b := kemUnNtt n (2 * i + 1) (f.drop h)
    kemAdd a b ++ kemScale (kemRoot (256 - rev7 i)) (kemSub a b)

/-- NTT, and NTT^-1 with its factor. -/
def kemTo (f : KemPoly) : KemPoly := kemNtt 7 1 f
def kemFrom (f : KemPoly) : KemPoly := kemScale 3303 (kemUnNtt 7 1 f)

/-- The product of two transforms: 128 products of degree 1. -/
def kemMul (a b : KemPoly) : KemPoly :=
  (List.range 128).flatMap (fun i =>
    let a0 := a.getD (2 * i) 0
    let a1 := a.getD (2 * i + 1) 0
    let b0 := b.getD (2 * i) 0
    let b1 := b.getD (2 * i + 1) 0
    [(a0 * b0 + a1 * b1 % kemQ * kemRoot (2 * rev7 i + 1)) % kemQ, (a0 * b1 + a1 * b0) % kemQ])

/-- The inner product of two vectors of transforms. -/
def kemDot (a b : List KemPoly) : KemPoly := (List.zipWith kemMul a b).foldl kemAdd (List.replicate 256 0)

/-! ### Sampling and coding -/

/-- ByteDecode and ByteEncode of `d` bits a coefficient. -/
def kemDecode (d : Nat) (b : Bytes) : KemPoly := let v := leNat b; (List.range 256).map (fun i => v / 2 ^ (d * i) % 2 ^ d)
def kemEncode (d : Nat) (f : KemPoly) : Bytes := toLE (32 * d) (f.foldr (fun c v => c + 2 ^ d * v) 0)

/-- Compress to `d` bits. -/
def kemCompress (d : Nat) (f : KemPoly) : KemPoly := f.map (fun x => (2 ^ (d + 1) * x + kemQ) / (2 * kemQ) % 2 ^ d)

/-- The coefficients below the modulus in a block of the stream, three bytes giving two. -/
def kemAccept (b : Bytes) : List Nat :=
  ((chunks 3 b).flatMap (fun t => let v := leNat t; [v % 4096, v / 4096])).filter (fun x => decide (x < kemQ))

/-- Coefficients drawn from the stream until there are 256, with fuel for the blocks. -/
def kemDraw : Nat → List Lane → List Nat → KemPoly
  | 0, _, acc => acc.take 256
  | n + 1, a, acc =>
    let got := acc ++ kemAccept ((laneBytes a).take 168)
    if 256 ≤ got.length then got.take 256 else kemDraw n (keccak a) got

/-- SampleNTT of a seed and two indices. -/
def kemSample (rho : Bytes) (i j : Nat) : KemPoly := kemDraw 200 (absorb 168 0x1F (rho ++ toLE 1 i ++ toLE 1 j)) []

/-- A polynomial of the centred binomial distribution, from the pseudorandom function under `r` and `n`. -/
def kemNoise (r : Bytes) (n : Nat) : KemPoly :=
  let v := leNat (shake256 (r ++ toLE 1 n) 128)
  (List.range 256).map (fun i =>
    let b (j : Nat) : Nat := v / 2 ^ (4 * i + j) % 2
    (b 0 + b 1 + kemQ - b 2 - b 3) % kemQ)

/-! ### Encapsulation -/

/-- The check of an encapsulation key: its coefficients are reduced. -/
def kemKeyOk (ek : Bytes) : Bool :=
  decide (ek.length = 1184) && (List.range 3).all (fun i => (kemDecode 12 (slice ek (384 * i) 384)).all (fun x => decide (x < kemQ)))

/-- Encryption of 32 bytes under a key with the randomness `r`. -/
def kemEncrypt (ek m r : Bytes) : Bytes :=
  let rho := slice ek 1152 32
  let t := (List.range 3).map (fun i => kemDecode 12 (slice ek (384 * i) 384))
  let y := (List.range 3).map (fun n => kemTo (kemNoise r n))
  let u := (List.range 3).map (fun i =>
    kemAdd (kemFrom (kemDot ((List.range 3).map (fun j => kemSample rho i j)) y)) (kemNoise r (3 + i)))
  let mu := (kemDecode 1 m).map (fun b => 1665 * b)
  let v := kemAdd (kemAdd (kemFrom (kemDot t y)) (kemNoise r 6)) mu
  u.flatMap (fun f => kemEncode 10 (kemCompress 10 f)) ++ kemEncode 4 (kemCompress 4 v)

/-- The ciphertext and the shared secret of an encapsulation with the random bytes `m`. -/
def kemEncaps (ek m : Bytes) : Bytes × Bytes :=
  let g := sha3_512 (m ++ sha3_256 ek)
  (kemEncrypt ek m (g.drop 32), g.take 32)

end Sys2Proof.Machine
end

