-- ==== Sys2Proof/Machine/Aes.lean ====
section
/-!
DEFINITION. Machine/Aes.lean: AES-128 and AES-256 (FIPS 197), counter mode and GCM
(SP 800-38A and SP 800-38D). The manual names these standards and does not restate them; log
entry 22 names the editions.
-/
namespace Sys2Proof.Machine

/-- Multiplication by x in GF(2^8). -/
def xtime (b : Byte) : Byte := if b.getLsbD 7 then (b <<< 1) ^^^ 0x1B else b <<< 1

/-- Multiplication in GF(2^8), over the low `n` bits of `b`. -/
def gfMulN : Nat → Byte → Byte → Byte
  | 0, _, _ => 0
  | n + 1, a, b => (if b.getLsbD 0 then a else 0) ^^^ gfMulN n (xtime a) (b >>> 1)

/-- Multiplication in GF(2^8). -/
def gfMul (a b : Byte) : Byte := gfMulN 8 a b

/-- The S-box of AES, value `a` at bits 8a and up. -/
def aesSbox : Nat :=
  0x16BB54B00F2D99416842E6BF0D89A18CDF2855CEE9871E9B948ED9691198F8E19E1DC186B95735610EF6034866B53E708A8BBD4B1F74DDE8C6B4A61C2E2578BA08AE7A65EAF4566CA94ED58D6D37C8E779E4959162ACD3C25C2406490A3A32E0DB0B5EDE14B8EE4688902A22DC4F816073195D643D7EA7C41744975FEC130CCDD2F3FF1021DAB6BCF5389D928F40A351A89F3C507F02F94585334D43FBAAEFD0CF584C4A39BECB6A5BB1FC20ED00D153842FE329B3D63B52A05A6E1B1A2C830975B227EBE28012079A059618C323C7041531D871F1E5A534CCF73F362693FDB7C072A49CAFA2D4ADF04759FA7DC982CA76ABD7FE2B670130C56F6BF27B777C63

/-- The S-box applied to a byte. -/
def aesSub (a : Byte) : Byte := BitVec.ofNat 8 (aesSbox >>> (8 * a.toNat))

/-- ShiftRows on the 16 bytes of the state in column order. -/
def aesShift (s : Bytes) : Bytes :=
  (List.range 16).map (fun i => byteAt s ((i + 4 * (i % 4)) % 16))

/-- MixColumns on one column. -/
def aesMixCol (c : Bytes) : Bytes :=
  (List.range 4).map (fun i =>
    xtime (byteAt c i) ^^^ (xtime (byteAt c ((i + 1) % 4)) ^^^ byteAt c ((i + 1) % 4)) ^^^
      byteAt c ((i + 2) % 4) ^^^ byteAt c ((i + 3) % 4))

/-- The words of the key schedule, newest first: `n` further words, `i` already made. -/
def aesExtend (nk : Nat) : Nat → Nat → List Bytes → List Bytes
  | 0, _, ws => ws
  | n + 1, i, ws =>
    let t := ws.getD 0 []
    let rcon : Byte := (List.range (i / nk - 1)).foldl (fun r _ => xtime r) 1
    let t' :=
      if i % nk = 0 then
        match (t.drop 1 ++ t.take 1).map aesSub with
        | b :: bs => (b ^^^ rcon) :: bs
        | [] => []
      else if 6 < nk ∧ i % nk = 4 then t.map aesSub
      else t
    aesExtend nk n (i + 1) (xorBytes (ws.getD (nk - 1) []) t' :: ws)

/-- The round keys of a 16-byte or 32-byte key. -/
def aesKeys (key : Bytes) : List Bytes :=
  let nk := key.length / 4
  let ws := (aesExtend nk (4 * (nk + 7) - nk) nk (chunks 4 key).reverse).reverse
  (chunks 4 ws).map List.flatten

/-- The rounds after the first key addition. -/
def aesRounds : List Bytes → Bytes → Bytes
  | [], s => s
  | [k], s => xorBytes (aesShift (s.map aesSub)) k
  | k :: ks, s => aesRounds ks (xorBytes ((chunks 4 (aesShift (s.map aesSub))).flatMap aesMixCol) k)

/-- AES of one block under a schedule. -/
def aesBlock (ks : List Bytes) (b : Bytes) : Bytes :=
  match ks with
  | [] => b
  | k :: rest => aesRounds rest (xorBytes b k)

/-- The inverse S-box of AES, value `a` at bits 8a and up. -/
def aesInvSbox : Nat :=
  0x7D0C2155631469E126D677BA7E042B17619953833CBBEBC8B0F52AAE4D3BE0A0EF9CC9939F7AE52D0D4AB519A97F51605FEC8027591012B131C7078833A8DD1FF45ACD78FEC0DB9A2079D2C64B3E56FC1BBE18AA0E62B76F89C5291D711AF1476EDF751CE837F9E28535ADE72274AC9673E6B4F0CECFF297EADC674F4111913A6B8A130103BDAFC1020F3FCA8F1E2CD00645B3B80558E4F70AD3BC8C00ABD890849D8DA75746155EDAB9EDFD5048706C92B6655DCC5CA4D41698688664F6F87225D18B6D49A25B76B224D92866A12E084EC3FA420B954CEE3D23C2A632947B54CBE9DEC444438E3487FF2F9B8239E37CFBD7F3819EA340BF38A53630D56A0952

/-- The inverse S-box applied to a byte. -/
def aesInvSub (a : Byte) : Byte := BitVec.ofNat 8 (aesInvSbox >>> (8 * a.toNat))

/-- The inverse of ShiftRows. -/
def aesInvShift (s : Bytes) : Bytes :=
  (List.range 16).map (fun i => byteAt s ((i + 16 - 4 * (i % 4)) % 16))

/-- The inverse of MixColumns on one column. -/
def aesInvMixCol (c : Bytes) : Bytes :=
  (List.range 4).map (fun i =>
    gfMul 14 (byteAt c i) ^^^ gfMul 11 (byteAt c ((i + 1) % 4)) ^^^
      gfMul 13 (byteAt c ((i + 2) % 4)) ^^^ gfMul 9 (byteAt c ((i + 3) % 4)))

/-- The inverse rounds, round keys from the last to the first. -/
def aesInvRounds : List Bytes → Bytes → Bytes
  | [], s => s
  | [k], s => xorBytes ((aesInvShift s).map aesInvSub) k
  | k :: ks, s => aesInvRounds ks ((chunks 4 (xorBytes ((aesInvShift s).map aesInvSub) k)).flatMap aesInvMixCol)

/-- The inverse of AES of one block under a schedule. -/
def aesUnblock (ks : List Bytes) (b : Bytes) : Bytes :=
  match ks.reverse with
  | [] => b
  | k :: rest => aesInvRounds rest (xorBytes b k)

/-- Multiplication of an XTS tweak by alpha (IEEE 1619): the tweak as a little-endian number. -/
def xtsDouble (t : Nat) : Nat := if t.testBit 127 then (2 * t) % 2 ^ 128 ^^^ 0x87 else 2 * t

/-- The successive tweaks of a data unit, from the first. -/
def xtsTweaks : Nat → Nat → List Nat
  | 0, _ => []
  | n + 1, t => t :: xtsTweaks n (xtsDouble t)

/-- XTS-AES of whole blocks under a 64-byte key (R272, R273); `enc` chooses the direction. -/
def xts (enc : Bool) (key : Bytes) (tweak : Nat) (data : Bytes) : Bytes :=
  let k1 := aesKeys (key.take 32)
  let t0 := leNat (aesBlock (aesKeys (key.drop 32)) (toLE 16 tweak))
  let bs := chunks 16 data
  (bs.zip (xtsTweaks bs.length t0)).flatMap (fun bt =>
    let tw := toLE 16 bt.2
    xorBytes (if enc then aesBlock k1 (xorBytes bt.1 tw) else aesUnblock k1 (xorBytes bt.1 tw)) tw)

/-- `n` bytes of counter-mode key stream from the 16-byte counter block, 32-bit increment. -/
def aesCtr (key : Bytes) (iv : Bytes) (ctr n : Nat) : Bytes :=
  let ks := aesKeys key
  ((List.range (ceilDiv n 16)).flatMap (fun i =>
    aesBlock ks (iv ++ toBE 4 ((ctr + i) % 2 ^ 32)))).take n

/-- One step per bit of the multiplication in GF(2^128) of SP 800-38D. -/
def ghashMulN : Nat → BitVec 128 → BitVec 128 → BitVec 128 → BitVec 128
  | 0, _, _, z => z
  | n + 1, x, v, z =>
    ghashMulN n (x <<< 1)
      (if v.getLsbD 0 then (v >>> 1) ^^^ (0xE1#128 <<< 120) else v >>> 1)
      (if x.getLsbD 127 then z ^^^ v else z)

/-- The product of two blocks in GF(2^128). -/
def ghashMul (x y : BitVec 128) : BitVec 128 := ghashMulN 128 x y 0

/-- GHASH of a string of whole blocks. -/
def ghash (h : BitVec 128) (m : Bytes) : BitVec 128 :=
  (chunks 16 m).foldl (fun y b => ghashMul (y ^^^ BitVec.ofNat 128 (beNat b)) h) 0

/-- A string padded with 0 to whole 16-byte blocks. -/
def pad16 (m : Bytes) : Bytes := m ++ zeros ((16 - m.length % 16) % 16)

/-- The GCM tag of a ciphertext and its additional data under a 12-byte nonce. -/
def gcmTag (key nonce aad ct : Bytes) : Bytes :=
  let ks := aesKeys key
  let h := BitVec.ofNat 128 (beNat (aesBlock ks (zeros 16)))
  let s := ghash h (pad16 aad ++ pad16 ct ++ toBE 8 (8 * aad.length) ++ toBE 8 (8 * ct.length))
  xorBytes (aesBlock ks (nonce ++ toBE 4 1)) (toBE 16 s.toNat)

/-- AES-GCM encryption: the ciphertext and the 16-byte tag. -/
def gcmSeal (key nonce aad pt : Bytes) : Bytes × Bytes :=
  let ct := xorBytes pt (aesCtr key nonce 2 pt.length)
  (ct, gcmTag key nonce aad ct)

/-- AES-GCM decryption: the plaintext, or none where the tag does not verify. -/
def gcmOpen (key nonce aad ct tag : Bytes) : Option Bytes :=
  if gcmTag key nonce aad ct = tag then some (xorBytes ct (aesCtr key nonce 2 ct.length)) else none

end Sys2Proof.Machine
end

