-- ==== Sys2Proof/Config.lean ====
section
/-!
DEFINITION. Config.lean: what the manual leaves open. Each constant here has no body, so no proof can
see a value of it and a claim that mentions one holds whatever it is. Each is named in the assumption
log.
-/
namespace Sys2Proof

/-- A value that the manual leaves open, fresh for each number of the counter in State (log entry 8):
engine cycle counts, and other results whose value no rule states. -/
opaque Config.freeValue : Nat → BitVec 64

/-- What a format of the width given writes for a NaN when it has none (log entry 30). -/
opaque Config.nanWithoutNan : Nat → Nat

/-- Sign and payload of a NaN that an FP64 window's addition gives, by its two operands (10 R416; log entry 119). -/
opaque Config.fp64Nan : Nat → Nat → BitVec 52

/-- The word that an approximate vector function of one source returns where its bound admits it: FUNC code and FP32
bits (log entry 31). -/
opaque Config.vecApprox : Nat → BitVec 32 → BitVec 32

/-- Element `i` of an approximate row function where its bound admits it: FUNC code, the row and the gain row as FP32
bits, the two immediates, and `i` (log entry 31). -/
opaque Config.vecRow : Nat → List (BitVec 32) → List (BitVec 32) → BitVec 32 → BitVec 32 → Nat → BitVec 32

/-- The result of an integer vector function on values that the manual does not state: FUNC code and the
two operands (log entry 32). -/
opaque Config.vecOpen : Nat → BitVec 32 → BitVec 32 → BitVec 32

/-- What lane `k % 128` of vector register `k / 128` holds after an operation, by the number of the draw (log entry 130). -/
opaque Config.vecReg : Nat → Nat → BitVec 32

/-- Byte `i` of a line whose error the LPDDR5X code does not detect, by the number of the draw (06 R268; log entry 134). -/
opaque Config.lostByte : Nat → Nat → BitVec 8

/-- A byte of a SCRATCH frame of the Hoard, which the device uses for itself, by the number of the draw and its address
(06 R262; log entry 135). -/
opaque Config.scratchFrame : Nat → Nat → BitVec 8

/-- The unique device secret fused in the part (log entry 14). -/
opaque Config.uds : BitVec 256

/-- Where the SR-IOV capability lies in the PF's extended configuration space, in dwords from its start (14 R576; log entry
63). -/
opaque Config.sriovAt : BitVec 9

/-- The unit serial in the fuses (15 R609; log entry 14). -/
opaque Config.serial : BitVec 64

/-- SHA-256 of the Lotil firmware key, held in the boot ROM (18 R693; log entry 14). -/
opaque Config.lotilFirmwareDigest : BitVec 256

/-- SHA-256 of the ROM-resident image of recovery mode: D_1 there (15 R615, 18 R710; log entry 14). -/
opaque Config.recoveryDigest : BitVec 256

/-- The Lotil service key, as x then y, whose digest the boot ROM holds (15 R609; log entry 14). -/
opaque Config.lotilServiceKey : BitVec 512

/-- The package's fused MAC base, its first octet most significant (13 R530; log entry 14). -/
opaque Config.macBase : BitVec 48

/-- The DER identity certificate of the part (15 R618; log entry 14). -/
opaque Config.identityCert : List (BitVec 8)

/-- The DER alias certificate over the alias public key and the digests D_0 to D_5 (15 R619; log
entry 14). -/
opaque Config.aliasCert : List (BitVec 8) → List (List (BitVec 8)) → List (BitVec 8)

/-- SHA-256 of the spare map, whose bytes the manual does not lay out, as a function of what is recorded
in it (17 R685; log entry 14). -/
opaque Config.spareMapDigest : List Nat → BitVec 256

/-- The DER root certificate of Lotil (14 R592; log entry 14). -/
opaque Config.rootCert : List (BitVec 8)

/-- CTExponent, DataTransferSize and MaxSPDMmsgSize of the SPDM responder (14 R592; log entry 64). -/
opaque Config.spdmTime : BitVec 8
opaque Config.spdmTransfer : BitVec 32
opaque Config.spdmMessage : BitVec 32

/-- The UDP source port of RYT frames, the IPv6 flow label and the IPv4 identification that the package
sends (13 R528; log entry 45). -/
opaque Config.udpSource : BitVec 16
opaque Config.flowLabel : BitVec 20
opaque Config.ipv4Id : BitVec 16

/-- The clock identity of the package as an IEEE 1588 clock (08 R356; log entry 52). -/
opaque Config.clockIdentity : BitVec 64

/-- The change of the rate word by which the servo slews an offset, in 1/256 ns (08 R360; log entry 43). -/
opaque Config.slew : Int → Int

/-- Which odd power of a primitive root element `i` of a limb in the evaluation domain belongs to: prime,
log2 of N, index (12 R489; log entry 54). -/
opaque Config.nttOrder : Nat → Nat → Nat → Nat

/-- The multiple of the product of the primes by which base conversion exceeds the exact lift (12 R501; log
entry 55). -/
opaque Config.liftExcess : List Nat → List Nat → Int

/-- The Galois elements of the keys that a library macro uses, by macro id and log2 of N (12 R513; log
entry 57). -/
opaque Config.macroKeys : Nat → Nat → List Nat

/-- SHA-256 of the boot ROM: D_0 of 15 R613 (log entry 14). -/
opaque Config.romDigest : BitVec 256

/-- Byte of the limb buffer of a polynomial engine: the number of the draw that filled it, offset (12 R489; log entry 8). -/
opaque Config.limbByte : Nat → Nat → BitVec 8

/-- A sample of the noise source: the number of its start, and the number of the sample since (16 R654; log entry 142). -/
opaque Config.rawNoise : Nat → Nat → Bool

end Sys2Proof
end

