-- ==== Sys2Proof/Machine/Hash.lean ====
section
/-!
DEFINITION. Machine/Hash.lean: SHA-256 (FIPS 180-4), HMAC (RFC 2104), HKDF (RFC 5869), the
SP 800-108 counter KDF with HMAC-SHA-256, and CRC-32C. The manual names these standards and does
not restate them (00_scope); log entry 22 names the editions.
-/
namespace Sys2Proof.Machine

/-- The 64 round constants of SHA-256. -/
def shaK : List W32 :=
  ([0x428a2f98, 0x71374491, 0xb5c0fbcf, 0xe9b5dba5, 0x3956c25b, 0x59f111f1, 0x923f82a4, 0xab1c5ed5,
    0xd807aa98, 0x12835b01, 0x243185be, 0x550c7dc3, 0x72be5d74, 0x80deb1fe, 0x9bdc06a7, 0xc19bf174] : List W32) ++
  [0xe49b69c1, 0xefbe4786, 0x0fc19dc6, 0x240ca1cc, 0x2de92c6f, 0x4a7484aa, 0x5cb0a9dc, 0x76f988da,
    0x983e5152, 0xa831c66d, 0xb00327c8, 0xbf597fc7, 0xc6e00bf3, 0xd5a79147, 0x06ca6351, 0x14292967] ++
  [0x27b70a85, 0x2e1b2138, 0x4d2c6dfc, 0x53380d13, 0x650a7354, 0x766a0abb, 0x81c2c92e, 0x92722c85,
    0xa2bfe8a1, 0xa81a664b, 0xc24b8b70, 0xc76c51a3, 0xd192e819, 0xd6990624, 0xf40e3585, 0x106aa070] ++
  [0x19a4c116, 0x1e376c08, 0x2748774c, 0x34b0bcb5, 0x391c0cb3, 0x4ed8aa4a, 0x5b9cca4f, 0x682e6ff3,
    0x748f82ee, 0x78a5636f, 0x84c87814, 0x8cc70208, 0x90befffa, 0xa4506ceb, 0xbef9a3f7, 0xc67178f2]

/-- The initial hash value of SHA-256. -/
def shaInit : List W32 :=
  [0x6a09e667, 0xbb67ae85, 0x3c6ef372, 0xa54ff53a, 0x510e527f, 0x9b05688c, 0x1f83d9ab, 0x5be0cd19]

/-- The message schedule, newest word first, after `n` further words. -/
def shaExtend : Nat → List W32 → List W32
  | 0, ws => ws
  | n + 1, ws =>
    let w2 := ws.getD 1 0
    let w7 := ws.getD 6 0
    let w15 := ws.getD 14 0
    let w16 := ws.getD 15 0
    let s0 := w15.rotateRight 7 ^^^ w15.rotateRight 18 ^^^ (w15 >>> 3)
    let s1 := w2.rotateRight 17 ^^^ w2.rotateRight 19 ^^^ (w2 >>> 10)
    shaExtend n ((w16 + s0 + w7 + s1) :: ws)

/-- One round of the compression on the working variables a to h. -/
def shaRound (v : List W32) (kw : W32 × W32) : List W32 :=
  match v with
  | [a, b, c, d, e, f, g, h] =>
    let s1 := e.rotateRight 6 ^^^ e.rotateRight 11 ^^^ e.rotateRight 25
    let ch := (e &&& f) ^^^ (~~~e &&& g)
    let t1 := h + s1 + ch + kw.1 + kw.2
    let s0 := a.rotateRight 2 ^^^ a.rotateRight 13 ^^^ a.rotateRight 22
    let mj := (a &&& b) ^^^ (a &&& c) ^^^ (b &&& c)
    [t1 + (s0 + mj), a, b, c, d + t1, e, f, g]
  | _ => v

/-- The compression of one 64-byte block into the hash value. -/
def shaBlock (hv : List W32) (block : Bytes) : List W32 :=
  let w0 := (chunks 4 block).map (fun q => BitVec.ofNat 32 (beNat q))
  let ws := (shaExtend 48 w0.reverse).reverse
  List.zipWith (· + ·) hv ((shaK.zip ws).foldl shaRound hv)

/-- The padding of a message of `n` bytes. -/
def shaPad (n : Nat) : Bytes := (0x80 : Byte) :: zeros ((119 - n % 64) % 64) ++ toBE 8 (8 * n)

/-- SHA-256. -/
def sha256 (m : Bytes) : Bytes :=
  let hv := (chunks 64 (m ++ shaPad m.length)).foldl shaBlock shaInit
  hv.flatMap (fun w => toBE 4 w.toNat)

/-- HMAC-SHA-256. -/
def hmac (key msg : Bytes) : Bytes :=
  let k := fit 64 (if 64 < key.length then sha256 key else key)
  sha256 (k.map (· ^^^ 0x5C) ++ sha256 (k.map (· ^^^ 0x36) ++ msg))

/-- The blocks T(i) of HKDF-Expand from T(i-1). -/
def hkdfBlocks (prk info : Bytes) : Nat → Nat → Bytes → Bytes
  | 0, _, _ => []
  | n + 1, i, prev =>
    let t := hmac prk (prev ++ info ++ [BitVec.ofNat 8 i])
    t ++ hkdfBlocks prk info n (i + 1) t

/-- HKDF-Expand with SHA-256 to `n` bytes. -/
def hkdfExpand (prk info : Bytes) (n : Nat) : Bytes :=
  (hkdfBlocks prk info (ceilDiv n 32) 1 []).take n

/-- HKDF-Extract with SHA-256. -/
def hkdfExtract (salt ikm : Bytes) : Bytes := hmac (if salt.isEmpty then zeros 32 else salt) ikm

/-- HKDF with SHA-256. -/
def hkdf (salt ikm info : Bytes) (n : Nat) : Bytes := hkdfExpand (hkdfExtract salt ikm) info n

/-- SP 800-108 in counter mode with HMAC-SHA-256: a 32-bit counter, Label, a zero byte, Context
and the 32-bit length in bits, all big-endian. -/
def kdf108 (key label context : Bytes) (n : Nat) : Bytes :=
  ((List.range (ceilDiv n 32)).flatMap (fun i =>
    hmac key (toBE 4 (i + 1) ++ label ++ [0] ++ context ++ toBE 4 (8 * n)))).take n

/-- Eight steps of the reflected Castagnoli polynomial. -/
def crcByte : Nat → W32 → W32
  | 0, c => c
  | n + 1, c => crcByte n (if c.getLsbD 0 then (c >>> 1) ^^^ 0x82F63B78 else c >>> 1)

/-- CRC-32C: initial value 0xFFFF_FFFF, final complement (R45). -/
def crc32c (m : Bytes) : W32 :=
  ~~~(m.foldl (fun c b => crcByte 8 (c ^^^ b.setWidth 32)) 0xFFFFFFFF)

/-- One byte of CRC-32 of IEEE 802.3, reflected. -/
def crc32Byte : Nat → W32 → W32
  | 0, c => c
  | n + 1, c => crc32Byte n (if c.getLsbD 0 then (c >>> 1) ^^^ 0xEDB88320 else c >>> 1)

/-- The frame check sequence of an Ethernet frame (13 R527). -/
def crc32 (m : Bytes) : W32 :=
  ~~~(m.foldl (fun c b => crc32Byte 8 (c ^^^ b.setWidth 32)) 0xFFFFFFFF)

end Sys2Proof.Machine
end

