-- ==== Sys2Proof/Machine/Tab.lean ====
section
/-!
DEFINITION. Machine/Tab.lean: sparse tables in one canonical form. A table is a list of
(key, value) pairs with strictly rising keys; no entry equals what an unlisted key reads as.
`Tab Byte` is a list of `Host.Cell`s and is what every memory of the machine is.
-/
namespace Sys2Proof.Machine

/-- A sparse table: the keys rise strictly and no listed value is the default of its key. -/
abbrev Tab (α : Type) := List (Nat × α)

/-- What key `k` reads as; an unlisted key reads as `d k`. -/
def Tab.look {α : Type} (d : Nat → α) : Tab α → Nat → α
  | [], k => d k
  | (j, v) :: t, k => if k = j then v else Tab.look d t k

/-- The table with key `k` removed. -/
def Tab.drop1 {α : Type} (t : Tab α) (k : Nat) : Tab α := t.filter (fun e => decide (e.1 ≠ k))

/-- The table with `k` listed as `v`. -/
def Tab.put1 {α : Type} : Tab α → Nat → α → Tab α
  | [], k, v => [(k, v)]
  | (j, w) :: t, k, v =>
    if k < j then (k, v) :: (j, w) :: t
    else if k = j then (k, v) :: t
    else (j, w) :: Tab.put1 t k v

/-- The table after key `k` takes value `v`: a value equal to the default is not listed. -/
def Tab.store {α : Type} [DecidableEq α] (d : Nat → α) (t : Tab α) (k : Nat) (v : α) : Tab α :=
  if v = d k then Tab.drop1 t k else Tab.put1 t k v

/-- The keys rise strictly from `lo` on and no listed value is its key's default. -/
def Tab.wfFrom {α : Type} [DecidableEq α] (d : Nat → α) : Nat → Tab α → Bool
  | _, [] => true
  | lo, (j, v) :: t => decide (lo ≤ j) && decide (v ≠ d j) && Tab.wfFrom d (j + 1) t

/-- The canonical form of a table. -/
def Tab.wf {α : Type} [DecidableEq α] (d : Nat → α) (t : Tab α) : Bool := Tab.wfFrom d 0 t

/-- The table without the keys that `p` picks. -/
def Tab.without {α : Type} (p : Nat → Bool) (t : Tab α) : Tab α := t.filter (fun e => !p e.1)

/-! ### Memories: tables of bytes that read 0 where nothing is listed -/

/-- What a byte of any memory reads as where nothing is listed (log entry 3). -/
def Mem.empty : Nat → Byte := fun _ => 0

/-- One byte of a memory. -/
def Mem.get (m : Tab Byte) (a : Nat) : Byte := Tab.look Mem.empty m a

/-- A memory after one byte is written. -/
def Mem.set (m : Tab Byte) (a : Nat) (b : Byte) : Tab Byte := Tab.store Mem.empty m a b

/-- `n` bytes from address `a`. -/
def Mem.read (m : Tab Byte) (a n : Nat) : Bytes := (List.range n).map (fun i => Mem.get m (a + i))

/-- A memory after the string is written at address `a`. -/
def Mem.write (m : Tab Byte) (a : Nat) : Bytes → Tab Byte
  | [] => m
  | b :: bs => Mem.write (Mem.set m a b) (a + 1) bs

/-- A memory after `n` bytes from `a` are zeroed. -/
def Mem.zero (m : Tab Byte) (a n : Nat) : Tab Byte :=
  Tab.without (fun k => decide (a ≤ k) && decide (k < a + n)) m

/-- The canonical form of a memory. -/
def Memory.wf (m : Tab Byte) : Bool := Tab.wf Mem.empty m

end Sys2Proof.Machine
end

