-- ==== Sys2Proof/Machine/StSbox.lean ====
section
/-!
DEFINITION. Machine/StSbox.lean: the state of the Strongbox (15_strongbox R607 to R653) and of the
random number generator (16_random R654 to R669).
-/
namespace Sys2Proof.Machine

/-- The life-cycle states (R607). -/
inductive Lc where
  | blank | factory | service | returned | scrapped
deriving DecidableEq, Repr, Inhabited

/-- A key slot: its attribute word (R620) and its key. -/
structure KeySlot where
  attr : Nat := 0
  key : Bytes := []
deriving DecidableEq, Repr, Inhabited

/-- A mailbox (R627): the registers of SECMBX for the PF, and the MP's own. -/
structure Mailbox where
  cmd : Nat := 0
  busy : Bool := false
  waitRng : Bool := false
  status : Nat := 0
  attr : Nat := 0
  len : Nat := 0
  data : Bytes := List.replicate 256 0
deriving DecidableEq, Repr

/-- An entry of the tamper ledger (R651). -/
structure TamperEntry where
  seq : Nat := 0
  source : Nat := 0
  state : Nat := 0
  response : Nat := 0
  sweep : Bool := false
  ftNs : Nat := 0
deriving DecidableEq, Repr, Inhabited

/-- The states of the generator (16 R661). -/
inductive RngState where
  | startup | seeding | ready | failed
deriving DecidableEq, Repr, Inhabited

/-- A request of the security controller that waits for random numbers (R663, 17 R677). -/
inductive SecReq where
  /-- PART_ROOT and MEMORY generation 0 of a partition. -/
  | partKeys (p : Nat)
  /-- An ADMIT_REPLY of partition `p` on `port` to the HELLO given. -/
  | admitReply (p port : Nat) (src : Bytes) (udp : Nat) (hello : Bytes)
  /-- A KEY_EXCHANGE response of function `f` to the request given. -/
  | keyExchange (f : Nat) (msg : Bytes)
deriving DecidableEq, Repr

/-- A waiting caller of the generator (RNG_STATUS.WAITING). -/
inductive Caller where
  | sec (r : SecReq)
  | mbx (m : Mbx)
  /-- The TRIPLE_RING macro of an operation, on polynomial engine `e`. -/
  | poly (e p tag : Nat)
deriving DecidableEq, Repr

/-- The random number generator. `calls` counts the generate calls since the last instantiation or reseed. -/
structure Rng where
  st : RngState := .startup
  fails : Nat := 0
  /-- The starts of the source that came before this one (16 R661), with the reference cycle of this one. -/
  starts : Nat := 0
  startAt : Nat := 0
  /-- Reference cycle since which the pool takes samples (16 R655). -/
  poolAt : Nat := 0
  /-- Key and counter block of the DRBG (16 R656); empty before an instantiation. -/
  key : Bytes := []
  v : Bytes := []
  calls : Nat := 0
  /-- Reference cycle of the last instantiation or reseed. -/
  seededAt : Nat := 0
  waiting : List Caller := []
  /-- The last `tail` waiting callers arrived in cycle `tailAt` (16 R664). -/
  tail : Nat := 0
  tailAt : Nat := 0
  rct : Nat := 0
  apt : Nat := 0
  test : Bool := false
  testSeed : Nat := 1
deriving DecidableEq, Repr, Inhabited

/-- The Strongbox. -/
structure Sbox where
  lc : Lc := .service
  /-- The fuse DESTROY_DEFAULT is SWEEP (R635). -/
  fuseSweep : Bool := false
  /-- A unique device secret fused by a FACTORY_TRANSITION of this model; none is the part's own. -/
  uds : Option (BitVec 256) := none
  slots : Tab KeySlot := []
  /-- MRAM records, slot number below 64 · 2 + bank (R637). -/
  mram : Tab Bytes := []
  pf : Mailbox := {}
  mp : Mailbox := {}
  /-- CDI_0 and on, as far as measured (R613). -/
  cdis : List Bytes := []
  /-- D_0 and on: the digests of measurement blocks 0 to 5. -/
  blocks : List Bytes := []
  identity : Option Nat := none
  alias_ : Option Nat := none
  /-- The root gate is closed (R636). -/
  gateClosed : Bool := false
  /-- Alarm conditions that hold, by source code (R644). -/
  alarms : Nat := 0
  /-- The tamper mode in MRAM: the register image last copied (R645). -/
  mramTamper : Option Nat := none
  sweepPending : Bool := false
  tamperLog : List TamperEntry := []
  tamperCount : Nat := 0
deriving DecidableEq, Repr

end Sys2Proof.Machine
end

