-- ==== Sys2Proof/Machine/Drbg.lean ====
section
/-!
DEFINITION. Machine/Drbg.lean: the noise source, the conditioner and the CTR_DRBG of the generator (16_random R654
to R658, R666): AES-256 with the derivation function and without prediction resistance, of NIST SP 800-90A.
-/
namespace Sys2Proof.Machine

/-! ### The source (R654, R666) -/

/-- One step of the 16-bit LFSR with taps at 16, 14, 13 and 11; stage 16 is bit 0 (log entry 15). -/
def lfsrStep (x : BitVec 16) : BitVec 16 :=
  (x >>> 1) ||| ((BitVec.ofBool (x.getLsbD 0 ^^ x.getLsbD 2 ^^ x.getLsbD 3 ^^ x.getLsbD 5)).zeroExtend 16 <<< 15)

/-- The LFSR after `n` steps. -/
def lfsrAt : Nat → BitVec 16 → BitVec 16
  | 0, x => x
  | n + 1, x => lfsrAt n (lfsrStep x)

/-- `n` bits that the LFSR gives from a state on. -/
def lfsrBits : Nat → BitVec 16 → List Bool
  | 0, _ => []
  | n + 1, x => x.getLsbD 0 :: lfsrBits n (lfsrStep x)

/-- `n` samples of the source from sample `i` after its start on: one in four reference cycles. -/
def Rng.samples (r : Rng) (i n : Nat) : List Bool :=
  if r.test then lfsrBits n (lfsrAt i (BitVec.ofNat 16 r.testSeed))
  else (List.range n).map (fun k => Config.rawNoise r.starts (i + k))

/-- Bits as bytes, the first the most significant (log entry 15). -/
def bitsToBytes (l : List Bool) : Bytes :=
  (chunks 8 l).map (fun c => BitVec.ofNat 8 (c.foldl (fun a b => 2 * a + b2n b) 0))

/-- A conditioned block: SHA-256 of 640 samples (R655). -/
def Rng.block (r : Rng) (i : Nat) : Bytes := sha256 (bitsToBytes (r.samples i 640))

/-- The pool: two conditioned blocks of the samples since it was last drawn (R655). -/
def Rng.pool (r : Rng) : Bytes :=
  let i := (r.poolAt - r.startAt) / 4
  r.block i ++ r.block (i + 640)

/-- The reference cycle at which the pool is full. -/
def Rng.poolFull (r : Rng) : Nat := r.poolAt + 4 * 1280

/-! ### CTR_DRBG (R656, R657) -/

/-- The counter block after `v`. -/
def drbgNext (v : Bytes) : Bytes := toBE 16 ((beNat v + 1) % 2 ^ 128)

/-- `n` blocks of output under a key schedule, and the counter block after them. -/
def drbgBlocks (ks : List Bytes) : Nat → Bytes → Bytes × Bytes
  | 0, v => ([], v)
  | n + 1, v =>
    let w := drbgNext v
    let r := drbgBlocks ks n w
    (aesBlock ks w ++ r.1, r.2)

/-- CTR_DRBG_Update with 48 bytes: the new key and counter block. -/
def drbgUpdate (key v data : Bytes) : Bytes × Bytes :=
  let t := xorBytes (drbgBlocks (aesKeys key) 3 v).1 data
  (t.take 32, t.drop 32)

/-- BCC: the chained cipher of the derivation function. -/
def drbgBcc (ks : List Bytes) (m : Bytes) : Bytes := (chunks 16 m).foldl (fun c b => aesBlock ks (xorBytes c b)) (zeros 16)

/-- Block_Cipher_df: 48 bytes of seed material from an input. -/
def drbgDf (input : Bytes) : Bytes :=
  let m := pad16 (toBE 4 input.length ++ toBE 4 48 ++ input ++ [0x80])
  let ks := aesKeys ((List.range 32).map (BitVec.ofNat 8))
  let t := (List.range 3).flatMap (fun i => drbgBcc ks (toBE 4 i ++ zeros 12 ++ m))
  let kt := aesKeys (t.take 32)
  let b1 := aesBlock kt (t.drop 32)
  let b2 := aesBlock kt b1
  b1 ++ b2 ++ aesBlock kt b2

/-- Instantiation with entropy input, nonce and personalization string. -/
def drbgInstantiate (entropy nonce pers : Bytes) : Bytes × Bytes :=
  drbgUpdate (zeros 32) (zeros 16) (drbgDf (entropy ++ nonce ++ pers))

/-- Reseeding with entropy input. -/
def drbgReseed (key v entropy : Bytes) : Bytes × Bytes := drbgUpdate key v (drbgDf entropy)

/-- One generate call of `n` bytes: the output, and the key and counter block after it. -/
def drbgGenerate (key v : Bytes) (n : Nat) : Bytes × (Bytes × Bytes) :=
  let r := drbgBlocks (aesKeys key) (ceilDiv n 16) v
  (r.1.take n, drbgUpdate key r.2 (zeros 48))

/-- The generate calls of a request, each of at most 65,536 bytes, with fuel for their number. -/
def Rng.generate : Nat → Nat → Rng → Bytes × Rng
  | 0, _, r => ([], r)
  | k + 1, n, r =>
    let g := drbgGenerate r.key r.v (min n 65536)
    let q := Rng.generate k (n - 65536) { r with key := g.2.1, v := g.2.2, calls := r.calls + 1 }
    (g.1 ++ q.1, q.2)

/-! ### The generator's steps (R655 to R661) -/

/-- A start of the source in STARTUP at cycle `c`: the DRBG state and the pool are zeroised, and calls keep their
places (R661). -/
def Rng.restart (r : Rng) (c : Nat) : Rng :=
  { r with st := .startup, starts := r.starts + 1, startAt := c, poolAt := c, key := [], v := [], calls := 0 }

/-- The DRBG takes a new state from the pool, which is refilled from cycle `c` on. -/
def Rng.seeded (r : Rng) (c : Nat) (kv : Bytes × Bytes) : Rng :=
  { r with key := kv.1, v := kv.2, calls := 0, seededAt := c, poolAt := c }

/-- Instantiation from the full pool: 384 bits of entropy input, a 128-bit nonce and the unit serial (R656). -/
def Rng.instantiate (r : Rng) (c : Nat) : Rng :=
  r.seeded c (drbgInstantiate (r.pool.take 48) (r.pool.drop 48) (toLE 8 Config.serial.toNat))

/-- A reseed with 384 bits of the full pool (R657). -/
def Rng.reseed (r : Rng) (c : Nat) : Rng := r.seeded c (drbgReseed r.key r.v (r.pool.take 48))

/-- The bit of a caller in RNG_STATUS.WAITING. -/
def callerBit : Caller → Nat
  | .sec _ => 0
  | .mbx .mp => 1
  | .mbx .pf => 2
  | .poly e _ _ => 3 + e

/-- A call joins the queue: those that arrive in one cycle stand in ascending order of their bits (R664). -/
def Rng.join (r : Rng) (cycle : Nat) (c : Caller) : Rng :=
  let n := if r.tailAt = cycle then min r.tail r.waiting.length else 0
  let k := r.waiting.length - n
  let t := r.waiting.drop k
  let before := t.takeWhile (fun x => decide (callerBit x ≤ callerBit c))
  { r with waiting := r.waiting.take k ++ (before ++ c :: t.drop before.length), tail := n + 1, tailAt := cycle }

/-- Calls taken out of the queue. -/
def Rng.leave (r : Rng) (out : Caller → Bool) : Rng :=
  { r with
    waiting := r.waiting.filter (fun c => !out c)
    tail := ((r.waiting.drop (r.waiting.length - min r.tail r.waiting.length)).filter (fun c => !out c)).length }

end Sys2Proof.Machine
end

