-- ==== Sys2Proof/Machine/Ec.lean ====
section
/-!
DEFINITION. Machine/Ec.lean: ECDSA and ECDH on P-256 (FIPS 186-5, SEC 1, RFC 6979), X25519
(RFC 7748) and arithmetic in a prime field. The manual names these standards and does not restate
them; log entry 22 names the editions.
-/
namespace Sys2Proof.Machine

/-- Modular power over the low `n` bits of the exponent. -/
def powModN (m : Nat) : Nat → Nat → Nat → Nat
  | 0, _, _ => 1 % m
  | n + 1, b, e =>
    let r := powModN m n (b * b % m) (e / 2)
    if e % 2 = 1 then r * b % m else r

/-- `b ^ e mod m` for an exponent below 2^256. -/
def powMod (b e m : Nat) : Nat := powModN m 256 b e

/-- The inverse modulo a prime; 0 gives 0. -/
def invMod (a p : Nat) : Nat := powMod (a % p) (p - 2) p

/-- Difference modulo `p` of two residues. -/
def subMod (a b p : Nat) : Nat := (a % p + p - b % p) % p

/-- The prime of P-256. -/
def p256P : Nat := 0xFFFFFFFF00000001000000000000000000000000FFFFFFFFFFFFFFFFFFFFFFFF

/-- The order of the base point of P-256. -/
def p256N : Nat := 0xFFFFFFFF00000000FFFFFFFFFFFFFFFFBCE6FAADA7179E84F3B9CAC2FC632551

/-- The coefficient b of P-256. -/
def p256B : Nat := 0x5AC635D8AA3A93E7B3EBBD55769886BC651D06B0CC53B0F63BCE3C3E27D2604B

/-- A point of P-256; none is the point at infinity. -/
abbrev EcPoint := Option (Nat × Nat)

/-- The base point of P-256. -/
def p256G : EcPoint :=
  some (0x6B17D1F2E12C4247F8BCE6E563A440F277037D812DEB33A0F4A13945D898C296,
        0x4FE342E2FE1A7F9B8EE7EB4A7C0F9E162BCE33576B315ECECBB6406837BF51F5)

/-- The coordinates lie on the curve. -/
def onP256 (x y : Nat) : Bool :=
  decide (x < p256P) && decide (y < p256P) &&
    decide (y * y % p256P = subMod (x * x * x + p256B) (3 * x) p256P)

/-- The sum of two points, given the slope. -/
def ecChord (x1 y1 x2 l : Nat) : EcPoint :=
  let x := subMod (l * l) (x1 + x2) p256P
  some (x, subMod (l * subMod x1 x p256P) y1 p256P)

/-- Addition on P-256. -/
def ecAdd : EcPoint → EcPoint → EcPoint
  | none, q => q
  | p, none => p
  | some (x1, y1), some (x2, y2) =>
    if x1 = x2 then
      if (y1 + y2) % p256P = 0 then none
      else ecChord x1 y1 x2 (subMod (3 * x1 * x1) 3 p256P * invMod (2 * y1) p256P % p256P)
    else ecChord x1 y1 x2 (subMod y2 y1 p256P * invMod (subMod x2 x1 p256P) p256P % p256P)

/-- Multiplication of a point over the low `n` bits of the scalar. -/
def ecMulN : Nat → Nat → EcPoint → EcPoint
  | 0, _, _ => none
  | n + 1, k, q =>
    let r := ecMulN n (k / 2) (ecAdd q q)
    if k % 2 = 1 then ecAdd r q else r

/-- Multiplication of a point by a 256-bit scalar. -/
def ecMul (k : Nat) (q : EcPoint) : EcPoint := ecMulN 256 k q

/-- The 64 bytes x then y of a point, big-endian. -/
def ecBytes : EcPoint → Bytes
  | none => zeros 64
  | some (x, y) => toBE 32 x ++ toBE 32 y

/-- The public key of a private scalar, x then y. -/
def p256Public (d : Nat) : Bytes := ecBytes (ecMul d p256G)

/-- ECDSA verification of a 32-byte digest: key x, y and signature r, s. -/
def ecdsaVerify (x y r s : Nat) (digest : Bytes) : Bool :=
  if onP256 x y && decide (0 < r) && decide (r < p256N) && decide (0 < s) && decide (s < p256N) then
    let w := invMod s p256N
    let u1 := beNat digest * w % p256N
    let u2 := r * w % p256N
    match ecAdd (ecMul u1 p256G) (ecMul u2 (some (x, y))) with
    | none => false
    | some (vx, _) => decide (vx % p256N = r)
  else false

/-- ECDSA verification of a 64-byte key and a 64-byte signature over a message, with SHA-256. -/
def ecdsaOk (key sig msg : Bytes) : Bool :=
  ecdsaVerify (be key 0 32) (be key 32 32) (be sig 0 32) (be sig 32 32) (sha256 msg)

/-- The nonce of RFC 6979: candidates are drawn until one is in range. -/
def rfc6979 : Nat → Bytes → Bytes → Nat
  | 0, _, _ => 1
  | n + 1, k, v =>
    let v1 := hmac k v
    let c := beNat v1
    if decide (0 < c) && decide (c < p256N) then c
    else
      let k1 := hmac k (v1 ++ [0])
      rfc6979 n k1 (hmac k1 v1)

/-- The deterministic nonce for a scalar and a digest. -/
def ecdsaNonce (d : Nat) (digest : Bytes) : Nat :=
  let h := toBE 32 (beNat digest % p256N)
  let x := toBE 32 d
  let v0 := List.replicate 32 (1 : Byte)
  let k1 := hmac (zeros 32) (v0 ++ [0] ++ x ++ h)
  let v1 := hmac k1 v0
  let k2 := hmac k1 (v1 ++ [1] ++ x ++ h)
  rfc6979 64 k2 (hmac k2 v1)

/-- The signature r then s of a 32-byte digest under RFC 6979. -/
def ecdsaSign (d : Nat) (digest : Bytes) : Bytes :=
  let k := ecdsaNonce d digest
  match ecMul k p256G with
  | none => zeros 64
  | some (x, _) =>
    let r := x % p256N
    let s := invMod k p256N * (beNat digest + r * d) % p256N
    toBE 32 r ++ toBE 32 s

/-- The shared secret of ECDH on P-256: the x coordinate, or none for a key off the curve. -/
def ecdh (d : Nat) (peer : Bytes) : Option Bytes :=
  if onP256 (be peer 0 32) (be peer 32 32) then
    match ecMul d (some (be peer 0 32, be peer 32 32)) with
    | none => none
    | some (x, _) => some (toBE 32 x)
  else none

/-- The prime 2^255 - 19. -/
def p25519 : Nat := 2 ^ 255 - 19

/-- One step of the Montgomery ladder on (x2, z2, x3, z3). -/
def ladderStep (x1 : Nat) (q : (Nat × Nat) × (Nat × Nat)) : (Nat × Nat) × (Nat × Nat) :=
  let p := p25519
  let a := (q.1.1 + q.1.2) % p
  let aa := a * a % p
  let b := subMod q.1.1 q.1.2 p
  let bb := b * b % p
  let e := subMod aa bb p
  let c := (q.2.1 + q.2.2) % p
  let d := subMod q.2.1 q.2.2 p
  let da := d * a % p
  let cb := c * b % p
  let x3 := (da + cb) * (da + cb) % p
  let df := subMod da cb p
  let z3 := x1 * (df * df % p) % p
  ((aa * bb % p, e * ((aa + 121665 * e) % p) % p), (x3, z3))

/-- The ladder over bits `n - 1` down to 0 of the scalar. -/
def ladder (k x1 : Nat) : Nat → (Nat × Nat) × (Nat × Nat) → (Nat × Nat) × (Nat × Nat)
  | 0, q => q
  | n + 1, q =>
    let q' := if k.testBit n then (ladderStep x1 q.swap).swap else ladderStep x1 q
    ladder k x1 n q'

/-- X25519 of a 32-byte scalar and a 32-byte u coordinate. -/
def x25519 (k u : Bytes) : Bytes :=
  let s := leNat (fit 32 k)
  let sc := (s % 2 ^ 254 + 2 ^ 254) / 8 * 8
  let x1 := leNat (fit 32 u) % 2 ^ 255 % p25519
  let q := ladder sc x1 255 ((1, 0), (x1, 1))
  toLE 32 (q.1.1 * invMod q.1.2 p25519 % p25519)

/-- The X25519 base point, u = 9. -/
def x25519Base : Bytes := toLE 32 9

end Sys2Proof.Machine
end

