-- ==== Sys2Proof/Machine/RegMap.lean ====
section
/-!
DEFINITION. Machine/RegMap.lean: the register map. One row per register of the manual's register
lists: its name, the BAR0 offset of its first copy, the (count, stride) of its copies from the
outermost in, its reset value and the masks of its access codes (00_scope R13). A bit in no mask is
RO or reserved. `pair` marks the _LO and _HI halves of R19. Names beginning with `a` give the
offset of each register.
-/
namespace Sys2Proof.Machine

/-- The two halves of a register pair (R19), or a register of its own. -/
inductive Half where
  | single | lo | hi
deriving DecidableEq, Repr

/-- One register of the map. -/
structure RegRow where
  name : String
  base : Nat
  dims : List (Nat × Nat)
  reset : Nat
  rw : Nat
  rwl : Nat
  w1c : Nat
  wo : Nat
  rws : Nat
  half : Half
deriving DecidableEq, Repr

/-! ### Offsets of the GLOBAL block -/

/-- GLOBAL_PART. -/
def aGlobalPart : Nat := 0
/-- GLOBAL_HEALTH. -/
def aGlobalHealth : Nat := 0x100
/-- GLOBAL_DEGRADED. -/
def aGlobalDegraded (i : Nat) : Nat := 0x104 + 0x4 * i
/-- GLOBAL_ERR_STATUS. -/
def aGlobalErrStatus : Nat := 0x200
/-- GLOBAL_ERR_COUNT. -/
def aGlobalErrCount : Nat := 0x204
/-- GLOBAL_ERR_INDEX. -/
def aGlobalErrIndex : Nat := 0x208
/-- GLOBAL_ERR_DATA. -/
def aGlobalErrData (i : Nat) : Nat := 0x210 + 0x4 * i

/-! ### Offsets of the CHARTER block -/

/-- CHARTER_LOAD_ADDR_LO. -/
def aCharterLoadAddrLo : Nat := 0x100000
/-- CHARTER_LOAD_ADDR_HI. -/
def aCharterLoadAddrHi : Nat := 0x100004
/-- CHARTER_LOAD_LEN. -/
def aCharterLoadLen : Nat := 0x100008
/-- CHARTER_LOAD_CTRL. -/
def aCharterLoadCtrl : Nat := 0x10000c
/-- CHARTER_LOAD_STATUS. -/
def aCharterLoadStatus : Nat := 0x100010
/-- CHARTER_LOAD_AT. -/
def aCharterLoadAt : Nat := 0x100014
/-- CHARTER_EXPERT. -/
def aCharterExpert : Nat := 0x100018
/-- CHARTER_DEV_HASH. -/
def aCharterDevHash (i : Nat) : Nat := 0x100020 + 0x4 * i
/-- CHARTER_REMOVE_CTRL. -/
def aCharterRemoveCtrl : Nat := 0x100040
/-- CHARTER_REMOVE_STATUS. -/
def aCharterRemoveStatus : Nat := 0x100044
/-- CHARTER_REMOVE_TIME. -/
def aCharterRemoveTime : Nat := 0x100048
/-- CHARTER_REMOVE_OPS. -/
def aCharterRemoveOps : Nat := 0x10004c
/-- CHARTER_REMOVE_DMA. -/
def aCharterRemoveDma : Nat := 0x100050
/-- CHARTER_REMOVE_SEGMENTS. -/
def aCharterRemoveSegments : Nat := 0x100054
/-- CHARTER_REMOVE_SUBS. -/
def aCharterRemoveSubs : Nat := 0x100058
/-- CHARTER_REMOVE_WINDOWS. -/
def aCharterRemoveWindows : Nat := 0x10005c
/-- CHARTER_REMOVE_FOLIOS. -/
def aCharterRemoveFolios : Nat := 0x100060
/-- CHARTER_REMOVE_RECORDS. -/
def aCharterRemoveRecords : Nat := 0x100064

/-! ### Offsets of the SCHED block -/

/-- SCHED_STATUS. -/
def aSchedStatus : Nat := 0x200000
/-- SCHED_PART_STATE. -/
def aSchedPartState (i : Nat) : Nat := 0x200100 + 0x20 * i
/-- SCHED_PART_CTRL. -/
def aSchedPartCtrl (i : Nat) : Nat := 0x200104 + 0x20 * i
/-- SCHED_PART_REPLAYS. -/
def aSchedPartReplays (i : Nat) : Nat := 0x200108 + 0x20 * i
/-- SCHED_WIN_CTRL. -/
def aSchedWinCtrl (i : Nat) : Nat := 0x201000 + 0x200 * i
/-- SCHED_WIN_STATUS. -/
def aSchedWinStatus (i : Nat) : Nat := 0x201004 + 0x200 * i
/-- SCHED_CQ_BASE_LO. -/
def aSchedCqBaseLo (i j : Nat) : Nat := 0x201100 + 0x200 * i + 0x20 * j
/-- SCHED_CQ_BASE_HI. -/
def aSchedCqBaseHi (i j : Nat) : Nat := 0x201104 + 0x200 * i + 0x20 * j
/-- SCHED_CQ_CFG. -/
def aSchedCqCfg (i j : Nat) : Nat := 0x201108 + 0x200 * i + 0x20 * j
/-- SCHED_CQ_HEAD. -/
def aSchedCqHead (i j : Nat) : Nat := 0x20110c + 0x200 * i + 0x20 * j
/-- SCHED_CQ_TAIL. -/
def aSchedCqTail (i j : Nat) : Nat := 0x201110 + 0x200 * i + 0x20 * j
/-- SCHED_PART_GROUP. -/
def aSchedPartGroup (i : Nat) : Nat := 0x20010c + 0x20 * i
/-- SCHED_PART_SWITCH. -/
def aSchedPartSwitch (i : Nat) : Nat := 0x200110 + 0x20 * i
/-- SCHED_PART_MOVE_CTRL. -/
def aSchedPartMoveCtrl (i : Nat) : Nat := 0x200114 + 0x20 * i

/-! ### Offsets of the FOLIO block -/

/-- FOLIO_HOARD_STATUS. -/
def aFolioHoardStatus : Nat := 0x300000
/-- FOLIO_HOARD_REPAIR. -/
def aFolioHoardRepair : Nat := 0x300004
/-- FOLIO_HOARD_ECC. -/
def aFolioHoardEcc : Nat := 0x300008
/-- FOLIO_LPDDR_STATUS. -/
def aFolioLpddrStatus : Nat := 0x30000c
/-- FOLIO_XFER. -/
def aFolioXfer : Nat := 0x300010
/-- FOLIO_CFG. -/
def aFolioCfg : Nat := 0x300014
/-- FOLIO_PART_HOARD. -/
def aFolioPartHoard (i : Nat) : Nat := 0x300100 + 0x20 * i
/-- FOLIO_PART_PIN. -/
def aFolioPartPin (i : Nat) : Nat := 0x300104 + 0x20 * i
/-- FOLIO_PART_LPDDR. -/
def aFolioPartLpddr (i : Nat) : Nat := 0x300108 + 0x20 * i
/-- FOLIO_PART_CTRL. -/
def aFolioPartCtrl (i : Nat) : Nat := 0x30010c + 0x20 * i
/-- FOLIO_PART_BIAS_LO. -/
def aFolioPartBiasLo (i : Nat) : Nat := 0x300110 + 0x20 * i
/-- FOLIO_PART_BIAS_HI. -/
def aFolioPartBiasHi (i : Nat) : Nat := 0x300114 + 0x20 * i
/-- FOLIO_PART_KEYGEN. -/
def aFolioPartKeygen (i : Nat) : Nat := 0x300118 + 0x20 * i
/-- FOLIO_PART_MOVE. -/
def aFolioPartMove (i : Nat) : Nat := 0x30011c + 0x20 * i

/-! ### Offsets of the TALLY block -/

/-- TALLY_HMP_CFG. -/
def aTallyHmpCfg (i : Nat) : Nat := 0x408000 + 0x20 * i
/-- TALLY_HMP_LEVEL. -/
def aTallyHmpLevel (i : Nat) : Nat := 0x408004 + 0x20 * i
/-- TALLY_HMP_STATUS. -/
def aTallyHmpStatus (i : Nat) : Nat := 0x408008 + 0x20 * i
/-- TALLY_HMP_EVENTS. -/
def aTallyHmpEvents (i : Nat) : Nat := 0x40800c + 0x20 * i
/-- TALLY_HMP_OVERRUNS. -/
def aTallyHmpOverruns (i : Nat) : Nat := 0x408010 + 0x20 * i
/-- TALLY_RET_SIZE. -/
def aTallyRetSize : Nat := 0x40c000
/-- TALLY_RET_WPTR. -/
def aTallyRetWptr : Nat := 0x40c004
/-- TALLY_RET_MARK. -/
def aTallyRetMark : Nat := 0x40c008
/-- TALLY_RET_STATUS. -/
def aTallyRetStatus : Nat := 0x40c00c
/-- TALLY_RET_HOLDS. -/
def aTallyRetHolds : Nat := 0x40c010
/-- TALLY_RET_PART_CTRL. -/
def aTallyRetPartCtrl (i : Nat) : Nat := 0x40c100 + 0x20 * i
/-- TALLY_RET_PART_UNREV. -/
def aTallyRetPartUnrev (i : Nat) : Nat := 0x40c104 + 0x20 * i
/-- TALLY_STATUS. -/
def aTallyStatus : Nat := 0x400000
/-- TALLY_WIN_STATE. -/
def aTallyWinState (i : Nat) : Nat := 0x401000 + 0x40 * i
/-- TALLY_WIN_CTRL. -/
def aTallyWinCtrl (i : Nat) : Nat := 0x401004 + 0x40 * i
/-- TALLY_WIN_OPEN_LO. -/
def aTallyWinOpenLo (i : Nat) : Nat := 0x401008 + 0x40 * i
/-- TALLY_WIN_OPEN_HI. -/
def aTallyWinOpenHi (i : Nat) : Nat := 0x40100c + 0x40 * i
/-- TALLY_WIN_CLOSE_LO. -/
def aTallyWinCloseLo (i : Nat) : Nat := 0x401010 + 0x40 * i
/-- TALLY_WIN_CLOSE_HI. -/
def aTallyWinCloseHi (i : Nat) : Nat := 0x401014 + 0x40 * i
/-- TALLY_WIN_INDEX. -/
def aTallyWinIndex (i : Nat) : Nat := 0x401018 + 0x40 * i
/-- TALLY_WIN_EVENTS. -/
def aTallyWinEvents (i : Nat) : Nat := 0x401034 + 0x40 * i
/-- TALLY_REC_STATUS. -/
def aTallyRecStatus (i : Nat) : Nat := 0x402000 + 0x40 * i
/-- TALLY_REC_DONE_LO. -/
def aTallyRecDoneLo (i : Nat) : Nat := 0x402014 + 0x40 * i
/-- TALLY_REC_DONE_HI. -/
def aTallyRecDoneHi (i : Nat) : Nat := 0x402018 + 0x40 * i
/-- TALLY_REC_REL_LO. -/
def aTallyRecRelLo (i : Nat) : Nat := 0x40201c + 0x40 * i
/-- TALLY_REC_REL_HI. -/
def aTallyRecRelHi (i : Nat) : Nat := 0x402020 + 0x40 * i
/-- TALLY_REC_EVENTS. -/
def aTallyRecEvents (i : Nat) : Nat := 0x402024 + 0x40 * i
/-- TALLY_REC_PART_CTRL. -/
def aTallyRecPartCtrl (i : Nat) : Nat := 0x403000 + 0x20 * i
/-- TALLY_REC_PART_THRESHOLD. -/
def aTallyRecPartThreshold (i : Nat) : Nat := 0x403004 + 0x20 * i
/-- TALLY_WIN_OPENED. -/
def aTallyWinOpened (i : Nat) : Nat := 0x40101c + 0x40 * i
/-- TALLY_WIN_COMMITS. -/
def aTallyWinCommits (i : Nat) : Nat := 0x401020 + 0x40 * i
/-- TALLY_WIN_ABORTS. -/
def aTallyWinAborts (i : Nat) : Nat := 0x401024 + 0x40 * i
/-- TALLY_WIN_STALE. -/
def aTallyWinStale (i : Nat) : Nat := 0x401028 + 0x40 * i
/-- TALLY_WIN_REJECTS. -/
def aTallyWinRejects (i : Nat) : Nat := 0x40102c + 0x40 * i
/-- TALLY_WIN_OPENSUB. -/
def aTallyWinOpensub (i : Nat) : Nat := 0x401030 + 0x40 * i
/-- TALLY_REC_SELF. -/
def aTallyRecSelf (i : Nat) : Nat := 0x402004 + 0x40 * i
/-- TALLY_REC_PAIR. -/
def aTallyRecPair (i : Nat) : Nat := 0x402008 + 0x40 * i
/-- TALLY_REC_SKIPPED. -/
def aTallyRecSkipped (i : Nat) : Nat := 0x40200c + 0x40 * i
/-- TALLY_REC_CONFLICTS. -/
def aTallyRecConflicts (i : Nat) : Nat := 0x402010 + 0x40 * i

/-! ### Offsets of the POLY block -/

/-- POLY_STATUS. -/
def aPolyStatus : Nat := 0x500000
/-- POLY_ENG_STATUS. -/
def aPolyEngStatus (i : Nat) : Nat := 0x500100 + 0x20 * i
/-- POLY_ENG_OPS_LO. -/
def aPolyEngOpsLo (i : Nat) : Nat := 0x500104 + 0x20 * i
/-- POLY_ENG_OPS_HI. -/
def aPolyEngOpsHi (i : Nat) : Nat := 0x500108 + 0x20 * i
/-- POLY_ENG_KEYERR. -/
def aPolyEngKeyerr (i : Nat) : Nat := 0x50010c + 0x20 * i
/-- POLY_SLOT_STATE. -/
def aPolySlotState (i : Nat) : Nat := 0x501000 + 0x20 * i
/-- POLY_SLOT_FP_LO. -/
def aPolySlotFpLo (i : Nat) : Nat := 0x501004 + 0x20 * i
/-- POLY_SLOT_FP_HI. -/
def aPolySlotFpHi (i : Nat) : Nat := 0x501008 + 0x20 * i
/-- POLY_SLOT_CEIL. -/
def aPolySlotCeil (i : Nat) : Nat := 0x50100c + 0x20 * i
/-- POLY_PART_CTRL. -/
def aPolyPartCtrl (i : Nat) : Nat := 0x502000 + 0x20 * i
/-- POLY_PART_COUNTS. -/
def aPolyPartCounts (i : Nat) : Nat := 0x502004 + 0x20 * i

/-! ### Offsets of the FTIME block -/

/-- FTIME_NOW_LO. -/
def aFtimeNowLo : Nat := 0x600000
/-- FTIME_NOW_HI. -/
def aFtimeNowHi : Nat := 0x600004
/-- FTIME_NOW_FRAC. -/
def aFtimeNowFrac : Nat := 0x600008
/-- FTIME_STATUS. -/
def aFtimeStatus : Nat := 0x60000c
/-- FTIME_OFFSET. -/
def aFtimeOffset : Nat := 0x600010
/-- FTIME_HOLD. -/
def aFtimeHold : Nat := 0x600014
/-- FTIME_PPS. -/
def aFtimePps : Nat := 0x600018
/-- FTIME_BEAT. -/
def aFtimeBeat : Nat := 0x60001c
/-- FTIME_EVENTS. -/
def aFtimeEvents : Nat := 0x600020
/-- FTIME_PTP_DROPS. -/
def aFtimePtpDrops : Nat := 0x600024

/-! ### Offsets of the RYT block -/

/-- RYT_PORT_STATUS. -/
def aRytPortStatus (i : Nat) : Nat := 0x700000 + 0x4000 * i
/-- RYT_PORT_CTRL. -/
def aRytPortCtrl (i : Nat) : Nat := 0x700004 + 0x4000 * i
/-- RYT_PORT_CC. -/
def aRytPortCc (i : Nat) : Nat := 0x700008 + 0x4000 * i
/-- RYT_PORT_EVENTS. -/
def aRytPortEvents (i : Nat) : Nat := 0x70000c + 0x4000 * i
/-- RYT_PORT_MAC_LO. -/
def aRytPortMacLo (i : Nat) : Nat := 0x700040 + 0x4000 * i
/-- RYT_PORT_MAC_HI. -/
def aRytPortMacHi (i : Nat) : Nat := 0x700044 + 0x4000 * i
/-- RYT_PART_JOB. -/
def aRytPartJob (i : Nat) : Nat := 0x703000 + 0x4000 * i
/-- RYT_PART_PEERS. -/
def aRytPartPeers (i : Nat) : Nat := 0x703004 + 0x4000 * i
/-- RYT_PART_RETX. -/
def aRytPartRetx (i : Nat) : Nat := 0x703008 + 0x4000 * i
/-- RYT_PORT_RX_FRAMES. -/
def aRytPortRxFrames (i : Nat) : Nat := 0x700010 + 0x4000 * i
/-- RYT_PORT_TX_FRAMES. -/
def aRytPortTxFrames (i : Nat) : Nat := 0x700014 + 0x4000 * i
/-- RYT_PORT_FEC_CORR. -/
def aRytPortFecCorr (i : Nat) : Nat := 0x700018 + 0x4000 * i
/-- RYT_PORT_FEC_UNCORR. -/
def aRytPortFecUncorr (i : Nat) : Nat := 0x70001c + 0x4000 * i
/-- RYT_PORT_DROP_MAC. -/
def aRytPortDropMac (i : Nat) : Nat := 0x700020 + 0x4000 * i
/-- RYT_PORT_DROP_STRANGER. -/
def aRytPortDropStranger (i : Nat) : Nat := 0x700024 + 0x4000 * i
/-- RYT_PORT_DROP_AUTH. -/
def aRytPortDropAuth (i : Nat) : Nat := 0x700028 + 0x4000 * i
/-- RYT_PORT_DROP_KEYGEN. -/
def aRytPortDropKeygen (i : Nat) : Nat := 0x70002c + 0x4000 * i
/-- RYT_PORT_DROP_REORDER. -/
def aRytPortDropReorder (i : Nat) : Nat := 0x700030 + 0x4000 * i
/-- RYT_PART_RETRANS. -/
def aRytPartRetrans (i : Nat) : Nat := 0x70300c + 0x4000 * i
/-- RYT_PART_FAILS. -/
def aRytPartFails (i : Nat) : Nat := 0x703010 + 0x4000 * i
/-- RYT_PART_REKEYS. -/
def aRytPartRekeys (i : Nat) : Nat := 0x703014 + 0x4000 * i

/-! ### Offsets of the HOST block -/

/-- HOST_LINK. -/
def aHostLink : Nat := 0x800000
/-- HOST_EVENTS. -/
def aHostEvents : Nat := 0x800004
/-- HOST_DMA_STATUS. -/
def aHostDmaStatus : Nat := 0x800008
/-- HOST_TOD_LO. -/
def aHostTodLo : Nat := 0x80000c
/-- HOST_TOD_HI. -/
def aHostTodHi : Nat := 0x800010
/-- HOST_FN_STATE. -/
def aHostFnState (i : Nat) : Nat := 0x801000 + 0x10 * i
/-- HOST_PART_DMA. -/
def aHostPartDma (i : Nat) : Nat := 0x802000 + 0x20 * i

/-! ### Offsets of the SECMBX block -/

/-- SECMBX_LC. -/
def aSecmbxLc : Nat := 0x900000
/-- SECMBX_CMD. -/
def aSecmbxCmd : Nat := 0x900004
/-- SECMBX_STATUS. -/
def aSecmbxStatus : Nat := 0x900008
/-- SECMBX_ATTR_LO. -/
def aSecmbxAttrLo : Nat := 0x90000c
/-- SECMBX_ATTR_HI. -/
def aSecmbxAttrHi : Nat := 0x900010
/-- SECMBX_LEN. -/
def aSecmbxLen : Nat := 0x900014
/-- SECMBX_SLOTS. -/
def aSecmbxSlots : Nat := 0x900018
/-- SECMBX_TAMPER. -/
def aSecmbxTamper : Nat := 0x90001c
/-- SECMBX_TAMPER_COUNT. -/
def aSecmbxTamperCount : Nat := 0x900020
/-- SECMBX_TAMPER_CFG. -/
def aSecmbxTamperCfg : Nat := 0x900024
/-- SECMBX_TAMPER_EVENTS. -/
def aSecmbxTamperEvents : Nat := 0x900028
/-- SECMBX_DATA. -/
def aSecmbxData (i : Nat) : Nat := 0x900100 + 0x4 * i
/-- RNG_STATUS. -/
def aRngStatus : Nat := 0x900200
/-- RNG_CFG. -/
def aRngCfg : Nat := 0x900204
/-- RNG_HEALTH. -/
def aRngHealth : Nat := 0x900208
/-- RNG_TEST. -/
def aRngTest : Nat := 0x90020c

/-! ### Offsets of the MGMT block -/

/-- MGMT_FW_STATUS. -/
def aMgmtFwStatus : Nat := 0xa00000
/-- MGMT_FW_VERSION. -/
def aMgmtFwVersion : Nat := 0xa00004
/-- MGMT_UPD_ADDR_LO. -/
def aMgmtUpdAddrLo : Nat := 0xa00008
/-- MGMT_UPD_ADDR_HI. -/
def aMgmtUpdAddrHi : Nat := 0xa0000c
/-- MGMT_UPD_LEN. -/
def aMgmtUpdLen : Nat := 0xa00010
/-- MGMT_UPD_CTRL. -/
def aMgmtUpdCtrl : Nat := 0xa00014
/-- MGMT_UPD_STATUS. -/
def aMgmtUpdStatus : Nat := 0xa00018
/-- MGMT_UPD_CFG. -/
def aMgmtUpdCfg : Nat := 0xa0001c
/-- MGMT_TRIAL_LEFT. -/
def aMgmtTrialLeft : Nat := 0xa00020
/-- MGMT_WDT_CFG. -/
def aMgmtWdtCfg : Nat := 0xa00024
/-- MGMT_LEDGER_COUNT. -/
def aMgmtLedgerCount : Nat := 0xa00028
/-- MGMT_SETTINGS. -/
def aMgmtSettings : Nat := 0xa0002c

/-! ### Offsets of the DBG block -/

/-- DBG_MUX_CTRL. -/
def aDbgMuxCtrl : Nat := 0xb00000
/-- DBG_PROF_CTRL. -/
def aDbgProfCtrl : Nat := 0xb00004
/-- DBG_PTB_HOP01. -/
def aDbgPtbHop01 : Nat := 0xb00010
/-- DBG_PTB_HOP23. -/
def aDbgPtbHop23 : Nat := 0xb00014
/-- DBG_PTB_CREDIT. -/
def aDbgPtbCredit : Nat := 0xb00018
/-- DBG_PTB_LPDDR. -/
def aDbgPtbLpddr : Nat := 0xb0001c
/-- DBG_PTB_HAMPER. -/
def aDbgPtbHamper : Nat := 0xb00020
/-- DBG_PTB_HMP_MASK_LO. -/
def aDbgPtbHmpMaskLo : Nat := 0xb00024
/-- DBG_PTB_HMP_MASK_HI. -/
def aDbgPtbHmpMaskHi : Nat := 0xb00028
/-- DBG_PTB_COMMIT. -/
def aDbgPtbCommit : Nat := 0xb0002c
/-- DBG_PTB_STAMP. -/
def aDbgPtbStamp : Nat := 0xb00030
/-- DBG_PTB_STATUS. -/
def aDbgPtbStatus : Nat := 0xb00034
/-- DBG_PROF_SEL. -/
def aDbgProfSel (i j : Nat) : Nat := 0xb01000 + 0x400 * i + 0x4 * j
/-- DBG_PROF_CNT_LO. -/
def aDbgProfCntLo (i j : Nat) : Nat := 0xb04000 + 0x800 * i + 0x8 * j
/-- DBG_PROF_CNT_HI. -/
def aDbgProfCntHi (i j : Nat) : Nat := 0xb04004 + 0x800 * i + 0x8 * j

/-! ### Offsets of the PWR block -/

/-- PWR_STATUS. -/
def aPwrStatus : Nat := 0xc00000
/-- PWR_INPUT. -/
def aPwrInput : Nat := 0xc00004
/-- PWR_TEMP. -/
def aPwrTemp : Nat := 0xc00008
/-- PWR_CTRL. -/
def aPwrCtrl : Nat := 0xc0000c
/-- PWR_THROTTLE. -/
def aPwrThrottle : Nat := 0xc00010
/-- PWR_EVENTS. -/
def aPwrEvents : Nat := 0xc00014
/-- PWR_TRIPS. -/
def aPwrTrips : Nat := 0xc00018

/-! ### Offsets of the CLUSTER block -/

/-- CORE_ID. -/
def aCoreId (i j : Nat) : Nat := 0x1010000 + 0x100000 * i + 0x10000 * j
/-- CORE_ENG_STATUS. -/
def aCoreEngStatus (i j : Nat) : Nat := 0x1010004 + 0x100000 * i + 0x10000 * j
/-- CORE_NUM_POLICY. -/
def aCoreNumPolicy (i j : Nat) : Nat := 0x1010008 + 0x100000 * i + 0x10000 * j
/-- CORE_SCRATCH_SPLIT. -/
def aCoreScratchSplit (i j : Nat) : Nat := 0x101000c + 0x100000 * i + 0x10000 * j
/-- CORE_ECC. -/
def aCoreEcc (i j : Nat) : Nat := 0x1010010 + 0x100000 * i + 0x10000 * j
/-- CORE_OPS_LO. -/
def aCoreOpsLo (i j : Nat) : Nat := 0x1010014 + 0x100000 * i + 0x10000 * j
/-- CORE_OPS_HI. -/
def aCoreOpsHi (i j : Nat) : Nat := 0x1010018 + 0x100000 * i + 0x10000 * j
/-- CORE_ACC_POLICY. -/
def aCoreAccPolicy (i j : Nat) : Nat := 0x1010020 + 0x100000 * i + 0x10000 * j
/-- CORE_SR_SEED_LO. -/
def aCoreSrSeedLo (i j : Nat) : Nat := 0x1010024 + 0x100000 * i + 0x10000 * j
/-- CORE_SR_SEED_HI. -/
def aCoreSrSeedHi (i j : Nat) : Nat := 0x1010028 + 0x100000 * i + 0x10000 * j
/-- CORE_CTX_STATUS. -/
def aCoreCtxStatus (i j : Nat) : Nat := 0x101002c + 0x100000 * i + 0x10000 * j
/-- CORE_CTX_CLOSE. -/
def aCoreCtxClose (i j : Nat) : Nat := 0x1010030 + 0x100000 * i + 0x10000 * j
/-- CORE_SPILLS_LO. -/
def aCoreSpillsLo (i j : Nat) : Nat := 0x1010034 + 0x100000 * i + 0x10000 * j
/-- CORE_SPILLS_HI. -/
def aCoreSpillsHi (i j : Nat) : Nat := 0x1010038 + 0x100000 * i + 0x10000 * j
/-- CLUS_SCHED_STATUS. -/
def aClusSchedStatus (i : Nat) : Nat := 0x1000040 + 0x100000 * i
/-- CLUS_STREAM_CTRL. -/
def aClusStreamCtrl (i j : Nat) : Nat := 0x1000200 + 0x100000 * i + 0x20 * j
/-- CLUS_STREAM_BASE_LO. -/
def aClusStreamBaseLo (i j : Nat) : Nat := 0x1000204 + 0x100000 * i + 0x20 * j
/-- CLUS_STREAM_BASE_HI. -/
def aClusStreamBaseHi (i j : Nat) : Nat := 0x1000208 + 0x100000 * i + 0x20 * j
/-- CLUS_STREAM_STRIDE. -/
def aClusStreamStride (i j : Nat) : Nat := 0x100020c + 0x100000 * i + 0x20 * j
/-- CLUS_STREAM_COUNT. -/
def aClusStreamCount (i j : Nat) : Nat := 0x1000210 + 0x100000 * i + 0x20 * j
/-- CLUS_STREAM_POS. -/
def aClusStreamPos (i j : Nat) : Nat := 0x1000214 + 0x100000 * i + 0x20 * j

/-- Registers of the GLOBAL block, part 1. -/
def rowsGlobal1 : List RegRow := [
  ⟨"GLOBAL_PART", 0, [], 0xb1607400, 0, 0, 0, 0, 0, .single⟩,
  ⟨"GLOBAL_HEALTH", 0x100, [], 0, 0, 0, 0, 0, 0, .single⟩,
  ⟨"GLOBAL_DEGRADED", 0x104, [(16, 0x4)], 0, 0, 0, 0, 0, 0, .single⟩,
  ⟨"GLOBAL_ERR_STATUS", 0x200, [], 0, 0, 0, 0x80000000, 0, 0, .single⟩,
  ⟨"GLOBAL_ERR_COUNT", 0x204, [], 0, 0, 0, 0, 0, 0, .single⟩,
  ⟨"GLOBAL_ERR_INDEX", 0x208, [], 0, 0xffffffff, 0, 0, 0, 0, .single⟩,
  ⟨"GLOBAL_ERR_DATA", 0x210, [(8, 0x4)], 0, 0, 0, 0, 0, 0, .single⟩]

/-- Registers of the CHARTER block, part 1. -/
def rowsCharter1 : List RegRow := [
  ⟨"CHARTER_LOAD_ADDR_LO", 0x100000, [], 0, 0xfffffff8, 0, 0, 0, 0, .lo⟩,
  ⟨"CHARTER_LOAD_ADDR_HI", 0x100004, [], 0, 0xffffffff, 0, 0, 0, 0, .hi⟩,
  ⟨"CHARTER_LOAD_LEN", 0x100008, [], 0, 0x7fffff, 0, 0, 0, 0, .single⟩,
  ⟨"CHARTER_LOAD_CTRL", 0x10000c, [], 0, 0xfc, 0, 0, 0x1, 0, .single⟩,
  ⟨"CHARTER_LOAD_STATUS", 0x100010, [], 0, 0, 0, 0, 0, 0, .single⟩,
  ⟨"CHARTER_LOAD_AT", 0x100014, [], 0, 0, 0, 0, 0, 0, .single⟩,
  ⟨"CHARTER_EXPERT", 0x100018, [], 0, 0, 0, 0, 0, 0, .single⟩,
  ⟨"CHARTER_DEV_HASH", 0x100020, [(8, 0x4)], 0, 0, 0, 0, 0, 0, .single⟩,
  ⟨"CHARTER_REMOVE_CTRL", 0x100040, [], 0, 0xf0, 0, 0, 0x1, 0, .single⟩,
  ⟨"CHARTER_REMOVE_STATUS", 0x100044, [], 0, 0, 0, 0, 0, 0, .single⟩,
  ⟨"CHARTER_REMOVE_TIME", 0x100048, [], 0, 0, 0, 0, 0, 0, .single⟩,
  ⟨"CHARTER_REMOVE_OPS", 0x10004c, [], 0, 0, 0, 0, 0, 0, .single⟩,
  ⟨"CHARTER_REMOVE_DMA", 0x100050, [], 0, 0, 0, 0, 0, 0, .single⟩,
  ⟨"CHARTER_REMOVE_SEGMENTS", 0x100054, [], 0, 0, 0, 0, 0, 0, .single⟩,
  ⟨"CHARTER_REMOVE_SUBS", 0x100058, [], 0, 0, 0, 0, 0, 0, .single⟩,
  ⟨"CHARTER_REMOVE_WINDOWS", 0x10005c, [], 0, 0, 0, 0, 0, 0, .single⟩,
  ⟨"CHARTER_REMOVE_FOLIOS", 0x100060, [], 0, 0, 0, 0, 0, 0, .single⟩,
  ⟨"CHARTER_REMOVE_RECORDS", 0x100064, [], 0, 0, 0, 0, 0, 0, .single⟩]

/-- Registers of the SCHED block, part 1. -/
def rowsSched1 : List RegRow := [
  ⟨"SCHED_STATUS", 0x200000, [], 0, 0, 0, 0, 0, 0, .single⟩,
  ⟨"SCHED_PART_STATE", 0x200100, [(16, 0x20)], 0xa0000000, 0, 0, 0, 0, 0, .single⟩,
  ⟨"SCHED_PART_CTRL", 0x200104, [(16, 0x20)], 0x80008, 0, 0xf03ff, 0, 0, 0, .single⟩,
  ⟨"SCHED_PART_REPLAYS", 0x200108, [(16, 0x20)], 0, 0, 0, 0, 0, 0, .single⟩,
  ⟨"SCHED_WIN_CTRL", 0x201000, [(64, 0x200)], 0, 0x1, 0, 0, 0x6, 0, .single⟩,
  ⟨"SCHED_WIN_STATUS", 0x201004, [(64, 0x200)], 0, 0, 0, 0, 0, 0, .single⟩,
  ⟨"SCHED_CQ_BASE_LO", 0x201100, [(64, 0x200), (8, 0x20)], 0, 0xfffff000, 0, 0, 0, 0, .lo⟩,
  ⟨"SCHED_CQ_BASE_HI", 0x201104, [(64, 0x200), (8, 0x20)], 0, 0xffffffff, 0, 0, 0, 0, .hi⟩,
  ⟨"SCHED_CQ_CFG", 0x201108, [(64, 0x200), (8, 0x20)], 0, 0xffffff1f, 0, 0, 0, 0, .single⟩,
  ⟨"SCHED_CQ_HEAD", 0x20110c, [(64, 0x200), (8, 0x20)], 0, 0xffff, 0, 0, 0, 0, .single⟩,
  ⟨"SCHED_CQ_TAIL", 0x201110, [(64, 0x200), (8, 0x20)], 0, 0, 0, 0, 0, 0, .single⟩,
  ⟨"SCHED_PART_GROUP", 0x20010c, [(16, 0x20)], 0, 0, 0, 0, 0, 0, .single⟩,
  ⟨"SCHED_PART_SWITCH", 0x200110, [(16, 0x20)], 0, 0, 0, 0, 0, 0, .single⟩,
  ⟨"SCHED_PART_MOVE_CTRL", 0x200114, [(16, 0x20)], 0x803e8, 0, 0x1fffff, 0, 0, 0, .single⟩]

/-- Registers of the FOLIO block, part 1. -/
def rowsFolio1 : List RegRow := [
  ⟨"FOLIO_HOARD_STATUS", 0x300000, [], 0, 0, 0, 0, 0, 0, .single⟩,
  ⟨"FOLIO_HOARD_REPAIR", 0x300004, [], 0, 0, 0, 0, 0, 0, .single⟩,
  ⟨"FOLIO_HOARD_ECC", 0x300008, [], 0, 0, 0, 0, 0x1, 0, .single⟩,
  ⟨"FOLIO_LPDDR_STATUS", 0x30000c, [], 0, 0, 0, 0, 0, 0, .single⟩,
  ⟨"FOLIO_XFER", 0x300010, [], 0, 0, 0, 0, 0, 0, .single⟩,
  ⟨"FOLIO_CFG", 0x300014, [], 0x3c424040, 0, 0xffffffff, 0, 0, 0, .single⟩,
  ⟨"FOLIO_PART_HOARD", 0x300100, [(16, 0x20)], 0, 0, 0, 0, 0, 0, .single⟩,
  ⟨"FOLIO_PART_PIN", 0x300104, [(16, 0x20)], 0, 0, 0, 0, 0, 0, .single⟩,
  ⟨"FOLIO_PART_LPDDR", 0x300108, [(16, 0x20)], 0, 0, 0, 0, 0, 0, .single⟩,
  ⟨"FOLIO_PART_CTRL", 0x30010c, [(16, 0x20)], 0, 0, 0x80000000, 0, 0, 0, .single⟩,
  ⟨"FOLIO_PART_BIAS_LO", 0x300110, [(16, 0x20)], 0, 0, 0xffffffff, 0, 0, 0, .lo⟩,
  ⟨"FOLIO_PART_BIAS_HI", 0x300114, [(16, 0x20)], 0, 0, 0xffffffff, 0, 0, 0, .hi⟩,
  ⟨"FOLIO_PART_KEYGEN", 0x300118, [(16, 0x20)], 0, 0, 0, 0, 0, 0, .single⟩,
  ⟨"FOLIO_PART_MOVE", 0x30011c, [(16, 0x20)], 0, 0, 0, 0, 0, 0, .single⟩]

/-- Registers of the TALLY block, part 1. -/
def rowsTally1 : List RegRow := [
  ⟨"TALLY_HMP_CFG", 0x408000, [(64, 0x20)], 0x40, 0, 0x7f, 0, 0, 0, .single⟩,
  ⟨"TALLY_HMP_LEVEL", 0x408004, [(64, 0x20)], 0, 0xff, 0, 0, 0, 0, .single⟩,
  ⟨"TALLY_HMP_STATUS", 0x408008, [(64, 0x20)], 0x40000000, 0, 0, 0, 0, 0, .single⟩,
  ⟨"TALLY_HMP_EVENTS", 0x40800c, [(64, 0x20)], 0, 0, 0, 0x3, 0, 0, .single⟩,
  ⟨"TALLY_HMP_OVERRUNS", 0x408010, [(64, 0x20)], 0, 0, 0, 0, 0, 0, .single⟩,
  ⟨"TALLY_RET_SIZE", 0x40c000, [], 0, 0, 0, 0, 0, 0, .single⟩,
  ⟨"TALLY_RET_WPTR", 0x40c004, [], 0, 0, 0, 0, 0, 0, .single⟩,
  ⟨"TALLY_RET_MARK", 0x40c008, [], 0, 0, 0, 0, 0, 0, .single⟩,
  ⟨"TALLY_RET_STATUS", 0x40c00c, [], 0, 0, 0, 0, 0, 0, .single⟩,
  ⟨"TALLY_RET_HOLDS", 0x40c010, [], 0, 0, 0, 0, 0, 0, .single⟩,
  ⟨"TALLY_RET_PART_CTRL", 0x40c100, [(16, 0x20)], 0x80000000, 0, 0x80000000, 0, 0, 0, .single⟩,
  ⟨"TALLY_RET_PART_UNREV", 0x40c104, [(16, 0x20)], 0, 0, 0, 0, 0, 0, .single⟩,
  ⟨"TALLY_STATUS", 0x400000, [], 0, 0, 0, 0, 0, 0, .single⟩,
  ⟨"TALLY_WIN_STATE", 0x401000, [(64, 0x40)], 0, 0, 0, 0, 0, 0, .single⟩,
  ⟨"TALLY_WIN_CTRL", 0x401004, [(64, 0x40)], 0, 0, 0xffffffff, 0, 0, 0, .single⟩,
  ⟨"TALLY_WIN_OPEN_LO", 0x401008, [(64, 0x40)], 0, 0, 0, 0, 0, 0, .lo⟩,
  ⟨"TALLY_WIN_OPEN_HI", 0x40100c, [(64, 0x40)], 0, 0, 0, 0, 0, 0, .hi⟩,
  ⟨"TALLY_WIN_CLOSE_LO", 0x401010, [(64, 0x40)], 0, 0, 0, 0, 0, 0, .lo⟩,
  ⟨"TALLY_WIN_CLOSE_HI", 0x401014, [(64, 0x40)], 0, 0, 0, 0, 0, 0, .hi⟩,
  ⟨"TALLY_WIN_INDEX", 0x401018, [(64, 0x40)], 0, 0, 0, 0, 0, 0, .single⟩]

/-- Registers of the TALLY block, part 2. -/
def rowsTally2 : List RegRow := [
  ⟨"TALLY_WIN_EVENTS", 0x401034, [(64, 0x40)], 0, 0, 0, 0xf, 0, 0, .single⟩,
  ⟨"TALLY_REC_STATUS", 0x402000, [(64, 0x40)], 0, 0, 0, 0, 0, 0, .single⟩,
  ⟨"TALLY_REC_DONE_LO", 0x402014, [(64, 0x40)], 0, 0, 0, 0, 0, 0, .lo⟩,
  ⟨"TALLY_REC_DONE_HI", 0x402018, [(64, 0x40)], 0, 0, 0, 0, 0, 0, .hi⟩,
  ⟨"TALLY_REC_REL_LO", 0x40201c, [(64, 0x40)], 0, 0, 0, 0, 0, 0, .lo⟩,
  ⟨"TALLY_REC_REL_HI", 0x402020, [(64, 0x40)], 0, 0, 0, 0, 0, 0, .hi⟩,
  ⟨"TALLY_REC_EVENTS", 0x402024, [(64, 0x40)], 0, 0, 0, 0x3, 0, 0, .single⟩,
  ⟨"TALLY_REC_PART_CTRL", 0x403000, [(16, 0x20)], 0x10, 0, 0x7f, 0, 0, 0, .single⟩,
  ⟨"TALLY_REC_PART_THRESHOLD", 0x403004, [(16, 0x20)], 0, 0, 0, 0, 0, 0, .single⟩,
  ⟨"TALLY_WIN_OPENED", 0x40101c, [(64, 0x40)], 0, 0, 0, 0, 0, 0, .single⟩,
  ⟨"TALLY_WIN_COMMITS", 0x401020, [(64, 0x40)], 0, 0, 0, 0, 0, 0, .single⟩,
  ⟨"TALLY_WIN_ABORTS", 0x401024, [(64, 0x40)], 0, 0, 0, 0, 0, 0, .single⟩,
  ⟨"TALLY_WIN_STALE", 0x401028, [(64, 0x40)], 0, 0, 0, 0, 0, 0, .single⟩,
  ⟨"TALLY_WIN_REJECTS", 0x40102c, [(64, 0x40)], 0, 0, 0, 0, 0, 0, .single⟩,
  ⟨"TALLY_WIN_OPENSUB", 0x401030, [(64, 0x40)], 0, 0, 0, 0, 0, 0, .single⟩,
  ⟨"TALLY_REC_SELF", 0x402004, [(64, 0x40)], 0, 0, 0, 0, 0, 0, .single⟩,
  ⟨"TALLY_REC_PAIR", 0x402008, [(64, 0x40)], 0, 0, 0, 0, 0, 0, .single⟩,
  ⟨"TALLY_REC_SKIPPED", 0x40200c, [(64, 0x40)], 0, 0, 0, 0, 0, 0, .single⟩,
  ⟨"TALLY_REC_CONFLICTS", 0x402010, [(64, 0x40)], 0, 0, 0, 0, 0, 0, .single⟩]

/-- Registers of the POLY block, part 1. -/
def rowsPoly1 : List RegRow := [
  ⟨"POLY_STATUS", 0x500000, [], 0, 0, 0, 0, 0, 0, .single⟩,
  ⟨"POLY_ENG_STATUS", 0x500100, [(8, 0x20)], 0, 0, 0, 0, 0, 0, .single⟩,
  ⟨"POLY_ENG_OPS_LO", 0x500104, [(8, 0x20)], 0, 0, 0, 0, 0, 0, .lo⟩,
  ⟨"POLY_ENG_OPS_HI", 0x500108, [(8, 0x20)], 0, 0, 0, 0, 0, 0, .hi⟩,
  ⟨"POLY_ENG_KEYERR", 0x50010c, [(8, 0x20)], 0, 0, 0, 0, 0, 0, .single⟩,
  ⟨"POLY_SLOT_STATE", 0x501000, [(64, 0x20)], 0, 0, 0, 0, 0, 0, .single⟩,
  ⟨"POLY_SLOT_FP_LO", 0x501004, [(64, 0x20)], 0, 0, 0, 0, 0, 0, .lo⟩,
  ⟨"POLY_SLOT_FP_HI", 0x501008, [(64, 0x20)], 0, 0, 0, 0, 0, 0, .hi⟩,
  ⟨"POLY_SLOT_CEIL", 0x50100c, [(64, 0x20)], 0, 0, 0, 0, 0, 0, .single⟩,
  ⟨"POLY_PART_CTRL", 0x502000, [(16, 0x20)], 0, 0, 0x80000000, 0, 0, 0, .single⟩,
  ⟨"POLY_PART_COUNTS", 0x502004, [(16, 0x20)], 0, 0, 0, 0, 0, 0, .single⟩]

/-- Registers of the FTIME block, part 1. -/
def rowsFtime1 : List RegRow := [
  ⟨"FTIME_NOW_LO", 0x600000, [], 0, 0, 0, 0, 0, 0, .lo⟩,
  ⟨"FTIME_NOW_HI", 0x600004, [], 0, 0, 0, 0, 0, 0, .hi⟩,
  ⟨"FTIME_NOW_FRAC", 0x600008, [], 0, 0, 0, 0, 0, 0, .single⟩,
  ⟨"FTIME_STATUS", 0x60000c, [], 0, 0, 0, 0, 0, 0, .single⟩,
  ⟨"FTIME_OFFSET", 0x600010, [], 0, 0, 0, 0, 0, 0, .single⟩,
  ⟨"FTIME_HOLD", 0x600014, [], 0x32003e8, 0, 0xffffffff, 0, 0, 0, .single⟩,
  ⟨"FTIME_PPS", 0x600018, [], 0x80000000, 0, 0x80ffffff, 0, 0, 0, .single⟩,
  ⟨"FTIME_BEAT", 0x60001c, [], 0, 0, 0, 0, 0, 0, .single⟩,
  ⟨"FTIME_EVENTS", 0x600020, [], 0, 0, 0, 0x1f, 0, 0, .single⟩,
  ⟨"FTIME_PTP_DROPS", 0x600024, [], 0, 0, 0, 0, 0, 0, .single⟩]

/-- Registers of the RYT block, part 1. -/
def rowsRyt1 : List RegRow := [
  ⟨"RYT_PORT_STATUS", 0x700000, [(64, 0x4000)], 0, 0, 0, 0, 0, 0, .single⟩,
  ⟨"RYT_PORT_CTRL", 0x700004, [(64, 0x4000)], 0, 0, 0, 0, 0x1, 0, .single⟩,
  ⟨"RYT_PORT_CC", 0x700008, [(64, 0x4000)], 0x13880040, 0, 0xffffffff, 0, 0, 0, .single⟩,
  ⟨"RYT_PORT_EVENTS", 0x70000c, [(64, 0x4000)], 0, 0, 0, 0xf, 0, 0, .single⟩,
  ⟨"RYT_PORT_MAC_LO", 0x700040, [(64, 0x4000)], 0, 0, 0, 0, 0, 0, .lo⟩,
  ⟨"RYT_PORT_MAC_HI", 0x700044, [(64, 0x4000)], 0, 0, 0, 0, 0, 0, .hi⟩,
  ⟨"RYT_PART_JOB", 0x703000, [(16, 0x4000)], 0, 0, 0, 0, 0, 0, .single⟩,
  ⟨"RYT_PART_PEERS", 0x703004, [(16, 0x4000)], 0, 0, 0, 0, 0, 0, .single⟩,
  ⟨"RYT_PART_RETX", 0x703008, [(16, 0x4000)], 0x320006, 0, 0xffff0007, 0, 0, 0, .single⟩,
  ⟨"RYT_PORT_RX_FRAMES", 0x700010, [(64, 0x4000)], 0, 0, 0, 0, 0, 0, .single⟩,
  ⟨"RYT_PORT_TX_FRAMES", 0x700014, [(64, 0x4000)], 0, 0, 0, 0, 0, 0, .single⟩,
  ⟨"RYT_PORT_FEC_CORR", 0x700018, [(64, 0x4000)], 0, 0, 0, 0, 0, 0, .single⟩,
  ⟨"RYT_PORT_FEC_UNCORR", 0x70001c, [(64, 0x4000)], 0, 0, 0, 0, 0, 0, .single⟩,
  ⟨"RYT_PORT_DROP_MAC", 0x700020, [(64, 0x4000)], 0, 0, 0, 0, 0, 0, .single⟩,
  ⟨"RYT_PORT_DROP_STRANGER", 0x700024, [(64, 0x4000)], 0, 0, 0, 0, 0, 0, .single⟩,
  ⟨"RYT_PORT_DROP_AUTH", 0x700028, [(64, 0x4000)], 0, 0, 0, 0, 0, 0, .single⟩,
  ⟨"RYT_PORT_DROP_KEYGEN", 0x70002c, [(64, 0x4000)], 0, 0, 0, 0, 0, 0, .single⟩,
  ⟨"RYT_PORT_DROP_REORDER", 0x700030, [(64, 0x4000)], 0, 0, 0, 0, 0, 0, .single⟩,
  ⟨"RYT_PART_RETRANS", 0x70300c, [(16, 0x4000)], 0, 0, 0, 0, 0, 0, .single⟩,
  ⟨"RYT_PART_FAILS", 0x703010, [(16, 0x4000)], 0, 0, 0, 0, 0, 0, .single⟩]

/-- Registers of the RYT block, part 2. -/
def rowsRyt2 : List RegRow := [
  ⟨"RYT_PART_REKEYS", 0x703014, [(16, 0x4000)], 0, 0, 0, 0, 0, 0, .single⟩]

/-- Registers of the HOST block, part 1. -/
def rowsHost1 : List RegRow := [
  ⟨"HOST_LINK", 0x800000, [], 0, 0, 0, 0, 0, 0, .single⟩,
  ⟨"HOST_EVENTS", 0x800004, [], 0, 0, 0, 0x7, 0, 0, .single⟩,
  ⟨"HOST_DMA_STATUS", 0x800008, [], 0, 0, 0, 0, 0, 0, .single⟩,
  ⟨"HOST_TOD_LO", 0x80000c, [], 0, 0, 0, 0, 0, 0, .lo⟩,
  ⟨"HOST_TOD_HI", 0x800010, [], 0, 0, 0, 0, 0, 0, .hi⟩,
  ⟨"HOST_FN_STATE", 0x801000, [(64, 0x10)], 0x7f, 0, 0, 0, 0, 0, .single⟩,
  ⟨"HOST_PART_DMA", 0x802000, [(16, 0x20)], 0x8, 0, 0xf, 0, 0, 0, .single⟩]

/-- Registers of the SECMBX block, part 1. -/
def rowsSecmbx1 : List RegRow := [
  ⟨"SECMBX_LC", 0x900000, [], 0, 0, 0, 0, 0, 0, .single⟩,
  ⟨"SECMBX_CMD", 0x900004, [], 0, 0xfffffff0, 0, 0, 0x1, 0, .single⟩,
  ⟨"SECMBX_STATUS", 0x900008, [], 0, 0, 0, 0, 0, 0, .single⟩,
  ⟨"SECMBX_ATTR_LO", 0x90000c, [], 0, 0xffffffff, 0, 0, 0, 0, .lo⟩,
  ⟨"SECMBX_ATTR_HI", 0x900010, [], 0, 0xffffffff, 0, 0, 0, 0, .hi⟩,
  ⟨"SECMBX_LEN", 0x900014, [], 0, 0x1ff, 0, 0, 0, 0, .single⟩,
  ⟨"SECMBX_SLOTS", 0x900018, [], 0, 0, 0, 0, 0, 0, .single⟩,
  ⟨"SECMBX_TAMPER", 0x90001c, [], 0, 0, 0, 0, 0, 0, .single⟩,
  ⟨"SECMBX_TAMPER_COUNT", 0x900020, [], 0, 0, 0, 0, 0, 0, .single⟩,
  ⟨"SECMBX_TAMPER_CFG", 0x900024, [], 0x26a, 0, 0x800003ff, 0, 0, 0, .single⟩,
  ⟨"SECMBX_TAMPER_EVENTS", 0x900028, [], 0, 0, 0, 0x1f, 0, 0, .single⟩,
  ⟨"SECMBX_DATA", 0x900100, [(64, 0x4)], 0, 0xffffffff, 0, 0, 0, 0, .single⟩,
  ⟨"RNG_STATUS", 0x900200, [], 0, 0, 0, 0, 0, 0, .single⟩,
  ⟨"RNG_CFG", 0x900204, [], 0x3, 0, 0x7, 0, 0, 0, .single⟩,
  ⟨"RNG_HEALTH", 0x900208, [], 0, 0, 0, 0, 0, 0, .single⟩,
  ⟨"RNG_TEST", 0x90020c, [], 0x1, 0x8000ffff, 0, 0, 0, 0, .single⟩]

/-- Registers of the MGMT block, part 1. -/
def rowsMgmt1 : List RegRow := [
  ⟨"MGMT_FW_STATUS", 0xa00000, [], 0, 0, 0, 0, 0, 0, .single⟩,
  ⟨"MGMT_FW_VERSION", 0xa00004, [], 0, 0, 0, 0, 0, 0, .single⟩,
  ⟨"MGMT_UPD_ADDR_LO", 0xa00008, [], 0, 0xfffff000, 0, 0, 0, 0, .lo⟩,
  ⟨"MGMT_UPD_ADDR_HI", 0xa0000c, [], 0, 0xffffffff, 0, 0, 0, 0, .hi⟩,
  ⟨"MGMT_UPD_LEN", 0xa00010, [], 0, 0xffffffff, 0, 0, 0, 0, .single⟩,
  ⟨"MGMT_UPD_CTRL", 0xa00014, [], 0, 0xfff0, 0, 0, 0x1, 0, .single⟩,
  ⟨"MGMT_UPD_STATUS", 0xa00018, [], 0, 0, 0, 0, 0, 0, .single⟩,
  ⟨"MGMT_UPD_CFG", 0xa0001c, [], 0x258, 0, 0, 0, 0, 0xfff, .single⟩,
  ⟨"MGMT_TRIAL_LEFT", 0xa00020, [], 0, 0, 0, 0, 0, 0, .single⟩,
  ⟨"MGMT_WDT_CFG", 0xa00024, [], 0x3e8, 0, 0xffff, 0, 0, 0, .single⟩,
  ⟨"MGMT_LEDGER_COUNT", 0xa00028, [], 0, 0, 0, 0, 0, 0, .single⟩,
  ⟨"MGMT_SETTINGS", 0xa0002c, [], 0, 0, 0, 0, 0, 0, .single⟩]

/-- Registers of the DBG block, part 1. -/
def rowsDbg1 : List RegRow := [
  ⟨"DBG_MUX_CTRL", 0xb00000, [], 0xff, 0x8fff00ff, 0, 0, 0, 0, .single⟩,
  ⟨"DBG_PROF_CTRL", 0xb00004, [], 0, 0x80000000, 0, 0, 0x1, 0, .single⟩,
  ⟨"DBG_PTB_HOP01", 0xb00010, [], 0, 0xfff0fff, 0, 0, 0, 0, .single⟩,
  ⟨"DBG_PTB_HOP23", 0xb00014, [], 0, 0xfff0fff, 0, 0, 0, 0, .single⟩,
  ⟨"DBG_PTB_CREDIT", 0xb00018, [], 0x1000, 0x80001fff, 0, 0, 0, 0, .single⟩,
  ⟨"DBG_PTB_LPDDR", 0xb0001c, [], 0, 0xfff, 0, 0, 0, 0, .single⟩,
  ⟨"DBG_PTB_HAMPER", 0xb00020, [], 0, 0xff, 0, 0, 0, 0, .single⟩,
  ⟨"DBG_PTB_HMP_MASK_LO", 0xb00024, [], 0, 0xffffffff, 0, 0, 0, 0, .lo⟩,
  ⟨"DBG_PTB_HMP_MASK_HI", 0xb00028, [], 0, 0xffffffff, 0, 0, 0, 0, .hi⟩,
  ⟨"DBG_PTB_COMMIT", 0xb0002c, [], 0, 0xffff, 0, 0, 0, 0, .single⟩,
  ⟨"DBG_PTB_STAMP", 0xb00030, [], 0, 0xffffffff, 0, 0, 0, 0, .single⟩,
  ⟨"DBG_PTB_STATUS", 0xb00034, [], 0, 0, 0, 0, 0, 0, .single⟩,
  ⟨"DBG_PROF_SEL", 0xb01000, [(8, 0x400), (256, 0x4)], 0, 0xf800ffff, 0, 0, 0, 0, .single⟩,
  ⟨"DBG_PROF_CNT_LO", 0xb04000, [(8, 0x800), (256, 0x8)], 0, 0, 0, 0, 0, 0, .lo⟩,
  ⟨"DBG_PROF_CNT_HI", 0xb04004, [(8, 0x800), (256, 0x8)], 0, 0, 0, 0, 0, 0, .hi⟩]

/-- Registers of the PWR block, part 1. -/
def rowsPwr1 : List RegRow := [
  ⟨"PWR_STATUS", 0xc00000, [], 0, 0, 0, 0, 0, 0, .single⟩,
  ⟨"PWR_INPUT", 0xc00004, [], 0, 0, 0, 0, 0, 0, .single⟩,
  ⟨"PWR_TEMP", 0xc00008, [], 0, 0, 0, 0, 0, 0, .single⟩,
  ⟨"PWR_CTRL", 0xc0000c, [], 0, 0, 0, 0, 0x1, 0, .single⟩,
  ⟨"PWR_THROTTLE", 0xc00010, [], 0x7086464, 0, 0x7ffffff, 0, 0, 0, .single⟩,
  ⟨"PWR_EVENTS", 0xc00014, [], 0, 0, 0, 0xf, 0, 0, .single⟩,
  ⟨"PWR_TRIPS", 0xc00018, [], 0, 0, 0, 0, 0, 0, .single⟩]

/-- Registers of the CLUSTER block, part 1. -/
def rowsCluster1 : List RegRow := [
  ⟨"CORE_ID", 0x1010000, [(8, 0x100000), (9, 0x10000)], 0, 0, 0, 0, 0, 0, .single⟩,
  ⟨"CORE_ENG_STATUS", 0x1010004, [(8, 0x100000), (9, 0x10000)], 0, 0, 0, 0, 0, 0, .single⟩,
  ⟨"CORE_NUM_POLICY", 0x1010008, [(8, 0x100000), (9, 0x10000)], 0, 0, 0xe, 0, 0, 0, .single⟩,
  ⟨"CORE_SCRATCH_SPLIT", 0x101000c, [(8, 0x100000), (9, 0x10000)], 0x100828, 0, 0xffffff, 0, 0, 0, .single⟩,
  ⟨"CORE_ECC", 0x1010010, [(8, 0x100000), (9, 0x10000)], 0, 0, 0, 0, 0x1, 0, .single⟩,
  ⟨"CORE_OPS_LO", 0x1010014, [(8, 0x100000), (9, 0x10000)], 0, 0, 0, 0, 0, 0, .lo⟩,
  ⟨"CORE_OPS_HI", 0x1010018, [(8, 0x100000), (9, 0x10000)], 0, 0, 0, 0, 0, 0, .hi⟩,
  ⟨"CORE_ACC_POLICY", 0x1010020, [(8, 0x100000), (9, 0x10000)], 0x100c00, 0, 0x11f1f00, 0, 0, 0, .single⟩,
  ⟨"CORE_SR_SEED_LO", 0x1010024, [(8, 0x100000), (9, 0x10000)], 0, 0, 0xffffffff, 0, 0, 0, .lo⟩,
  ⟨"CORE_SR_SEED_HI", 0x1010028, [(8, 0x100000), (9, 0x10000)], 0, 0, 0xffffffff, 0, 0, 0, .hi⟩,
  ⟨"CORE_CTX_STATUS", 0x101002c, [(8, 0x100000), (9, 0x10000)], 0, 0, 0, 0, 0, 0, .single⟩,
  ⟨"CORE_CTX_CLOSE", 0x1010030, [(8, 0x100000), (9, 0x10000)], 0, 0, 0, 0, 0xffff, 0, .single⟩,
  ⟨"CORE_SPILLS_LO", 0x1010034, [(8, 0x100000), (9, 0x10000)], 0, 0, 0, 0, 0, 0, .lo⟩,
  ⟨"CORE_SPILLS_HI", 0x1010038, [(8, 0x100000), (9, 0x10000)], 0, 0, 0, 0, 0, 0, .hi⟩,
  ⟨"CLUS_SCHED_STATUS", 0x1000040, [(8, 0x100000)], 0, 0, 0, 0, 0, 0, .single⟩,
  ⟨"CLUS_STREAM_CTRL", 0x1000200, [(8, 0x100000), (16, 0x20)], 0, 0, 0xeff0ff7f, 0, 0, 0, .single⟩,
  ⟨"CLUS_STREAM_BASE_LO", 0x1000204, [(8, 0x100000), (16, 0x20)], 0, 0, 0xffff0000, 0, 0, 0, .lo⟩,
  ⟨"CLUS_STREAM_BASE_HI", 0x1000208, [(8, 0x100000), (16, 0x20)], 0, 0, 0xffffffff, 0, 0, 0, .hi⟩,
  ⟨"CLUS_STREAM_STRIDE", 0x100020c, [(8, 0x100000), (16, 0x20)], 0, 0, 0xffffffff, 0, 0, 0, .single⟩,
  ⟨"CLUS_STREAM_COUNT", 0x1000210, [(8, 0x100000), (16, 0x20)], 0, 0, 0xffffffff, 0, 0, 0, .single⟩]

/-- Registers of the CLUSTER block, part 2. -/
def rowsCluster2 : List RegRow := [
  ⟨"CLUS_STREAM_POS", 0x1000214, [(8, 0x100000), (16, 0x20)], 0, 0, 0, 0, 0, 0, .single⟩]

/-- The rows of the block that holds an offset; the clusters are blocks 16 to 23. -/
def blockRows (off : Nat) : List RegRow :=
  match off / 0x100000 with
  | 0 => rowsGlobal1
  | 1 => rowsCharter1
  | 2 => rowsSched1
  | 3 => rowsFolio1
  | 4 => rowsTally1 ++ rowsTally2
  | 5 => rowsPoly1
  | 6 => rowsFtime1
  | 7 => rowsRyt1 ++ rowsRyt2
  | 8 => rowsHost1
  | 9 => rowsSecmbx1
  | 10 => rowsMgmt1
  | 11 => rowsDbg1
  | 12 => rowsPwr1
  | b => if 16 ≤ b ∧ b ≤ 23 then rowsCluster1 ++ rowsCluster2 else []

/-- The copy numbers of an offset relative to a row's first copy, outermost first. -/
def dimIndex : List (Nat × Nat) → Nat → Option (List Nat)
  | [], d => if d = 0 then some [] else none
  | (n, s) :: ds, d => if d / s < n then (dimIndex ds (d % s)).map (fun l => d / s :: l) else none

/-- The copy numbers of an offset under a row. -/
def rowIndex (r : RegRow) (off : Nat) : Option (List Nat) :=
  if r.base ≤ off then dimIndex r.dims (off - r.base) else none

/-- The first row that holds an offset, with the copy numbers. -/
def findRow (off : Nat) : List RegRow → Option (RegRow × List Nat)
  | [] => none
  | r :: rs =>
    match rowIndex r off with
    | some ix => some (r, ix)
    | none => findRow off rs

/-- The register at a BAR0 offset, with its copy numbers. -/
def regAt (off : Nat) : Option (RegRow × List Nat) := findRow off (blockRows off)

/-- The reset value of the register at an offset; 0 where none lies. -/
def regReset (off : Nat) : W32 :=
  match regAt off with
  | some (r, _) => BitVec.ofNat 32 r.reset
  | none => 0

end Sys2Proof.Machine
end

