-- ==== Sys2Proof/Machine/StCore.lean ====
section
/-!
DEFINITION. Machine/StCore.lean: the state of a physical core beyond its registers: the spare map's
entry, accumulation contexts (04_accumulation R148 to R151) and counters.
-/
namespace Sys2Proof.Machine

/-- An accumulation context (R151). Its slot words lie in the spill region of core scratch (R86, R148). `chain` holds the
descriptors of the chain so far with the seed of each, which a replay re-executes (03 R133); its last one
names the tag that the context records (03 R131). -/
structure Ctx where
  part : Nat := 0
  mode : Nat := 0
  fmt : Nat := 0
  m : Nat := 1
  n : Nat := 1
  sr : Bool := false
  round : Nat := 0
  satFinite : Bool := false
  ftz : Bool := false
  fpLog2 : Nat := 12
  intLog2 : Nat := 16
  spillOff : Bool := false
  sat : Bool := false
  count : Nat := 0
  carry : Bool := false
  lapsed : Bool := false
  nseg : Nat := 0
  seed : Nat := 0
  chain : List (Bytes × Nat) := []
  /-- The core that held it failed: the chain restarts at its FIRST (03 R133). -/
  stale : Bool := false
deriving DecidableEq, Repr, Inhabited

/-- A bank of the operand registers (03 R107): one chunk of every A row and of every B row, with their scales. -/
structure OpBank where
  a : List (List Nat) := []
  b : List (List Nat) := []
  aScales : List (List Nat) := []
  bScales : List (List Nat) := []
deriving DecidableEq, Repr, Inhabited

/-- A physical core. `logical` is 0xFF for a spare or a fenced core. -/
structure Core where
  logical : Nat := 0xFF
  fenced : Bool := false
  /-- The logical number that a fenced core last held. -/
  lastLogical : Nat := 0xFF
  /-- The cycle in which a fenced core failed (19 R723). -/
  failedAt : Option Nat := none
  /-- A written CORE_SCRATCH_SPLIT that waits until the core is idle (03 R144). -/
  splitHeld : Option W32 := none
  corr : Nat := 0
  uncorr : Nat := 0
  /-- Closes that wait for the operation using the context (04 R193). -/
  closeHeld : Nat := 0
  ctxs : Tab (Option Ctx) := []
  /-- The cycles of the last two uncorrectable scratch errors that operations met, the later first (19 R720). -/
  scratchErrs : List Nat := []
  /-- The two banks of the operand registers (03 R107). -/
  bank0 : OpBank := {}
  bank1 : OpBank := {}
  /-- The shadow registers, row by row: the sums that the drain converts (03 R109). -/
  shadow : List W64 := []
  /-- The vector register file, lane `l` of register `r` under key `128 r + l` (03 R117). -/
  vregs : Tab W32 := []
deriving DecidableEq, Repr, Inhabited

/-- What core `c * 9 + k` is before the spare map names another use: cores 0 to 7 of a cluster hold
logical numbers 8c to 8c + 7, core 8 is the spare (log entry 9). -/
def coreInit (i : Nat) : Core := { logical := if i % 9 < 8 then 8 * (i / 9) + i % 9 else 0xFF }

end Sys2Proof.Machine
end

