-- ==== Sys2Proof/Machine/StFolio.lean ====
section
/-!
DEFINITION. Machine/StFolio.lean: the state of the Hoard, LPDDR5X and the folio unit
(06_hoard R250 to R322) and of a partition's move between phases (07_phase R339 to R346).
-/
namespace Sys2Proof.Machine

/-- CLASS of a leaf entry (R278). -/
inductive FClass where
  | hoard | lpddr | peer | host
deriving DecidableEq, Repr, Inhabited

/-- STATE of a leaf entry (R278). -/
inductive FState where
  | absent | resident | moving | retired | scrub
deriving DecidableEq, Repr, Inhabited

/-- A leaf entry (R278). `phasePin` tells a pin of the phase map from one of PIN or PLACE (R335);
`touched` says that the folio was accessed since the last age tick (R287). -/
structure Leaf where
  cls : FClass := .hoard
  state : FState := .absent
  keygen : Nat := 0
  pin : Bool := false
  phasePin : Bool := false
  dirty : Bool := false
  hvalid : Bool := false
  placed : Bool := false
  age : Nat := 0
  wclass : Nat := 0
  hframe : Nat := 0
  home : Nat := 0
  touched : Bool := false
deriving DecidableEq, Repr, Inhabited

/-- Why a folio is MOVING (R279). -/
inductive MoveKind where
  /-- Home to Hoard frame `dest`. -/
  | fetch
  /-- Dirty Hoard copy to its home (R290). -/
  | writeback
  /-- Home to LPDDR5X frame `dest` under the current generation (R299). -/
  | walk
  /-- Hoard copy to Hoard frame `dest` (R339). -/
  | column
  /-- A folio pulled from its old owner to LPDDR5X frame `dest` (R340, R341). -/
  | pull
deriving DecidableEq, Repr, Inhabited

/-- A folio transfer in flight (R279, FOLIO_XFER). `held` are the writes held until it commits, with
the tag of the operation that made each. For a peer fetch or a pull `parts` marks the eighths that have
arrived and `tries` counts the retries of R294. -/
structure Move where
  part : Nat := 0
  vfn : Nat := 0
  kind : MoveKind := .fetch
  dest : Nat := 0
  /-- Key generation that the move writes under. -/
  gen : Nat := 0
  held : List (Nat × Nat × Bytes) := []
  /-- Tags of the operations that wait for it. -/
  waiters : List Nat := []
  /-- The PIN and PLACED that a placement sets at its commit (R314). -/
  place : Bool := false
  /-- A move off a retired channel that copies the enciphered bytes as they are (R270, R273). -/
  raw : Bool := false
  /-- A prefetch stream started it (20 R743). -/
  stream : Bool := false
  flow : Nat := 0
  peer : Nat := 0
  parts : Nat := 0
  tries : Nat := 0
  /-- Reference cycle of the request to the peer (R295). -/
  since : Nat := 0
deriving DecidableEq, Repr, Inhabited

/-- What a Hoard frame is in use for. -/
inductive HUse where
  | free
  | folio (p vfn : Nat)
  | tally (w : Nat)
  | scrub
  | retired
deriving DecidableEq, Repr, Inhabited

/-- What an LPDDR5X frame is in use for. -/
inductive LUse where
  | free
  | folio (p vfn : Nat)
  | table (p : Nat)
  | scratch (p : Nat)
  | scrub
  | retired
deriving DecidableEq, Repr, Inhabited

/-- A frame waiting to be zeroed (R678), with the folio whose entry it holds in SCRUB, if any. -/
structure ScrubFrame where
  hoard : Bool := true
  frame : Nat := 0
  folio : Option (Nat × Nat) := none
deriving DecidableEq, Repr, Inhabited

/-- The regions of HOARD_SPLIT (R262). -/
inductive Region where
  | scratch | tallyAcc | retention | cache
deriving DecidableEq, Repr, Inhabited

/-- A prefetch stream (R307, CLUS_STREAM registers). `blocks` are the first folios of the blocks that
a phase-map stream with a large UNIT walks in turn, and `blk` the block in hand (R336). -/
structure Stream where
  enable : Bool := false
  release : Bool := false
  wrap : Bool := false
  charter : Bool := false
  part : Nat := 0
  wclass : Nat := 0
  w : Nat := 0
  ahead : Nat := 0
  base : Nat := 0
  stride : Nat := 0
  count : Nat := 0
  pos : Nat := 0
  blocks : List Nat := []
  blk : Nat := 0
  /-- Where the shards that the stream walks begin, counted from its first folio (R336); none listed is one shard. -/
  shards : List Nat := []
deriving DecidableEq, Repr, Inhabited

/-- What a partition's move still has to do (R339): folios to change column, to pull from a peer of
the rank given, and to hand off. -/
structure MovePlan where
  columns : List (Nat × Nat) := []
  pulls : List (Nat × Nat) := []
  /-- Pulls of this plan in flight. -/
  flying : List (Nat × Nat) := []
  /-- Pulls left behind (R345): folio and old owner's rank. -/
  behind : List (Nat × Nat) := []
  /-- Folios handed off and the ranks whose confirmation is due (R346). -/
  handoffs : List (Nat × Nat) := []
  /-- Folios that stay here and of which other ranks confirm a copy (R344). -/
  copies : List (Nat × Nat) := []
  /-- Folios given up as soon as they are no longer MOVING (R340, R346). -/
  leaving : List Nat := []
  /-- Folios of PIN classes that wait for their Hoard copy (R335). -/
  pins : List Nat := []
deriving DecidableEq, Repr, Inhabited

/-- A PULL_REQ that waits for this package's own phase (R342). -/
structure HeldPull where
  peer : Nat := 0
  vfn : Nat := 0
  phase : Nat := 0
  flow : Nat := 0
  /-- Reference cycle of its arrival. -/
  since : Nat := 0
deriving DecidableEq, Repr, Inhabited

/-- The Hoard, LPDDR5X and the folio tables. -/
structure FolioSt where
  /-- Hoard bytes, frame · 65,536 + offset. -/
  hoard : Tab Byte := []
  /-- LPDDR5X bytes as the channels hold them, enciphered (R272), frame · 65,536 + offset. What a table frame holds is
  not repeated here: it follows from the leaf entries (R276 to R278). -/
  lpddr : Tab Byte := []
  hUse : Tab HUse := []
  lUse : Tab LUse := []
  /-- Leaf entries, partition · 2^36 + virtual folio number. -/
  leaves : Tab Leaf := []
  /-- Table frames (R276), keyed by partition and place in the tree: (LPDDR5X frame, generation). -/
  tables : Tab (Nat × Nat) := []
  moves : List Move := []
  peak : Nat := 0
  scrubs : List ScrubFrame := []
  /-- Frames retired when HOARD_SPLIT was last applied (R55). -/
  splitRetired : List Nat := []
  /-- Frames that took over a region from a retired frame (R260). -/
  regionSwap : Tab Region := []
  /-- Spare rows used per sub-array, frame / 16 (R257). -/
  spares : Tab Nat := []
  /-- Rows repaired, keyed frame · 128 + row: the row maps to a spare. -/
  repaired : Tab Bool := []
  /-- Corrected errors per row in this patrol period (R256). -/
  rowCe : Tab Nat := []
  /-- Words of the Hoard that are uncorrectable (R254), by address / 8. -/
  poison : Tab Bool := []
  eccCorr : Nat := 0
  eccUncorr : Nat := 0
  lpddrCorr : Nat := 0
  /-- The cycles of the last 15 uncorrectable errors of each channel, the latest first (R270). -/
  chErrs : Tab (List Nat) := []
  /-- The cycle of the last age tick (R287). -/
  lastAge : Nat := 0
  /-- Where the walker's pass over a partition stands: the next folio number (R300). -/
  walkPos : Tab Nat := []
  /-- Retired channels, one bit each (R270). -/
  chRetired : Nat := 0
  streams : Tab Stream := []
deriving DecidableEq, Repr, Inhabited

end Sys2Proof.Machine
end

