-- ==== Sys2Proof/Machine/StLink.lean ====
section
/-!
DEFINITION. Machine/StLink.lean: the state of the Ryinig links (13_ryinig R523 to R573): ports,
streams, admission and the stranger ledger.
-/
namespace Sys2Proof.Machine

/-- A peer entry (R560). -/
structure Peer where
  index : Nat := 0
  /-- 0 PACKAGE, 1 RELAY, 2 MEMBER. -/
  role : Nat := 0
  rank : Nat := 0
  port : Nat := 0
  address : Bytes := []
  udp : Nat := 0
deriving DecidableEq, Repr, Inhabited

/-- A frame's message before it has a SEQ (R540): sub-head and data. -/
structure TxMsg where
  type : Nat := 0
  flow : Nat := 0
  more : Bool := false
  body : Bytes := []
deriving DecidableEq, Repr, Inhabited

/-- A frame sent and not yet acknowledged (R544): its generation, SEQ, TRY and the cycle of its last
transmission. -/
structure TxFrame where
  gen : Nat := 0
  seq : Nat := 0
  try_ : Nat := 0
  at_ : Nat := 0
  /-- RTO passed, and the retransmission waits to leave. -/
  due : Bool := false
  /-- RTO_US and RETX_LIMIT when it was first sent (R573). -/
  rtoUs : Nat := 50
  limit : Nat := 6
  msg : TxMsg := {}
deriving DecidableEq, Repr, Inhabited

/-- A received frame held for order (R541). -/
structure RxHeld where
  seq : Nat := 0
  type : Nat := 0
  flow : Nat := 0
  more : Bool := false
  /-- Ingress stamp in 1/256 ns, and SEND_STAMP in ns. -/
  stamp : Nat := 0
  sendStamp : Nat := 0
  body : Bytes := []
deriving DecidableEq, Repr, Inhabited

/-- The two streams between the package and one peer of a job (R540 to R548, R563). -/
structure Link where
  /-- Send side: generation, next SEQ, ACK counter, frames in flight, messages that wait, the window
  granted by the peer, the next FLOW, and a rekey that waits for acknowledgements. -/
  txGen : Nat := 0
  txSeq : Nat := 0
  txAck : Nat := 0
  sent : List TxFrame := []
  queue : List TxMsg := []
  credit : Nat := 16
  flow : Nat := 0
  rekey : Bool := false
  /-- Receive side: generation, next SEQ expected, frames held, the generation before it while it is
  live and the cycle from which it may be retired. -/
  rxGen : Nat := 0
  rxNext : Nat := 0
  held : List RxHeld := []
  /-- The message whose frames with MORE have come (R535). -/
  asm : Bytes := []
  oldGen : Option (Nat × Nat) := none
  /-- The window in 1/256 segments and the values of R546, in ns; `dmin` is none until a frame came. -/
  w : Nat := 4096
  dmin : Option Int := none
  dminAt : Nat := 0
  lastCut : Nat := 0
  /-- Acceptances not yet acknowledged and the cycle of the first. -/
  accepts : Nat := 0
  acceptAt : Nat := 0
  /-- Cumulative grants of each hamper rank, and the segments pushed under them (R548). -/
  grants : List Nat := [0, 0, 0, 0, 0, 0, 0, 0]
  pushed : List Nat := [0, 0, 0, 0, 0, 0, 0, 0]
  /-- Reference cycle of the last segment received for each hamper rank, plus 1; 0 before the first. -/
  lastSeg : List Nat := [0, 0, 0, 0, 0, 0, 0, 0]
deriving DecidableEq, Repr, Inhabited

/-- Admission states (R562). -/
inductive Adm where
  | none | pending | admitted
deriving DecidableEq, Repr, Inhabited

/-- The admission of a partition to its job. -/
structure Admission where
  st : Adm := .none
  reason : Nat := 0
  /-- The pending handshake: port, address and UDP port of the admitter, keys with their IVs, and the
  cycle of its deadline. -/
  port : Nat := 0
  source : Bytes := []
  sourceUdp : Nat := 0
  kA2p : Bytes := []
  kP2a : Bytes := []
  deadline : Nat := 0
  /-- The package's own peer index, the peer table, and for each hamper rank where the dealing of a
  remainder of grants goes on (R548). -/
  own : Nat := 0
  peers : List Peer := []
  grantTurn : List Nat := [0, 0, 0, 0, 0, 0, 0, 0]
  /-- REKEY_AT times that have been acted on or had passed at admission (R563). -/
  rekeys : Nat := 0
  /-- The first cycle in which the stranger filter knows the job: the one after that of its admission (R568). -/
  known : Nat := 0
deriving DecidableEq, Repr, Inhabited

/-- An entry of a port's stranger ledger (R554). -/
structure Stranger where
  addr : Bytes := []
  job : Nat := 0
  reason : Nat := 0
  count : Nat := 0
  lastSeen : Nat := 0
deriving DecidableEq, Repr, Inhabited

/-- A frame that waits outside any stream: an ARP, Neighbor or other whole frame in `raw`, or a frame of
job 0 to an address. -/
structure CtlMsg where
  raw : Option Bytes := none
  addr : Bytes := []
  udp : Nat := 0
  type : Nat := 0
  flow : Nat := 0
  seq : Nat := 0
  more : Bool := false
  body : Bytes := []
deriving DecidableEq, Repr, Inhabited

/-- A message of job 0 whose frames are still arriving (R535). -/
structure ZeroMsg where
  addr : Bytes := []
  type : Nat := 0
  next : Nat := 0
  body : Bytes := []
deriving DecidableEq, Repr, Inhabited

/-- A link port. -/
structure Port where
  /-- Failed lanes of the port, one bit each, and the lanes of the group in use. -/
  failed : Nat := 0
  lanes : Nat := 0
  firstLane : Nat := 0
  up : Bool := false
  retraining : Bool := false
  /-- Frames that wait outside any stream, and messages of job 0 that are arriving. -/
  control : List CtlMsg := []
  zero : List ZeroMsg := []
  /-- Partition that the round robin serves next (R550). -/
  turn : Nat := 0
  strangers : List Stranger := []
  /-- Strangers in the current millisecond, with its number. -/
  strMs : Nat := 0
  strCount : Nat := 0
  /-- Job 0 frames in the current second, with its number. -/
  zeroSec : Nat := 0
  zeroCount : Nat := 0
  /-- By lane of the port, the reports of uncorrectable codewords of the last second: cycle and count (R565). -/
  fec : Tab (List (Nat × Nat)) := []
  /-- The second of the last rate alarm's ledger entry. -/
  alarmSec : Option Nat := none
  /-- Hardware address of NEXT_HOP, once resolved (R529). -/
  nextMac : Option Bytes := none
deriving DecidableEq, Repr, Inhabited

end Sys2Proof.Machine
end

