-- ==== Sys2Proof/Machine/StMgmt.lean ====
section
/-!
DEFINITION. Machine/StMgmt.lean: the state of the management domain and of the flash die (18_firmware R688
to R716), and of the supply, the clocks and the pins (21_power R756 to R779).
-/
namespace Sys2Proof.Machine

/-- The update states (R706). -/
inductive Upd where
  | idle | staging | staged | trial | checking | fallback
deriving DecidableEq, Repr, Inhabited

/-- A valid settings area (R711): its schema and SEQ, and the image of the device charter last loaded (00_scope
R17). Firmware settings of other kinds are not described by the manual. -/
structure Settings where
  schema : Nat := 0
  seq : Nat := 0
  charter : Option Bytes := none
deriving DecidableEq, Repr, Inhabited

/-- An entry of the update ledger (R714). -/
structure UpdEntry where
  seq : Nat := 0
  event : Nat := 0
  slot : Nat := 0
  svn : Nat := 0
  reason : Nat := 0
  ftNs : Nat := 0
  version : Nat := 0
  status : Nat := 0
  digest : Bytes := []
deriving DecidableEq, Repr, Inhabited

/-- What the header of the running bundle says (R691, R694). -/
structure Bundle where
  slot : Nat := 0
  svn : Nat := 0
  version : Nat := 0
  schemaMin : Nat := 0
  schemaMax : Nat := 0
  digest : Bytes := []
deriving DecidableEq, Repr, Inhabited

/-- The management domain, flash and the fuses that concern them. -/
structure MgmtSt where
  /-- Slots A and B, by byte offset in the flash die. -/
  flash : Tab Byte := []
  /-- Settings areas A and B; none is an area that is not valid. -/
  setA : Option Settings := none
  setB : Option Settings := none
  /-- The boot record (R689): whether one is valid, ACTIVE_SLOT, TRIAL_SLOT, the update state and TRIAL_S. -/
  record : Bool := false
  active : Nat := 0
  trialSlot : Option Nat := none
  upd : Upd := .idle
  trialS : Nat := 600
  /-- SEQ of the record in force: each write of one copy adds one (R637, R689). -/
  recSeq : Nat := 0
  /-- The fallback in hand: its EVENT code in the update ledger (R706, R714). -/
  cause : Nat := 0
  /-- The trial was activated from recovery mode, which is its fallback (R710). -/
  recFallback : Bool := false
  /-- The confirmed SVN that the counter is still to reach (R707). -/
  confirmed : Nat := 0
  /-- The anti-rollback counter and the fuse LEGACY_INTAKE (R696, R707). -/
  counter : Nat := 0
  legacyBlown : Bool := false
  /-- The running bundle; none before one is loaded and in recovery mode. -/
  bundle : Option Bundle := none
  /-- The bundle on trial is running, and the reference cycle at which its START_DONE was set. -/
  onTrial : Bool := false
  trialFrom : Nat := 0
  /-- The firmware runs on defaults (R712). -/
  defaults : Bool := false
  /-- The update ledger, newest last, and the number of entries ever written (R714). -/
  ledger : List UpdEntry := []
  ledgerCount : Nat := 0
  /-- An ACTIVATE that waits for a load or a removal to end (R701). -/
  waiting : Bool := false
  /-- Address, length and slot of the STAGE in hand. -/
  stageAddr : Nat := 0
  stageLen : Nat := 0
  /-- The DMA engine that its reads hold (14 R596). -/
  stageEng : Option Nat := none
  /-- Reference cycles of the MP watchdog resets (19 R729), newest first, at most 4. -/
  wdt : List Nat := []
  /-- The start in hand has loaded its images and waits for the start-complete command (R700). -/
  loaded : Bool := false
deriving DecidableEq, Repr, Inhabited

/-- SEQ of the boot record that is written next. -/
def MgmtSt.nextSeq (m : MgmtSt) : Nat := (m.recSeq + 1) % 2 ^ 32

/-- The supply, the clocks and the pins. -/
structure PwrSt where
  vinMv : Nat := 0
  vinHigh : Bool := false
  /-- PWR_GOOD, and the levels of PERST_N (true while asserted) and RECOVERY_N (true while low). -/
  good : Bool := true
  perst : Bool := true
  recoveryLow : Bool := false
  /-- The package has tripped and stays off until VIN falls (R772). -/
  tripped : Bool := false
  /-- Thermal trips ever, in MRAM. -/
  trips : Nat := 0
  /-- Steps down of the arithmetic clock (R769), the cycle of the last step up, and the cycle since which Tj
  has been at or above TJ_THROTTLE at 1.65 GHz. -/
  steps : Nat := 0
  upAt : Nat := 0
  hotFrom : Option Nat := none
  tj : Nat := 0
  sensor : Nat := 0
  inputW : Nat := 0
  /-- The boot ROM has not run since the last reset. -/
  bootDue : Bool := true
  /-- A tamper alarm woke the package from DOZE: its event waits for the host port (15 R649). -/
  wakeEvent : Bool := false
deriving DecidableEq, Repr, Inhabited

end Sys2Proof.Machine
end

