-- ==== Sys2Proof/Machine/StPoly.lean ====
section
/-!
DEFINITION. Machine/StPoly.lean: the parameter slots of the polynomial engines (12_polynomial R492 to R497,
R509).
-/
namespace Sys2Proof.Machine

/-- A loaded parameter set (R493). `primes` holds (Q, LOG2Q), the data primes and then the special ones;
`binds` the keys bound: GALOIS and address (R509). -/
structure PolySlot where
  part : Nat := 0
  fp : Nat := 0
  nLog2 : Nat := 12
  limbs : Nat := 1
  specials : Nat := 0
  digits : Nat := 1
  refreshLevel : Nat := 0
  scheme : Nat := 0
  expand : Nat := 0
  ksAdd : Nat := 0
  rsFloor : Nat := 0
  refreshNoise : Nat := 0
  primes : List (Nat × Nat) := []
  binds : List (Nat × Nat) := []
deriving DecidableEq, Repr, Inhabited

end Sys2Proof.Machine
end

