-- ==== Sys2Proof/Machine/CharterTypes.lean ====
section
/-!
DEFINITION. Machine/CharterTypes.lean: what a charter says (02_charters R43 to R56, R81), record by
record. The records of a device charter and of a job charter are plain data here; reading them out
of an image is Machine/CharterImage.lean.
-/
namespace Sys2Proof.Machine

/-- One PARTITION record (R52). -/
structure PartRec where
  id : Nat := 0
  func : Nat := 0
  coreMask : Nat := 0
  folioFrames : Nat := 0
  lpddrGib : Nat := 0
  portMask : Nat := 0
  pin : Bytes := []
deriving DecidableEq, Repr, Inhabited

/-- One port entry of PORT_PLAN (R531). -/
structure PortEnt where
  pcp : Nat := 0
  vid : Nat := 0
  enable : Bool := false
  ipv4 : Bool := false
  ptpEn : Bool := false
  prefixLen : Nat := 0
  address : Bytes := []
  nextHop : Bytes := []
deriving DecidableEq, Repr, Inhabited

/-- The PORT_PLAN record (R531). -/
structure PortPlan where
  mode : Nat := 0
  udpPort : Nat := 0x4759
  ports : List PortEnt := []
deriving DecidableEq, Repr, Inhabited

/-- One entry of BEAT_PLAN: bit m of `slots` lets `part` send on `port` in beat position m (R373). -/
structure BeatEnt where
  port : Nat := 0
  part : Nat := 0
  slots : Nat := 0
deriving DecidableEq, Repr, Inhabited

/-- The BEAT_PLAN record (R373). -/
structure BeatPlan where
  log2 : Nat := 10
  guard : Nat := 0
  cycle : Nat := 1
  entries : List BeatEnt := []
deriving DecidableEq, Repr, Inhabited

/-- The HOARD_SPLIT record (R53). -/
structure HoardSplit where
  scratch : Nat := 0
  tallyAcc : Nat := 0
  retention : Nat := 0
  folioMin : Nat := 0
deriving DecidableEq, Repr, Inhabited

/-- The TIME_SOURCE record (R355). -/
structure TimeSource where
  source : Nat := 2
  port : Nat := 0
  domain : Nat := 0
  twoStep : Bool := false
  masterOk : Bool := false
  transport : Nat := 0
  limit : Nat := 1000
  rate : Nat := 50
  logSync : Int := 0
  logDelayReq : Int := 0
  masterId : Nat := 0
  ppsDelay : Nat := 0
deriving DecidableEq, Repr, Inhabited

/-- The TAMPER_MODE record (R645): `responses` in source code order, 0 LOG, 1 HOLD, 2 DESTROY. -/
structure TamperMode where
  sweep : Bool := false
  responses : List Nat := [2, 2, 2, 1, 2]
deriving DecidableEq, Repr, Inhabited

/-- The DEBUG_POLICY record (R738). -/
structure DebugPolicy where
  muxEn : Bool := false
  snapMs : Nat := 0
  profMask : Nat := 0
deriving DecidableEq, Repr, Inhabited

/-- A device charter as loaded. -/
structure DevCharter where
  hash : Bytes := []
  serial : Nat := 0
  signed : Bool := false
  parts : List PartRec := []
  plan : PortPlan := {}
  beats : Option BeatPlan := none
  split : HoardSplit := {}
  time : TimeSource := {}
  routes : List (Nat × Nat) := []
  tamper : Option TamperMode := none
  dbg : DebugPolicy := {}
deriving DecidableEq, Repr, Inhabited

/-- One class entry of a PHASE_MAP (R325). -/
structure ClassEnt where
  id : Nat := 0
  kind : Nat := 0
  prefetch : Bool := false
  release : Bool := false
  wrap : Bool := false
  pin : Bool := false
  wclass : Nat := 0
  pkgWays : Nat := 1
  cluWays : Nat := 1
  ahead : Nat := 0
  base : Nat := 0
  len : Nat := 0
  unit : Nat := 1
deriving DecidableEq, Repr, Inhabited

/-- One phase of the job: its PHASE_MAP records joined (R323, R324). -/
structure PhaseMap where
  phase : Nat := 0
  packages : Nat := 1
  slices : Nat := 0xFF
  blockLog2 : Nat := 10
  bias : Nat := 0
  classes : List ClassEnt := []
deriving DecidableEq, Repr, Inhabited

/-- One TALLY_GEOMETRY record, a window template (R411). -/
structure Geometry where
  template : Nat := 0
  elem : Nat := 0
  neighbours : Nat := 0
  shamirT : Nat := 2
  length : Nat := 1
  contributors : Nat := 1
  modulus : Nat := 0
  firstOpen : Nat := 0
  period : Nat := 0
  duration : Nat := 1000000
  graceUs : Nat := 100
  idleUs : Nat := 500
  releaseDelay : Nat := 0
  dest : Nat := 0
  threshold : Nat := 64
  hampers : Nat := 1
  hostIngest : Bool := false
deriving DecidableEq, Repr, Inhabited

/-- The KEY_POLICY record (R557). -/
structure KeyPolicy where
  jobId : Nat := 1
  rekeyLog2 : Nat := 20
  destroySweep : Bool := false
  admitterPin : Bytes := []
  rekeyAt : List Nat := []
deriving DecidableEq, Repr, Inhabited

/-- One key-set entry of HE_POLICY (R492). -/
structure HeEntry where
  fingerprint : Nat := 0
  ceiling : Nat := 0
  autoRefresh : Bool := false
  refreshMacro : Nat := 0
deriving DecidableEq, Repr, Inhabited

/-- A job charter as loaded. -/
structure JobCharter where
  hash : Bytes := []
  serial : Nat := 0
  signed : Bool := false
  phases : List PhaseMap := []
  templates : List Geometry := []
  key : KeyPolicy := {}
  he : Option (List HeEntry) := none
  minCores : Nat := 0
  quota : Nat := 64
  threshold : Nat := 1
  overrides : List (Nat × Nat) := []
deriving DecidableEq, Repr, Inhabited

/-- Either kind of charter. -/
inductive Charter where
  | device (c : DevCharter)
  | job (c : JobCharter)
deriving DecidableEq, Repr

/-- The reasons of R74, with their codes in `LoadReason.code`. -/
inductive LoadReason where
  | none | badHeader | wrongTarget | badCrc | badHash | badSignature | signerPin | badRecord | range
  | capacity | noDeviceCharter | noPartition | wrongFunction | windowActive | tdiLocked | loadBusy
  | unsignedTrusted | resourceInUse | abandoned
deriving DecidableEq, Repr

end Sys2Proof.Machine
end

