-- ==== Sys2Proof/Machine/StSched.lean ====
section
/-!
DEFINITION. Machine/StSched.lean: the state of the scheduler (05_hardware_scheduler), of the error
ledger (19_limits R730, R731), of a charter load and a removal, and what leaves the package.
-/
namespace Sys2Proof.Machine

/-- Where an operation in flight stands: waiting (or ready), running on an engine, finished
executing, or completed with its record not yet written (R209, R228). -/
inductive OpStage where
  | waiting | running | finished | recording
deriving DecidableEq, Repr

/-- An operation in flight: one entry of a core window (R209). -/
structure Op where
  part : Nat := 0
  tag : Nat := 0
  desc : Bytes := []
  func : Nat := 0
  slot : Nat := 0
  /-- The number of this descriptor among those fetched from its window (R216). -/
  fetchNo : Nat := 0
  /-- Logical core whose window holds the entry (R210). -/
  holder : Nat := 0
  /-- Logical core it is placed on; 0xFF for a shared-unit operation. -/
  core : Nat := 0xFF
  /-- Tags whose completion it waits for (R214). -/
  deps : List Nat := []
  /-- It waits for substitution (R223). -/
  waitSub : Bool := false
  stage : OpStage := .waiting
  /-- ENGINES of its partition at admission (14 R606). -/
  engines : Nat := 8
  /-- A host DMA operation whose function had Bus Master Enable 0 at admission (14 R598). -/
  bmeOff : Bool := false
  status : Nat := 0
  /-- Completion flags (R234). -/
  flags : Nat := 0
  info : Nat := 0
  replays : Nat := 0
  /-- Engine that runs it: the DMA engine, polynomial engine or Tally slice. -/
  unit : Nat := 0
  /-- Ranges that it holds beyond those its body names (06 R289). -/
  holds : List (Nat × Nat) := []
  /-- Folios that it has read so far: preparing it again is no further access (06 R287, R310). -/
  seen : List Nat := []
  /-- Work done so far by an operation that goes on in pieces, as its unit counts it. -/
  progress : Nat := 0
  /-- CORE_SR_SEED of its partition at admission (04 R193). -/
  seed : Nat := 0
  /-- It was placed by AUTO (R219, R225). -/
  auto : Bool := true
  /-- The context that its completion closed, for a replay before its record is written (R221, 03 R133). -/
  ctxBack : Option Ctx := none
deriving DecidableEq, Repr, Inhabited

/-- A completion record formed and not yet written (R234, R237); `bytes` has LAP 0. -/
structure PendRec where
  func : Nat := 0
  ring : Nat := 0
  part : Nat := 0
  tag : Nat := 0
  /-- It belongs to an entry in flight, which it frees. -/
  hasEntry : Bool := false
  irq : Bool := false
  bytes : Bytes := []
  /-- Tags of its partition whose records are written before it: those that caused its cancellation (R215). -/
  after : List Nat := []
deriving DecidableEq, Repr, Inhabited

/-- A descriptor that the fetcher has taken and not yet admitted (R211). -/
structure Held where
  desc : Bytes := []
  slot : Nat := 0
  fetchNo : Nat := 0
deriving DecidableEq, Repr, Inhabited

/-- A completion ring beyond its registers: the LAP value of the next record (R236), the records
written since the last message and the cycle of the first of them (R239). -/
structure RingSt where
  lap : Bool := true
  since : Nat := 0
  firstAt : Option Nat := none
deriving DecidableEq, Repr, Inhabited

/-- The states of a TDI (R588). -/
inductive Tdi where
  | unlocked | locked | run | error
deriving DecidableEq, Repr

/-- A secure SPDM session of a function (14_host R592): its number, its phase, the transcript hash
so far and its secrets. -/
structure SpdmSession where
  id : Nat := 0
  established : Bool := false
  transcript : Bytes := []
  handshakeSecret : Bytes := []
  dataSecret : Bytes := []
  /-- Key updates of the requester's and of the responder's direction. -/
  reqGen : Nat := 0
  rspGen : Nat := 0
  /-- The transcript that the data secrets were derived over. -/
  finished : Bytes := []
deriving DecidableEq, Repr, Inhabited

/-- One function: its command window's fetcher (R203, R211), its TDI (R588), its SPDM connection. -/
structure Func where
  enable : Bool := false
  fetchPtr : Nat := 0
  discards : Nat := 0
  /-- Descriptors fetched from the window. -/
  fetched : Nat := 0
  held : Option Held := none
  tdi : Tdi := .unlocked
  bme : Bool := false
  stream : Nat := 0x7F
  /-- Records and messages are discarded after the TDI left RUN (14 R590). -/
  discard : Bool := false
  /-- SPDM connection: 0 none, 1 after GET_VERSION, 2 after GET_CAPABILITIES, 3 negotiated. -/
  conn : Nat := 0
  /-- The transcripts of the connection: VCA, the digest and certificate messages, and the measurement
  messages since the last signature. -/
  vca : Bytes := []
  msgB : Bytes := []
  msgL : Bytes := []
  sessions : List SpdmSession := []
  /-- The nonce that START_INTERFACE_REQUEST must carry: that of the last LOCK_INTERFACE_RESPONSE. -/
  nonce : Bytes := []
deriving DecidableEq, Repr, Inhabited

/-- The state of a partition's phase (R227). -/
inductive PhState where
  | opn | draining | boundary | moving | stopped | noJob
deriving DecidableEq, Repr

/-- A PHASE_SWITCH in progress: it holds no entry, so its descriptor is kept here (R227). -/
structure Switch where
  desc : Bytes := []
  func : Nat := 0
  slot : Nat := 0
  /-- Reference cycle at which DRAINING began. -/
  drainAt : Nat := 0
  /-- Reference cycle at which MOVING began. -/
  moveAt : Nat := 0
  /-- DRAIN_MS when DRAINING began (R246), and MOVE_WAIT_MS when MOVING did (07 R349). -/
  drainMs : Nat := 0
  moveMs : Nat := 0
  /-- MOVE_WAIT_MS has passed (07 R344). -/
  waitOver : Bool := false
  /-- The completion flags of the switch (00_scope R27). -/
  flags : Nat := 0
deriving DecidableEq, Repr, Inhabited

/-- An entry of the error ledger (R731). -/
structure ErrEntry where
  seq : Nat := 0
  status : Nat := 0
  source : Nat := 0
  reason : Nat := 0
  ftNs : Nat := 0
  part : Option Nat := none
  func : Nat := 0xFF
  detail : Bytes := []
deriving DecidableEq, Repr, Inhabited

/-- A charter load that has passed its checks and is BUSY (02_charters R68 to R71). -/
structure Load where
  charter : Charter
  /-- Target partition of a job charter. -/
  part : Nat := 0
  /-- The image, which the firmware keeps (00_scope R17), and the FUNCTION code of the request. -/
  image : Bytes := []
  code : Nat := 0
  /-- Function whose MSI-X takes the completion (R584), and an FLR of it since (14 R603). -/
  func : Nat := 0
  mute : Bool := false
  /-- The keys of its partition do not exist yet, and it waits for them (17 R677). -/
  needsKeys : Bool := false
  /-- The affected partitions, and those of them still to be paused, ascending. -/
  affects : List Nat := []
  toPause : List Nat := []
  /-- The partition now paused, with the cycle at which its pause began. -/
  paused : Option (Nat × Nat) := none
  /-- The charter's values have been written (the first pause applies them). -/
  applied : Bool := false
deriving DecidableEq, Repr

/-- What was set in reference cycle `at_`, by register: the bits of W1C registers that hardware set (00_scope R23), and
the registers of the DBG block that JTAG wrote (20 R755). -/
structure HwSet where
  at_ : Nat := 0
  bits : Tab W32 := []
deriving DecidableEq, Repr

/-- A tenant removal in progress (17_tenants R672 to R676). -/
structure Removal where
  part : Nat := 0
  /-- Reference cycle of acceptance. -/
  since : Nat := 0
  /-- A tamper alarm fired during it (R679). -/
  tamper : Bool := false
  /-- The partition's job as it was in the cycle of acceptance (R679): its id, the key of R559, the peers and the streams. -/
  jobId : Nat := 0
  prk : Option Bytes := none
  own : Nat := 0
  peers : List Peer := []
  links : Tab Link := []
deriving DecidableEq, Repr, Inhabited

/-- What leaves the package, in order: the model's own record of it. -/
inductive Out where
  /-- An MSI-X message of a function on a vector (14_host R582). -/
  | msix (f vector : Nat)
  /-- The value returned by a register or BAR read. -/
  | readData (req : Req) (off : Nat) (v : W32)
  /-- Bytes returned by a read of BAR2 or BAR4. -/
  | barData (bytes : Bytes)
  /-- A PCI Express completion without data of the status given: 0 Successful, 1 Unsupported Request, 2
  Request Retry Status. -/
  | cpl (f status : Nat)
  /-- The data of a configuration read. -/
  | cfgData (f off : Nat) (v : W32)
  /-- The Device Readiness Status message (R575). -/
  | drs
  /-- An Ethernet frame sent on a link port. -/
  | frame (port : Nat) (bytes : Bytes)
  /-- An SPDM, DOE or TDISP response of a function. -/
  | doe (f : Nat) (bytes : Bytes)
  /-- An MCTP response, over I3C or PCI Express. -/
  | mctp (i3c : Bool) (bytes : Bytes)
  /-- The level of an output pin. -/
  | pin (name : String) (high : Bool)
  /-- The group that DBG_MUX carries as its use begins (20 R739). -/
  | mux (v : BitVec 16)
  /-- A JTAG read result. -/
  | tdo (v : W32)
deriving DecidableEq, Repr

end Sys2Proof.Machine
end

