-- ==== Sys2Proof/Machine/StTally.lean ====
section
/-!
DEFINITION. Machine/StTally.lean: the state of Tally: hampers and the retention ring (09_hampers R381 to
R405), windows and submissions (10_tally R417 to R436) and recovery (11_tally R449 to R466). The
accumulators, the contributor ledgers and the recovery ledgers are bytes of Hoard frames.
-/
namespace Sys2Proof.Machine

/-- The states of R422. -/
inductive WinState where
  | free | defined | opn | grace | recovering | released | discarded | contaminated | belowThreshold
deriving DecidableEq, Repr, Inhabited

/-- The sub-states of R449. -/
inductive RecPhase where
  | none | summing | accepting | recovered | releasing
deriving DecidableEq, Repr, Inhabited

/-- A window. -/
structure Window where
  st : WinState := .free
  part : Nat := 0
  /-- The defining function, and VECTOR (R448). -/
  func : Nat := 0
  vector : Nat := 0
  geo : Geometry := {}
  index : Nat := 0
  openAt : Nat := 0
  closeAt : Nat := 0
  byCommand : Bool := false
  summed : Bool := false
  /-- Bound hampers, ascending. -/
  hampers : List Nat := []
  /-- TALLY_ACC frames reserved and not yet taken (R417). -/
  reserved : Nat := 0
  /-- The shard layout fixed at the opening: TALLY_SLICES and TALLY_BLOCK_LOG2 (R37, R338). -/
  slices : Nat := 0
  blockLog2 : Nat := 0
  /-- Accumulator frames, slice by slice in the order of the set bits of `slices` (R420). -/
  accFrames : List (List Nat) := []
  ledgerFrames : List Nat := []
  recFrames : List Nat := []
  /-- Cycle at which the grace timer started, and GRACE_US then (R447). -/
  graceFrom : Nat := 0
  graceUs : Nat := 0
  phase : RecPhase := .none
  releaseFailed : Bool := false
  /-- It met a slice that failed (R439). -/
  sliceMoved : Bool := false
deriving DecidableEq, Repr, Inhabited

/-- The states of a bank (R385). -/
inductive BankState where
  | free | filling | consuming
deriving DecidableEq, Repr, Inhabited

/-- A slot of a hamper bank (R381). `dropped` marks a slot whose submission aborted before it was
summed (R434). -/
structure HSlot where
  contributor : Nat := 0
  subId : Nat := 0
  seg : Nat := 0
  fin : Bool := false
  payload : Bytes := []
  /-- Ingress stamp in 1/256 ns. -/
  stamp : Nat := 0
  /-- The append of this slot waits (R398). -/
  waiting : Bool := false
  retained : Bool := false
  popped : Bool := false
  summed : Bool := false
  dropped : Bool := false
deriving DecidableEq, Repr, Inhabited

/-- A bank: `thr` is the threshold in force since it became FILLING (R407). -/
structure Bank where
  st : BankState := .free
  ctOpen : Bool := false
  thr : Nat := 64
  slots : List HSlot := []
deriving DecidableEq, Repr, Inhabited

/-- A hamper (R381, R382). `last` is the bank that became FILLING last: 1 where it is true. -/
structure Hamper where
  win : Option Nat := none
  bank0 : Bank := {}
  bank1 : Bank := {}
  last : Bool := false
deriving DecidableEq, Repr, Inhabited

/-- One segment of an open submission: its ring offset once appended, and whether it has been summed. -/
structure SegRec where
  seg : Nat := 0
  len : Nat := 0
  ring : Option Nat := none
  summed : Bool := false
deriving DecidableEq, Repr, Inhabited

/-- An open submission (R427 to R434), kept until its commit or until its reversal is done. -/
structure Sub where
  win : Nat := 0
  contributor : Nat := 0
  subId : Nat := 0
  relay : Nat := 0
  nextSeg : Nat := 0
  /-- Payload bytes pushed so far. -/
  bytes : Nat := 0
  /-- The additional data of the seal so far (R431). -/
  aad : Bytes := []
  /-- SEAL of the END segment, once pushed. -/
  sealBytes : Option Bytes := none
  /-- The cycle of that push. -/
  endAt : Nat := 0
  /-- DBG_PTB_COMMIT.DELAY_US as the seal is judged (20 R748). -/
  delayUs : Nat := 0
  segs : List SegRec := []
  /-- The number of its first append among all, and its ring offset (R401). -/
  first : Option (Nat × Nat) := none
  unrev : Bool := false
  /-- Reason of the abort whose reversal runs (R433). -/
  aborted : Option Nat := none
  /-- The idle timer (R424, R404): cycles run, the cycle up to which they are counted, whether it stands
  still, and IDLE_US at its last start. -/
  idleRun : Nat := 0
  idleAt : Nat := 0
  frozen : Bool := false
  idleUs : Nat := 0
  /-- The TALLY_INGEST of its END segment that waits for the outcome (R442): partition and tag. -/
  host : Option (Nat × Nat) := none
deriving DecidableEq, Repr, Inhabited

/-- A recovery group that runs (11 R457, R463, R466): the operation and the number of the group in it, the window, the
contributor, KIND, the Strongbox slot of its secret, its masks (taken from the sum, or added to it, each with key and
nonce), the neighbours skipped, and the elements of its masks that have been subtracted. -/
structure RecGroup where
  part : Nat := 0
  tag : Nat := 0
  index : Nat := 0
  win : Nat := 0
  contributor : Nat := 0
  kind : Nat := 0
  slot : Nat := 0
  masks : List (Bool × Bytes × Bytes) := []
  skipped : Nat := 0
  at_ : Nat := 0
deriving DecidableEq, Repr, Inhabited

/-- The state of Tally. -/
structure TallySt where
  wins : Tab Window := []
  hmps : Tab Hamper := []
  subs : List Sub := []
  wptr : Nat := 0
  /-- Appends made so far. -/
  appends : Nat := 0
  hold : Bool := false
  holdOpen : Bool := false
  /-- Ring positions whose frame was replaced (R397): position to frame. -/
  ringSwap : Tab Nat := []
  /-- Whose bytes the lines of the ring hold: Hoard address / 64, to the partition's number plus 1 (01 R39). -/
  ringOwner : Tab Nat := []
  /-- Recovery groups that run, in the order in which they reached the ledger. -/
  groups : List RecGroup := []
deriving DecidableEq, Repr, Inhabited

end Sys2Proof.Machine
end

