-- ==== Sys2Proof/Machine/StTime.lean ====
section
/-!
DEFINITION. Machine/StTime.lean: the state of federation time (08_federation_time): the accumulator,
the servo, the lock state, the PTP port and the PPS pins.
-/
namespace Sys2Proof.Machine

/-- The lock states of R362. -/
inductive FtLock where
  | unlocked | locked | holdover
deriving DecidableEq, Repr, Inhabited

/-- What an Announce message says of a clock, for the best master clock algorithm of IEEE 1588
(R356): the data set compared and the sender's port identity. -/
structure Announce where
  priority1 : Nat := 255
  clockClass : Nat := 255
  accuracy : Nat := 255
  variance : Nat := 65535
  priority2 : Nat := 255
  gmId : Nat := 0
  steps : Nat := 0
  /-- sourcePortIdentity: the clock identity and the port number, 80 bits. -/
  sender : Nat := 0
deriving DecidableEq, Repr, Inhabited

/-- A clock from which Announce messages have come (R356): its last data set, and the reference cycles of the last message
and of the one before it. -/
structure Foreign where
  data : Announce := {}
  last : Nat := 0
  prev : Option Nat := none
deriving DecidableEq, Repr, Inhabited

/-- Federation time. -/
structure FtSt where
  /-- FT in ns with 32 fractional bits (R350, R351). -/
  acc : Nat := 0
  /-- The rate word (R351). -/
  rate : Nat := 0x333333333
  lock : FtLock := .unlocked
  ever : Bool := false
  /-- A step has been made since cold reset (R360; log entry 44). -/
  stepped : Bool := false
  /-- Consecutive updates that left the estimate at or below the limit (R362). -/
  good : Nat := 0
  /-- HOLDOVER_LIMIT and HOLD_RATE in effect (R379). -/
  limit : Nat := 1000
  holdRate : Nat := 50
  /-- Offsets of the offset history in 1/256 ns, newest first, at most 8 (R361). -/
  hist : List Int := []
  /-- The estimate, in 1/256 ns, that a loss or a step left, from `lossAt` on growing or not (R361). -/
  estBase : Nat := 0
  growing : Bool := false
  /-- Reference cycle from which the estimate grows. -/
  lossAt : Nat := 0
  /-- Last measured offset in ns. -/
  lastOffset : Int := 0
  /-- The master chosen by the best master clock algorithm. -/
  gm : Option Announce := none
  /-- The clocks heard on the PTP port, and whether the algorithm has chosen the device's own clock (R356). -/
  foreign : List Foreign := []
  selfMaster : Bool := false
  /-- Reference cycle of the chosen master's last Announce, or at which the port began to listen for one. -/
  lastAnnounce : Nat := 0
  /-- The instant, within the reference cycle and in 820ths of it, of the event that a command stamps (R352); 0 outside
  such a command. -/
  sub : Nat := 0
  /-- A two-step Sync whose Follow_Up is awaited: sequence id, receive stamp and correction, 1/256 ns. -/
  syncWait : Option (Nat × Int × Int) := none
  /-- Reference cycle of the last Sync received. -/
  lastSync : Nat := 0
  /-- A Delay_Req sent whose Delay_Resp is awaited: sequence id and send stamp, 1/256 ns. -/
  delayWait : Option (Nat × Int) := none
  /-- The last Sync's t1 and t2, corrected, 1/256 ns. -/
  lastT12 : Option (Int × Int) := none
  /-- Mean path delay, 1/256 ns. -/
  pathDelay : Int := 0
  /-- Sequence ids of the messages sent: Announce, Sync, Delay_Req. -/
  seqAnnounce : Nat := 0
  seqSync : Nat := 0
  seqDelay : Nat := 0
  /-- The last change of DBG_PTB_STAMP.OFFSET: its reference cycle, and the value that the stamps of that
  cycle still take (20 R751). -/
  offsetAt : Option Nat := none
  offsetOld : Nat := 0
  /-- A Sync sent in two-step mode whose Follow_Up is due: sequence id and send stamp. -/
  followDue : Option (Nat × Nat) := none
  /-- Delay_Req messages received as master and not yet answered: sender, sequence id, receive stamp
  and correction. -/
  delayDue : List (Nat × Nat × Nat × Int) := []
  /-- TAI seconds of the next PPS_IN edge, as the BMC sent it, with its SEQ (R359, R594). -/
  tod : Option Nat := none
  /-- Reference cycle of the last PPS_IN edge. -/
  lastPps : Option Nat := none
  /-- FT_NS of the beat boundary from which beats run again (R362). -/
  beatFrom : Nat := 0
  /-- PPS_OUT is high. -/
  ppsOut : Bool := false
deriving DecidableEq, Repr, Inhabited

end Sys2Proof.Machine
end

