-- ==== Sys2Proof/Machine/State.lean ====
section
/-!
DEFINITION. Machine/State.lean: the whole state of the package, its state right after reset, and the
reasons for which a step can stop.
-/
namespace Sys2Proof.Machine

/-- One partition. -/
structure PartSt where
  job : Option JobCharter := none
  ph : PhState := .noJob
  target : Nat := 0
  phase : Nat := 0
  switch : Option Switch := none
  plan : MovePlan := {}
  heldPulls : List HeldPull := []
  paused : Bool := false
  /-- RWL writes held in a pause (02 R72): offset, value, and the _LO value pending for a _HI. -/
  heldRwl : List (Nat × W32 × Option W32) := []
  expert : Bool := false
  /-- LAST_OK of each tag (05 R213); the entry of a tag not listed reads 1. -/
  lastOk : Tab Bool := []
  rank : Option Nat := none
  /-- SINCE and SINCE_FT of measurement block 8 (17 R683, R684). -/
  since : Nat := 0
  sinceFt : Nat := 0
  /-- Current MEMORY generation, and the live ones, one bit each (06 R297). -/
  keyCur : Nat := 0
  keyLive : Nat := 0
  hoardDeg : Bool := false
  lpddrDeg : Bool := false
  /-- Admission to the job of its charter (13 R562). -/
  adm : Admission := {}
deriving DecidableEq, Repr, Inhabited

/-- The power states of 21_power R764. -/
inductive Power where
  | off | active | idle | doze | waking
deriving DecidableEq, Repr, Inhabited

/-- The state of the package. -/
structure State where
  /-- Commands waiting, first in first out. -/
  pending : List Instr := []
  /-- Usable GiB per LPDDR5X stack: 96 or 48 (00_scope R3). -/
  stackGib : Nat := 96
  /-- Cycles of the 312.5 MHz reference since cold reset. -/
  cycles : Nat := 0
  ft : FtSt := {}
  power : Power := .active
  pwr : PwrSt := {}
  mgmt : MgmtSt := {}
  /-- START_DONE (15 R617). -/
  startDone : Bool := false
  tamperHold : Bool := false
  recoveryMode : Bool := false
  /-- The management domain is restarting (14 R600). -/
  restarting : Bool := false
  /-- The MP firmware serves configuration requests (14 R575). -/
  configReady : Bool := false
  /-- Registers whose value is stored, by BAR0 offset; an unlisted one holds its reset value. -/
  regs : Tab W32 := []
  /-- _HI latches (R20), keyed by requester and pair. -/
  latches : Tab W32 := []
  /-- What hardware has set in W1C registers, and JTAG written in the DBG block, in this reference cycle (R23, R755). -/
  hwSet : HwSet := {}
  /-- Pending _LO values of writable pairs (R21, R22). -/
  pendLo : Tab (Option W32) := []
  /-- NumVFs of the PF's SR-IOV capability (14 R576). -/
  numVfs : Nat := 0
  funcs : Tab Func := []
  rings : Tab RingSt := []
  /-- The function at which the fetcher's round robin goes on (05 R205). -/
  fetchTurn : Nat := 0
  /-- Command windows, function · 65,536 + offset (05 R199). -/
  slots : Tab Byte := []
  parts : Tab PartSt := []
  ops : List Op := []
  recs : List PendRec := []
  /-- IDE streams in the Secure state: selective 0 to 63, 64 the link stream (14 R585). -/
  ide : Tab Bool := []
  /-- Keys of the IDE streams (14 R585). -/
  ideKeys : Tab Nat := []
  /-- MSI-X tables: function · 1,024 + dword (14 R582). -/
  msix : Tab W32 := []
  /-- MSI-X pending bits: function · 256 + vector. -/
  pba : Tab Bool := []
  /-- Messages that wait for Bus Master Enable (14 R599): function, vector. -/
  msixHeld : List (Nat × Nat) := []
  dev : Option DevCharter := none
  load : Option Load := none
  removal : Option Removal := none
  cores : Tab Core := []
  /-- Logical core numbers retired (19 R724), one bit each. -/
  retired : Nat := 0
  /-- Failed Tally slices (10 R439) and polynomial engines (12 R520), one bit each. -/
  sliceFailed : Nat := 0
  polyFailed : Nat := 0
  /-- Core scratch, core · 4 MiB + offset (03 R84). -/
  scratch : Tab Byte := []
  folio : FolioSt := {}
  tally : TallySt := {}
  /-- Parameter slots of the polynomial engines (12 R496); none is a free slot. -/
  poly : Tab (Option PolySlot) := []
  /-- The limb buffer of each polynomial engine (12 R489), as the number of the draw that gives its bytes by
  `Config.limbByte`: what an operation leaves there is open. -/
  limbBufs : Tab Nat := []
  /-- Streams, partition · 1,024 + peer index. -/
  links : Tab Link := []
  ports : Tab Port := []
  sbox : Sbox := {}
  rng : Rng := {}
  errs : List ErrEntry := []
  /-- The instruction of the JTAG port (20 R752), as JTAG_INSTRUCTION numbers it; 1 is IDCODE. -/
  jtagIns : Nat := 1
  /-- MCTP endpoint ids: 0 PCI Express, 1 I3C (14 R593). -/
  eids : Tab Nat := []
  /-- Host memory, by host bus address. -/
  hostMem : Tab Byte := []
  out : List Out := []
  /-- The number of open values drawn so far (log entry 8): the model's own. -/
  fresh : Nat := 0
deriving DecidableEq, Repr

/-- The state right after reset (00_scope R15). -/
def State.reset : State := {}

/-- Reasons to stop with a fault. -/
inductive Fault where
  /-- Raised by no command of this model. Safe: nothing stops for it. -/
  | none
deriving DecidableEq, Repr

/-- Reasons to refuse a command. -/
inductive Refusal where
  /-- A command without a meaning yet, by the mnemonic of the opcode table. Safe: the model stops. -/
  | notModelled (mnemonic : String)
deriving DecidableEq, Repr

end Sys2Proof.Machine
end

