-- ==== Sys2Proof/Machine/Ops.lean ====
section
/-!
DEFINITION. Machine/Ops.lean: the named operations over the state that every family uses: reading and
writing its parts, registers, time, the error ledger and interrupts.
-/
namespace Sys2Proof.Machine

/-! ### Parts of the state -/

/-- Partition `p`. -/
def State.part (s : State) (p : Nat) : PartSt := Tab.look (fun _ => {}) s.parts p

/-- The state with partition `p` replaced. -/
def State.setPart (s : State) (p : Nat) (x : PartSt) : State :=
  { s with parts := Tab.store (fun _ => {}) s.parts p x }

/-- The state with partition `p` changed. -/
def State.modPart (s : State) (p : Nat) (f : PartSt → PartSt) : State := s.setPart p (f (s.part p))

/-- Function `f`. -/
def State.func (s : State) (f : Nat) : Func := Tab.look (fun _ => {}) s.funcs f

/-- The state with function `f` changed. -/
def State.modFunc (s : State) (f : Nat) (g : Func → Func) : State :=
  { s with funcs := Tab.store (fun _ => {}) s.funcs f (g (s.func f)) }

/-- Ring `r` of function `f`. -/
def State.ring (s : State) (f r : Nat) : RingSt := Tab.look (fun _ => {}) s.rings (8 * f + r)

/-- The state with ring `r` of function `f` changed. -/
def State.modRing (s : State) (f r : Nat) (g : RingSt → RingSt) : State :=
  { s with rings := Tab.store (fun _ => {}) s.rings (8 * f + r) (g (s.ring f r)) }

/-- Physical core `i = 9 c + k`. -/
def State.core (s : State) (i : Nat) : Core := Tab.look coreInit s.cores i

/-- The state with physical core `i` changed. -/
def State.modCore (s : State) (i : Nat) (g : Core → Core) : State :=
  { s with cores := Tab.store coreInit s.cores i (g (s.core i)) }

/-- The state with the folio unit changed. -/
def State.modFolio (s : State) (g : FolioSt → FolioSt) : State := { s with folio := g s.folio }

/-! ### Registers as stored -/

/-- The stored value of a register. -/
def State.reg (s : State) (off : Nat) : W32 := Tab.look regReset s.regs off

/-- The stored value of a register, as a number. -/
def State.regN (s : State) (off : Nat) : Nat := (s.reg off).toNat

/-- The state with a register's stored value replaced. -/
def State.setReg (s : State) (off : Nat) (v : W32) : State := { s with regs := Tab.store regReset s.regs off v }

/-- The state with a register's stored value replaced by the low 32 bits of a number. -/
def State.setRegN (s : State) (off v : Nat) : State := s.setReg off (BitVec.ofNat 32 v)

/-- A 64-bit pair's stored value, _LO at `lo` and _HI at `lo + 4`. -/
def State.pair (s : State) (lo : Nat) : Nat := s.regN lo + 2 ^ 32 * s.regN (lo + 4)

/-- The state with a 64-bit pair's stored value replaced. -/
def State.setPair (s : State) (lo v : Nat) : State := (s.setRegN lo v).setRegN (lo + 4) (v / 2 ^ 32)

/-- A 32-bit count increased by `n`, saturating. -/
def State.countUp (s : State) (off n : Nat) : State :=
  s.setRegN off (if s.regN off + n < 2 ^ 32 then s.regN off + n else 2 ^ 32 - 1)

/-- One thing more that leaves the package. -/
def State.emit (s : State) (o : Out) : State := { s with out := s.out ++ [o] }

/-- `n` more of an event of partition `p` in cluster `k`, in the profiling counters that count it while
DBG_PROF_CTRL.RUN is 1 (20 R743 to R745). -/
def State.prof (s : State) (k p ev n : Nat) : State :=
  if (s.reg aDbgProfCtrl).getLsbD 31 then
    let k := k % 8
    let lo := aDbgProfSel k 0
    let sel := s.regs.filter (fun e => decide (lo ≤ e.1) && decide (e.1 < lo + 0x400) &&
      decide (bits e.2.toNat 15 0 = ev) && (bit e.2.toNat 27 || decide (bits e.2.toNat 31 28 = p)))
    sel.foldl (fun t e =>
      let c := (e.1 - lo) / 4
      t.setPair (aDbgProfCntLo k c) ((t.pair (aDbgProfCntLo k c) + n) % 2 ^ 64)) s
  else s

/-- An open value, and the state that has drawn it (log entry 8). -/
def State.free (s : State) : W64 × State := (Config.freeValue s.fresh, { s with fresh := s.fresh + 1 })

/-- `8 * n` bytes that no rule states (log entry 8). -/
def State.freeBytes : Nat → State → Bytes × State
  | 0, s => ([], s)
  | n + 1, s =>
    let r := s.free
    let q := State.freeBytes n r.2
    (toLE 8 r.1.toNat ++ q.1, q.2)

/-- Events whose number no rule states: engine cycles and Hoard lines (20 R743; log entry 181). -/
def State.profOpen (s : State) (k p ev : Nat) : State :=
  if (s.reg aDbgProfCtrl).getLsbD 31 then
    let r := s.free
    r.2.prof k p ev (r.1.toNat % 2 ^ 32)
  else s

/-! ### Time -/

/-- FT_NS (08 R350). -/
def State.ftNs (s : State) : Nat := s.ft.acc / 2 ^ 32 % 2 ^ 64

/-- FT_FRAC (08 R351). -/
def State.ftFrac (s : State) : Nat := s.ft.acc / 2 ^ 24 % 256

/-- FT in 1/256 ns. -/
def State.ft256 (s : State) : Nat := s.ft.acc / 2 ^ 24

/-- FT at the instant that a command stamps, in 1/256 ns: interpolated between reference cycles (08 R352). -/
def State.stamp256 (s : State) : Nat := (s.ft.acc + s.ft.rate * s.ft.sub / 820) / 2 ^ 24

/-- What a command does at an instant within the reference cycle. -/
def State.atInstant (s : State) (sub : Nat) (g : State → State) : State :=
  let t := g { s with ft := { s.ft with sub := sub } }
  { t with ft := { t.ft with sub := 0 } }

/-- FT is LOCKED or in HOLDOVER (08 R362). -/
def State.ftLocked (s : State) : Bool := decide (s.ft.lock ≠ .unlocked)

/-- `n` reference cycles pass (08 R351). -/
def State.advance (s : State) (n : Nat) : State :=
  { s with cycles := s.cycles + n, ft := { s.ft with acc := (s.ft.acc + n * s.ft.rate) % 2 ^ 96 } }

/-- Reference cycles until FT_NS is at least `t`: 0 where it is already (08 R369). -/
def State.cyclesTo (s : State) (t : Nat) : Nat := ceilDiv (t * 2 ^ 32 - s.ft.acc) s.ft.rate

/-- Time passes until the first reference cycle whose FT_NS is at least `t` (08 R369; log entry 7). -/
def State.advanceTo (s : State) (t : Nat) : State := s.advance (s.cyclesTo t)

/-- Reference cycles in `us` µs, rounded up. -/
def usCycles (us : Nat) : Nat := ceilDiv (us * 625) 2

/-- Time passes until reference cycle `c` where it lies ahead (log entry 7). -/
def State.advanceToCycle (s : State) (c : Nat) : State := s.advance (c - s.cycles)

/-- One reference cycle passes; a package that is off has no clock (log entry 1). -/
def State.tick (s : State) : State := if s.power = .off then s else s.advance 1

/-! ### Charters -/

/-- The PARTITION record of partition `p`. -/
def State.partRec (s : State) (p : Nat) : Option PartRec :=
  s.dev.bind (fun d => d.parts.find? (fun r => r.id == p))

/-- The partition whose PARTITION record names function `f` (14 R578). -/
def State.partOfFunc (s : State) (f : Nat) : Option Nat :=
  s.dev.bind (fun d => (d.parts.find? (fun r => r.func == f)).map (·.id))

/-- The function that partition `p`'s record names. -/
def State.funcOfPart (s : State) (p : Nat) : Option Nat := (s.partRec p).map (·.func)

/-- The job charter of partition `p`. -/
def State.job (s : State) (p : Nat) : Option JobCharter := (s.part p).job

/-- The map of the phase that partition `p` is in. -/
def State.phaseMap (s : State) (p : Nat) : Option PhaseMap :=
  (s.job p).bind (fun j => j.phases.find? (fun m => m.phase == (s.part p).phase))

/-- The CORE_MASK of partition `p`. -/
def State.coreMask (s : State) (p : Nat) : Nat := ((s.partRec p).map (·.coreMask)).getD 0

/-- Logical cores of partition `p` that are not retired (19 R724), ascending. -/
def State.enabledCores (s : State) (p : Nat) : List Nat :=
  (setBits 64 (s.coreMask p)).filter (fun l => !s.retired.testBit l)

/-- The physical core that holds logical number `l`. -/
def State.physOf (s : State) (l : Nat) : Option Nat :=
  (List.range 72).find? (fun i => (s.core i).logical == l)

/-- The cluster of logical core `l`. -/
def clusterOf (l : Nat) : Nat := l / 8

/-- The clusters that hold enabled cores of partition `p`, ascending. -/
def State.clustersOf (s : State) (p : Nat) : List Nat :=
  (List.range 8).filter (fun c => (s.enabledCores p).any (fun l => clusterOf l == c))

/-- The partition whose CORE_MASK holds logical core `l`. -/
def State.partOfCore (s : State) (l : Nat) : Option Nat :=
  s.dev.bind (fun d => (d.parts.find? (fun r => r.coreMask.testBit l)).map (·.id))

/-! ### Worlds (14 R587) -/

/-- The stream that protects function `f`: its selective stream, or the link stream (R587). -/
def State.ideSecure (s : State) (f : Nat) : Bool :=
  let st := (s.func f).stream
  Tab.look (fun _ => false) s.ide (if st < 64 then st else 64)

/-- Function `f` is in the TRUSTED world (R586, R587). -/
def State.trusted (s : State) (f : Nat) : Bool :=
  decide (f ≠ 0) && decide ((s.func f).tdi = .run) && s.ideSecure f

/-- The world of partition `p` is TRUSTED (17 R671). -/
def State.partTrusted (s : State) (p : Nat) : Bool :=
  match s.funcOfPart p with
  | some f => s.trusted f
  | none => false

/-! ### Interrupts (14 R582 to R584) -/

/-- The control dword of an MSI-X table entry starts masked (log entry 12). -/
def msixInit (i : Nat) : W32 := if i % 4 = 3 then 1 else 0

/-- An MSI-X message of function `f` on vector `v`: not sent while the management domain restarts
(R600), discarded after the TDI left RUN (R590), held while Bus Master Enable is 0 (R599), pending
while its entry is masked, and sent otherwise. -/
def State.sendMsix (s : State) (f v : Nat) : State :=
  if s.restarting ∨ (s.func f).discard then s
  else if !(s.func f).bme then { s with msixHeld := s.msixHeld ++ [(f, v)] }
  else if (Tab.look msixInit s.msix (1024 * f + 4 * v + 3)).getLsbD 0 then
    { s with pba := Tab.store (fun _ => false) s.pba (256 * f + v) true }
  else s.emit (.msix f v)

/-- The vector that INTERRUPT_ROUTE gives a device-level event (R584). -/
def State.eventVector (s : State) (ev : Nat) : Nat :=
  match s.dev with
  | some d => ((d.routes.find? (fun r => r.1 == ev)).map (·.2)).getD 0
  | none => 0

/-- A device-level event raised on the PF (R584). -/
def State.raise (s : State) (ev : Nat) : State := s.sendMsix 0 (s.eventVector ev)

/-- Hardware sets bits of a W1C register: what it sets in this cycle is kept beside them (00_scope R23). -/
def State.setBitsHw (s : State) (off mask : Nat) : State :=
  let now := if s.hwSet.at_ = s.cycles then s.hwSet.bits else []
  let was := Tab.look (fun _ => 0) now off
  ({ s with hwSet := { at_ := s.cycles, bits := Tab.store (fun _ => 0) now off (was ||| BitVec.ofNat 32 mask) } } : State).setRegN off
    (s.regN off ||| mask)

/-- The bits of a W1C register that hardware has set in this cycle. -/
def State.hwSetNow (s : State) (off : Nat) : W32 :=
  if s.hwSet.at_ = s.cycles then Tab.look (fun _ => 0) s.hwSet.bits off else 0

/-- Bits set in a W1C event register; each bit that goes from 0 to 1 raises the event. -/
def State.setEvents (s : State) (off mask ev : Nat) : State :=
  let old := s.regN off
  let s1 := s.setBitsHw off mask
  (setBits 32 mask).foldl (fun t b => if old.testBit b then t else t.raise ev) s1

/-! ### The error ledger (19 R730 to R733) -/

/-- Status codes (00_scope R24). -/
def stDone : Nat := 0x00
def stCancelled : Nat := 0x01
def stKeyMismatch : Nat := 0x02
def stKeyRetired : Nat := 0x03
def stLevelExhausted : Nat := 0x04
def stNoiseLimit : Nat := 0x05
def stCapacityLost : Nat := 0x06
def stLate : Nat := 0x07
def stStale : Nat := 0x08
def stContaminated : Nat := 0x09
def stBelowThreshold : Nat := 0x0A
def stLedgerConflict : Nat := 0x0B
def stEntropyFailed : Nat := 0x0C
def stTamperAbort : Nat := 0x0D
def stRotationBusy : Nat := 0x0E
def stNotPermitted : Nat := 0x0F
def stMalformed : Nat := 0x10
def stAuthFailed : Nat := 0x11
def stImageRejected : Nat := 0x12
def stUncorrectable : Nat := 0x13
def stTimeUnlocked : Nat := 0x14
def stOverrun : Nat := 0x15
def stKeyCorrupt : Nat := 0x16
def stSettingsUnreadable : Nat := 0x17

/-- One more entry in the error ledger: the oldest is overwritten when it is full (R730), NEW is set
and raises EVENT 3 when it was 0 (R733). -/
def State.addErr (s : State) (status source reason : Nat) (part : Option Nat) (func : Nat) (detail : Bytes) : State :=
  let n := s.regN aGlobalErrCount
  let e : ErrEntry :=
    { seq := n, status := status, source := source, reason := reason, ftNs := s.ftNs, part := part,
      func := func, detail := fit 12 detail }
  let full := decide (4096 ≤ s.errs.length)
  let old := s.regN aGlobalErrStatus
  let lost := if full then satInc 16 (old % 65536) else old % 65536
  let s1 := { s with errs := (if full then s.errs.drop 1 else s.errs) ++ [e] }
  let s2 := ((s1.setRegN aGlobalErrCount (n + 1)).setRegN aGlobalErrStatus lost).setBitsHw aGlobalErrStatus (2 ^ 31)
  if old.testBit 31 then s2 else s2.raise 3

/-- The FUNCTION code of a requester in a ledger entry (R731). -/
def reqCode : Req → Nat
  | .fn f => f.val
  | .mp => 0xFE
  | .jtag => 0xFF

/-- The requester has the PF's rights: the PF, and the MP and JTAG, which are no functions (20 R752; log
entry 50). -/
def reqIsPf : Req → Bool
  | .fn f => decide (f = 0)
  | _ => true

/-- The ledger entry of a discarded register write (00_scope R14, 19 R732): `part` is the partition that the
register belongs to (log entry 114). -/
def State.regErrOf (s : State) (part : Option Nat) (status : Nat) (req : Req) (off : Nat) : State :=
  s.addErr status 0x01 0 part (reqCode req) (toLE 4 off)

/-- The ledger entry of a discarded write to a register of the device. -/
def State.regErr (s : State) (status : Nat) (req : Req) (off : Nat) : State := s.regErrOf none status req off

end Sys2Proof.Machine
end

