-- ==== Sys2Proof/Machine/Keys.lean ====
section
/-!
DEFINITION. Machine/Keys.lean: shared operations over the Strongbox's slots and roots: the attribute
word (15 R620), the checks on each use of a key (R622), the roots and derivations (R612 to R619), the
partition hierarchy (R625), orphaning (R633), and random numbers (16 R656 to R664).
-/
namespace Sys2Proof.Machine

/-! ### The attribute word (R620) -/

def atGen (a : Nat) : Nat := bits a 63 56
def atParentGen (a : Nat) : Nat := bits a 55 48
def atParent (a : Nat) : Nat := bits a 47 38
def atPart (a : Nat) : Nat := bits a 37 34
def atLcMask (a : Nat) : Nat := bits a 33 29
def atWorld (a : Nat) : Nat := bits a 28 27
def atMaster (a : Nat) : Nat := bits a 26 20
def atUsage (a : Nat) : Nat := bits a 19 17
def atLength (a : Nat) : Nat := bits a 16 14
def atOrigin (a : Nat) : Nat := bits a 13 12
def atValid (a : Nat) : Bool := bit a 10
def atOrphaned (a : Nat) : Bool := bit a 9
def atDepth (a : Nat) : Nat := bits a 8 6

/-- USAGE codes (R620). -/
def usDerive : Nat := 0
def usWrap : Nat := 1
def usLink : Nat := 2
def usMemory : Nat := 3
def usSign : Nat := 4
def usFwDecrypt : Nat := 5
def usMaskSeed : Nat := 6

/-- Bits of MASTER (R620). -/
def unHost : Nat := 0
def unFolio : Nat := 1
def unTally : Nat := 2
def unDma : Nat := 3
def unLink : Nat := 4
def unSec : Nat := 5
def unMp : Nat := 6

/-- The bytes of a LENGTH code (R620); 0 for a reserved code. -/
def lenBytes (c : Nat) : Nat :=
  match c with
  | 0 => 16 | 1 => 24 | 2 => 32 | 3 => 48 | 4 => 64 | _ => 0

/-- USAGE and LENGTH go together (R621). -/
def usageLengthOk (us len : Nat) : Bool :=
  if us = usMemory then decide (len = 4)
  else if us = usDerive then decide (len = 2) || decide (len = 4)
  else decide (us ≤ 6) && decide (len = 2)

/-- The code of a life-cycle state, which is also its bit in LC_MASK (R620, SECMBX_LC). -/
def lcCode : Lc → Nat
  | .blank => 0 | .factory => 1 | .service => 2 | .returned => 3 | .scrapped => 4

/-! ### Slots -/

/-- Slot `i`. -/
def State.slot (s : State) (i : Nat) : KeySlot := Tab.look (fun _ => {}) s.sbox.slots i

/-- The state with the Strongbox changed. -/
def State.modSbox (s : State) (g : Sbox → Sbox) : State := { s with sbox := g s.sbox }

/-- The state with slot `i` replaced. -/
def State.setSlot (s : State) (i : Nat) (k : KeySlot) : State :=
  s.modSbox (fun b => { b with slots := Tab.store (fun _ => {}) b.slots i k })

/-- Step 1 of R622 with `fuel` ancestors: the slot and each ancestor is VALID, not ORPHANED and of the
GEN its child recorded; and the root gate is open (R636). -/
def State.slotLive (s : State) : Nat → Nat → Bool
  | 0, _ => false
  | n + 1, i =>
    let a := (s.slot i).attr
    atValid a && !atOrphaned a && !s.sbox.gateClosed &&
      (if atParent a = 0x3FF then true
       else decide (atGen (s.slot (atParent a)).attr = atParentGen a) && s.slotLive n (atParent a))

/-- Step 1 of R622. -/
def State.keyLives (s : State) (i : Nat) : Bool := s.slotLive 577 i

/-- The checks of R622 on a use of slot `i` for `usage` by unit `unit` acting for partition `p` in a
world, 0 OPEN or 1 TRUSTED: the status of the first failure, or DONE. -/
def State.keyCheck (s : State) (i usage unit p world : Nat) : Nat :=
  let a := (s.slot i).attr
  let free := decide (unit = unMp) || decide (unit = unSec)
  if !s.keyLives i then stKeyRetired
  else if atUsage a ≠ usage then stNotPermitted
  else if !bit (atMaster a) unit then stNotPermitted
  else if !free && decide (atPart a ≠ p) then stNotPermitted
  else if !free && !bit (atWorld a) world then stNotPermitted
  else if !bit (atLcMask a) (lcCode s.sbox.lc) then stNotPermitted
  else stDone

/-- The world number of partition `p`'s function. -/
def State.worldOf (s : State) (p : Nat) : Nat := b2n (s.partTrusted p)

/-- A descendant of slot `i`, with fuel for the chain of parents (R622 step 1). -/
def State.descends (s : State) (i : Nat) : Nat → Nat → Bool
  | 0, _ => false
  | n + 1, j =>
    let a := (s.slot j).attr
    atValid a && decide (atParent a ≠ 0x3FF) &&
      (decide (atParent a = i) || s.descends i n (atParent a))

/-- Slot `i` orphaned: its descendants fail step 1 of R622 from now on (R633). -/
def State.orphan (s : State) (i : Nat) : State :=
  let k := s.slot i
  if atValid k.attr then s.setSlot i { k with attr := putBits k.attr 9 9 1 } else s

/-- Slot `i` zeroised: no key and VALID 0, with its GEN kept (R620, R639). -/
def State.zeroise (s : State) (i : Nat) : State := s.setSlot i { attr := putBits 0 63 56 (atGen (s.slot i).attr), key := [] }

/-- The slots that hold a key. -/
def State.validSlots (s : State) : List Nat :=
  (s.sbox.slots.filter (fun e => atValid e.2.attr)).map (·.1)

/-- The orphaned slots and their descendants, which the background zeroises (R633). -/
def State.orphaned (s : State) : List Nat :=
  s.validSlots.filter (fun i => atOrphaned (s.slot i).attr ||
    s.validSlots.any (fun j => atOrphaned (s.slot j).attr && s.descends j 577 i))

/-- A new key in slot `i`: `attr` gives the fields that the maker sets, and GEN rises by 1 (R620). -/
def State.installKey (s : State) (i attr : Nat) (key : Bytes) : State :=
  let parent := atParent attr
  let pg := if parent = 0x3FF then 0 else atGen (s.slot parent).attr
  let a1 := putBits attr 63 56 (atGen (s.slot i).attr + 1)
  let a2 := putBits a1 55 48 pg
  let a3 := putBits (putBits (putBits a2 11 11 (b2n (decide (512 ≤ i)))) 10 10 1) 9 9 0
  s.setSlot i { attr := putBits a3 5 0 0, key := key }

/-! ### Roots and derivations (R612 to R619) -/

/-- The unique device secret. -/
def State.udsBytes (s : State) : Bytes := toBE 32 ((s.sbox.uds.getD Config.uds).toNat)

/-- The root of the current life-cycle state (R612); BLANK and SCRAPPED have none (R607). -/
def State.root (s : State) : Option Bytes :=
  match s.sbox.lc with
  | .factory => some (hmac s.udsBytes (ascii "GK7 root FACTORY"))
  | .service => some (hmac s.udsBytes (ascii "GK7 root SERVICE"))
  | .returned => some (hmac s.udsBytes (ascii "GK7 root RETURN"))
  | .blank | .scrapped => none

/-- CDI_d from the root and the digests D_0 to D_d (R613). -/
def cdiChain (root : Bytes) : List Bytes → List Bytes
  | [] => []
  | d :: ds => hmac root d :: cdiChain (hmac root d) ds

/-- DEPTH (R613). -/
def State.depth (s : State) : Nat := s.sbox.cdis.length - 1

/-- The scalar of an identity or alias key from 320 derived bits (R618). -/
def scalarOf (v : Bytes) : Nat := beNat v % (p256N - 1) + 1

/-- The CONTEXT of a derivation (R616). -/
def kdfContext (part gen origin depth : Nat) : Bytes :=
  [BitVec.ofNat 8 part, BitVec.ofNat 8 gen, BitVec.ofNat 8 origin, BitVec.ofNat 8 depth]

/-- The identity key (R618): 320 bits derived from the UDS, with a CONTEXT of zeros (log entry 16). -/
def State.identityScalar (s : State) : Nat :=
  scalarOf (kdf108 s.udsBytes (ascii "GK7 identity") (kdfContext 0 0 0 0) 40)

/-- The alias key from CDI_5 (R619). -/
def aliasScalar (cdi5 : Bytes) : Nat := scalarOf (kdf108 cdi5 (ascii "GK7 alias") (kdfContext 0 0 2 5) 40)

/-- STABLE derivations are permitted (R614). -/
def State.stableOk (s : State) : Bool :=
  decide (s.sbox.lc = .service) && s.startDone && !s.recoveryMode

/-! ### The partition hierarchy (R624, R625) -/

/-- PART_ROOT of partition `p`: the first of its six reserved slots (log entry 17). -/
def partRootSlot (p : Nat) : Nat := 0x1A0 + 6 * p
/-- JOB_ROOT of partition `p`. -/
def jobRootSlot (p : Nat) : Nat := 0x1A1 + 6 * p
/-- MEMORY generation `g` of partition `p`. -/
def memSlot (p g : Nat) : Nat := 0x1A2 + 6 * p + g

/-- The attribute word of a tenant key: both WORLD bits, LC_MASK SERVICE (R625). -/
def tenantAttr (p parent master usage length origin : Nat) : Nat :=
  parent * 2 ^ 38 + p * 2 ^ 34 + 2 ^ 31 + 3 * 2 ^ 27 + master * 2 ^ 20 + usage * 2 ^ 17 + length * 2 ^ 14 + origin * 2 ^ 12

/-- PART_ROOT and MEMORY generation 0 of partition `p` from 96 random bytes (R625). -/
def State.makePartKeys (s : State) (p : Nat) (r : Bytes) : State :=
  let s1 := s.installKey (partRootSlot p) (tenantAttr p 0x3FF (2 ^ unSec) usDerive 2 3) (r.take 32)
  let s2 := s1.installKey (memSlot p 0)
    (tenantAttr p (partRootSlot p) (2 ^ unFolio + 2 ^ unDma) usMemory 4 3) (slice r 32 64)
  s2.modPart p (fun x => { x with keyCur := 0, keyLive := 1 })

/-- The keys of partition `p` exist. -/
def State.hasPartKeys (s : State) (p : Nat) : Bool := s.keyLives (partRootSlot p)

/-- The MEMORY key of partition `p`, generation `g`. -/
def State.memKey (s : State) (p g : Nat) : Bytes := (s.slot (memSlot p g)).key

/-- The checks of R622 on the use of a MEMORY generation by the folio unit or a DMA engine (R623). -/
def State.memCheck (s : State) (p g : Nat) : Nat := s.keyCheck (memSlot p g) usMemory unFolio p (s.worldOf p)

/-- A MEMORY generation may be used. -/
def State.memLive (s : State) (p g : Nat) : Bool := decide (s.memCheck p g = stDone)

/-- The checks of R622 on the use of JOB_ROOT by the link engines and Tally (R626). -/
def State.jobCheck (s : State) (p : Nat) : Nat := s.keyCheck (jobRootSlot p) usLink unLink p (s.worldOf p)

/-- The job master secret of partition `p`, while JOB_ROOT may be used. -/
def State.jms (s : State) (p : Nat) : Option Bytes :=
  if s.jobCheck p = stDone then some (s.slot (jobRootSlot p)).key else none

/-! ### Random numbers -/

/-- `n` random bytes: one generate call gives at most 65,536, and a longer request is served as consecutive
calls (R656, R657). -/
def State.draw (s : State) (n : Nat) : Bytes × State :=
  let g := s.rng.generate (max 1 (ceilDiv n 65536)) n
  (g.1, { s with rng := g.2 })

/-- The generator is READY. -/
def State.rngReady (s : State) : Bool := decide (s.rng.st = .ready)

/-- A call is served as it arrives: the generator is READY, and no earlier call waits (R664). -/
def State.rngServes (s : State) : Bool := s.rngReady && s.rng.waiting.isEmpty

/-- The generator is FAILED. -/
def State.rngFailed (s : State) : Bool := decide (s.rng.st = .failed)

/-- A caller joins the queue of R664. -/
def State.rngWait (s : State) (c : Caller) : State :=
  { s with rng := s.rng.join s.cycles c }

/-- The keys of a newly defined partition are drawn, or wait for the generator (R625, 17 R677). -/
def State.drawPartKeys (s : State) (p : Nat) : State :=
  if s.rngServes then
    let r := s.draw 96
    r.2.makePartKeys p r.1
  else if s.rngFailed then s
  else if s.rng.waiting.contains (.sec (.partKeys p)) then s
  else s.rngWait (.sec (.partKeys p))

/-- The destruction mode of a tamper response is SWEEP (R635). -/
def State.tamperSweep (s : State) : Bool := s.sbox.fuseSweep || (s.reg aSecmbxTamperCfg).getLsbD 31

/-- The destruction mode of a removal of partition `p` is SWEEP (R635). -/
def State.removalSweep (s : State) (p : Nat) : Bool :=
  s.tamperSweep || ((s.job p).map (fun j => j.key.destroySweep)).getD false

/-- The slots of the partition hierarchy of `p`: PART_ROOT and its descendants. -/
def State.partSlots (s : State) (p : Nat) : List Nat :=
  s.validSlots.filter (fun i => decide (i = partRootSlot p) || s.descends (partRootSlot p) 577 i)

/-- Slot `i` swept: its key is zeroised and ORPHANED is set (R634). -/
def State.sweepSlot (s : State) (i : Nat) : State := s.setSlot i { attr := putBits (s.slot i).attr 9 9 1, key := [] }

/-- PART_ROOT of partition `p` and its descendants destroyed: orphaned, or zeroised under SWEEP (R636). -/
def State.destroyPart (s : State) (p : Nat) : State :=
  if s.removalSweep p then
    (s.partSlots p).foldl (fun t i => t.sweepSlot i) s
  else s.orphan (partRootSlot p)

end Sys2Proof.Machine
end

