-- ==== Sys2Proof/Machine/LinkOps.lean ====
section
/-!
DEFINITION. Machine/LinkOps.lean: the streams of a partition's job as the folio unit and Tally use
them (13_ryinig R539, R540, R560).
-/
namespace Sys2Proof.Machine

/-- The streams between partition `p` and peer index `i`. -/
def State.link (s : State) (p i : Nat) : Link := Tab.look (fun _ => {}) s.links (1024 * p + i)

/-- Those streams changed. -/
def State.modLink (s : State) (p i : Nat) (g : Link → Link) : State :=
  { s with links := Tab.store (fun _ => {}) s.links (1024 * p + i) (g (s.link p i)) }

/-- Port `i`. -/
def State.port (s : State) (i : Nat) : Port := Tab.look (fun _ => {}) s.ports i

/-- A port changed. -/
def State.modPort (s : State) (i : Nat) (g : Port → Port) : State :=
  { s with ports := Tab.store (fun _ => {}) s.ports i (g (s.port i)) }

/-- The partition is ADMITTED to its job and its keys live (R562, 15 R626). -/
def State.admitted (s : State) (p : Nat) : Bool := decide ((s.part p).adm.st = .admitted) && (s.jms p).isSome

/-- JOB_ID of partition `p`'s charter. -/
def State.jobId (s : State) (p : Nat) : Nat := ((s.job p).map (·.key.jobId)).getD 0

/-- The pseudorandom key of partition `p`'s job (R559). -/
def State.jobPrk (s : State) (p : Nat) : Option Bytes := (s.jms p).map (hkdfExtract (toBE 3 (s.jobId p)))

/-- Key and SALT of the stream from peer `a` to peer `b` in generation `g` (R559). -/
def trafficKey (pj : Bytes) (a b g : Nat) : Bytes × Bytes :=
  let okm := hkdfExpand pj (ascii "RYT1 tk" ++ toBE 2 a ++ toBE 2 b ++ toBE 4 g) 39
  (okm.take 32, okm.drop 32)

/-- The submission key of relay `r` (R559). -/
def submissionKey (pj : Bytes) (r : Nat) : Bytes := hkdfExpand pj (ascii "RYT1 seal" ++ toBE 2 r) 32

/-- The peer entry of an index. -/
def State.peer (s : State) (p i : Nat) : Option Peer := (s.part p).adm.peers.find? (fun e => e.index == i)

/-- The package of a rank (R560). -/
def State.rankPeer (s : State) (p r : Nat) : Option Peer :=
  (s.part p).adm.peers.find? (fun e => decide (e.role = 0) && e.rank == r)

/-- A message joins the stream to a peer; it gets its SEQ when it leaves (R540, R551). -/
def State.queueMsg (s : State) (p i : Nat) (m : TxMsg) : State :=
  if s.admitted p && (s.peer p i).isSome then s.modLink p i (fun l => { l with queue := l.queue ++ [m] }) else s

/-- The next FLOW of the stream to a peer. -/
def State.takeFlow (s : State) (p i : Nat) : Nat × State :=
  ((s.link p i).flow, s.modLink p i (fun l => { l with flow := (l.flow + 1) % 65536 }))

/-- The sub-head of a FETCH (R539). -/
def fetchHead (v first parts : Nat) : Bytes := toBE 8 v ++ toBE 1 first ++ toBE 1 parts ++ zeros 6

/-- The sub-head of a MOVE (R539): KIND 0 PULL_REQ, 1 CONFIRM, 2 REFUSE. -/
def moveHead (v kind phase : Nat) : Bytes := toBE 8 v ++ toBE 1 kind ++ toBE 1 phase ++ zeros 6

/-- The sub-head of a FOLIO (R539). -/
def folioHead (v part kind : Nat) : Bytes := toBE 8 v ++ toBE 1 part ++ toBE 1 kind ++ zeros 6

/-- Every link of partition `p` ends: streams and held frames are discarded (R562). -/
def State.dropLinks (s : State) (p : Nat) : State :=
  { s with links := Tab.without (fun k => k / 1024 == p) s.links }

end Sys2Proof.Machine
end

