-- ==== Sys2Proof/Machine/Float.lean ====
section
/-!
DEFINITION. Machine/Float.lean: the element formats of 03_matrix R88, exact dyadic arithmetic on
their values, the rounding rules of R98 to R101 and of 04_accumulation R161 to R163, and the
Philox-4x32 generator of R170 to R172.
-/
namespace Sys2Proof.Machine

/-- A float value: NaN, an infinity, or `m * 2^e` with a sign (a zero keeps its sign). -/
inductive Fl where
  | nan
  | inf (neg : Bool)
  | fin (neg : Bool) (m : Nat) (e : Int)
deriving DecidableEq, Repr

/-- The shape of a float format (R88). -/
structure FFmt where
  width : Nat
  eb : Nat
  mb : Nat
  bias : Nat
  /-- It has infinities and NaNs coded as IEEE 754 does. -/
  ieee : Bool
  /-- It has the one NaN S.1111.111 of E4M3. -/
  nan1 : Bool
deriving DecidableEq, Repr

/-- FP32. -/
def fp32 : FFmt := ⟨32, 8, 23, 127, true, false⟩
/-- FP64, the slot word of a float context (04 R153). -/
def fp64 : FFmt := ⟨64, 11, 52, 1023, true, false⟩

/-- The float format of a format code (R88). -/
def floatFmt (code : Nat) : Option FFmt :=
  match code with
  | 0x0 => some ⟨4, 2, 1, 1, false, false⟩
  | 0x1 => some ⟨6, 2, 3, 1, false, false⟩
  | 0x2 => some ⟨6, 3, 2, 3, false, false⟩
  | 0x3 => some ⟨8, 4, 3, 7, false, true⟩
  | 0x4 => some ⟨8, 5, 2, 15, true, false⟩
  | 0x5 => some ⟨16, 8, 7, 127, true, false⟩
  | 0x6 => some ⟨16, 5, 10, 15, true, false⟩
  | 0x9 => some fp32
  | _ => none

/-- The bits of one element of a format code (R88); 0 for a reserved code. -/
def fmtBits (code : Nat) : Nat :=
  match code with
  | 0x0 => 4 | 0x1 => 6 | 0x2 => 6 | 0x3 => 8 | 0x4 => 8 | 0x5 => 16 | 0x6 => 16 | 0x7 => 4 | 0x8 => 8
  | 0x9 => 32 | 0xA => 32 | 0xB => 16 | 0xC => 32 | 0xD => 64 | _ => 0

/-- The value of the bits of a float format. -/
def flDecode (f : FFmt) (x : Nat) : Fl :=
  let neg := x.testBit (f.width - 1)
  let e := bits x (f.eb + f.mb - 1) f.mb
  let m := x % 2 ^ f.mb
  if f.ieee ∧ e = 2 ^ f.eb - 1 then (if m = 0 then .inf neg else .nan)
  else if f.nan1 ∧ e = 2 ^ f.eb - 1 ∧ m = 2 ^ f.mb - 1 then .nan
  else if e = 0 then .fin neg m (1 - (f.bias : Int) - f.mb)
  else .fin neg (m + 2 ^ f.mb) ((e : Int) - f.bias - f.mb)

/-- The bits hold a subnormal of the format. -/
def flSubnormal (f : FFmt) (x : Nat) : Bool :=
  decide (bits x (f.eb + f.mb - 1) f.mb = 0) && decide (x % 2 ^ f.mb ≠ 0)

/-- The value read with FTZ: a subnormal input becomes a zero of its sign (R97). -/
def flInput (f : FFmt) (ftz : Bool) (x : Nat) : Fl :=
  if ftz ∧ flSubnormal f x then .fin (x.testBit (f.width - 1)) 0 0 else flDecode f x

/-- The value is a zero. -/
def Fl.isZero : Fl → Bool
  | .fin _ m _ => decide (m = 0)
  | _ => false

/-- The opposite value. -/
def flNeg : Fl → Fl
  | .nan => .nan
  | .inf s => .inf (!s)
  | .fin s m e => .fin (!s) m e

/-- The exact product (R94, R97). -/
def flMul : Fl → Fl → Fl
  | .nan, _ => .nan
  | _, .nan => .nan
  | .inf s, .inf t => .inf (s != t)
  | .inf s, .fin t m _ => if m = 0 then .nan else .inf (s != t)
  | .fin t m _, .inf s => if m = 0 then .nan else .inf (s != t)
  | .fin s m e, .fin t n d => .fin (s != t) (m * n) (e + d)

/-- The value scaled exactly by a power of two (R96). -/
def flScale (k : Int) : Fl → Fl
  | .fin s m e => .fin s m (e + k)
  | x => x

/-- The exact sum of two values; a zero sum is +0 unless both are −0 (R97, R162). -/
def flAdd : Fl → Fl → Fl
  | .nan, _ => .nan
  | _, .nan => .nan
  | .inf s, .inf t => if s = t then .inf s else .nan
  | .inf s, .fin _ _ _ => .inf s
  | .fin _ _ _, .inf t => .inf t
  | .fin s m e, .fin t n d =>
    let q := min e d
    let a : Int := m * 2 ^ (e - q).toNat
    let b : Int := n * 2 ^ (d - q).toNat
    let v := (if s then -a else a) + (if t then -b else b)
    if v = 0 then .fin (s && t) 0 q else .fin (decide (v < 0)) v.natAbs q

/-- The exact sum of several values (R95, R96): a zero sum is −0 only when every term is −0. -/
def flSum : List Fl → Fl
  | [] => .fin true 0 0
  | x :: xs => flAdd x (flSum xs)

/-- How a discarded fraction is rounded: to nearest even, toward zero, or by a 16-bit draw. -/
inductive RMode where
  | rne
  | rtz
  | sr (u : Nat)
deriving DecidableEq, Repr

/-- The number of bits of a number. -/
def bitLen (n : Nat) : Nat := if n = 0 then 0 else Nat.log2 n + 1

/-- The magnitude `m * 2^e` rounded to a multiple of the last place of a format of `p` bits whose
smallest unit is `2^emin` (R98, R161): the multiple and its exponent. -/
def roundMag (p : Nat) (emin : Int) (mode : RMode) (m : Nat) (e : Int) : Nat × Int :=
  let q := max emin (e + bitLen m - p)
  if q ≤ e then (m * 2 ^ (e - q).toNat, q)
  else
    let k := (q - e).toNat
    let n := m / 2 ^ k
    let r := m % 2 ^ k
    let up : Bool := match mode with
      | .rtz => false
      | .rne => decide (2 ^ k < 2 * r) || (decide (2 * r = 2 ^ k) && decide (n % 2 = 1))
      | .sr u => decide (u < r * 65536 / 2 ^ k)
    (if up then n + 1 else n, q)

/-- The exponent of the smallest unit of a format. -/
def fmtEmin (f : FFmt) : Int := 1 - (f.bias : Int) - f.mb

/-- The largest finite value of a format as (mantissa, exponent). -/
def fmtMax (f : FFmt) : Nat × Int :=
  if f.ieee then (2 ^ (f.mb + 1) - 1, (2 ^ f.eb : Int) - 2 - f.bias - f.mb)
  else if f.nan1 then (2 ^ (f.mb + 1) - 2, (2 ^ f.eb : Int) - 1 - f.bias - f.mb)
  else (2 ^ (f.mb + 1) - 1, (2 ^ f.eb : Int) - 1 - f.bias - f.mb)

/-- `a * 2^b < c * 2^d`. -/
def magLt (a : Nat) (b : Int) (c : Nat) (d : Int) : Bool :=
  let q := min b d
  decide (a * 2 ^ (b - q).toNat < c * 2 ^ (d - q).toNat)

/-- The bits of a finite magnitude that the format holds exactly. -/
def flEncodeMag (f : FFmt) (neg : Bool) (n : Nat) (q : Int) : Nat :=
  let sign := b2n neg * 2 ^ (f.width - 1)
  if n = 0 then sign
  else
    let top := q + bitLen n - 1
    let ex := max (top) (1 - (f.bias : Int))
    let mant := if q ≤ ex - f.mb then n / 2 ^ (ex - f.mb - q).toNat else n * 2 ^ (q - (ex - f.mb)).toNat
    if mant < 2 ^ f.mb then sign + mant
    else sign + (ex + f.bias).toNat * 2 ^ f.mb + (mant - 2 ^ f.mb)

/-- The canonical NaN of a format (R101); a format without one has an open value (log entry 30). -/
def canonNan (f : FFmt) : Nat :=
  if f.ieee then (2 ^ f.eb - 1) * 2 ^ f.mb + (if f.mb = 2 then 2 else 2 ^ (f.mb - 1))
  else if f.nan1 then 2 ^ (f.width - 1) - 1
  else Config.nanWithoutNan f.width % 2 ^ f.width

/-- The bits of an infinity of a format with IEEE infinities. -/
def infBits (f : FFmt) (neg : Bool) : Nat := b2n neg * 2 ^ (f.width - 1) + (2 ^ f.eb - 1) * 2 ^ f.mb

/-- A value rounded into an IEEE format as arithmetic rounds it: beyond the largest finite value it
becomes Inf (04 R163). -/
def flRound (f : FFmt) (mode : RMode) : Fl → Nat
  | .nan => canonNan f
  | .inf s => infBits f s
  | .fin s m e =>
    let r := roundMag (f.mb + 1) (fmtEmin f) mode m e
    let mx := fmtMax f
    if magLt mx.1 mx.2 r.1 r.2 then infBits f s else flEncodeMag f s r.1 r.2

/-- A value rounded to FP32, to nearest even. -/
def toF32 (x : Fl) : Nat := flRound fp32 .rne x

/-- The value of FP32 bits. -/
def ofF32 (x : Nat) : Fl := flDecode fp32 x

/-- The bits rounded to a subnormal are flushed to a zero of their sign (R99). -/
def ftzOut (f : FFmt) (ftz : Bool) (x : Nat) : Nat :=
  if ftz ∧ flSubnormal f x then b2n (x.testBit (f.width - 1)) * 2 ^ (f.width - 1) else x

/-- What an overflow writes (the table of R100). -/
def overflowBits (f : FFmt) (satFinite : Bool) (neg : Bool) : Nat :=
  let mx := fmtMax f
  if satFinite ∨ (!f.ieee ∧ !f.nan1) then flEncodeMag f neg mx.1 mx.2
  else if f.ieee then infBits f neg
  else canonNan f

/-- The conversion of an FP32 value to an output format by ROUND (R98 to R101); `u` is the draw of
ROUND 2. What a format without a NaN writes for one is open
(log entry 30). -/
def flConvert (f : FFmt) (round : Nat) (satFinite ftz : Bool) (u : Nat) (x : Fl) : Nat :=
  if f = fp32 then ftzOut f ftz (flRound f .rne x)
  else match x with
  | .nan => canonNan f
  | .inf s => overflowBits f satFinite s
  | .fin s m e =>
    let mode := if round = 1 then RMode.rtz else if round = 2 then RMode.sr u else .rne
    let mx := fmtMax f
    let r := roundMag (f.mb + 1) (fmtEmin f) mode m e
    if magLt mx.1 mx.2 r.1 r.2 then
      (if round = 1 then ftzOut f ftz (flEncodeMag f s mx.1 mx.2) else overflowBits f satFinite s)
    else ftzOut f ftz (flEncodeMag f s r.1 r.2)

/-! ### Philox-4x32-10 (04 R170) -/

/-- One round of the generator on the counter words under the round keys. -/
def philoxRound (c : Nat × Nat × Nat × Nat) (k0 k1 : Nat) : Nat × Nat × Nat × Nat :=
  let p0 := 0xD2511F53 * c.1
  let p1 := 0xCD9E8D57 * c.2.2.1
  ((p1 / 2 ^ 32) ^^^ c.2.1 ^^^ k0, p1 % 2 ^ 32, (p0 / 2 ^ 32) ^^^ c.2.2.2 ^^^ k1, p0 % 2 ^ 32)

/-- `n` rounds with the key schedule. -/
def philoxN : Nat → Nat × Nat × Nat × Nat → Nat → Nat → Nat × Nat × Nat × Nat
  | 0, c, _, _ => c
  | n + 1, c, k0, k1 =>
    philoxN n (philoxRound c k0 k1) ((k0 + 0x9E3779B9) % 2 ^ 32) ((k1 + 0xBB67AE85) % 2 ^ 32)

/-- Field `m` of the output for a 64-bit seed and four counter words (R170 to R172). -/
def philox (seed c0 c1 c2 c3 m : Nat) : Nat :=
  let x := philoxN 10 (c0, c1, c2, c3) (seed % 2 ^ 32) (seed / 2 ^ 32)
  let w := match m / 2 with
    | 0 => x.1
    | 1 => x.2.1
    | 2 => x.2.2.1
    | _ => x.2.2.2
  if m % 2 = 0 then w % 65536 else w / 65536

/-! ### Exact quotients and square roots, for the vector engine -/

/-- The floor of a square root, by bits. -/
def sqrtN : Nat → Nat → Nat → Nat
  | 0, _, r => r
  | n + 1, x, r => let t := r + 2 ^ n; sqrtN n x (if t * t ≤ x then t else r)

/-- The floor of a square root. -/
def isqrt (x : Nat) : Nat := sqrtN (bitLen x / 2 + 1) x 0

/-- A quotient to 64 further bits with a sticky bit, so that one rounding of it is the rounding of the
exact quotient. -/
def flDivMag (m : Nat) (e : Int) (n : Nat) (d : Int) : Nat × Int :=
  let k := 64 + bitLen n
  let q := m * 2 ^ k / n
  (2 * q + b2n (decide (m * 2 ^ k % n ≠ 0)), e - d - k - 1)

/-- IEEE division, exact up to a sticky bit. -/
def flDiv : Fl → Fl → Fl
  | .nan, _ => .nan
  | _, .nan => .nan
  | .inf _, .inf _ => .nan
  | .inf s, .fin t _ _ => .inf (s != t)
  | .fin s _ _, .inf t => .fin (s != t) 0 0
  | .fin s m e, .fin t n d =>
    if n = 0 then (if m = 0 then .nan else .inf (s != t))
    else let r := flDivMag m e n d; .fin (s != t) r.1 r.2

/-- IEEE square root, exact up to a sticky bit. -/
def flSqrt : Fl → Fl
  | .nan => .nan
  | .inf s => if s then .nan else .inf false
  | .fin s m e =>
    if m = 0 then .fin s m e
    else if s then .nan
    else
      let k := 128 + (e % 2).toNat
      let x := m * 2 ^ k
      let r := isqrt x
      .fin false (2 * r + b2n (decide (r * r ≠ x))) ((e - k) / 2 - 1)

/-- `x < y` for values that are no NaN, with −0 below +0. -/
def flLt : Fl → Fl → Bool
  | .inf s, .inf t => s && !t
  | .inf s, .fin _ _ _ => s
  | .fin _ _ _, .inf t => !t
  | .fin s m e, .fin t n d =>
    match s, t with
    | true, false => true
    | false, true => false
    | false, false => magLt m e n d
    | true, true => magLt n d m e
  | _, _ => false

end Sys2Proof.Machine
end

