-- ==== Sys2Proof/Machine/Flags.lean ====
section
/-!
DEFINITION. Machine/Flags.lean: the completion flags (00_scope R27, 05_hardware_scheduler R234).
-/
namespace Sys2Proof.Machine

/-- SAT (R27). -/
def flSat : Nat := 1
/-- LAPSED (R27). -/
def flLapsed : Nat := 2
/-- DEGRADED (R27). -/
def flDegraded : Nat := 4
/-- REFRESHED (R27). -/
def flRefreshed : Nat := 8
/-- EXPERT (R27). -/
def flExpert : Nat := 16
/-- PERTURBED (R27). -/
def flPerturbed : Nat := 32

/-- A flag word with the bits of a mask set. -/
def setFlags (w mask : Nat) : Nat := w ||| mask

end Sys2Proof.Machine
end

