-- ==== Sys2Proof/Machine/SchedOps.lean ====
section
/-!
DEFINITION. Machine/SchedOps.lean: shared operations of the scheduler (05_hardware_scheduler): the
descriptor header, placement and entries, completion and its cascade, cancellation, and the
replacement of failed cores.
-/
namespace Sys2Proof.Machine

/-! ### The descriptor header (R206) -/

/-- OPCODE. -/
def dOpcode (d : Bytes) : Nat := le d 0 2
/-- TENANT. -/
def dTenant (d : Bytes) : Nat := bits (le d 0 4) 19 16
/-- PHASE. -/
def dPhase (d : Bytes) : Nat := bits (le d 0 4) 23 20
/-- FENCE. -/
def dFence (d : Bytes) : Bool := bit (le d 0 4) 29
/-- IRQ. -/
def dIrq (d : Bytes) : Bool := bit (le d 0 4) 30
/-- OWNER. -/
def dOwner (d : Bytes) : Bool := bit (le d 0 4) 31
/-- TAG. -/
def dTag (d : Bytes) : Nat := bits (le d 4 2) 11 0
/-- CORE. -/
def dCore (d : Bytes) : Nat := le d 6 1
/-- The valid DEP entries. -/
def dDeps (d : Bytes) : List Nat :=
  ((List.range 4).filter (fun i => bit (le d 7 1) i)).map (fun i => bits (le d (8 + 2 * i) 2) 11 0)
/-- CQ. -/
def dCq (d : Bytes) : Nat := bits (le d 0x10 1) 2 0

/-- The header's reserved fields are 0. -/
def dReservedOk (d : Bytes) : Bool :=
  decide (bits (le d 0 4) 28 24 = 0) && decide (bits (le d 4 2) 15 12 = 0) &&
  decide (bits (le d 7 1) 7 4 = 0) &&
  (List.range 4).all (fun i => decide (bits (le d (8 + 2 * i) 2) 15 12 = 0)) &&
  decide (bits (le d 0x10 1) 7 3 = 0) && decide (le d 0x11 3 = 0)

/-- The opcodes that the manual defines (R207). -/
def opcodes : List Nat :=
  [0x0010, 0x0011, 0x0100, 0x0101, 0x0102, 0x0200, 0x0300, 0x0301, 0x0302, 0x0310, 0x0311, 0x0320,
   0x0330, 0x0331, 0x0332, 0x0333, 0x0400, 0x0401, 0x0402, 0x0403, 0x0404, 0x0405, 0x0406, 0x0410,
   0x0411, 0x0412, 0x0413, 0x0414, 0x0500, 0x0501, 0x0502, 0x0510, 0x0511, 0x0512, 0x0513, 0x0514,
   0x0515, 0x0516, 0x0517, 0x0518, 0x0520, 0x0521, 0x0530, 0x0540, 0x0600, 0x0601]

/-- A core operation (R780). -/
def isCoreOp (oc : Nat) : Bool := decide (oc / 256 = 1) || decide (oc = 0x0200)

/-- CHAIN of an MMA (03 R124). -/
def mmaChain (d : Bytes) : Nat := bits (le d 0x36 2) 5 4

/-- The context that a chain operation after FIRST continues (03 R128, 04 R183). -/
def contCtx (d : Bytes) : Option Nat :=
  if dOpcode d = 0x0100 ∧ 2 ≤ mmaChain d then some (bits (le d 0x3C 4) 3 0)
  else if dOpcode d = 0x0101 then some (bits (le d 0x3C 4) 3 0)
  else none

/-! ### Which accesses and engines are served -/

/-- The package serves the host port: it is ACTIVE or IDLE and not restarting (14 R600, 21 R767). -/
def State.portServed (s : State) : Bool :=
  (decide (s.power = .active) || decide (s.power = .idle)) && !s.restarting

/-- Partitions run: not in tamper hold or recovery mode (20 R737), nor while the management domain
restarts (00_scope R18). -/
def State.partsRun (s : State) : Bool := s.portServed && !s.tamperHold && !s.recoveryMode

/-! ### Perturbation (20 R748, R750) -/

/-- PERTURB_NOW: one bit per active control; none acts in tamper hold (20 R755). -/
def State.perturbNow (s : State) : Nat :=
  if s.tamperHold then 0
  else
    b2n (decide (s.regN aDbgPtbHop01 ≠ 0 ∨ s.regN aDbgPtbHop23 ≠ 0)) +
    2 * b2n (bit (s.regN aDbgPtbCredit) 31) +
    4 * b2n (decide (s.regN aDbgPtbLpddr ≠ 0)) +
    8 * b2n (decide (s.regN aDbgPtbHamper ≠ 0) && decide (s.pair aDbgPtbHmpMaskLo ≠ 0)) +
    16 * b2n (decide (s.regN aDbgPtbCommit ≠ 0)) +
    32 * b2n (decide (s.regN aDbgPtbStamp ≠ 0))

/-- A record's FLAGS with more flags. -/
def PendRec.addFlags (x : PendRec) (fl : Nat) : PendRec :=
  { x with bytes := x.bytes.take 6 ++ toLE 2 (setFlags (le x.bytes 6 2) fl) ++ x.bytes.drop 8 }

/-- Every operation in flight is marked while a control is active (20 R750), to the writing of its record (R209), and
every phase switch in hand. -/
def State.markPerturbed (s : State) : State :=
  if s.perturbNow = 0 then s
  else { s with
    ops := s.ops.map (fun o => { o with flags := setFlags o.flags flPerturbed })
    recs := s.recs.map (fun x => if x.hasEntry then x.addFlags flPerturbed else x)
    parts := s.parts.map (fun e => (e.1, { e.2 with
      switch := e.2.switch.map (fun w => { w with flags := setFlags w.flags flPerturbed }) })) }

/-! ### Degraded partitions (19 R726) -/

/-- The causes that hold for partition `p`, as GLOBAL_DEGRADED has them. -/
def State.degradedBits (s : State) (p : Nat) : Nat :=
  let x := s.part p
  b2n (decide (s.coreMask p &&& s.retired ≠ 0)) +
  2 * b2n (decide (((s.phaseMap p).map (·.slices)).getD 0 &&& s.sliceFailed ≠ 0)) +
  4 * b2n ((List.range 8).any (fun c => s.polyFailed.testBit c && decide (bits (s.coreMask p) (8 * c + 7) (8 * c) ≠ 0))) +
  8 * b2n x.hoardDeg + 16 * b2n x.lpddrDeg

/-! ### Operations in flight -/

/-- The operation of partition `p` with a tag, where one is in flight. -/
def State.findOp (s : State) (p tag : Nat) : Option Op :=
  s.ops.find? (fun o => o.part == p && o.tag == tag)

/-- The state with that operation changed. -/
def State.modOp (s : State) (p tag : Nat) (g : Op → Op) : State :=
  { s with ops := s.ops.map (fun o => if o.part == p && o.tag == tag then g o else o) }

/-- The entry of that operation freed. -/
def State.freeEntry (s : State) (p tag : Nat) : State :=
  { s with ops := s.ops.filter (fun o => !(o.part == p && o.tag == tag)) }

/-- The operations of partition `p` in flight, in admission order. -/
def State.opsOf (s : State) (p : Nat) : List Op := s.ops.filter (fun o => o.part == p)

/-- The operation of partition `p` that runs the opcode given. -/
def State.runningOp (s : State) (p tag oc : Nat) : Option Op :=
  (s.findOp p tag).filter (fun o => decide (o.stage = .running) && decide (dOpcode o.desc = oc))

/-- LAST_OK of a tag (R213). -/
def State.lastOk (s : State) (p tag : Nat) : Bool := Tab.look (fun _ => true) (s.part p).lastOk tag

/-- LAST_OK recorded for a tag. -/
def State.setLastOk (s : State) (p tag : Nat) (ok : Bool) : State :=
  s.modPart p (fun x => { x with lastOk := Tab.store (fun _ => true) x.lastOk tag ok })

/-- Occupied entries of logical core `l`'s window (R209). -/
def State.occupied (s : State) (l : Nat) : Nat := (s.ops.filter (fun o => o.holder == l)).length

/-- The member of a list with the least key; ties go to the first. -/
def argMin {α : Type} (key : α → Nat) : List α → Option α
  | [] => none
  | a :: l =>
    match argMin key l with
    | some b => if key a ≤ key b then some a else some b
    | none => some a

/-- A logical number has a physical core (R219). -/
def State.hasPhys (s : State) (l : Nat) : Bool := (s.physOf l).isSome

/-- The core that AUTO chooses (R219). -/
def State.autoCore (s : State) (p : Nat) : Option Nat :=
  let en := s.enabledCores p
  match argMin s.occupied (en.filter s.hasPhys) with
  | some l => some l
  | none => en.head?

/-- The failed core that still keeps the contexts of logical core `l`. -/
def State.failedHome (s : State) (l : Nat) : Option Nat :=
  (List.range 72).find? (fun i => (s.core i).fenced && (s.core i).lastLogical == l &&
    (!(s.core i).ctxs.isEmpty || decide ((s.core i).closeHeld ≠ 0)))

/-- The physical core that keeps the contexts of logical core `l`: its own, or while it waits for
substitution the failed one. -/
def State.ctxHome (s : State) (l : Nat) : Option Nat :=
  match s.physOf l with
  | some i => some i
  | none => s.failedHome l

/-- Accumulation context `n` of logical core `l`. -/
def State.ctxOf (s : State) (l n : Nat) : Option Ctx :=
  (s.ctxHome l).bind (fun i => Tab.look (fun _ => none) (s.core i).ctxs n)

/-- The tag that a context records: that of its chain's operation admitted last (03 R131). -/
def Ctx.lastTag (c : Ctx) : Nat := ((c.chain.getLast?).map (fun e => dTag e.1)).getD 4096

/-- Context `n` of physical core `i` replaced. -/
def State.setCtx (s : State) (i n : Nat) (x : Option Ctx) : State :=
  s.modCore i (fun c => { c with ctxs := Tab.store (fun _ => none) c.ctxs n x })

/-- The core of the chain that a descriptor continues (R219, 03 R130): the core of the predecessor it
names, else the core whose open context that predecessor left, else any that holds the context. -/
def State.chainCore (s : State) (p : Nat) (d : Bytes) (n : Nat) : Option Nat :=
  let deps := dDeps d
  let inFlight := s.ops.find? (fun o => o.part == p && deps.contains o.tag && dOpcode o.desc == 0x0100 &&
    decide (bits (le o.desc 0x3C 4) 3 0 = n) && decide (1 ≤ mmaChain o.desc))
  match inFlight with
  | some o => some o.core
  | none =>
    let en := s.enabledCores p
    let held (ok : Ctx → Bool) := en.find? (fun l => ((s.ctxOf l n).map (fun c => c.part == p && ok c)).getD false)
    match held (fun c => deps.contains c.lastTag) with
    | some l => some l
    | none => held (fun _ => true)

/-- Where a core operation is placed (R219). A retired number is placed by AUTO (R225). -/
def State.placeCore (s : State) (p : Nat) (d : Bytes) : Option Nat :=
  match (contCtx d).bind (s.chainCore p d) with
  | some l => some l
  | none =>
    if dCore d = 0xFF ∨ s.retired.testBit (dCore d) then s.autoCore p else some (dCore d)

/-- The cluster that a shared-unit descriptor names, if it does (R210, 06 R307, R311). -/
def descCluster (d : Bytes) : Option Nat :=
  if dOpcode d = 0x0310 ∧ dCore d ≠ 0xFF then some (clusterOf (dCore d))
  else if dOpcode d = 0x0311 then some (bits (le d 0x18 1) 6 4)
  else none

/-- Free entries of cluster `c`, in the windows of its enabled logical numbers. -/
def State.freeIn (s : State) (c : Nat) : Nat :=
  ((List.range 8).map (fun k => if s.retired.testBit (8 * c + k) then 0 else 64 - s.occupied (8 * c + k))).foldl (· + ·) 0

/-- An opcode of the polynomial engines. -/
def isPolyOp (oc : Nat) : Bool := decide (oc / 256 = 5)

/-- The polynomial engine of a descriptor (12 R503): the one it names, or for AUTO the partition's with
the fewest queued operations; 0xFF where the partition has none. Failed engines take nothing (R520). -/
def State.polyUnit (s : State) (p : Nat) (d : Bytes) : Nat :=
  let es := (s.clustersOf p).filter (fun c => !s.polyFailed.testBit c)
  let e := le d 0x3D 1
  if e ≠ 0xFF ∧ !s.polyFailed.testBit e then e
  else (argMin (fun c => (s.ops.filter (fun o => isPolyOp (dOpcode o.desc) && o.unit == c &&
    (decide (o.stage = .waiting) || decide (o.stage = .running)))).length) es).getD 0xFF

/-- The window whose entry a shared-unit operation takes (R210): the emptiest of its kind, in the cluster of the unit
that the body names or, with none named, in the partition's emptiest. -/
def State.sharedHolder (s : State) (p : Nat) (d : Bytes) : Option Nat :=
  let mine := s.enabledCores p
  let all := (List.range 64).filter (fun l => !s.retired.testBit l)
  if mine.isEmpty then argMin s.occupied all
  else
    let named := if isPolyOp (dOpcode d) then some (s.polyUnit p d) else descCluster d
    let c := match named.filter (· < 8) with
      | some c => some c
      | none => argMin (fun c => 512 - s.freeIn c) (s.clustersOf p)
    match c with
    | none => none
    | some c =>
      let own := mine.filter (fun l => clusterOf l == c)
      argMin s.occupied (if own.isEmpty then all.filter (fun l => clusterOf l == c) else own)

/-! ### Completion (R215, R234, R237) -/

/-- A completion record with LAP 0 (R234). -/
def mkRecord (tag core tenant phase status flags ftNs : Nat) (user : Bytes) (info slot replays : Nat) : Bytes :=
  toLE 2 tag ++ toLE 1 core ++ toLE 1 (16 * tenant + phase) ++ toLE 2 status ++ toLE 2 flags ++
  toLE 8 ftNs ++ fit 4 user ++ toLE 4 (min info (2 ^ 32 - 1)) ++ toLE 2 slot ++ toLE 1 replays ++ zeros 5

/-- A ring is configured (R208): SIZE_LOG2 is not 0. -/
def State.ringOn (s : State) (f r : Nat) : Bool := decide (bits (s.regN (aSchedCqCfg f r)) 4 0 ≠ 0)

/-- The ring of a descriptor's record; an unconfigured one is reported in ring 0 (R208). -/
def State.recRing (s : State) (f : Nat) (d : Bytes) : Nat := if s.ringOn f (dCq d) then dCq d else 0

/-- A record joins those to be written, or is discarded with its entry (R237, 14 R590). -/
def State.pushRec (s : State) (r : PendRec) : State :=
  if (s.func r.func).discard then (if r.hasEntry then s.freeEntry r.part r.tag else s)
  else { s with recs := s.recs ++ [r] }

/-- The record of a descriptor that holds no entry, written at once (R208, R227, R230, R780). -/
def State.immediate (s : State) (f slot : Nat) (d : Bytes) (status flags info : Nat) : State :=
  s.pushRec
    { func := f, ring := s.recRing f d, part := dTenant d, tag := dTag d, irq := dIrq d,
      bytes := mkRecord (dTag d) 0xFF (dTenant d) (dPhase d) status flags s.ftNs (slice d 0x14 4) info slot 0 }

/-- An operation of a chain: an MMA with CHAIN 1 to 3, or ACC_EXPORT (03 R128, 04 R183). -/
def isChainOp (d : Bytes) : Bool :=
  (decide (dOpcode d = 0x0100) && decide (1 ≤ mmaChain d)) || decide (dOpcode d = 0x0101)

/-- The operation that ends a chain: its LAST or its ACC_EXPORT (04 R150). -/
def isChainEnd (d : Bytes) : Bool :=
  (decide (dOpcode d = 0x0100) && decide (mmaChain d = 3)) || decide (dOpcode d = 0x0101)

/-- The tags in flight that belong to a chain, from those given on: the operations of partition `p` that
continue context `n` and name one of them as a dependency. -/
def State.chainTags (s : State) (p n : Nat) : Nat → List Nat → List Nat
  | 0, tags => tags
  | k + 1, tags =>
    let more := s.ops.filter (fun o => o.part == p && contCtx o.desc == some n && !tags.contains o.tag &&
      (dDeps o.desc).any (fun t => tags.contains t))
    if more.isEmpty then tags else State.chainTags s p n k (tags ++ more.map (·.tag))

/-- A bit cleared. -/
def clearBit (m n : Nat) : Nat := if m.testBit n then m - 2 ^ n else m

/-- The context of a chain closes when its last operation completes (04 R150), when an operation of it
ends other than with DONE (03 R132; a MALFORMED one is judged by the unit, 03 R131), and where a close
written to CORE_CTX_CLOSE waited for the operation (04 R193). -/
def State.closeChain (s : State) (o : Op) (status : Nat) : State :=
  if isChainOp o.desc then
    match s.ctxHome o.core with
    | some i =>
      let n := bits (le o.desc 0x3C 4) 3 0
      let shut := (if status = stDone then isChainEnd o.desc else decide (status ≠ stMalformed)) ||
        (s.core i).closeHeld.testBit n
      match s.ctxOf o.core n with
      | some c =>
        if c.part = o.part ∧ shut ∧ (s.chainTags o.part n s.ops.length [c.lastTag]).contains o.tag then
          ((s.setCtx i n none).modCore i (fun x => { x with closeHeld := clearBit x.closeHeld n })).modOp o.part o.tag
            (fun q => { q with ctxBack := some c })
        else s
      | none => s.modCore i (fun x => { x with closeHeld := clearBit x.closeHeld n })
    | none => s
  else s

/-- Held writes of an operation that ended are given up with it. -/
def State.dropHeldWrites (s : State) (p tag : Nat) : State :=
  s.modFolio (fun f => { f with moves := f.moves.map (fun m =>
    if m.part == p then { m with held := m.held.filter (fun h => h.2.1 != tag) } else m) })

/-- A completion in the profiling counters (20 R743; log entry 181): an operation that ran has read lines of the Hoard, and
an MMA has kept its array busy or stalled. -/
def State.profComplete (s : State) (o : Op) : State :=
  let k := clusterOf o.holder
  let s1 := s.prof k o.part 0x21 1
  if o.stage = .waiting then s1
  else
    let s2 := if dOpcode o.desc = 0x0100 then (s1.profOpen k o.part 0x01).profOpen k o.part 0x02 else s1
    (List.range 8).foldl (fun t c => t.profOpen c o.part 0x10) s2

/-- One operation completes with the status given: the scoreboard, its dependants where it is DONE, and
its record (R215, R234). Nothing is cancelled here. -/
def State.completeOne (s : State) (o : Op) (status : Nat) : State :=
  let ok := decide (status = stDone)
  let s1 := (s.setLastOk o.part o.tag ok).closeChain o status
  let s2 := if ok then s1 else s1.dropHeldWrites o.part o.tag
  let s3 : State := { s2 with
    rng := s2.rng.leave (fun c => match c with
      | .poly _ p t => p == o.part && t == o.tag
      | _ => false) }
  let s4 : State := if ok then { s3 with ops := s3.ops.map (fun q =>
      if q.part == o.part then { q with deps := q.deps.filter (· != o.tag) } else q) } else s3
  let core := if o.stage = .waiting then 0xFF else o.core
  let s5 := s4.modOp o.part o.tag (fun q => { q with stage := .recording, status := status, waitSub := false })
  (s5.profComplete o).pushRec
    { func := o.func, ring := s.recRing o.func o.desc, part := o.part, tag := o.tag, hasEntry := true,
      irq := dIrq o.desc,
      bytes := mkRecord o.tag core o.part (dPhase o.desc) status o.flags s.ftNs (slice o.desc 0x14 4) o.info o.slot o.replays }

/-- An operation is cancelled because operations that it depends on failed: its record is written after theirs
(R215). -/
def State.cancelAfter (s : State) (o : Op) (causes : List Nat) : State :=
  let t := s.completeOne o stCancelled
  { t with recs := t.recs.map (fun x =>
      if x.hasEntry && x.part == o.part && x.tag == o.tag then { x with after := causes } else x) }

/-- The dependants of failed tags are cancelled, step by step in admission order (R215). -/
def State.cascade : Nat → State → Nat → List Nat → State
  | 0, s, _, _ => s
  | n + 1, s, p, tags =>
    let ds := s.ops.filter (fun o => o.part == p && decide (o.stage = .waiting) && o.deps.any (fun t => tags.contains t))
    if ds.isEmpty then s
    else State.cascade n (ds.foldl (fun t o => t.cancelAfter o (o.deps.filter (fun x => tags.contains x))) s) p (ds.map (·.tag))

/-- An operation completes, and where its status is not DONE its dependants are cancelled (R215). -/
def State.complete (s : State) (o : Op) (status : Nat) : State :=
  let s1 := s.completeOne o status
  if status = stDone then s1 else s1.cascade 4096 o.part [o.tag]

/-- A descriptor that holds no entry fails: its tag records LAST_OK 0 where the scoreboard knows it
(R215). -/
def State.failHeld (s : State) (f slot : Nat) (d : Bytes) (status : Nat) (scores : Bool) : State :=
  let s1 := s.immediate f slot d status 0 0
  if scores then s1.setLastOk (dTenant d) (dTag d) false else s1

/-- Operations completed on a core are counted there (03 R145). -/
def State.countPhys (s : State) (i : Nat) (o : Op) : State :=
  if dOpcode o.desc = 0x0100 ∨ dOpcode o.desc = 0x0200 then
    let a := aCoreOpsLo (i / 9) (i % 9)
    s.setPair a ((s.pair a + 1) % 2 ^ 64)
  else s

/-- The same for the core that an operation runs on. -/
def State.countCore (s : State) (o : Op) : State :=
  match s.physOf o.core with
  | some i => s.countPhys i o
  | none => s

/-- The folio operations whose INFO is the number of folios changed (06 R303, R305). -/
def countsFolios (oc : Nat) : Bool := [0x0300, 0x0301, 0x0302, 0x0320, 0x0330, 0x0331, 0x0332, 0x0333].contains oc

/-- The INFO of an operation that ends without a result: the folios changed so far (06 R305), else engine cycles (R234),
whose number no rule states (log entry 8). -/
def State.endInfo (s : State) (o : Op) : Nat × State :=
  if countsFolios (dOpcode o.desc) then (o.info, s)
  else let r := s.free; (r.1.toNat % 2 ^ 32, r.2)

/-- An operation that has not finished executing is cancelled (R231); a running one has its INFO, and counts on its core
(03 R145). -/
def State.cancelOp (s : State) (p tag status : Nat) : State :=
  match s.findOp p tag with
  | none => s
  | some o =>
    match o.stage with
    | .waiting => s.complete o status
    | .running =>
      let r := s.endInfo o
      (r.2.countCore o).complete { o with info := r.1 } status
    | .finished | .recording => s

/-- The operations of partition `p` that a cancellation reaches, in admission order. -/
def State.cancellable (s : State) (p : Nat) : List Op :=
  (s.opsOf p).filter (fun o => decide (o.stage = .waiting) || decide (o.stage = .running))

/-- An internal operation of a running MACRO is in flight: it waits for a folio or for random numbers (12 R514). -/
def State.macroBusy (s : State) (o : Op) : Bool :=
  s.folio.moves.any (fun m => m.part == o.part && m.waiters.contains o.tag) ||
  s.rng.waiting.any (fun c => match c with
    | .poly _ p t => p == o.part && t == o.tag
    | _ => false)

/-- Engine `e` takes the internal operations of a running MACRO before any other operation: none is issued while the
partition is paused or switches its phase (12 R515; log entry 149). -/
def State.macroHolds (s : State) (e : Nat) : Bool :=
  s.ops.any (fun q => decide (dOpcode q.desc = 0x0540) && decide (q.stage = .running) && (s.clustersOf q.part).contains e &&
    (s.macroBusy q || !((s.part q.part).paused || decide ((s.part q.part).ph = .draining) || decide ((s.part q.part).ph = .boundary) ||
      decide ((s.part q.part).ph = .moving))))

/-- A MACRO that runs and has no internal operation in flight counts as suspended (02 R71). -/
def State.suspended (s : State) (o : Op) : Bool :=
  decide (dOpcode o.desc = 0x0540) && decide (o.stage = .running) && !s.macroBusy o

/-- The operations that the cut-off of a pause or of DRAIN_MS reaches: a MACRO is judged by its internal operations
(02 R71, R227). -/
def State.cutOps (s : State) (p : Nat) : List Op := (s.cancellable p).filter (fun o => !s.suspended o)

/-- Every operation of partition `p` that has not finished executing is cancelled, and the number
cancelled directly (R230, R233). -/
def State.cancelPart (s : State) (p status : Nat) : State × Nat :=
  let l := s.cancellable p
  (l.foldl (fun t o => t.cancelOp p o.tag status) s, l.length)

/-- An accepted job charter load leaves no tag in flight (R213): operations that have finished executing complete, and
one whose record waits keeps its entry under a number that is no tag. A suspended MACRO stays in flight (log entry 125). -/
def State.forgetTags (s : State) (p : Nat) : State :=
  let s1 := ((s.opsOf p).filter (fun o => decide (o.stage = .finished))).foldl (fun t o => t.complete o o.status) s
  let base := 4096 * (1 + ((s1.opsOf p).map (fun o => o.tag / 4096)).foldl max 0)
  let renumber (t : Nat) : Nat := base + t % 4096
  { s1 with
    ops := s1.ops.map (fun o => if o.part == p && decide (o.stage = .recording) then { o with tag := renumber o.tag } else o)
    recs := s1.recs.map (fun x =>
      if x.part == p && x.hasEntry then { x with tag := renumber x.tag, after := x.after.map renumber } else x) }

/-! ### Engine results -/

/-- An operation ends with the status, extra flags and INFO given. -/
def State.endOp (s : State) (p tag status flags info : Nat) : State :=
  s.modOp p tag (fun o => { o with stage := .finished, status := status, flags := setFlags o.flags flags, info := info })

/-- An operation ends without a result of its own for INFO. -/
def State.endOpCycles (s : State) (p tag status flags : Nat) : State :=
  match s.findOp p tag with
  | none => s
  | some o => let r := s.endInfo o; r.2.endOp p tag status flags r.1

/-! ### Failed cores (R221 to R226, 19 R720 to R724) -/

/-- The spare of cluster `c`: an unfenced physical core without a logical number. -/
def State.spareOf (s : State) (c : Nat) : Option Nat :=
  (List.range 9).map (9 * c + ·) |>.find? (fun i => decide ((s.core i).logical = 0xFF) && !(s.core i).fenced)

/-- The logical numbers of cluster `c` that wait for substitution. -/
def State.orphanNumbers (s : State) (c : Nat) : List Nat :=
  (List.range 8).map (8 * c + ·) |>.filter (fun l => !s.retired.testBit l && !s.hasPhys l)

/-- The contexts that logical core `l` had left when it failed are kept by the physical core that
failed, marked so that the chain restarts (03 R133). -/
def markStale (cs : Tab (Option Ctx)) : Tab (Option Ctx) :=
  cs.map (fun e => (e.1, e.2.map (fun c => { c with stale := true })))

/-- Where the contexts of a failed core go, with the closes that wait for them: to another core's closed slots. One
whose number is open there is dropped (log entry 117). -/
def State.moveCtxs (s : State) (i j : Nat) : State :=
  let s1 := ((s.core i).ctxs).foldl (fun t e => match e.2 with
    | some c => if (Tab.look (fun _ => none) (t.core j).ctxs e.1).isNone then t.setCtx j e.1 (some c) else t
    | none => t) s
  let closes := ((setBits 16 (s.core i).closeHeld).filter (fun n => (Tab.look (fun _ => none) (s.core j).ctxs n).isNone)).foldl
    (fun m n => m ||| 2 ^ n) 0
  (s1.modCore i (fun c => { c with ctxs := [], closeHeld := 0 })).modCore j (fun c => { c with
    closeHeld := c.closeHeld ||| closes })

/-- The value that CORE_SR_SEED of a spare takes for number `l`: the seed of the partition's other cores, or of the
core that failed (04 R173, R175). -/
def State.copySeed (s : State) (p l j : Nat) : State :=
  let others := ((s.enabledCores p).filterMap s.physOf).filter (fun i => i != j)
  let failed := (List.range 72).filter (fun i => (s.core i).fenced && (s.core i).lastLogical == l)
  match (others ++ failed).head? with
  | some i => s.setPair (aCoreSrSeedLo (j / 9) (j % 9)) (s.pair (aCoreSrSeedLo (i / 9) (i % 9)))
  | none => s

/-- Logical number `l` is substituted by its cluster's spare (R224). The failed core's contexts, which
it still keeps, go along. -/
def State.substituteOne (s : State) (l : Nat) : State :=
  match s.spareOf (clusterOf l) with
  | none => s
  | some j =>
    let s1 := s.modCore j (fun c => { c with logical := l })
    let s2 := match s1.partOfCore l with
      | some p => s1.copySeed p l j
      | none => s1
    let s3 := match s.failedHome l with
      | some i => s2.moveCtxs i j
      | none => s2
    { s3 with ops := s3.ops.map (fun o => if o.core == l then { o with waitSub := false } else o) }

/-- Every waiting number of partition `p` is substituted (R224, R227). -/
def State.substitute (s : State) (p : Nat) : State :=
  ((setBits 64 (s.coreMask p)).filter (fun l => !s.retired.testBit l && !s.hasPhys l)).foldl State.substituteOne s

/-- Substitution at once: the partition is idle or everything in flight waits for it (R224), but for a pause, whose end
substitutes (02 R72), and for MOVING (07 R347). -/
def State.substituteIdle (s : State) (p : Nat) : State :=
  if (s.part p).ph = .moving ∨ ((s.part p).paused && (s.opsOf p).isEmpty) then s
  else if (s.opsOf p).all (fun o => o.waitSub && decide (o.stage = .waiting)) then s.substitute p else s

/-- An operation is placed by AUTO again, as replay or retirement asks (R223, R225); with no enabled
core left it completes with CAPACITY_LOST (R780). -/
def State.replaceAuto (s : State) (o : Op) (degraded : Bool) : State :=
  match s.autoCore o.part with
  | none => s.complete o stCapacityLost
  | some l =>
    s.modOp o.part o.tag (fun q => { q with
      core := l, holder := l, stage := .waiting, waitSub := !s.hasPhys l, auto := true,
      flags := if degraded then setFlags q.flags flDegraded else q.flags })

/-- What an operation about to be replayed has left in its context is taken out of it: an execution not
yet committed (03 R133). A context with nothing left of its chain closes. -/
def undoChain (d : Bytes) (cs : Tab (Option Ctx)) : Tab (Option Ctx) :=
  cs.filterMap (fun e => match e.2 with
    | some c =>
      if ((c.chain.getLast?).map (·.1)) = some d then
        (if c.chain.length ≤ 1 then none else some (e.1, some { c with chain := c.chain.dropLast }))
      else some e
    | none => some e)

/-- The number of records of a ring (R235). -/
def State.ringSize (s : State) (f r : Nat) : Nat := 2 ^ bits (s.regN (aSchedCqCfg f r)) 4 0

/-- The ring has room for one record (R237). -/
def State.ringRoom (s : State) (f r : Nat) : Bool :=
  let n := s.ringSize f r
  s.ringOn f r && decide ((s.regN (aSchedCqTail f r) + 1) % n ≠ s.regN (aSchedCqHead f r) % n)

/-- The output of an operation is complete and its record only waits for ring space, so that it is committed (R221,
R228, R237). -/
def State.committed (s : State) (o : Op) : Bool :=
  (decide (o.stage = .finished) || decide (o.stage = .recording)) && !s.ringRoom o.func (s.recRing o.func o.desc)

/-- What the operations to be replayed have left behind is taken back, the latest first: a record not yet written, a
context that they closed, and their part in a context (R221, 03 R133). -/
def State.takeBack (i : Nat) (s : State) (o : Op) : State :=
  if s.committed o then s
  else
    let n := bits (le o.desc 0x3C 4) 3 0
    let s1 : State := { s with recs := s.recs.filter (fun x => !(x.hasEntry && x.part == o.part && x.tag == o.tag)) }
    let s2 : State := match o.ctxBack with
      | some c => if (Tab.look (fun _ => none) (s1.core i).ctxs n).isNone then
          s1.setCtx i n (some { c with stale := true }) else s1
      | none => s1
    (s2.modCore i (fun x => { x with ctxs := undoChain o.desc x.ctxs })).modOp o.part o.tag (fun q => { q with ctxBack := none })

/-- One operation of failed core `i`, of logical number `l`, is replayed (R221 to R226): `spare` says that
the number waits for a spare and is not retired, and `tgt` is the core that takes over the chains
otherwise. With no enabled core left it is not replayed but ends with CAPACITY_LOST (R780). -/
def State.replayOne (s : State) (i l : Nat) (spare : Bool) (tgt : Option Nat) (o : Op) : State :=
  match s.findOp o.part o.tag with
  | none => s
  | some q =>
    if s.committed q then s
    else if 3 ≤ q.replays then
      let r := s.free
      let s1 := if q.stage = .waiting then r.2 else r.2.countPhys i q
      s1.complete { q with info := r.1.toNat % 2 ^ 32 } stUncorrectable
    else if (s.autoCore q.part).isNone then s.complete { q with stage := .waiting } stCapacityLost
    else
      let s1 := ((s.modOp q.part q.tag (fun x => { x with replays := x.replays + 1, stage := .waiting })).countUp
        (aSchedPartReplays q.part) 1).prof (clusterOf l) q.part 0x22 1
      let s2 := s1
      let named := !q.auto || isChainOp q.desc
      let q1 := { q with replays := q.replays + 1, stage := .waiting }
      if named && spare then s2.modOp q.part q.tag (fun x => { x with waitSub := true, core := l })
      else if isChainOp q.desc then
        match tgt with
        | some m => s2.modOp q.part q.tag (fun x => { x with
            core := m, holder := m, waitSub := !s2.hasPhys m, flags := setFlags x.flags flDegraded })
        | none => s2.complete q1 stCapacityLost
      else s2.replaceAuto q1 (!spare)

/-- An operation of a number that gives its spare up is placed on another core, as retirement asks (R225). -/
def State.placeRetired (s : State) (tgt : Option Nat) (o : Op) : State :=
  if isChainOp o.desc then
    match tgt with
    | some m => s.modOp o.part o.tag (fun x => { x with
        core := m, holder := m, stage := .waiting, waitSub := !s.hasPhys m, auto := true, flags := setFlags x.flags flDegraded })
    | none => s.complete o stCapacityLost
  else s.replaceAuto o true

/-- Number `h` gives up the spare that it has or waits for, and is retired. -/
def State.yieldSpare (s : State) (h : Nat) : State :=
  let from_ := (s.physOf h).orElse (fun _ => s.failedHome h)
  let s1 := match s.physOf h with
    | some j => s.modCore j (fun x => { x with logical := 0xFF })
    | none => s
  let s2 : State := { s1 with retired := s1.retired ||| 2 ^ h }
  let tgt := (s2.partOfCore h).bind s2.autoCore
  let os := s2.ops.filter (fun o => o.holder == h && !s2.committed o && isCoreOp (dOpcode o.desc))
  let s3 := os.foldl (fun t o => t.placeRetired tgt o) s2
  match from_, tgt.bind s3.physOf with
  | some i, some j => s3.moveCtxs i j
  | _, _ => s3

/-- Two cores of a cluster that fail in one cycle: the spare takes the lower number (R723). So a higher number
that failed in this cycle gives it up to `l`. -/
def State.coincide (s : State) (c l : Nat) : State :=
  match (List.range 9).findSome? (fun k =>
    let x := s.core (9 * c + k)
    if x.failedAt = some s.cycles ∧ l < x.lastLogical ∧ x.lastLogical < 64 ∧ !s.retired.testBit x.lastLogical then
      some x.lastLogical
    else none) with
  | some h => s.yieldSpare h
  | none => s

/-- Physical core `i` fails (19 R721 to R724): it is fenced; its number waits for the spare, or is
retired where no spare is left for it; the operations of its window are replayed. -/
def State.failCore (s : State) (i cause line : Nat) : State :=
  let c := i / 9
  let l := (s.core i).logical
  if (s.core i).fenced then s
  else
    let owner := if l = 0xFF then none else s.partOfCore l
    let s1 := s.addErr stUncorrectable 0x03 0 owner 0xFF
      (toLE 1 c ++ toLE 1 (i % 9) ++ toLE 1 cause ++ zeros 1 ++ toLE 4 line)
    let s2 := s1.modCore i (fun x => { x with fenced := true, logical := 0xFF, lastLogical := l, failedAt := some s.cycles,
                                                ctxs := markStale x.ctxs })
    if l = 0xFF then s2
    else
      let s2 := s2.coincide c l
      let spare := (s2.spareOf c).isSome && (s2.orphanNumbers c).all (· == l)
      let s3 : State := if spare then s2 else { s2 with retired := s2.retired ||| 2 ^ l }
      let os := s3.ops.filter (fun o => o.holder == l && isCoreOp (dOpcode o.desc))
      let tgt := owner.bind s3.autoCore
      let s4 := os.foldl (fun t o => t.replayOne i l spare tgt o) (os.reverse.foldl (State.takeBack i) s3)
      let s5 := if spare then s4
        else match tgt with
          | some m => match s4.physOf m with
            | some j => s4.moveCtxs i j
            | none => s4
          | none => s4
      match owner with
      | some p => s5.substituteIdle p
      | none => if spare then s5.substituteOne l else s5

end Sys2Proof.Machine
end

