-- ==== Sys2Proof/Machine/Operands.lean ====
section
/-!
DEFINITION. Machine/Operands.lean: the operand fields of every descriptor body, and the tenant ranges
that each descriptor names (06 R781, R289, R306).
-/
namespace Sys2Proof.Machine

/-- A tenant range: first address and length in bytes. -/
abbrev VRange := Nat × Nat

/-- An address of a core operation that names scratch (03 R136). -/
def isScratch (a : Nat) : Bool := a.testBit 63

/-- The scratch offset of such an address. -/
def scratchOff (a : Nat) : Nat := a % 2 ^ 63

/-- Row pitch of R91: `bitsTotal` bits rounded up to whole bytes, then to a multiple of 64 bytes. -/
def pitchBits (bitsTotal : Nat) : Nat := ceilDiv (ceilDiv bitsTotal 8) 64 * 64

/-- Bytes of an operand tile of `r` rows of `k` elements, with its scale plane where it is MX (R91). -/
def tileBytes (fmt : Nat) (mx : Bool) (r k : Nat) : Nat :=
  r * pitchBits (k * fmtBits fmt) + (if mx then r * pitchBits (k / 32 * 8) else 0)

/-! ### MMA (03 R124) -/

def mmaA (d : Bytes) : Nat := le d 0x18 8
def mmaB (d : Bytes) : Nat := le d 0x20 8
def mmaD (d : Bytes) : Nat := le d 0x28 8
def mmaM (d : Bytes) : Nat := le d 0x30 1 + 1
def mmaN (d : Bytes) : Nat := le d 0x31 1 + 1
def mmaFmt (d : Bytes) : Nat := le d 0x32 2
def mmaMxB (d : Bytes) : Bool := bit (mmaFmt d) 13
def mmaMxA (d : Bytes) : Bool := bit (mmaFmt d) 12
def mmaDFmt (d : Bytes) : Nat := bits (mmaFmt d) 11 8
def mmaBFmt (d : Bytes) : Nat := bits (mmaFmt d) 7 4
def mmaAFmt (d : Bytes) : Nat := bits (mmaFmt d) 3 0
def mmaK (d : Bytes) : Nat := 32 * (le d 0x34 2 + 1)
def mmaCtrl (d : Bytes) : Nat := le d 0x36 2
def mmaFtz (d : Bytes) : Bool := bit (mmaCtrl d) 9
def mmaSat (d : Bytes) : Bool := bit (mmaCtrl d) 8
def mmaRound (d : Bytes) : Nat := bits (mmaCtrl d) 7 6
def mmaSr (d : Bytes) : Bool := bit (mmaCtrl d) 3
def mmaMode (d : Bytes) : Nat := bits (mmaCtrl d) 2 0
def mmaSegment (d : Bytes) : Nat := le d 0x38 4
def mmaCtx (d : Bytes) : Nat := bits (le d 0x3C 4) 3 0

/-- Bytes of the A tile. -/
def mmaABytes (d : Bytes) : Nat := tileBytes (mmaAFmt d) (mmaMxA d) (mmaM d) (mmaK d)
/-- Bytes of the B tile. -/
def mmaBBytes (d : Bytes) : Nat := tileBytes (mmaBFmt d) (mmaMxB d) (mmaN d) (mmaK d)
/-- Bytes of the D tile. -/
def mmaDBytes (d : Bytes) : Nat := tileBytes (mmaDFmt d) false (mmaM d) (mmaN d)
/-- A SINGLE or LAST writes D (R128). -/
def mmaWritesD (d : Bytes) : Bool := decide (mmaChain d = 0) || decide (mmaChain d = 3)

/-! ### VEC (03 R135) -/

def vecS0 (d : Bytes) : Nat := le d 0x18 8
def vecS1 (d : Bytes) : Nat := le d 0x20 8
def vecDst (d : Bytes) : Nat := le d 0x28 8
def vecRows (d : Bytes) : Nat := le d 0x30 2 + 1
def vecLen (d : Bytes) : Nat := le d 0x32 2 + 1
def vecFtz (d : Bytes) : Bool := bit (le d 0x34 2) 12
def vecFunc (d : Bytes) : Nat := bits (le d 0x34 2) 11 0
def vecSat (d : Bytes) : Bool := bit (le d 0x36 2) 15
def vecRound (d : Bytes) : Nat := bits (le d 0x36 2) 14 13
def vecMxDst (d : Bytes) : Bool := bit (le d 0x36 2) 12
def vecDFmt (d : Bytes) : Nat := bits (le d 0x36 2) 11 8
def vecS1Fmt (d : Bytes) : Nat := bits (le d 0x36 2) 7 4
def vecS0Fmt (d : Bytes) : Nat := bits (le d 0x36 2) 3 0
def vecImm0 (d : Bytes) : Nat := le d 0x38 4
def vecImm1 (d : Bytes) : Nat := le d 0x3C 4

/-- The function codes of R120. -/
def vecFuncs : List Nat :=
  [0x001, 0x002, 0x003, 0x004, 0x005, 0x006, 0x007, 0x008, 0x010, 0x011, 0x012, 0x013, 0x020, 0x021,
   0x022, 0x023, 0x024, 0x025, 0x030, 0x031, 0x032, 0x033, 0x034, 0x035, 0x036, 0x040, 0x080, 0x081,
   0x082, 0x083, 0x084, 0x085, 0x090, 0x091]

/-- The functions that read a second source (R120). -/
def vecTwo (f : Nat) : Bool := [0x001, 0x002, 0x003, 0x004, 0x006, 0x007, 0x010, 0x030, 0x031, 0x032, 0x033, 0x034, 0x084, 0x085].contains f

/-- The second source is one gain row (R120). -/
def vecGain (f : Nat) : Bool := decide (f = 0x084) || decide (f = 0x085)

/-- The functions with one value a row (R120). -/
def vecReduces (f : Nat) : Bool := decide (0x080 ≤ f) && decide (f ≤ 0x082)

/-- Bytes that a VEC reads of source 0; DEQUANT_MX reads its scale plane too. -/
def vecS0Bytes (d : Bytes) : Nat := tileBytes (vecS0Fmt d) (decide (vecFunc d = 0x091)) (vecRows d) (vecLen d)
/-- Bytes that a VEC reads of source 1. -/
def vecS1Bytes (d : Bytes) : Nat :=
  if vecTwo (vecFunc d) then tileBytes (vecS1Fmt d) false (if vecGain (vecFunc d) then 1 else vecRows d) (vecLen d) else 0
/-- Bytes that a VEC writes; QUANT_MX writes a scale plane too. -/
def vecDBytes (d : Bytes) : Nat :=
  tileBytes (vecDFmt d) (decide (vecFunc d = 0x090)) (vecRows d) (if vecReduces (vecFunc d) then 1 else vecLen d)

/-! ### ACC_EXPORT and ACC_SETTLE (04 R183 to R185) -/

/-- Bytes of a partial record of `m` rows of `n` words (R184). -/
def partialBytes (m n : Nat) : Nat := 64 + m * pitchBits (64 * n)

def expAddr (d : Bytes) : Nat := le d 0x18 8
def setBase (d : Bytes) : Nat := le d 0x18 8
def setD (d : Bytes) : Nat := le d 0x20 8
def setStride (d : Bytes) : Nat := le d 0x28 4
def setLog2 (d : Bytes) : Nat := le d 0x2C 1
def setParts (d : Bytes) : Nat := 2 ^ setLog2 d
def setCtrl (d : Bytes) : Nat := le d 0x2E 2
def setDFmt (d : Bytes) : Nat := bits (setCtrl d) 13 10
def setFtz (d : Bytes) : Bool := bit (setCtrl d) 9
def setSat (d : Bytes) : Bool := bit (setCtrl d) 8
def setRound (d : Bytes) : Nat := bits (setCtrl d) 7 6
def setSegment (d : Bytes) : Nat := le d 0x30 4

/-! ### Folio, host DMA and Tally bodies (06 R303, 14 R595, 10 R441, 11 R469) -/

def folAddr (d : Bytes) : Nat := le d 0x18 8
def folArg (d : Bytes) : Nat := le d 0x20 8
def folLen (d : Bytes) : Nat := le d 0x28 8
def folKind (d : Bytes) : Nat := le d 0x30 1
def folWclass (d : Bytes) : Nat := bits (le d 0x31 1) 3 0

def dmaHost (d : Bytes) : Nat := le d 0x18 8
def dmaVa (d : Bytes) : Nat := le d 0x20 8
def dmaLen (d : Bytes) : Nat := le d 0x28 8
def dmaFlags (d : Bytes) : Nat := le d 0x30 1

/-- Bytes of an entry of LEDGER_READ: 8 (10 R443); of REC_LEDGER_READ: 1 (11 R468). -/
def ledgerEntryBytes (oc : Nat) : Nat := if oc = 0x0406 then 8 else 1
def ledgerFirst (d : Bytes) : Nat := le d 0x1C 4
def ledgerCount (d : Bytes) : Nat := le d 0x20 4
def ledgerDst (d : Bytes) : Nat := le d 0x28 8

def recCount (d : Bytes) : Nat := le d 0x1C 4
def recSrc (d : Bytes) : Nat := le d 0x20 8
def recLen (d : Bytes) : Nat := le d 0x28 4

/-! ### Polynomial bodies (12 R502) -/

def polySrc0 (d : Bytes) : Nat := le d 0x18 8
def polySrc1 (d : Bytes) : Nat := le d 0x20 8
def polyDst (d : Bytes) : Nat := le d 0x28 8
def polyKey (d : Bytes) : Nat := le d 0x30 8
def polyGalois (d : Bytes) : Nat := le d 0x38 3
def polyPtBits (d : Bytes) : Nat := le d 0x3B 1
def polySlot (d : Bytes) : Nat := bits (le d 0x3C 1) 5 0
def polyEngine (d : Bytes) : Nat := le d 0x3D 1
def polyPtScale (d : Bytes) : Nat := le d 0x3E 2
def paramAddr (d : Bytes) : Nat := le d 0x18 8
def paramPub (d : Bytes) : Nat := le d 0x20 8
def paramPubLen (d : Bytes) : Nat := le d 0x28 8

/-! ### Named ranges -/

/-- The tenant ranges among those given: scratch operands and empty ones left out. -/
def tenantOnly (l : List VRange) : List VRange := l.filter (fun r => !isScratch r.1 && decide (0 < r.2))

/-- The ranges that a descriptor's body names as read. Polynomial operations read further ranges that
their descriptors in memory name; the unit adds them (`Op.holds`). -/
def namedReads (d : Bytes) : List VRange :=
  let oc := dOpcode d
  if oc = 0x0100 then tenantOnly [(mmaA d, mmaABytes d), (mmaB d, mmaBBytes d)]
  else if oc = 0x0102 then tenantOnly ((List.range (setParts d)).map (fun i => (setBase d + i * setStride d, 64)))
  else if oc = 0x0200 then tenantOnly [(vecS0 d, vecS0Bytes d), (vecS1 d, vecS1Bytes d)]
  else if oc = 0x0300 then [(folAddr d, folLen d)]
  else if oc = 0x0601 then [(dmaVa d, dmaLen d)]
  else if oc = 0x0410 ∨ oc = 0x0411 then [(recSrc d, recLen d)]
  else if oc = 0x0500 then [(paramAddr d, 32), (paramPub d, paramPubLen d)]
  else if 0x0510 ≤ oc ∧ oc ≤ 0x0540 then (polySrc0 d, 64) :: (if polySrc1 d = 0 then [] else [(polySrc1 d, 64)])
  else []

/-- The ranges that a descriptor's body names as written. -/
def namedWrites (d : Bytes) : List VRange :=
  let oc := dOpcode d
  if oc = 0x0100 then (if mmaWritesD d then tenantOnly [(mmaD d, mmaDBytes d)] else [])
  else if oc = 0x0101 then tenantOnly [(expAddr d, 64)]
  else if oc = 0x0102 then tenantOnly [(setD d, 64)]
  else if oc = 0x0200 then tenantOnly [(vecDst d, vecDBytes d)]
  else if oc = 0x0300 then [(folArg d, folLen d)]
  else if oc = 0x0301 then [(folAddr d, folLen d)]
  else if oc = 0x0600 then [(dmaVa d, dmaLen d)]
  else if oc = 0x0406 ∨ oc = 0x0414 then [(ledgerDst d, ledgerCount d * ledgerEntryBytes oc)]
  else if 0x0510 ≤ oc ∧ oc ≤ 0x0540 then [(polyDst d, 64)]
  else []

/-- The other ranges that a descriptor names: those of the folio operations that place folios. -/
def namedPlaces (d : Bytes) : List VRange :=
  let oc := dOpcode d
  if oc = 0x0302 ∨ oc = 0x0320 ∨ (0x0330 ≤ oc ∧ oc ≤ 0x0333) then [(folAddr d, folLen d)] else []

/-- A range lies within the 52-bit tenant space (R781). -/
def rangeOk (r : VRange) : Bool := decide (r.1 < 2 ^ 52) && decide (r.1 + r.2 ≤ 2 ^ 52)

/-- The folio numbers of a range. -/
def foliosOf (r : VRange) : List Nat :=
  if r.2 = 0 then [] else (List.range ((r.1 + r.2 - 1) / 65536 - r.1 / 65536 + 1)).map (r.1 / 65536 + ·)

/-- Folio `v` meets a range. -/
def rangeHas (v : Nat) (r : VRange) : Bool :=
  decide (0 < r.2) && decide (r.1 / 65536 ≤ v) && decide (v ≤ (r.1 + r.2 - 1) / 65536)

/-- An operation holds folio `v` as an operand (06 R289, R306). -/
def Op.holdsFolio (o : Op) (v : Nat) : Bool :=
  (namedReads o.desc ++ namedWrites o.desc ++ namedPlaces o.desc ++ o.holds).any (rangeHas v)

end Sys2Proof.Machine
end

