-- ==== Sys2Proof/Machine/FolioOps.lean ====
section
/-!
DEFINITION. Machine/FolioOps.lean: shared operations of the folio unit (06_hoard_and_folios): frames
and regions, leaf entries and charges, the start of folio transfers, the touch of an operand and the
bytes of a virtual range.
-/
namespace Sys2Proof.Machine

/-! ### Leaf entries -/

/-- The key of a leaf entry. -/
def leafKey (p v : Nat) : Nat := p * 2 ^ 36 + v

/-- The leaf entry of folio `v` of partition `p`. -/
def State.leaf (s : State) (p v : Nat) : Leaf := Tab.look (fun _ => {}) s.folio.leaves (leafKey p v)

/-- A leaf entry replaced. -/
def State.setLeaf (s : State) (p v : Nat) (l : Leaf) : State :=
  s.modFolio (fun f => { f with leaves := Tab.store (fun _ => {}) f.leaves (leafKey p v) l })

/-- A leaf entry changed. -/
def State.modLeaf (s : State) (p v : Nat) (g : Leaf → Leaf) : State := s.setLeaf p v (g (s.leaf p v))

/-- The leaf entries of partition `p` that are listed, in ascending order. -/
def State.leavesOf (s : State) (p : Nat) : List (Nat × Leaf) :=
  (s.folio.leaves.filter (fun e => e.1 / 2 ^ 36 == p)).map (fun e => (e.1 % 2 ^ 36, e.2))

/-! ### Hoard frames and regions (R250, R262) -/

/-- The column of a Hoard frame. -/
def colOf (f : Nat) : Nat := f / 16384

/-- The part of a region of `n` frames that lies in column `c` (log entry 18). -/
def colShare (n c : Nat) : Nat := n / 8 + b2n (decide (c < n % 8))

/-- HOARD_SPLIT in force. -/
def State.split (s : State) : HoardSplit := ((s.dev).map (·.split)).getD {}

/-- The frames of column `c` below the folio cache's first. -/
def State.colReserved (s : State) (c : Nat) : Nat :=
  colShare s.split.scratch c + colShare s.split.tallyAcc c + colShare s.split.retention c

/-- The region of a frame (log entry 18). -/
def State.regionOf (s : State) (f : Nat) : Region :=
  match s.folio.regionSwap.find? (fun e => e.1 == f) with
  | some e => e.2
  | none =>
    let c := colOf f
    let rank := f % 16384 - (s.folio.splitRetired.filter (fun g => colOf g == c && decide (g < f))).length
    let a := colShare s.split.scratch c
    let b := a + colShare s.split.tallyAcc c
    if rank < a then .scratch
    else if rank < b then .tallyAcc
    else if rank < b + colShare s.split.retention c then .retention
    else .cache

/-- What a Hoard frame is in use for. -/
def State.hUse (s : State) (f : Nat) : HUse := Tab.look (fun _ => .free) s.folio.hUse f

/-- A Hoard frame's use replaced. -/
def State.setHUse (s : State) (f : Nat) (u : HUse) : State :=
  s.modFolio (fun x => { x with hUse := Tab.store (fun _ => .free) x.hUse f u })

/-- The first number from `start` that passes, within `n`. -/
def firstFrom (ok : Nat → Bool) : Nat → Nat → Option Nat
  | 0, _ => none
  | n + 1, start => if ok start then some start else firstFrom ok n (start + 1)

/-- A frame of a region that nothing uses. -/
def State.frameFree (s : State) (r : Region) (f : Nat) : Bool := decide (s.hUse f = .free) && decide (s.regionOf f = r)

/-- The lowest free frame of the folio cache in column `c` (log entry 18). -/
def State.freeInCol (s : State) (c : Nat) : Option Nat :=
  firstFrom (s.frameFree .cache) (16384 - s.colReserved c) (16384 * c + s.colReserved c)

/-- Frames of the folio cache in column `c`, retired ones left out. -/
def State.cacheFrames (s : State) (c : Nat) : Nat :=
  let gone := s.folio.hUse.filter (fun e => colOf e.1 == c && decide (e.2 = .retired) &&
    !s.folio.splitRetired.contains e.1 && decide (s.regionOf e.1 = .cache))
  16384 - s.colReserved c - (s.folio.splitRetired.filter (fun g => colOf g == c)).length - gone.length -
    (s.folio.regionSwap.filter (fun e => colOf e.1 == c)).length

/-- Free frames of the folio cache in column `c`. -/
def State.freeCount (s : State) (c : Nat) : Nat :=
  s.cacheFrames c - (s.folio.hUse.filter (fun e => colOf e.1 == c && (match e.2 with
    | .folio _ _ | .scrub => true
    | _ => false))).length

/-- Hoard frames that hold the folios of partition `p`. -/
def State.heldFrames (s : State) (p : Nat) : Nat :=
  (s.folio.hUse.filter (fun e => match e.2 with | .folio q _ => q == p | _ => false)).length

/-- The same without those whose write-back is in flight, which will be given up. -/
def State.keptFrames (s : State) (p : Nat) : Nat :=
  s.heldFrames p - (s.folio.moves.filter (fun m => m.part == p && decide (m.kind = .writeback))).length

/-- FOLIO_FRAMES of partition `p`. -/
def State.folioFrames (s : State) (p : Nat) : Nat := ((s.partRec p).map (·.folioFrames)).getD 0

/-- Pinned frames of partition `p` (R313). -/
def State.pinnedFrames (s : State) (p : Nat) : Nat := ((s.leavesOf p).filter (fun e => e.2.pin)).length

/-! ### LPDDR5X frames (R266, R283, R284) -/

/-- The channel of an LPDDR5X frame. -/
def chanOf (f : Nat) : Nat := f % 128

/-- Frames of one channel. -/
def State.chanFrames (s : State) : Nat := 2048 * s.stackGib

/-- What an LPDDR5X frame is in use for. -/
def State.lUse (s : State) (f : Nat) : LUse := Tab.look (fun _ => .free) s.folio.lUse f

/-- An LPDDR5X frame's use replaced. -/
def State.setLUse (s : State) (f : Nat) (u : LUse) : State :=
  s.modFolio (fun x => { x with lUse := Tab.store (fun _ => .free) x.lUse f u })

/-- The lowest free frame of channel `ch` (log entry 18). -/
def State.freeInChan (s : State) (ch : Nat) : Option Nat :=
  if s.folio.chRetired.testBit ch then none
  else (firstFrom (fun i => decide (s.lUse (128 * i + ch) = .free)) s.chanFrames 0).map (fun i => 128 * i + ch)

/-- A free frame for the number given, from its channel on (R283). -/
def State.freeLpddr (s : State) (v : Nat) : Option Nat :=
  (List.range 128).findSome? (fun k => s.freeInChan ((v + k) % 128))

/-- LPDDR5X frames charged to partition `p`: its table frames, one for each folio of CLASS HOARD or LPDDR from its first
allocation, and one for each pull in flight of a folio of another class (R284). -/
def State.lpddrCharge (s : State) (p : Nat) : Nat :=
  (s.folio.tables.filter (fun e => e.1 / 2 ^ 40 == p)).length +
  ((s.leavesOf p).filter (fun e => (decide (e.2.cls = .hoard) || decide (e.2.cls = .lpddr)) &&
    (decide (e.2.state = .resident) || decide (e.2.state = .moving)))).length +
  (s.folio.moves.filter (fun m => m.part == p && decide (m.kind = .pull) &&
    !(decide ((s.leaf p m.vfn).cls = .hoard) || decide ((s.leaf p m.vfn).cls = .lpddr)))).length

/-- The share of partition `p` in frames. -/
def State.lpddrShare (s : State) (p : Nat) : Nat := ((s.partRec p).map (·.lpddrGib)).getD 0 * 16384

/-- The key of a table frame: level 1 to 3 and its index at that level (R275). -/
def tableKey (p level idx : Nat) : Nat := p * 2 ^ 40 + level * 2 ^ 38 + idx

/-- The table frames on the way to folio `v`. -/
def tablePath (p v : Nat) : List Nat := [tableKey p 1 0, tableKey p 2 (v / 2 ^ 24), tableKey p 3 (v / 2 ^ 12)]

/-- Those that do not exist yet (R276). -/
def State.missingTables (s : State) (p v : Nat) : List Nat :=
  (tablePath p v).filter (fun k => !(s.folio.tables.any (fun e => e.1 == k)))

/-- One table frame created under the current generation; its channel is that of its index (log
entry 18). -/
def State.makeTable (s : State) (p k : Nat) : State :=
  match s.freeLpddr (k % 2 ^ 38) with
  | none => s
  | some f =>
    (s.setLUse f (.table p)).modFolio (fun x =>
      { x with tables := Tab.store (fun _ => (0, 0)) x.tables k (f, (s.part p).keyCur + 4) })

/-- Every table frame on the way to folio `v` can be had, and with `more` one LPDDR5X frame beyond them (R284). -/
def State.tableRoom (s : State) (p v : Nat) (more : Bool) : Bool :=
  let t := (s.missingTables p v).foldl (fun u k => u.makeTable p k) s
  (t.missingTables p v).isEmpty && (!more || (t.freeLpddr v).isSome)

/-! ### Where a phase map puts a folio (07 R327 to R334) -/

/-- A class holds folio `v`. -/
def ClassEnt.has (c : ClassEnt) (v : Nat) : Bool := decide (c.base ≤ 65536 * v) && decide (65536 * v < c.base + c.len)

/-- Where a class places folio `v`: its owner's rank, none where every rank owns it, and its cluster
shard (R329). -/
def ClassEnt.place (c : ClassEnt) (v : Nat) : Option Nat × Nat :=
  let i := v - c.base / 65536
  if c.kind = 0 then (none, i / c.unit % c.cluWays)
  else
    let sh := i / c.unit % (c.pkgWays * c.cluWays)
    (some (sh % c.pkgWays), sh / c.pkgWays)

/-- Among `total` folios, those that the deal of `unit` folios at a time to `ways` shards gives one shard (R329). -/
def shardCount (total unit ways shard : Nat) : Nat :=
  total / (unit * ways) * unit + min unit (total % (unit * ways) - shard * unit)

/-- Among the first `n` folios of a class, those that rank `r` owns (R329). -/
def ClassEnt.ownedBelow (c : ClassEnt) (n r : Nat) : Nat :=
  if c.kind = 0 then n else if c.pkgWays ≤ r then 0 else shardCount n c.unit c.pkgWays r

/-- The class that places folio `v`: the enclosing one where classes nest (R327). -/
def PhaseMap.outer (m : PhaseMap) (v : Nat) : Option ClassEnt := argMin (fun c => 2 ^ 52 - c.len) (m.classes.filter (fun c => c.has v))

/-- A folio's place under a phase map. -/
structure Placed where
  owner : Option Nat
  col : Option Nat
  wclass : Nat
  pin : Bool
deriving DecidableEq, Repr

/-- The column of a cluster shard of partition `p` (R330). -/
def State.shardCol (s : State) (p shard : Nat) : Option Nat :=
  let cs := s.clustersOf p
  if cs.isEmpty then none else cs[shard % cs.length]?

/-- The place of folio `v` under a map: owner and column from the enclosing class, weight class and pin
from the nested one where there is one (R327). -/
def State.placeIn (s : State) (p : Nat) (m : PhaseMap) (v : Nat) : Option Placed :=
  match m.outer v, argMin (fun c => c.len) (m.classes.filter (fun c => c.has v)) with
  | some outer, some inner =>
    some { owner := (outer.place v).1, col := s.shardCol p (outer.place v).2, wclass := inner.wclass, pin := inner.pin }
  | _, _ => none

/-- The place of folio `v` under the map in force. -/
def State.placeOf (s : State) (p v : Nat) : Option Placed := (s.phaseMap p).bind (fun m => s.placeIn p m v)

/-- PACKAGES of partition `p`'s job (R324). -/
def State.packages (s : State) (p : Nat) : Nat := (((s.job p).bind (fun j => j.phases.head?)).map (·.packages)).getD 1

/-- The rank of this package in partition `p`'s job (R334). -/
def State.myRank (s : State) (p : Nat) : Option Nat := if s.packages p ≤ 1 then some 0 else (s.part p).rank

/-- A place is this package's own. -/
def Placed.mine (pl : Placed) (rank : Nat) : Bool := match pl.owner with | none => true | some r => r == rank

/-- The same where the rank may not be known: then only a REPLICATED class's is. -/
def Placed.mineIf (pl : Placed) (rank : Option Nat) : Bool := pl.owner.isNone || pl.owner == rank

/-! ### What preparing an operand gives -/

/-- The outcome of preparing operands: ready, waiting (a transfer or a frame), or failed. -/
inductive Prep where
  | ok (s : State)
  | wait (s : State)
  | fail (s : State) (status : Nat)

/-- The next preparation after one. A wait goes on with the others, so that their transfers start. -/
def Prep.andThen (r : Prep) (g : State → Prep) : Prep :=
  match r with
  | .ok s => g s
  | .wait s => match g s with
    | .ok t => .wait t
    | .wait t => .wait t
    | .fail t st => .fail t st
  | .fail s st => .fail s st

/-- Preparations in order. -/
def prepAll {α : Type} (g : State → α → Prep) : List α → State → Prep
  | [], s => .ok s
  | a :: l, s => (g s a).andThen (prepAll g l)

/-- The ledger entry of R284. -/
def State.quotaErr (s : State) (p : Nat) : State := s.addErr stNotPermitted 0x06 0 (some p) 0xFF [1]

/-- Frames that wait to be zeroed. -/
def State.hasScrub (s : State) (hoard : Bool) : Bool := s.folio.scrubs.any (fun x => x.hoard == hoard)

/-! ### Eviction (R285, R288 to R290) -/

/-- BIAS of weight class `w` of partition `p` (R320). -/
def State.bias (s : State) (p w : Nat) : Nat := bits (s.pair (aFolioPartBiasLo p)) (4 * w + 3) (4 * w)

/-- A folio may be evicted for partition `p` (R289); `none` stands for the eviction ahead of demand,
which serves no partition (log entry 19). -/
def State.evictable (s : State) (forPart : Option Nat) (q v : Nat) (l : Leaf) : Bool :=
  decide (l.state = .resident) && l.hvalid && !l.pin &&
  (decide (forPart = some q) || decide (s.folioFrames q < s.keptFrames q)) &&
  !(s.ops.any (fun o => o.part == q && decide (o.stage ≠ .recording) && o.holdsFolio v))

/-- The victim of column `c` (R288). -/
def State.victim (s : State) (forPart : Option Nat) (c : Nat) (skip : List Nat := []) : Option (Nat × Nat) :=
  let cands := s.folio.leaves.filter (fun e => e.2.hvalid && decide (colOf e.2.hframe = c) && !skip.contains e.1 &&
    s.evictable forPart (e.1 / 2 ^ 36) (e.1 % 2 ^ 36) e.2)
  (argMin (fun e => (31 - (e.2.age + s.bias (e.1 / 2 ^ 36) e.2.wclass)) * 2 ^ 17 + e.2.hframe) cands).map
    (fun e => (e.1 / 2 ^ 36, e.1 % 2 ^ 36))

/-- The Hoard copy of a folio given up (R290, R294). -/
def State.dropCopy (s : State) (p v : Nat) : State :=
  let l := s.leaf p v
  (s.setHUse l.hframe .free).setLeaf p v { l with hvalid := false, dirty := false, hframe := 0 }

/-- A transfer starts: the folio is MOVING (R279) and PEAK keeps the highest number. -/
def State.startMove (s : State) (m : Move) : State :=
  (s.modLeaf m.part m.vfn (fun l => { l with state := .moving })).modFolio (fun f =>
    { f with moves := f.moves ++ [m], peak := max f.peak (f.moves.length + 1) })

/-- There is room for one transfer more. -/
def State.moveRoom (s : State) : Bool := decide (s.folio.moves.length < 2048)

/-- The transfer of a folio. -/
def State.moveOf (s : State) (p v : Nat) : Option Move :=
  s.folio.moves.find? (fun m => m.part == p && m.vfn == v)

/-- The transfer of a folio changed. -/
def State.modMove (s : State) (p v : Nat) (g : Move → Move) : State :=
  s.modFolio (fun f => { f with moves := f.moves.map (fun m => if m.part == p && m.vfn == v then g m else m) })

/-- The write-back of a dirty folio starts, under the current generation, with a home given to a folio
of CLASS HOARD (R290); not where the key fails step 1, no frame is free or no transfer is. -/
def State.startWriteback (s : State) (p v : Nat) (waiters : List Nat) : Option State :=
  let l := s.leaf p v
  let g := (s.part p).keyCur
  if !s.memLive p g || !s.moveRoom then none
  else
    let m : Move := { part := p, vfn := v, kind := .writeback, gen := g, waiters := waiters }
    if l.cls = .hoard then
      match s.freeLpddr v with
      | none => none
      | some f => some ((s.setLUse f (.folio p v)).startMove { m with dest := f })
    else some (s.startMove { m with dest := l.home })

/-- Room made by a victim of column `c`, with fuel: one whose write-back cannot start is passed over. -/
def State.victimRoom (s : State) (p c : Nat) : Nat → List Nat → State × Option (Option Nat)
  | 0, _ => (s, none)
  | n + 1, skip =>
    match s.victim (some p) c skip with
    | none => (s, none)
    | some (q, v) =>
      let l := s.leaf q v
      if !l.dirty && decide (l.cls ≠ .hoard) then (s.dropCopy q v, some (some l.hframe))
      else match s.startWriteback q v [] with
        | some t => (t, some none)
        | none => s.victimRoom p c n (leafKey q v :: skip)

/-- Room made in column `c` for partition `p`: a free frame, or a clean victim's; where the victim is
dirty its write-back starts and there is none yet. The answer `some none` says to wait. -/
def State.roomInCol (s : State) (p c : Nat) : State × Option (Option Nat) :=
  match s.freeInCol c with
  | some f => (s, some (some f))
  | none => s.victimRoom p c (s.folio.leaves.length + 1) []

/-- A Hoard frame for partition `p`, from column `c` or the nearest after it (R282), with fuel for the
columns. -/
def State.roomFrom (s : State) (p : Nat) : Nat → Nat → State × Option Nat
  | 0, _ => (s, none)
  | n + 1, c =>
    match s.roomInCol p (c % 8) with
    | (t, some r) => (t, r)
    | (_, none) => s.roomFrom p n (c + 1)

/-- A Hoard frame for partition `p` (R282, R286). -/
def State.takeHoard (s : State) (p c : Nat) : State × Option Nat := s.roomFrom p 8 c

/-! ### Zeroing (R278, R678) -/

/-- The frames of a folio join those to be zeroed (R279). -/
def State.scrubFrames (s : State) (p v : Nat) (hoard lpddr : Option Nat) : State :=
  let add (t : State) (h : Bool) (o : Option Nat) : State := match o with
    | none => t
    | some f =>
      let t1 := if h then t.setHUse f .scrub else t.setLUse f .scrub
      t1.modFolio (fun x => { x with scrubs := x.scrubs ++ [{ hoard := h, frame := f, folio := some (p, v) }] })
  add (add s true hoard) false lpddr

/-- The home frame of a folio of CLASS LPDDR. -/
def Leaf.lframe (l : Leaf) : Option Nat := if l.cls = .lpddr then some l.home else none

/-- A folio goes to SCRUB, or to ABSENT where it holds no frame (R279). -/
def State.toScrub (s : State) (p v : Nat) : State :=
  let l := s.leaf p v
  let held := decide (l.state = .resident)
  let h := if held && l.hvalid then some l.hframe else none
  let lp := if held then l.lframe else none
  let s1 := s.scrubFrames p v h lp
  if h.isNone && lp.isNone then s1.setLeaf p v {} else s1.setLeaf p v { state := .scrub }

/-- One frame has been zeroed: it is free again, and its folio becomes ABSENT with its last frame
(R279, R678). -/
def State.zeroFrame (s : State) (hoard : Bool) (f : Nat) : State :=
  match s.folio.scrubs.find? (fun x => x.hoard == hoard && x.frame == f) with
  | none => s
  | some x =>
    let s1 := s.modFolio (fun t =>
      let rest := t.scrubs.filter (fun y => !(y.hoard == hoard && y.frame == f))
      if hoard then { t with scrubs := rest, hoard := Mem.zero t.hoard (65536 * f) 65536 }
      else { t with scrubs := rest, lpddr := Mem.zero t.lpddr (65536 * f) 65536 })
    let s2 := if hoard then (if s1.hUse f = .scrub then s1.setHUse f .free else s1) else s1.setLUse f .free
    match x.folio with
    | none => s2
    | some (p, v) =>
      if (s2.folio.scrubs.any (fun y => y.folio == some (p, v))) || decide ((s2.leaf p v).state ≠ .scrub) then s2
      else s2.setLeaf p v {}

/-- The frames of a folio in SCRUB are zeroed now, ahead of a first write to it. -/
def State.finishScrub (s : State) (p v : Nat) : State :=
  (s.folio.scrubs.filter (fun x => x.folio == some (p, v))).foldl (fun t x => t.zeroFrame x.hoard x.frame) s

/-! ### First allocation (R279, R284) -/

/-- A folio that is ABSENT gets a zeroed Hoard frame in column `c`. -/
def State.allocFolio (s : State) (p v c wclass : Nat) (pin : Bool) : Prep :=
  let missing := s.missingTables p v
  if s.lpddrShare p < s.lpddrCharge p + 1 + missing.length then .fail (s.quotaErr p) stNotPermitted
  else if !s.tableRoom p v true then
    (if s.hasScrub false then .wait s else .fail (s.quotaErr p) stNotPermitted)
  else
    match s.takeHoard p c with
    | (t, none) => .wait t
    | (t, some f) =>
      let t1 := missing.foldl (fun u k => u.makeTable p k) t
      let t2 := (t1.setHUse f (.folio p v)).modFolio (fun x => { x with hoard := Mem.zero x.hoard (65536 * f) 65536 })
      .ok (t2.setLeaf p v
        { cls := .hoard, state := .resident, hvalid := true, hframe := f, dirty := true,
          wclass := wclass, touched := true, pin := pin, keygen := (s.part p).keyCur })

/-! ### Demand fetch (R279, R281, R623) -/

/-- The checks of 15 R622 on the keys of a folio's home: its MEMORY generation, or for a peer the job's keys. -/
def State.homeCheck (s : State) (p : Nat) (l : Leaf) : Nat :=
  match l.cls with
  | .hoard => stDone
  | .lpddr | .host => s.memCheck p l.keygen
  | .peer => s.jobCheck p

/-- Those keys may be used. -/
def State.homeKey (s : State) (p : Nat) (l : Leaf) : Bool := decide (s.homeCheck p l = stDone)

/-- A FETCH of a whole folio goes to a peer under the FLOW last taken (R294, 13 R539). -/
def State.askPeer (s : State) (p peer remote : Nat) : State :=
  let r := s.takeFlow p peer
  r.2.queueMsg p peer { type := 2, flow := r.1, body := fetchHead remote 0 8 }

/-- A transfer from a peer starts, known by the FLOW last taken. -/
def State.startPeer (s : State) (m : Move) (peer : Nat) : State :=
  s.startMove { m with peer := peer, flow := ((s.link m.part peer).flow + 65535) % 65536, since := s.cycles }

/-- A fetch of a folio without a Hoard copy starts into column `c`; it waits where no frame or transfer
is free and fails where its key does. -/
def State.startFetch (s : State) (p v c : Nat) (waiters : List Nat) (stream : Bool := false) : Prep :=
  let l := s.leaf p v
  if !s.homeKey p l then .fail s (s.homeCheck p l)
  else if !s.moveRoom then .wait s
  else
    match s.takeHoard p c with
    | (t, none) => .wait t
    | (t, some f) =>
      let u := t.setHUse f (.folio p v)
      let m : Move := { part := p, vfn := v, kind := .fetch, dest := f, gen := l.keygen, waiters := waiters, stream := stream }
      if l.cls = .peer then .ok ((u.askPeer p (l.home % 1024) (l.home / 1024)).startPeer m (l.home % 1024))
      else .ok (u.startMove m)

/-! ### Streams (R307 to R310) -/

/-- Stream `i` of cluster `c`. -/
def State.stream (s : State) (c i : Nat) : Stream := Tab.look (fun _ => {}) s.folio.streams (16 * c + i)

/-- A stream replaced. -/
def State.setStream (s : State) (c i : Nat) (x : Stream) : State :=
  s.modFolio (fun f => { f with streams := Tab.store (fun _ => {}) f.streams (16 * c + i) x })

/-- The first folio of the walk in hand. -/
def Stream.first (x : Stream) : Nat := if x.blocks.isEmpty then x.base / 65536 else x.blocks.getD x.blk 0

/-- Folio `i` of a stream (R308); the stream of a class with several shards in its column takes W folios of each in turn
(07 R336). -/
def Stream.folio (x : Stream) (i : Nat) : Nat :=
  let w := max x.w 1
  let n := max x.shards.length 1
  unsgn 36 ((x.first : Int) + ((x.shards.getD (i / w % n) 0 + i % w : Nat) : Int) + ((i / w / n : Nat) : Int) * sgn 32 x.stride)

/-- The indices that a stream keeps ahead: from POS on, around where it wraps (R308, R309). -/
def Stream.window (x : Stream) : List Nat :=
  if !x.enable || decide (x.count = 0) then []
  else if x.wrap && x.blocks.isEmpty then (List.range (min x.ahead x.count)).map (fun k => (x.pos + k) % x.count)
  else (List.range x.ahead).map (x.pos + ·) |>.filter (fun i => decide (i < x.count))

/-- POS after the consumer has read index `i` (R309); a walk of several blocks goes on to the next. -/
def Stream.passed (x : Stream) (i : Nat) : Stream :=
  if i + 1 < x.count then { x with pos := i + 1 }
  else if x.blocks.isEmpty then { x with pos := if x.wrap then 0 else x.count }
  else if x.blk + 1 < x.blocks.length then { x with pos := 0, blk := x.blk + 1 }
  else { x with pos := if x.wrap then 0 else x.count, blk := if x.wrap then 0 else x.blk }

/-- The streams of cluster `c` see that partition `p` reads folio `v` (R309, R310). -/
def State.streamsSee (s : State) (p c v : Nat) : State :=
  (List.range 16).foldl (fun t i =>
    let x := t.stream c i
    if x.enable && x.part == p then
      match x.window.find? (fun k => x.folio k == v) with
      | none => t
      | some k =>
        let t1 := t.setStream c i (x.passed k)
        if x.release then
          ((x.window.takeWhile (· != k)) ++ [k]).foldl (fun u j =>
            if (u.leaf p (x.folio j)).hvalid then u.modLeaf p (x.folio j) (fun l => { l with age := 15 }) else u) t1
        else t1
    else t) s

/-! ### Touching operands -/

/-- The cluster that an operation's accesses come from (R282). -/
def Op.cluster (o : Op) : Nat := clusterOf (if o.core = 0xFF then o.holder else o.core)

/-- A folio is accessed: its AGE returns to 0 (R287). -/
def State.touch (s : State) (p v : Nat) : State := s.modLeaf p v (fun l => { l with age := 0, touched := true })

/-- Operation `o` has read folio `v`: its first access touches the folio and moves the streams of its cluster on (R287,
R309, R310). -/
def State.sawRead (s : State) (o : Op) (v : Nat) : State :=
  if o.seen.contains v then s
  else
    let t := if (s.leaf o.part v).hvalid then s.touch o.part v else s
    (t.streamsSee o.part o.cluster v).modOp o.part o.tag (fun q => { q with seen := q.seen ++ [v] })

/-- A DISCARD admitted before `o` has yet to act on folio `v` (R306). -/
def State.discardBefore (s : State) (o : Op) (v : Nat) : Bool :=
  (s.ops.takeWhile (fun q => !(q.part == o.part && q.tag == o.tag))).any (fun q =>
    q.part == o.part && decide (dOpcode q.desc = 0x0302) && (decide (q.stage = .waiting) || decide (q.stage = .running)) &&
    rangeHas v (folAddr q.desc, folLen q.desc) && decide (folAddr q.desc / 65536 + q.progress ≤ v))

/-- The column for a Hoard copy of folio `v` that operation `o` needs: its class's (07 R330), else that
of the operation's cluster. -/
def State.colFor (s : State) (o : Op) (v : Nat) : Nat := ((s.placeOf o.part v).bind (·.col)).getD o.cluster

/-- The weight class of a folio that is allocated: its class's (07 R327), else the one given. -/
def State.wclassFor (s : State) (p v w : Nat) : Nat := ((s.placeOf p v).map (·.wclass)).getD w

/-- The map's first word on an access: no access to a class before the rank is known (07 R334), and an
ABSENT folio of another package is mapped to it (07 R332). One that was handed off and is not yet zeroed becomes
ABSENT first (07 R346). -/
def State.classGate (s : State) (p v : Nat) : Prep :=
  match s.placeOf p v with
  | none => .ok s
  | some pl =>
    match s.myRank p with
    | none => .fail s stNotPermitted
    | some r =>
      if pl.mine r || !(decide ((s.leaf p v).state = .absent) || decide ((s.leaf p v).state = .scrub)) then .ok s
      else
        let s := s.finishScrub p v
        let missing := s.missingTables p v
        match (pl.owner).bind (s.rankPeer p) with
        | none => .fail s stNotPermitted
        | some e =>
          if s.lpddrShare p < s.lpddrCharge p + missing.length then .fail (s.quotaErr p) stNotPermitted
          else if !s.tableRoom p v false then
            (if s.hasScrub false then .wait s else .fail (s.quotaErr p) stNotPermitted)
          else .ok ((missing.foldl (fun u k => u.makeTable p k) s).setLeaf p v
            { cls := .peer, state := .resident, wclass := pl.wclass, home := v * 1024 + e.index })

/-- Operation `o` reads folio `v`, past the map's word (R279 to R281, R295). -/
def State.touchReadIn (o : Op) (v : Nat) (s : State) : Prep :=
  let p := o.part
  let l := s.leaf p v
  match l.state with
  | .absent | .scrub => .ok (s.sawRead o v)
  | .retired => .fail s stUncorrectable
  | .resident =>
    if l.hvalid then .ok (s.sawRead o v)
    else match s.startFetch p v (s.colFor o v) [o.tag] with
      | .ok t => .wait (t.prof o.cluster p 0x11 1)
      | r => r
  | .moving =>
    match s.moveOf p v with
    | some m =>
      if m.kind = .pull ∨ (m.kind = .fetch ∧ l.cls = .peer) then
        .wait (s.modMove p v (fun x => if x.waiters.contains o.tag then x else { x with waiters := x.waiters ++ [o.tag] }))
      else if m.kind = .fetch ∧ !s.homeKey p l then .fail s (s.homeCheck p l)
      else .ok (s.sawRead o v)
    | none => .ok s

/-- Operation `o` reads folio `v`; a DISCARD admitted before it acts first (R306). -/
def State.touchRead (s : State) (o : Op) (v : Nat) : Prep :=
  if s.discardBefore o v then .wait s else (s.classGate o.part v).andThen (State.touchReadIn o v)

/-- Folio `v` is handed off and not confirmed, or about to leave (07 R346). -/
def State.handedOff (s : State) (p v : Nat) : Bool :=
  let pl := (s.part p).plan
  pl.handoffs.any (fun h => h.1 == v) || pl.leaving.contains v

/-- Operation `o` writes folio `v`, past the map's word (R279, R280, R293, 07 R346). -/
def State.touchWriteIn (o : Op) (w : Nat) (whole : Nat → Bool) (v : Nat) (s : State) : Prep :=
  let p := o.part
  let l := s.leaf p v
  let c := s.colFor o v
  let wc := s.wclassFor p v w
  if s.handedOff p v then .fail s stNotPermitted
  else match l.state with
  | .absent => s.allocFolio p v c wc false
  | .scrub => (s.finishScrub p v).allocFolio p v c wc false
  | .retired => if whole v then s.allocFolio p v c wc false else .fail s stUncorrectable
  | .resident =>
    if l.cls = .peer then .fail s stNotPermitted
    else if l.hvalid then .ok (s.touch p v)
    else match s.startFetch p v c [] with
      | .ok t => .ok ((t.prof o.cluster p 0x11 1).touch p v)
      | r => r
  | .moving => if l.cls = .peer then .fail s stNotPermitted else .ok (s.touch p v)

/-- Operation `o` writes folio `v`, of weight class `w` where it is allocated; `whole` says that a FILL
covers it. A DISCARD admitted before it acts first (R306). -/
def State.touchWrite (o : Op) (w : Nat) (whole : Nat → Bool) (s : State) (v : Nat) : Prep :=
  if s.discardBefore o v then .wait s else (s.classGate o.part v).andThen (State.touchWriteIn o w whole v)

/-- An operation holds further ranges as operands (R289, R306). -/
def State.hold (s : State) (o : Op) (rs : List VRange) : State :=
  s.modOp o.part o.tag (fun q => { q with holds := (q.holds ++ rs).eraseDups })

/-- The operands of an operation prepared: the ranges it reads, then those it writes. It holds them all from then on. -/
def State.prepare (s : State) (o : Op) (reads writes : List VRange) (w : Nat) (whole : Nat → Bool) : Prep :=
  (prepAll (fun t v => t.touchRead o v) (reads.flatMap foliosOf) (s.hold o (reads ++ writes))).andThen
    (prepAll (State.touchWrite o w whole) (writes.flatMap foliosOf))

/-- No folio is written whole by a FILL. -/
def noWhole : Nat → Bool := fun _ => false

/-! ### Bytes -/

/-- A range of one memory copied to a range of another. -/
def Mem.copy (src : Tab Byte) (a : Nat) (dst : Tab Byte) (b n : Nat) : Tab Byte :=
  (src.filter (fun e => decide (a ≤ e.1) && decide (e.1 < a + n))).foldl
    (fun t e => Mem.set t (e.1 - a + b) e.2) (Mem.zero dst b n)

/-- The memory of a folio's home, enciphered: LPDDR5X, or for a HOST folio host memory. -/
def State.homeMem (s : State) (host : Bool) : Tab Byte := if host then s.hostMem else s.folio.lpddr

/-- Where the home of a leaf entry begins in that memory. -/
def Leaf.homeAt (l : Leaf) : Nat := if l.cls = .host then 65536 * (l.home / 65536) else 65536 * l.home

/-- The plaintext of `n` bytes at offset `off` of a folio's home in LPDDR5X or host memory (R272, R273). -/
def State.homePlain (s : State) (p v : Nat) (l : Leaf) (off n : Nat) : Bytes :=
  let first := off / 64
  let last := (off + n - 1) / 64
  let lines := (List.range (last + 1 - first)).map (fun i =>
    let k := first + i
    xts false (s.memKey p l.keygen) (1024 * v + k) (Mem.read (s.homeMem (decide (l.cls = .host))) (l.homeAt + 64 * k) 64))
  if n = 0 then [] else slice lines.flatten (off - 64 * first) n

/-- Lines of folio `v` from line `k` on, enciphered under generation `g` (R272, R273). -/
def State.sealLines (s : State) (p v g k : Nat) (plain : Bytes) : Bytes :=
  ((chunks 64 plain).zipIdx).flatMap (fun e => xts true (s.memKey p g) (1024 * v + k + e.2) e.1)

/-- Lines of folio `v` written to LPDDR5X frame `f` under generation `g` (R272, R298). -/
def State.lpddrSeal (s : State) (p v g f k : Nat) (plain : Bytes) : State :=
  let ct := s.sealLines p v g k plain
  s.modFolio (fun x => { x with lpddr := Mem.write x.lpddr (65536 * f + 64 * k) ct })

/-- A whole folio written to host memory under generation `g` (R296). -/
def State.hostSeal (s : State) (p v g home : Nat) (plain : Bytes) : State :=
  { s with hostMem := Mem.write s.hostMem home (s.sealLines p v g 0 plain) }

/-! ### Folio tables as LPDDR5X holds them (R275 to R278; log entry 143) -/

/-- The codes of CLASS and STATE (R278). -/
def FClass.code : FClass → Nat
  | .hoard => 0 | .lpddr => 1 | .peer => 2 | .host => 3
def FState.code : FState → Nat
  | .absent => 0 | .resident => 1 | .moving => 2 | .retired => 3 | .scrub => 4

/-- A leaf entry of 128 bits (R278). -/
def Leaf.code (l : Leaf) : Nat :=
  l.cls.code * 2 ^ 126 + l.state.code * 2 ^ 123 + l.keygen % 4 * 2 ^ 121 + b2n l.pin * 2 ^ 120 + b2n l.dirty * 2 ^ 119 +
  b2n l.hvalid * 2 ^ 118 + b2n l.placed * 2 ^ 117 + l.age % 16 * 2 ^ 113 + l.wclass % 16 * 2 ^ 109 + l.hframe % 2 ^ 17 * 2 ^ 64 +
  l.home % 2 ^ 64

/-- A directory entry of level 1 or 2: VALID, and the frame of the next table (R276). -/
def State.dirEntry (s : State) (k : Nat) : Nat :=
  match s.folio.tables.find? (fun e => e.1 == k) with
  | some e => 2 ^ 127 + e.2.1 % 2 ^ 25
  | none => 0

/-- Entry `i` of the table that key `k` names: its level, its place at that level, and its partition (R275). -/
def State.tableEntry (s : State) (k i : Nat) : Nat :=
  let p := k / 2 ^ 40
  let at_ := k % 2 ^ 38
  match k / 2 ^ 38 % 4 with
  | 1 => s.dirEntry (tableKey p 2 i)
  | 2 => s.dirEntry (tableKey p 3 (4096 * at_ + i))
  | _ => (s.leaf p (4096 * at_ + i)).code

/-- Line `j` of LPDDR5X frame `f` as the channel holds it: of a table frame, four entries enciphered with the frame's own
address as the tweak (R272, R277). -/
def State.lpddrLine (s : State) (f j : Nat) : Bytes :=
  match s.folio.tables.find? (fun e => e.2.1 == f) with
  | some e => xts true (s.memKey (e.1 / 2 ^ 40) (e.2.2 % 4)) (1024 * f + j)
      ((List.range 4).flatMap (fun i => toLE 16 (s.tableEntry e.1 (4 * j + i))))
  | none => Mem.read s.folio.lpddr (65536 * f + 64 * j) 64

/-- `n` bytes at offset `off` of a folio, read where they stand (R280, R281). -/
def State.folioRead (s : State) (p v off n : Nat) : Bytes :=
  let l := s.leaf p v
  match l.state with
  | .absent | .scrub | .retired => zeros n
  | .resident | .moving =>
    if l.hvalid then Mem.read s.folio.hoard (65536 * l.hframe + off) n
    else match l.cls with
      | .lpddr | .host => s.homePlain p v l off n
      | .hoard | .peer => zeros n

/-- The bytes of a virtual range, with fuel for the folios it meets. -/
def State.readVaN (s : State) (p : Nat) : Nat → Nat → Nat → Bytes
  | 0, _, _ => []
  | k + 1, va, n =>
    if n = 0 then []
    else
      let m := min n (65536 - va % 65536)
      s.folioRead p (va / 65536) (va % 65536) m ++ s.readVaN p k (va + m) (n - m)

/-- The bytes of a virtual range. -/
def State.readVa (s : State) (p va n : Nat) : Bytes := s.readVaN p (n / 65536 + 2) va n

/-- Bytes written into one folio: held while it is MOVING (R279), else in its Hoard copy, which is then
dirty. -/
def State.folioWrite (s : State) (p tag v off : Nat) (bs : Bytes) : State :=
  let l := s.leaf p v
  match l.state with
  | .moving => (s.touch p v).modMove p v (fun m => { m with held := m.held ++ [(65536 * v + off, tag, bs)] })
  | .resident =>
    if l.hvalid then
      (s.modFolio (fun f => { f with hoard := Mem.write f.hoard (65536 * l.hframe + off) bs })).setLeaf p v { l with dirty := true }
    else s
  | _ => s

/-- Bytes written to a virtual range, with fuel for the folios it meets. -/
def State.writeVaN (p tag : Nat) : Nat → State → Nat → Bytes → State
  | 0, s, _, _ => s
  | k + 1, s, va, bs =>
    if bs.isEmpty then s
    else
      let m := min bs.length (65536 - va % 65536)
      State.writeVaN p tag k (s.folioWrite p tag (va / 65536) (va % 65536) (bs.take m)) (va + m) (bs.drop m)

/-- Bytes written to a virtual range of partition `p` by the operation with a tag. -/
def State.writeVa (s : State) (p tag va : Nat) (bs : Bytes) : State :=
  State.writeVaN p tag (bs.length / 65536 + 2) s va bs

/-! ### Keys of the memory (R297, R301, R643) -/

/-- The reference count of generation `g` of partition `p` (R297). -/
def State.genRefs (s : State) (p g : Nat) : Nat :=
  ((s.leavesOf p).filter (fun e => (decide (e.2.cls = .lpddr) || decide (e.2.cls = .host)) &&
    (decide (e.2.state = .resident) || decide (e.2.state = .moving)) && e.2.keygen == g)).length +
  (s.folio.tables.filter (fun e => e.1 / 2 ^ 40 == p && e.2.2 % 4 == g)).length +
  (s.folio.moves.filter (fun m => m.part == p && m.gen == g && decide (m.kind ≠ .column) &&
    !(decide (m.kind = .fetch) && decide ((s.leaf p m.vfn).cls = .peer)))).length

/-- Generations without references are retired, but for the current one (R301, R643). -/
def State.retireGens (s : State) (p : Nat) : State :=
  (List.range 4).foldl (fun t g =>
    if (t.part p).keyLive.testBit g && decide ((t.part p).keyCur ≠ g) && decide (t.genRefs p g = 0) then
      (t.zeroise (memSlot p g)).modPart p (fun x => { x with keyLive := putBits x.keyLive g g 0 })
    else t) s

/-! ### The end of a transfer (R279, R317) -/

/-- Operations end with a status, as far as they have not completed. -/
def State.failTags (s : State) (p : Nat) (tags : List Nat) (status : Nat) : State :=
  tags.foldl (fun t tag =>
    match t.findOp p tag with
    | some o => if o.stage = .running ∨ o.stage = .finished then t.endOpCycles p tag status 0 else t
    | none => t) s

/-- The tags that depend on a transfer: those that wait for it and those whose writes it holds. -/
def Move.tags (m : Move) : List Nat := (m.waiters ++ m.held.map (·.2.1)).eraseDups

/-- A transfer leaves the list. -/
def State.endMove (s : State) (m : Move) : State :=
  s.modFolio (fun f => { f with moves := f.moves.filter (fun x => !(x.part == m.part && x.vfn == m.vfn)) })

/-- A transfer is abandoned: its destination is freed and the folio is RESIDENT as it was. -/
def State.abandonMove (s : State) (m : Move) : State :=
  let l := s.leaf m.part m.vfn
  let s1 : State := match m.kind with
    | .fetch | .column => s.setHUse m.dest .free
    | .pull => s.setLUse m.dest .free
    | .walk => if (l.cls = .lpddr ∧ m.dest ≠ l.home) ∨ m.place then s.setLUse m.dest .free else s
    | .writeback => if l.cls = .hoard then s.setLUse m.dest .free else s
  (s1.endMove m).setLeaf m.part m.vfn (if m.kind = .pull ∧ l.cls = .hoard then {} else { l with state := .resident })

/-- The writes held by a transfer applied at the new location (R279): where the folio has no Hoard copy
any more, a fetch for them starts. -/
def State.applyHeld (s : State) (m : Move) (col : Nat) : State :=
  if m.held.isEmpty then s
  else
    let l := s.leaf m.part m.vfn
    if l.hvalid then m.held.foldl (fun t h => t.folioWrite m.part h.2.1 (h.1 / 65536) (h.1 % 65536) h.2.2) s
    else match s.startFetch m.part m.vfn col [] with
      | .ok t => (t.prof col m.part 0x11 1).modMove m.part m.vfn (fun x => { x with held := m.held })
      | .wait t => t.startMove { m with kind := .walk, dest := l.home, gen := l.keygen }
      | .fail t st => t.failTags m.part m.tags st

/-- The phase that partition `p`'s pulls are for: the one it moves to, else the one in force (07 R342). -/
def State.pullPhase (s : State) (p : Nat) : Nat := let x := s.part p; if x.ph = .moving then x.target else x.phase

/-- A pull is no longer due. -/
def MovePlan.pulled (x : MovePlan) (v : Nat) : MovePlan :=
  { x with flying := x.flying.filter (fun b => b.1 != v), behind := x.behind.filter (fun b => b.1 != v) }

/-- A folio that has just been pulled is also written to a Hoard frame, where one is to be had, when its class
is PIN (07 R341). -/
def State.pullCopy (s : State) (p v : Nat) : State :=
  match (((s.job p).bind (fun j => j.phases.find? (fun m => m.phase == s.pullPhase p))).bind (fun m => s.placeIn p m v)) with
  | none => s
  | some pl =>
    if !pl.pin then s
    else match s.takeHoard p (pl.col.getD 0) with
      | (t, none) => t
      | (t, some f) =>
        let l := t.leaf p v
        ((t.setHUse f (.folio p v)).modFolio (fun y => { y with
          hoard := Mem.write (Mem.zero y.hoard (65536 * f) 65536) (65536 * f) (t.homePlain p v l 0 65536) })).setLeaf p v
          { l with hvalid := true, hframe := f }

/-- A transfer that commits, in the profiling counters of the cluster under the Hoard frame that it reads or fills (20
R743; log entry 181). -/
def State.profMove (s : State) (l : Leaf) (m : Move) : State :=
  match m.kind with
  | .fetch =>
    let k := colOf m.dest
    let s1 := if l.cls = .lpddr then s.prof k m.part 0x12 1024 else s
    if m.stream then s1.prof k m.part 0x13 1 else s1
  | .writeback =>
    let k := colOf l.hframe
    let s1 := s.prof k m.part 0x10 1024
    if l.cls = .host then s1 else s1.prof k m.part 0x12 1024
  | .column => s.prof (colOf l.hframe) m.part 0x10 1024
  | .walk | .pull => s

/-- A transfer commits (R279, R287, R290, R299). -/
def State.commitMove (s : State) (m : Move) : State :=
  let p := m.part
  let v := m.vfn
  let l := s.leaf p v
  let s0 := s.endMove m
  let back : Leaf := { l with state := .resident }
  let s1 : State := match m.kind with
    | .fetch =>
      let filled : State := match l.cls with
        | .lpddr | .host => s0.modFolio (fun f => { f with
            hoard := Mem.write (Mem.zero f.hoard (65536 * m.dest) 65536) (65536 * m.dest) (s0.homePlain p v l 0 65536) })
        | .peer | .hoard => s0
      filled.setLeaf p v { back with
        hvalid := true, hframe := m.dest, age := 0, dirty := false,
        pin := l.pin || m.place, placed := l.placed || m.place }
    | .pull =>
      let d := if l.hvalid then s0.setHUse l.hframe .free else s0
      let u := (d.setLeaf p v
        { cls := .lpddr, state := .resident, keygen := m.gen, wclass := l.wclass, home := m.dest, touched := true }).pullCopy p v
      (u.queueMsg p m.peer { type := 4, flow := m.flow, body := moveHead v 1 (s.pullPhase p) }).modPart p
        (fun y => { y with plan := y.plan.pulled v })
    | .writeback =>
      let w : State := match l.cls with
        | .host => s0.hostSeal p v m.gen l.home (Mem.read s0.folio.hoard (65536 * l.hframe) 65536)
        | _ => s0.lpddrSeal p v m.gen m.dest 0 (Mem.read s0.folio.hoard (65536 * l.hframe) 65536)
      (w.setHUse l.hframe .free).setLeaf p v { back with
        cls := if l.cls = .hoard then .lpddr else l.cls, home := if l.cls = .host then l.home else m.dest,
        keygen := m.gen, dirty := false, hvalid := false, hframe := 0 }
    | .walk =>
      if l.cls = .lpddr ∧ m.dest ≠ l.home then
        let w := if m.raw then s0.modFolio (fun f => { f with lpddr := Mem.copy f.lpddr (65536 * l.home) f.lpddr (65536 * m.dest) 65536 })
          else s0.lpddrSeal p v m.gen m.dest 0 (s0.homePlain p v l 0 65536)
        (w.setLUse l.home .free).setLeaf p v { back with home := m.dest, keygen := m.gen, placed := l.placed || m.place }
      else if m.place then
        let copy := l.hvalid && (l.dirty || decide (l.cls = .hoard))
        let plain := if copy then Mem.read s0.folio.hoard (65536 * l.hframe) 65536 else s0.homePlain p v l 0 65536
        (s0.lpddrSeal p v m.gen m.dest 0 plain).setLeaf p v
          { back with cls := .lpddr, home := m.dest, keygen := m.gen, placed := true, dirty := false }
      else if l.cls = .host ∧ m.gen ≠ l.keygen then
        (s0.hostSeal p v m.gen l.home (s0.homePlain p v l 0 65536)).setLeaf p v { back with keygen := m.gen }
      else s0.setLeaf p v back
    | .column =>
      let w := s0.modFolio (fun f => { f with hoard := Mem.copy f.hoard (65536 * l.hframe) f.hoard (65536 * m.dest) 65536 })
      (w.setHUse l.hframe .free).setLeaf p v { back with hframe := m.dest, pin := l.pin || m.place, placed := l.placed || m.place }
  ((s1.profMove l m).applyHeld m (colOf (if m.kind = .fetch then m.dest else l.hframe))).retireGens p

/-- The frames of a folio released and the folio RETIRED (R258, R269): what they held is zeroed before
reuse. -/
def State.retireFolio (s : State) (p v : Nat) : State :=
  let l := s.leaf p v
  let add (t : State) (h : Bool) (o : Option Nat) : State := match o with
    | none => t
    | some f =>
      let t1 := if h then t.setHUse f .scrub else t.setLUse f .scrub
      t1.modFolio (fun x => { x with scrubs := x.scrubs ++ [{ hoard := h, frame := f, folio := none }] })
  ((add (add s true (if l.hvalid then some l.hframe else none)) false l.lframe).setLeaf p v
    { state := .retired, wclass := l.wclass }).retireGens p

/-- The LPDDR5X frame of a folio rewritten from its clean Hoard copy, under the current generation (R269, R298). -/
def State.restoreHome (s : State) (p v : Nat) : State :=
  let l := s.leaf p v
  let g := (s.part p).keyCur
  (s.lpddrSeal p v g l.home 0 (Mem.read s.folio.hoard (65536 * l.hframe) 65536)).modLeaf p v (fun x => { x with keygen := g })

/-- An uncorrectable read ends a transfer (R254, R258, R269, R296, R317). -/
def State.loseMove (s : State) (m : Move) : State :=
  let p := m.part
  let v := m.vfn
  let l := s.leaf p v
  let lp (t : State) : State := t.addErr stUncorrectable 0x05 0 (some p) 0xFF (toLE 4 (chanOf l.home) ++ toLE 4 l.home)
  let hd (t : State) : State := t.addErr stUncorrectable 0x04 0 (some p) 0xFF (toLE 4 l.hframe)
  let s1 := s.abandonMove m
  let clean := l.hvalid && !l.dirty
  let s2 : State := match m.kind with
    | .fetch => if l.cls = .lpddr then (lp s1).retireFolio p v else s1
    | .walk => if l.cls = .lpddr then
        (if clean && s1.memLive p (s1.part p).keyCur then (lp s1).restoreHome p v
         else (lp s1).retireFolio p v)
      else s1
    | .writeback => if l.cls = .host then s1 else (hd s1).retireFolio p v
    | .column => if clean && decide (l.cls = .lpddr) then (hd s1).dropCopy p v else (hd s1).retireFolio p v
    | .pull => s1
  (s2.failTags p m.tags stUncorrectable).retireGens p

/-- The transfers of a partition that use a Strongbox key: those to or from LPDDR5X, host memory or a
peer (15 R782). -/
def State.keyMoves (s : State) (p : Option Nat) : List Move :=
  s.folio.moves.filter (fun m => (match p with | some q => m.part == q | none => true) && decide (m.kind ≠ .column))

end Sys2Proof.Machine
end

