-- ==== Sys2Proof/Machine/Evidence.lean ====
section
/-!
DEFINITION. Machine/Evidence.lean: measurement blocks and evidence (17_tenants R681 to R687).
-/
namespace Sys2Proof.Machine

/-- NOW of block 8 (R683, 20 R753, R754). -/
def State.nowBits (s : State) : Nat :=
  b2n ((s.reg aDbgMuxCtrl).getLsbD 31) + 2 * b2n ((s.reg aDbgProfCtrl).getLsbD 31) +
  4 * b2n (decide (s.perturbNow ≠ 0)) + 8 * b2n (decide (2 ≤ s.jtagIns))

/-- The uses in force recorded as SINCE bits 0 to 3 in every partition (R684). -/
def State.markSince (s : State) : State :=
  (List.range 16).foldl (fun t p => t.modPart p (fun x => { x with since := x.since ||| s.nowBits })) s

/-- SINCE bits 4 and 5 of one partition (R684). -/
def State.markReach (s : State) (p mask : Nat) : State := s.modPart p (fun x => { x with since := x.since ||| mask })

/-- FT in evidence: 0 before the first lock (R681). -/
def State.evFt (s : State) : Nat := if s.ft.ever then s.ftNs else 0

/-- CHARTER_EXPERT (R683, 02 R79). -/
def State.expertBits (s : State) : Nat := ((List.range 16).map (fun p => b2n (s.part p).expert * 2 ^ p)).foldl (· + ·) 0

/-- Cores fenced (R685). -/
def State.fencedCores (s : State) : List Nat := (List.range 72).filter (fun i => (s.core i).fenced)

/-- Hoard frames retired. -/
def State.retiredFrames (s : State) : List Nat := (s.folio.hUse.filter (fun e => decide (e.2 = .retired))).map (·.1)

/-- Spare rows in use (06 R257). -/
def State.sparesUsed (s : State) : Nat := (s.folio.spares.map (·.2)).foldl (· + ·) 0

/-- The SHA-256 of the spare map (06 R261). -/
def State.spareDigest (s : State) : Bytes :=
  toBE 32 (Config.spareMapDigest (s.fencedCores ++ [1000, s.retired, s.sliceFailed, s.polyFailed, s.folio.chRetired] ++
    s.retiredFrames ++ [1000000] ++ s.folio.spares.flatMap (fun e => [e.1, e.2]) ++ s.folio.repaired.map (·.1))).toNat

/-- The value of measurement block `d` for partition `p` (R682 to R685). -/
def State.block (s : State) (p d : Nat) : Bytes :=
  match d with
  | 6 => fit 32 ((s.dev.map (·.hash)).getD [])
  | 7 => if (s.removal.map (·.part)) = some p then zeros 32 else fit 32 (((s.job p).map (·.hash)).getD [])
  | 8 => toLE 2 s.expertBits ++ toLE 1 s.nowBits ++ toLE 1 ((s.part p).since ||| s.nowBits) ++ toLE 4 s.perturbNow ++ toLE 8 (s.part p).sinceFt
  | 9 => toLE 1 (lcCode s.sbox.lc) ++ toLE 1 (b2n s.sbox.fuseSweep + 2 * b2n s.tamperSweep) ++ toLE 1 s.fencedCores.length ++
      toLE 1 s.sliceFailed ++ toLE 1 s.polyFailed ++ toLE 1 (popCount 128 s.folio.chRetired) ++ zeros 2 ++
      toLE 4 s.retiredFrames.length ++ toLE 4 s.sparesUsed ++ s.spareDigest
  | 10 => toLE 4 s.sbox.tamperCount ++ zeros 4
  | n => fit 32 (s.sbox.blocks.getD n [])

/-- The block with its head (R681). -/
def State.blockBytes (s : State) (p d : Nat) : Bytes :=
  let v := s.block p d
  toLE 1 d ++ toLE 1 (if d < 8 then 0 else 1) ++ toLE 2 v.length ++ v

/-- The certificate chain of evidence (R681). -/
def State.certs (s : State) : Bytes :=
  Config.identityCert ++ Config.aliasCert ((s.sbox.alias_.map p256Public).getD []) s.sbox.blocks

/-- Evidence before its signature. -/
def State.evidenceBody (s : State) (p : Nat) (nonce : Bytes) : Bytes :=
  ascii "GKEV" ++ toLE 1 1 ++ toLE 1 p ++ toLE 1 (s.worldOf p) ++ toLE 1 11 ++ toLE 8 s.evFt ++ fit 32 nonce ++
    toLE 8 Config.serial.toNat ++ toLE 4 s.certs.length ++ zeros 4 ++
    (List.range 11).flatMap (s.blockBytes p) ++ s.certs

/-- Evidence of partition `p` over a nonce (R681): none in tamper hold, nor before the alias key exists
(R687). -/
def State.evidence (s : State) (p : Nat) (nonce : Bytes) : Option Bytes :=
  match s.sbox.alias_ with
  | none => none
  | some d =>
    if s.tamperHold then none
    else
      let b := s.evidenceBody p nonce
      some (b ++ ecdsaSign d (sha256 b))

end Sys2Proof.Machine
end

