-- ==== Sys2Proof/Machine/CharterImage.lean ====
section
/-!
DEFINITION. Machine/CharterImage.lean: reading and checking a charter image, steps 1 to 6 of
02_charters R60, each with its reason and its CHARTER_LOAD_AT of R74. Steps 7 and 8 and the checks
that need the device's state are Machine/Charter.lean.
-/
namespace Sys2Proof.Machine

/-- A failed check: the reason and the offset that CHARTER_LOAD_AT takes. -/
abbrev LoadErr := LoadReason × Nat

/-- The code of a reason (R74). -/
def loadReasonCode : LoadReason → Nat
  | .none => 0x00 | .badHeader => 0x01 | .wrongTarget => 0x02 | .badCrc => 0x03 | .badHash => 0x04
  | .badSignature => 0x05 | .signerPin => 0x06 | .badRecord => 0x07 | .range => 0x08
  | .capacity => 0x09 | .noDeviceCharter => 0x0A | .noPartition => 0x0B | .wrongFunction => 0x0C
  | .windowActive => 0x0D | .tdiLocked => 0x0E | .loadBusy => 0x0F | .unsignedTrusted => 0x10
  | .resourceInUse => 0x11 | .abandoned => 0x12

/-- The status that goes with a reason (R74); ABANDONED is given its status by the caller. -/
def loadReasonStatus : LoadReason → Nat
  | .none => 0x0000
  | .badHeader | .wrongTarget | .badCrc | .badHash | .badRecord | .range | .capacity => 0x0010
  | .badSignature | .signerPin => 0x0011
  | .noDeviceCharter | .noPartition | .wrongFunction | .windowActive | .tdiLocked | .loadBusy
  | .unsignedTrusted | .resourceInUse => 0x000F
  | .abandoned => 0x0001

/-- The first failed check of a list of (passes, error). -/
def firstBad : List (Bool × LoadErr) → Option LoadErr
  | [] => none
  | (ok, e) :: rest => if ok then firstBad rest else some e

/-- A range check at field offset `at`. -/
def rangeAt (ok : Bool) (at_ : Nat) : Bool × LoadErr := (ok, (.range, at_))

/-- Steps 1 to 3 of R60: the header (R44), the trailer's CRC (R45) and the header hash. `part` is the
partition of the loading function and `job` says that a job charter was requested. -/
def checkHeader (img : Bytes) (loadLen part : Nat) (job : Bool) : Option LoadErr :=
  let length := le img 8 4
  let signed := bit (le img 0x10 4) 0
  let head : Bool :=
    decide (64 ≤ loadLen) && decide (img.length = loadLen) &&
    decide (slice img 0 4 = [0x47, 0x4B, 0x43, 0x48]) && decide (le img 4 1 = 1) &&
    decide (le img 6 2 = if job then 2 else 1) &&
    decide (length % 8 = 0) && decide (72 ≤ length) && decide (length ≤ 4194304) &&
    decide (loadLen = if signed then length + 136 else length + 8)
  let tail : Bool :=
    decide (le img 0x10 4 < 2) && decide (le img 0x14 1 = if job then part else 0) &&
    decide (le img 0x15 3 = 0) && decide (le img 0x1C 4 = 0)
  firstBad
    [(head, (.badHeader, 0)),
     (decide (le img 0x0C 4 = 0x7400), (.wrongTarget, 0)),
     (tail, (.badHeader, 0)),
     (decide (crc32c (img.take length) = BitVec.ofNat 32 (le img length 4)) &&
        decide (le img (length + 4) 4 = 0), (.badCrc, length)),
     (decide (sha256 (slice img 0 0x20 ++ slice img 0x40 (length - 0x40)) = slice img 0x20 32),
       (.badHash, 0x20))]

/-- Step 4 of R60: the signature (R46) and the pin of a job charter's partition. -/
def checkSignature (img : Bytes) (pin : Bytes) (job : Bool) : Option LoadErr :=
  let length := le img 8 4
  let signed := bit (le img 0x10 4) 0
  let key := slice img (length + 8) 64
  let sig := slice img (length + 72) 64
  let pinned := job && !allZero pin
  firstBad
    [(!signed || ecdsaOk key sig (img.take (length + 8)), (.badSignature, length + 8)),
     (!pinned || (signed && decide (sha256 key = pin)), (.signerPin, length + 8))]

/-- A record found in an image: its type, its offset and its size. -/
structure RecAt where
  type : Nat
  off : Nat
  size : Nat
deriving DecidableEq, Repr

/-- The walk over the records of R48: each record, or the offset of the first ill-formed one. -/
def walkRecords (img : Bytes) (length : Nat) : Nat → Nat → Except Nat (List RecAt)
  | 0, _ => .ok []
  | fuel + 1, o =>
    if length ≤ o then .ok []
    else
      let ty := le img o 2
      let sz := le img (o + 2) 2
      let next := ceilDiv (o + sz) 8 * 8
      if sz < 4 ∨ length < o + sz ∨ length < next ∨ !allZero (slice img (o + sz) (next - (o + sz))) then .error o
      else
        match walkRecords img length fuel next with
        | .ok rs => .ok ({ type := ty, off := o, size := sz } :: rs)
        | .error e => .error e

/-- The size that a record of a known type must have, from its own counts (R51 and each body). -/
def recordSize (img : Bytes) (r : RecAt) : Option Nat :=
  let o := r.off
  match r.type with
  | 0x0101 => some 0x40
  | 0x0102 => some (0x10 + 48 * (if le img (o + 4) 1 = 0 then 16 else if le img (o + 4) 1 = 1 then 8
      else if le img (o + 4) 1 = 2 then 32 else 64))
  | 0x0103 => some (0x10 + le img (o + 8) 2 * (8 + 8 * ceilDiv (le img (o + 6) 2) 64))
  | 0x0104 => some 0x14
  | 0x0105 => some 0x20
  | 0x0106 => some (8 + 4 * le img (o + 4) 1)
  | 0x0107 => some 12
  | 0x0108 => some 12
  | 0x0201 => some (0x20 + 32 * le img (o + 8) 2)
  | 0x0202 => some 0x50
  | 0x0203 => some (0x30 + 8 * le img (o + 9) 1)
  | 0x0204 => some (8 + 16 * le img (o + 4) 1)
  | 0x0205 => some 16
  | 0x0206 => some (8 + 8 * le img (o + 4) 2)
  | _ => none

/-- The index of a record among those of its type (R49). -/
def recordIndex (img : Bytes) (r : RecAt) : Nat :=
  match r.type with
  | 0x0101 => le img (r.off + 4) 1
  | 0x0201 => 256 * le img (r.off + 4) 1 + le img (r.off + 5) 1
  | 0x0202 => le img (r.off + 4) 1
  | _ => 0

/-- The record types of each kind of charter, with their least and greatest counts (R51). -/
def recordCounts (job : Bool) : List (Nat × Nat × Nat) :=
  if job then
    [(0x0201, 1, 65536), (0x0202, 0, 64), (0x0203, 1, 1), (0x0204, 0, 1), (0x0205, 1, 1), (0x0206, 0, 1)]
  else
    [(0x0101, 1, 16), (0x0102, 1, 1), (0x0103, 0, 1), (0x0104, 1, 1), (0x0105, 1, 1), (0x0106, 0, 1),
     (0x0107, 0, 1), (0x0108, 0, 1)]

/-- The first record that breaks the order of R49. -/
def orderBad (img : Bytes) : List RecAt → Option Nat
  | a :: b :: rest =>
    if b.type < a.type ∨ (b.type = a.type ∧ recordIndex img b < recordIndex img a) then some b.off
    else orderBad img (b :: rest)
  | _ => none

/-- The first PHASE_MAP record whose parts are out of order or missing
(R326), or whose phase index leaves a gap or is a seventeenth one (R51): `ph` and `pt` are the phase and part expected
next; `done` says that the part before it is marked the last of its phase. -/
def phaseBad (img : Bytes) : List RecAt → Nat → Nat → Bool → Option Nat
  | [], _, _, _ => none
  | r :: rest, ph, pt, done =>
    let last := bit (le img (r.off + 6) 1) 0
    let a := le img (r.off + 4) 1
    let b := le img (r.off + 5) 1
    let next := decide (a = ph + 1) && decide (b = 0) && done && decide (0 < pt)
    if 15 < a ∨ (!next ∧ (a ≠ ph ∨ b ≠ pt)) then some r.off
    else if rest.isEmpty ∧ !last then some r.off
    else phaseBad img rest a (b + 1) last

/-- Step 5 of R60: the records of the image, or the record that fails. Optional records of an
unknown type are skipped (R50). Where several records fail, an unknown type is reported before a wrong size, that
before the order of the parts and that before a count, each looked for over the whole image; a mandatory record
that is missing is reported at the LENGTH field (log entry 120). -/
def checkRecords (img : Bytes) (job : Bool) : Except LoadErr (List RecAt) :=
  let length := le img 8 4
  match walkRecords img length (length / 4) 0x40 with
  | .error o => .error (.badRecord, o)
  | .ok all =>
    let kinds := recordCounts job
    let known := all.filter (fun r => kinds.any (fun k => k.1 == r.type))
    let unknown := all.find? (fun r => !(kinds.any (fun k => k.1 == r.type)) && !bit r.type 15)
    let wrongSize := known.find? (fun r => decide (recordSize img r ≠ some r.size))
    let missing := kinds.find? (fun k =>
      let n := (known.filter (fun r => r.type == k.1)).length
      decide (n < k.2.1) || decide (k.2.2 < n))
    let countAt := match missing with
      | some k => ((known.filter (fun r => r.type == k.1)).map (·.off)).getD k.2.2 length
      | none => 0
    match unknown, wrongSize, orderBad img all, missing with
    | some r, _, _, _ => .error (.badRecord, r.off)
    | none, some r, _, _ => .error (.badRecord, r.off)
    | none, none, some o, _ => .error (.badRecord, o)
    | none, none, none, some _ => .error (.badRecord, countAt)
    | none, none, none, none =>
      match phaseBad img (known.filter (fun r => r.type == 0x0201)) 0 0 false with
      | some o => .error (.badRecord, o)
      | none => .ok known

/-! ### Device records -/

/-- A PARTITION record (R52). -/
def readPart (img : Bytes) (o : Nat) : PartRec :=
  { id := le img (o + 4) 1, func := le img (o + 5) 1, coreMask := le img (o + 8) 8,
    folioFrames := le img (o + 0x10) 4, lpddrGib := le img (o + 0x14) 4,
    portMask := le img (o + 0x18) 8, pin := slice img (o + 0x20) 32 }

/-- The range checks of one PARTITION record against those before it (R52). -/
def partChecks (img : Bytes) (before : List PartRec) (o : Nat) : List (Bool × LoadErr) :=
  let r := readPart img o
  [rangeAt (decide (r.id ≤ 15) && !(before.any (fun q => q.id == r.id))) (o + 4),
   rangeAt (decide (r.func ≤ 63) && decide ((r.id = 0) = (r.func = 0)) && !(before.any (fun q => q.func == r.func))) (o + 5),
   rangeAt (decide (le img (o + 6) 2 = 0)) (o + 6),
   rangeAt (before.all (fun q => decide (q.coreMask &&& r.coreMask = 0))) (o + 8)]

/-- A port entry (R531). -/
def readPort (img : Bytes) (o : Nat) : PortEnt :=
  { pcp := bits (le img o 2) 15 13, vid := bits (le img o 2) 11 0,
    enable := bit (le img (o + 2) 1) 0, ipv4 := bit (le img (o + 2) 1) 1, ptpEn := bit (le img (o + 2) 1) 2,
    prefixLen := le img (o + 3) 1, address := slice img (o + 8) 16, nextHop := slice img (o + 0x18) 16 }

/-- The range checks of one port entry (R531). -/
def portChecks (img : Bytes) (o : Nat) : List (Bool × LoadErr) :=
  let e := readPort img o
  [rangeAt (!bit (le img o 2) 12 && (!e.enable || (decide (1 ≤ e.vid) && decide (e.vid ≤ 4094)))) o,
   rangeAt (decide (bits (le img (o + 2) 1) 7 3 = 0)) (o + 2),
   rangeAt (!e.enable || (decide (1 ≤ e.prefixLen) && decide (e.prefixLen ≤ if e.ipv4 then 32 else 128))) (o + 3),
   rangeAt (decide (le img (o + 4) 4 = 0)) (o + 4),
   rangeAt (decide (le img (o + 0x28) 8 = 0)) (o + 0x28)]

/-- The number of ports of a mode (R524). -/
def modePorts (mode : Nat) : Nat := if mode = 0 then 16 else if mode = 1 then 8 else if mode = 2 then 32 else 64

/-- The lanes per port of a mode (R524). -/
def modeLanes (mode : Nat) : Nat := 64 / modePorts mode

/-- The lanes of port `p` as a mask (R524). -/
def portLanes (mode p : Nat) : Nat := (2 ^ modeLanes mode - 1) * 2 ^ (modeLanes mode * p)

/-- The mask has every lane of the port (R525). -/
def maskHasPort (mode mask p : Nat) : Bool :=
  decide (p < modePorts mode) && decide (mask &&& portLanes mode p = portLanes mode p)

/-- The PORT_PLAN record (R531). -/
def readPlan (img : Bytes) (o : Nat) : PortPlan :=
  let mode := le img (o + 4) 1
  { mode := mode, udpPort := le img (o + 6) 2,
    ports := (List.range (modePorts mode)).map (fun i => readPort img (o + 0x10 + 48 * i)) }

/-- The range checks of PORT_PLAN (R531). -/
def planChecks (img : Bytes) (o : Nat) : List (Bool × LoadErr) :=
  [rangeAt (decide (le img (o + 4) 1 ≤ 3)) (o + 4),
   rangeAt (decide (le img (o + 5) 1 = 0)) (o + 5),
   rangeAt (decide (le img (o + 8) 8 = 0)) (o + 8)] ++
  (List.range (modePorts (le img (o + 4) 1))).flatMap (fun i => portChecks img (o + 0x10 + 48 * i))

/-- The BEAT_PLAN record (R373). -/
def readBeats (img : Bytes) (o : Nat) : BeatPlan :=
  let cyc := le img (o + 6) 2
  let esz := 8 + 8 * ceilDiv cyc 64
  { log2 := le img (o + 4) 1, guard := le img (o + 5) 1, cycle := cyc,
    entries := (List.range (le img (o + 8) 2)).map (fun i =>
      let e := o + 0x10 + esz * i
      { port := le img e 1, part := le img (e + 1) 1, slots := le img (e + 8) (esz - 8) % 2 ^ cyc }) }

/-- The range checks of BEAT_PLAN (R373, R374). -/
def beatChecks (img : Bytes) (parts : List PartRec) (mode o : Nat) : List (Bool × LoadErr) :=
  let b := readBeats img o
  let esz := 8 + 8 * ceilDiv b.cycle 64
  [rangeAt (decide (10 ≤ b.log2) && decide (b.log2 ≤ 20)) (o + 4),
   rangeAt (decide (b.guard * 64 < 2 ^ b.log2)) (o + 5),
   rangeAt (decide (1 ≤ b.cycle) && decide (b.cycle ≤ 4096)) (o + 6),
   rangeAt (decide (1 ≤ b.entries.length) && decide (b.entries.length ≤ 64)) (o + 8),
   rangeAt (decide (le img (o + 0x0A) 6 = 0)) (o + 0x0A)] ++
  (List.range b.entries.length).flatMap (fun i =>
    let e := o + 0x10 + esz * i
    let x := b.entries.getD i {}
    let holder := parts.find? (fun p => p.id == x.part)
    [rangeAt (match holder with | some p => maskHasPort mode p.portMask x.port | none => true) e,
     rangeAt (holder.isSome && !((b.entries.take i).any (fun y => y.port == x.port && y.part == x.part))) (e + 1),
     rangeAt (decide (le img (e + 2) 6 = 0)) (e + 2),
     rangeAt (decide (le img (e + 8) (esz - 8) < 2 ^ b.cycle)) (e + 8)])

/-- The HOARD_SPLIT record (R53). -/
def readSplit (img : Bytes) (o : Nat) : HoardSplit :=
  { scratch := le img (o + 4) 4, tallyAcc := le img (o + 8) 4, retention := le img (o + 0x0C) 4,
    folioMin := le img (o + 0x10) 4 }

/-- The TIME_SOURCE record (R355). -/
def readTime (img : Bytes) (o : Nat) : TimeSource :=
  let fl := le img (o + 7) 1
  { source := le img (o + 4) 1, port := le img (o + 5) 1, domain := le img (o + 6) 1,
    twoStep := bit fl 0, masterOk := bit fl 1, transport := bits fl 3 2,
    limit := le img (o + 8) 4, rate := le img (o + 0x0C) 2,
    logSync := sgn 8 (le img (o + 0x0E) 1), logDelayReq := sgn 8 (le img (o + 0x0F) 1),
    masterId := le img (o + 0x10) 8, ppsDelay := le img (o + 0x18) 4 }

/-- The range checks of TIME_SOURCE (R355, R531). -/
def timeChecks (img : Bytes) (plan : PortPlan) (o : Nat) : List (Bool × LoadErr) :=
  let t := readTime img o
  let pe := plan.ports.getD t.port {}
  [rangeAt (decide (t.source ≤ 2)) (o + 4),
   rangeAt (if t.source = 0 then decide (t.port < plan.ports.length) && pe.ptpEn && pe.enable else decide (t.port = 0)) (o + 5),
   rangeAt (decide (t.domain ≤ 127)) (o + 6),
   rangeAt (decide (bits (le img (o + 7) 1) 7 4 = 0) && decide (t.transport ≤ 2)) (o + 7),
   rangeAt (decide (100 ≤ t.limit) && decide (t.limit ≤ 1000000)) (o + 8),
   rangeAt (decide (1 ≤ t.rate) && decide (t.rate ≤ 4095)) (o + 0x0C),
   rangeAt (decide (-7 ≤ t.logSync) && decide (t.logSync ≤ 1)) (o + 0x0E),
   rangeAt (decide (-7 ≤ t.logDelayReq) && decide (t.logDelayReq ≤ 5)) (o + 0x0F),
   rangeAt (decide (le img (o + 0x1C) 4 = 0)) (o + 0x1C)]

/-- The entries (EVENT, VECTOR) of INTERRUPT_ROUTE (R583). -/
def readRoutes (img : Bytes) (o : Nat) : List (Nat × Nat) :=
  (List.range (le img (o + 4) 1)).map (fun i => (le img (o + 8 + 4 * i) 1, le img (o + 9 + 4 * i) 1))

/-- The range checks of INTERRUPT_ROUTE (R583). -/
def routeChecks (img : Bytes) (o : Nat) : List (Bool × LoadErr) :=
  let n := le img (o + 4) 1
  let rs := readRoutes img o
  [rangeAt (decide (1 ≤ n) && decide (n ≤ 8)) (o + 4), rangeAt (decide (le img (o + 5) 3 = 0)) (o + 5)] ++
  (List.range n).flatMap (fun i =>
    let ev := (rs.getD i (0, 0)).1
    [rangeAt (decide (ev ≤ 7) && !((rs.take i).any (fun r => r.1 == ev))) (o + 8 + 4 * i),
     rangeAt (decide (le img (o + 10 + 4 * i) 2 = 0)) (o + 10 + 4 * i)])

/-- The TAMPER_MODE record (R645). -/
def readTamper (img : Bytes) (o : Nat) : TamperMode :=
  { sweep := decide (le img (o + 4) 1 = 1), responses := (slice img (o + 5) 5).map BitVec.toNat }

/-- The range checks of TAMPER_MODE (R645). -/
def tamperChecks (img : Bytes) (o : Nat) : List (Bool × LoadErr) :=
  rangeAt (decide (le img (o + 4) 1 ≤ 1)) (o + 4) ::
  (List.range 5).map (fun i => rangeAt (decide (le img (o + 5 + i) 1 ≤ 2)) (o + 5 + i)) ++
  [rangeAt (decide (le img (o + 10) 2 = 0)) (o + 10)]

/-- The DEBUG_POLICY record (R738). -/
def readDebug (img : Bytes) (o : Nat) : DebugPolicy :=
  { muxEn := bit (le img (o + 4) 1) 0, snapMs := le img (o + 5) 1, profMask := le img (o + 8) 4 }

/-- The range checks of DEBUG_POLICY (R738). -/
def debugChecks (img : Bytes) (o : Nat) : List (Bool × LoadErr) :=
  [rangeAt (decide (le img (o + 4) 1 < 2)) (o + 4), rangeAt (decide (le img (o + 6) 2 = 0)) (o + 6)]

/-- The offsets of the records of one type. -/
def offsOf (rs : List RecAt) (ty : Nat) : List Nat := (rs.filter (fun r => r.type == ty)).map (·.off)

/-- The device charter of a checked image. -/
def readDevice (img : Bytes) (rs : List RecAt) : DevCharter :=
  { hash := slice img 0x20 32, serial := le img 0x18 4, signed := bit (le img 0x10 4) 0,
    parts := (offsOf rs 0x0101).map (readPart img),
    plan := readPlan img ((offsOf rs 0x0102).headD 0),
    beats := (offsOf rs 0x0103).head?.map (readBeats img),
    split := readSplit img ((offsOf rs 0x0104).headD 0),
    time := readTime img ((offsOf rs 0x0105).headD 0),
    routes := (offsOf rs 0x0106).head?.elim [] (readRoutes img),
    tamper := (offsOf rs 0x0107).head?.map (readTamper img),
    dbg := (offsOf rs 0x0108).head?.elim {} (readDebug img) }

/-- Step 6 of R60 for a device charter. Where partition 0 is absent, the PART_ID of the first PARTITION record is
reported (log entry 120). -/
def deviceRanges (img : Bytes) (rs : List RecAt) : Option LoadErr :=
  let c := readDevice img rs
  let po := offsOf rs 0x0101
  firstBad
    (rangeAt (c.parts.any (fun p => p.id == 0)) (po.headD 0 + 4) ::
    (List.range po.length).flatMap (fun i => partChecks img (c.parts.take i) (po.getD i 0)) ++
    (offsOf rs 0x0102).flatMap (planChecks img) ++
    (offsOf rs 0x0103).flatMap (beatChecks img c.parts c.plan.mode) ++
    (offsOf rs 0x0104).map (fun o => rangeAt (decide (4096 ≤ c.split.retention) && decide (c.split.retention ≤ 65536)) (o + 0x0C)) ++
    (offsOf rs 0x0105).flatMap (timeChecks img c.plan) ++
    (offsOf rs 0x0106).flatMap (routeChecks img) ++
    (offsOf rs 0x0107).flatMap (tamperChecks img) ++
    (offsOf rs 0x0108).flatMap (debugChecks img))

/-! ### Job records -/

/-- A class entry (R325). -/
def readClass (img : Bytes) (e : Nat) : ClassEnt :=
  let fl := le img (e + 3) 1
  { id := le img e 2, kind := le img (e + 2) 1, prefetch := bit fl 0, release := bit fl 1, wrap := bit fl 2,
    pin := bit fl 3, wclass := le img (e + 4) 1, pkgWays := le img (e + 5) 1, cluWays := le img (e + 6) 1,
    ahead := le img (e + 7) 1, base := le img (e + 8) 8, len := le img (e + 0x10) 8, unit := le img (e + 0x18) 4 }

/-- The class entries of one PHASE_MAP record, with their offsets. -/
def recClasses (img : Bytes) (o : Nat) : List (Nat × ClassEnt) :=
  (List.range (le img (o + 8) 2)).map (fun i => (o + 0x20 + 32 * i, readClass img (o + 0x20 + 32 * i)))

/-- The phases of the job: the parts of each phase joined (R324). -/
def readPhases (img : Bytes) (os : List Nat) : List PhaseMap :=
  (os.filter (fun o => le img (o + 5) 1 == 0)).map (fun o =>
    { phase := le img (o + 4) 1, packages := le img (o + 0x0A) 2, slices := le img (o + 0x0C) 1,
      blockLog2 := le img (o + 0x0D) 1, bias := le img (o + 0x10) 8,
      classes := (os.filter (fun q => le img (q + 4) 1 == le img (o + 4) 1)).flatMap (fun q =>
        (recClasses img q).map (·.2)) })

/-- Class `a` lies wholly inside class `b` (R327). -/
def insideOf (a b : ClassEnt) : Bool := decide (b.base ≤ a.base) && decide (a.base + a.len ≤ b.base + b.len)

/-- Two classes have a virtual address in common. -/
def classesMeet (a b : ClassEnt) : Bool :=
  decide (a.base < b.base + b.len) && decide (b.base < a.base + a.len)

/-- The ranges of one class entry alone (R325, R326). -/
def classChecks (img : Bytes) (packages e : Nat) : List (Bool × LoadErr) :=
  let c := readClass img e
  [rangeAt (decide (c.kind ≤ 4)) (e + 2),
   rangeAt (decide (bits (le img (e + 3) 1) 7 4 = 0)) (e + 3),
   rangeAt (decide (c.wclass < 16)) (e + 4),
   rangeAt (decide (1 ≤ c.pkgWays) && decide (c.pkgWays ≤ packages) && (decide (c.kind ≠ 0) || decide (c.pkgWays = 1))) (e + 5),
   rangeAt ([1, 2, 4, 8].contains c.cluWays) (e + 6),
   rangeAt (if c.prefetch then decide (1 ≤ c.ahead) && decide (c.ahead ≤ 64) else decide (c.ahead = 0)) (e + 7),
   rangeAt (decide (c.base % 65536 = 0)) (e + 8),
   rangeAt (decide (c.len % 65536 = 0) && decide (65536 ≤ c.len) && decide (c.len ≤ 2 ^ 48) && decide (c.base + c.len ≤ 2 ^ 52)) (e + 0x10),
   rangeAt (decide (1 ≤ c.unit)) (e + 0x18),
   rangeAt (decide (le img (e + 0x1C) 4 = 0)) (e + 0x1C)]

/-- The relation of a class to the classes before it in its phase (R325 CLASS_ID, R326, R327). -/
def classPairOk (all : List ClassEnt) (c d : ClassEnt) : Bool :=
  if classesMeet c d then
    let nested (x y : ClassEnt) : Bool :=
      insideOf x y && !insideOf y x && !x.prefetch &&
        (all.filter (fun z => decide (z ≠ x) && classesMeet z x)).all (fun z => decide (z = y))
    nested c d || nested d c
  else true

/-- The range checks of the PHASE_MAP records (R323 to R326). -/
def phaseChecks (img : Bytes) (os : List Nat) : List (Bool × LoadErr) :=
  let ph := readPhases img os
  let packages := (ph.headD {}).packages
  os.flatMap (fun o =>
    let first := le img (o + 5) 1 == 0
    let pm := (ph.find? (fun m => m.phase == le img (o + 4) 1)).getD {}
    let cs := recClasses img o
    [rangeAt (decide (le img (o + 4) 1 ≤ 15)) (o + 4),
     rangeAt (decide (le img (o + 6) 1 < 2) && !(bit (le img (o + 6) 1) 0 &&
       os.any (fun q => le img (q + 4) 1 == le img (o + 4) 1 && decide (le img (o + 5) 1 < le img (q + 5) 1)))) (o + 6),
     rangeAt (decide (le img (o + 7) 1 = 0)) (o + 7),
     rangeAt (decide (le img (o + 8) 2 ≤ 2046) && decide (pm.classes.length ≤ 1024)) (o + 8),
     rangeAt (if first then decide (1 ≤ pm.packages) && decide (pm.packages ≤ 64) && decide (pm.packages = packages)
       else decide (le img (o + 0x0A) 2 = 0)) (o + 0x0A),
     rangeAt (if first then decide (pm.slices ≠ 0) else decide (le img (o + 0x0C) 1 = 0)) (o + 0x0C),
     rangeAt (if first then decide (10 ≤ pm.blockLog2) && decide (pm.blockLog2 ≤ 20) else decide (le img (o + 0x0D) 1 = 0)) (o + 0x0D),
     rangeAt (decide (le img (o + 0x0E) 2 = 0)) (o + 0x0E),
     rangeAt (first || decide (le img (o + 0x10) 8 = 0)) (o + 0x10),
     rangeAt (decide (le img (o + 0x18) 8 = 0)) (o + 0x18)] ++
    cs.flatMap (fun ec => classChecks img packages ec.1) ++
    cs.flatMap (fun ec =>
      let earlier := pm.classes.takeWhile (fun d => decide (d ≠ ec.2))
      [rangeAt (!(earlier.any (fun d => d.id == ec.2.id)) &&
          decide ((pm.classes.filter (fun d => d == ec.2)).length ≤ 1)) ec.1,
       rangeAt (earlier.all (fun d => classPairOk pm.classes ec.2 d)) (ec.1 + 8)]))

/-- A TALLY_GEOMETRY record (R411). -/
def readGeometry (img : Bytes) (o : Nat) : Geometry :=
  { template := le img (o + 4) 1, elem := le img (o + 5) 1, neighbours := le img (o + 6) 1,
    shamirT := le img (o + 7) 1, length := le img (o + 8) 4, contributors := le img (o + 0x0C) 4,
    modulus := le img (o + 0x10) 8, firstOpen := le img (o + 0x18) 8, period := le img (o + 0x20) 8,
    duration := le img (o + 0x28) 8, graceUs := le img (o + 0x30) 4, idleUs := le img (o + 0x34) 4,
    releaseDelay := le img (o + 0x38) 8, dest := le img (o + 0x40) 8, threshold := le img (o + 0x48) 1,
    hampers := le img (o + 0x49) 1, hostIngest := bit (le img (o + 0x4A) 1) 0 }

/-- The bytes of one accumulator element (R414). -/
def accBytes (elem : Nat) : Nat := if elem = 0 then 2 else if elem = 1 then 4 else 8

/-- The bytes of one element of a segment (R414). -/
def elemBytes (elem : Nat) : Nat := if elem = 0 then 2 else if elem = 1 ∨ elem = 4 then 4 else 8

/-- The range checks of a TALLY_GEOMETRY record (R411, R412, 11 R478). -/
def geometryChecks (img : Bytes) (before : List Geometry) (o : Nat) : List (Bool × LoadErr) :=
  let g := readGeometry img o
  let float := decide (g.elem = 4)
  [rangeAt (decide (g.template ≤ 63) && !(before.any (fun h => h.template == g.template))) (o + 4),
   rangeAt (decide (g.elem ≤ 4)) (o + 5),
   rangeAt (if float then decide (g.neighbours = 0) else decide (g.neighbours ≤ 64)) (o + 6),
   rangeAt (if float then decide (g.shamirT = 0) else decide (2 ≤ g.shamirT) && decide (g.shamirT ≤ 64)) (o + 7),
   rangeAt (decide (1 ≤ g.length) && decide (g.length ≤ 2 ^ 30)) (o + 8),
   rangeAt (decide (1 ≤ g.contributors) && decide (g.contributors ≤ 2097152)) (o + 0x0C),
   rangeAt (if g.elem = 3 then decide (3 ≤ g.modulus) && decide (g.modulus < 2 ^ 60) else decide (g.modulus = 0)) (o + 0x10),
   rangeAt (decide (g.period = 0) || (decide (g.duration ≤ g.period) && decide (g.period ≤ 2 ^ 50))) (o + 0x20),
   rangeAt (decide (1000000 ≤ g.duration) && decide (g.duration ≤ 2 ^ 44)) (o + 0x28),
   rangeAt (decide (1 ≤ g.graceUs) && decide (g.graceUs ≤ 32767)) (o + 0x30),
   rangeAt (decide (10 ≤ g.idleUs) && decide (g.idleUs ≤ 100000)) (o + 0x34),
   rangeAt (decide (g.releaseDelay = 0) || (decide (1000 ≤ g.releaseDelay) && decide (g.releaseDelay ≤ 2 ^ 44))) (o + 0x38),
   rangeAt (decide (g.dest % 65536 = 0) && decide (g.dest + g.length * accBytes g.elem ≤ 2 ^ 52)) (o + 0x40),
   rangeAt (decide (1 ≤ g.threshold) && decide (g.threshold ≤ 64)) (o + 0x48),
   rangeAt (decide (1 ≤ g.hampers) && decide (g.hampers ≤ 8)) (o + 0x49),
   rangeAt (decide (le img (o + 0x4A) 1 < 2)) (o + 0x4A),
   rangeAt (decide (le img (o + 0x4B) 5 = 0)) (o + 0x4B)]

/-- The KEY_POLICY record (R557). -/
def readKeyPolicy (img : Bytes) (o : Nat) : KeyPolicy :=
  { jobId := le img (o + 4) 3, rekeyLog2 := le img (o + 7) 1, destroySweep := decide (le img (o + 8) 1 = 1),
    admitterPin := slice img (o + 0x10) 32,
    rekeyAt := (List.range (le img (o + 9) 1)).map (fun i => le img (o + 0x30 + 8 * i) 8) }

/-- The numbers rise strictly. -/
def rising : List Nat → Bool
  | a :: b :: r => decide (a < b) && rising (b :: r)
  | _ => true

/-- The range checks of KEY_POLICY (R557); `used` are the job ids of the other loaded charters. -/
def keyPolicyChecks (img : Bytes) (used : List Nat) (o : Nat) : List (Bool × LoadErr) :=
  let k := readKeyPolicy img o
  [rangeAt (decide (1 ≤ k.jobId) && !used.contains k.jobId) (o + 4),
   rangeAt (decide (20 ≤ k.rekeyLog2) && decide (k.rekeyLog2 ≤ 32)) (o + 7),
   rangeAt (decide (le img (o + 8) 1 ≤ 1)) (o + 8),
   rangeAt (decide (le img (o + 9) 1 ≤ 8)) (o + 9),
   rangeAt (decide (le img (o + 0x0A) 6 = 0)) (o + 0x0A)] ++
  (List.range k.rekeyAt.length).map (fun i => rangeAt (rising (k.rekeyAt.take (i + 1))) (o + 0x30 + 8 * i))

/-- One HE_POLICY entry (R492). -/
def readHe (img : Bytes) (e : Nat) : HeEntry :=
  { fingerprint := le img e 8, ceiling := le img (e + 8) 2, autoRefresh := decide (le img (e + 0x0A) 1 = 1),
    refreshMacro := le img (e + 0x0C) 2 }

/-- The entries of HE_POLICY (R492). -/
def readHeList (img : Bytes) (o : Nat) : List HeEntry :=
  (List.range (le img (o + 4) 1)).map (fun i => readHe img (o + 8 + 16 * i))

/-- The range checks of HE_POLICY (R492). -/
def heChecks (img : Bytes) (o : Nat) : List (Bool × LoadErr) :=
  let hs := readHeList img o
  [rangeAt (decide (1 ≤ hs.length) && decide (hs.length ≤ 16)) (o + 4), rangeAt (decide (le img (o + 5) 3 = 0)) (o + 5)] ++
  (List.range hs.length).flatMap (fun i =>
    let e := o + 8 + 16 * i
    let h := hs.getD i {}
    [rangeAt (!((hs.take i).any (fun g => g.fingerprint == h.fingerprint))) e,
     rangeAt (decide (le img (e + 0x0A) 1 ≤ 1)) (e + 0x0A),
     rangeAt (decide (le img (e + 0x0B) 1 = 0)) (e + 0x0B),
     rangeAt (h.autoRefresh || decide (h.refreshMacro = 0)) (e + 0x0C),
     rangeAt (decide (le img (e + 0x0E) 2 = 0)) (e + 0x0E)])

/-- The (register offset, value) pairs of EXPERT_OVERRIDES (R81). -/
def readOverrides (img : Bytes) (o : Nat) : List (Nat × Nat) :=
  (List.range (le img (o + 4) 2)).map (fun i => (le img (o + 8 + 8 * i) 4, le img (o + 12 + 8 * i) 4))

/-- The range checks of EXPERT_OVERRIDES (R81); `owned` says which offsets the partition owns. -/
def overrideChecks (img : Bytes) (owned : Nat → Bool) (o : Nat) : List (Bool × LoadErr) :=
  let n := le img (o + 4) 2
  [rangeAt (decide (1 ≤ n) && decide (n ≤ 8190)) (o + 4), rangeAt (decide (le img (o + 6) 2 = 0)) (o + 6)] ++
  (List.range n).map (fun i =>
    rangeAt (decide (le img (o + 8 + 8 * i) 4 % 4 = 0) && owned (le img (o + 8 + 8 * i) 4)) (o + 8 + 8 * i))

/-- The job charter of a checked image. -/
def readJob (img : Bytes) (rs : List RecAt) : JobCharter :=
  let lo := (offsOf rs 0x0205).headD 0
  { hash := slice img 0x20 32, serial := le img 0x18 4, signed := bit (le img 0x10 4) 0,
    phases := readPhases img (offsOf rs 0x0201),
    templates := (offsOf rs 0x0202).map (readGeometry img),
    key := readKeyPolicy img ((offsOf rs 0x0203).headD 0),
    he := (offsOf rs 0x0204).head?.map (readHeList img),
    minCores := le img (lo + 4) 2, quota := le img (lo + 6) 2, threshold := le img (lo + 8) 4,
    overrides := (offsOf rs 0x0206).head?.elim [] (readOverrides img) }

/-- Step 6 of R60 for a job charter: `cores` is the number of cores in the partition's CORE_MASK. -/
def jobRanges (img : Bytes) (rs : List RecAt) (cores : Nat) (used : List Nat) (owned : Nat → Bool) : Option LoadErr :=
  let c := readJob img rs
  let go := offsOf rs 0x0202
  firstBad
    (phaseChecks img (offsOf rs 0x0201) ++
    (List.range go.length).flatMap (fun i => geometryChecks img (c.templates.take i) (go.getD i 0)) ++
    (offsOf rs 0x0203).flatMap (keyPolicyChecks img used) ++
    (offsOf rs 0x0204).flatMap (heChecks img) ++
    (offsOf rs 0x0205).flatMap (fun o =>
      [rangeAt (decide (c.minCores ≤ 64) && decide (c.minCores ≤ cores)) (o + 4),
       rangeAt (decide (64 ≤ c.quota) && decide (c.quota ≤ 4096)) (o + 6),
       rangeAt (decide (1 ≤ c.threshold) && decide (c.threshold ≤ 2097152)) (o + 8),
       rangeAt (decide (le img (o + 0x0C) 4 = 0)) (o + 0x0C)]) ++
    (offsOf rs 0x0206).flatMap (overrideChecks img owned))

end Sys2Proof.Machine
end

