-- ==== Sys2Proof/Machine/Folio.lean ====
section
/-!
DEFINITION. Machine/Folio.lean: the folio operations and the folio unit's own steps (06_hoard R279 to
R316).
-/
namespace Sys2Proof.Machine

/-- The body of an operation runs where the operation is on its engine; otherwise nothing happens. -/
def State.runOp (s : State) (p tag oc : Nat) (body : Op → State) : State :=
  match s.runningOp p tag oc with
  | some o => body o
  | none => s

/-- What follows a preparation: the work when it is ready, nothing while it waits, the status when it
failed. -/
def Prep.finish (r : Prep) (o : Op) (work : State → State) : State :=
  match r with
  | .ok t => work t
  | .wait t => t
  | .fail t st => t.endOpCycles o.part o.tag st 0

/-- EXPERT_OPS of partition `p` (R312). -/
def State.expertOps (s : State) (p : Nat) : Bool := bit (s.regN (aFolioPartCtrl p)) 31

/-- The common checks of a folio body (R303, R781): alignment, length, and reserved bytes. -/
def folBodyOk (d : Bytes) (align : Nat) : Bool :=
  decide (folAddr d % align = 0) && decide (folLen d % align = 0) && decide (64 ≤ folLen d) &&
  decide (folLen d ≤ 2 ^ 40) && decide (bits (le d 0x31 1) 7 4 = 0) && allZero (slice d 0x32 14) &&
  rangeOk (folAddr d, folLen d)

/-- The folios of an operation's range. -/
def folFolios (d : Bytes) : List Nat := foliosOf (folAddr d, folLen d)

/-- What a folio operation does to one folio. -/
inductive FolStep where
  | did (s : State)
  | same (s : State)
  | wait (s : State)
  | fail (s : State) (status : Nat)

/-- A folio operation goes through its folios in order from where it stands; INFO counts those it
changed (R305). It ends once the transfers it waits for have committed. -/
def folioLoop (g : State → Nat → FolStep) (p tag : Nat) : List Nat → State → State
  | [], s =>
    if s.folio.moves.any (fun m => m.part == p && m.waiters.contains tag) then s
    else s.endOp p tag stDone 0 (((s.findOp p tag).map (·.info)).getD 0)
  | v :: l, s =>
    match g s v with
    | .did t => folioLoop g p tag l (t.modOp p tag (fun o => { o with progress := o.progress + 1, info := o.info + 1 }))
    | .same t => folioLoop g p tag l (t.modOp p tag (fun o => { o with progress := o.progress + 1 }))
    | .wait t => t
    | .fail t st => t.endOp p tag st 0 (((t.findOp p tag).map (·.info)).getD 0)

/-- An operation refused at once. -/
def State.refuseOp (s : State) (o : Op) (status : Nat) : State := s.endOpCycles o.part o.tag status 0

/-- Folio `v` lies in a class while the package has no rank yet: an operation that touches it ends with
NOT_PERMITTED (07 R334). -/
def State.unranked (s : State) (p v : Nat) : Bool := (s.myRank p).isNone && (s.placeOf p v).isSome

/-- A folio operation from where it stands. -/
def State.folioOp (s : State) (o : Op) (g : State → Nat → FolStep) : State :=
  if (folFolios o.desc).any (s.unranked o.part) then s.refuseOp o stNotPermitted
  else folioLoop (fun t v => if t.discardBefore o v then .wait t else g t v) o.part o.tag ((folFolios o.desc).drop o.progress) s

/-! ### Basic operations -/

/-- COPY (R302 to R304). -/
def State.copyOp (s : State) (o : Op) : State :=
  let d := o.desc
  let a := folAddr d
  let b := folArg d
  let n := folLen d
  if !(folBodyOk d 64 && decide (b % 64 = 0) && decide (folKind d = 0) && rangeOk (b, n)) ||
      (decide (a < b + n) && decide (b < a + n)) then s.refuseOp o stMalformed
  else
    (s.prepare o [(a, n)] [(b, n)] (folWclass d) noWhole).finish o (fun t =>
      (t.writeVa o.part o.tag b (t.readVa o.part a n)).endOp o.part o.tag stDone 0 (foliosOf (b, n)).length)

/-- `n` bytes of a repeated 64-bit pattern. -/
def patternBytes (pat n : Nat) : Bytes := (List.replicate (n / 8) (toLE 8 pat)).flatten

/-- A range covers folio `v` wholly. -/
def coversFolio (r : VRange) (v : Nat) : Bool := decide (r.1 ≤ 65536 * v) && decide (65536 * v + 65536 ≤ r.1 + r.2)

/-- FILL (R279, R302, R303). -/
def State.fillOp (s : State) (o : Op) : State :=
  let d := o.desc
  let r : VRange := (folAddr d, folLen d)
  if !(folBodyOk d 64 && decide (folKind d = 0)) then s.refuseOp o stMalformed
  else
    (s.prepare o [] [r] (folWclass d) (coversFolio r)).finish o (fun t =>
      (t.writeVa o.part o.tag r.1 (patternBytes (folArg d) r.2)).endOp o.part o.tag stDone 0 (foliosOf r).length)

/-- An operation admitted before `o` that has not completed holds folio `v` (R306). -/
def State.earlierHolds (s : State) (o : Op) (v : Nat) : Bool :=
  (s.ops.takeWhile (fun q => !(q.part == o.part && q.tag == o.tag))).any
    (fun q => q.part == o.part && decide (q.stage ≠ .recording) && q.holdsFolio v)

/-- DISCARD of one folio (R279, R306, R317). -/
def State.discardStep (o : Op) (s : State) (v : Nat) : FolStep :=
  if s.earlierHolds o v then .wait s
  else match (s.leaf o.part v).state with
    | .absent | .scrub => .same s
    | .moving => .wait s
    | .resident | .retired => .did ((s.toScrub o.part v).retireGens o.part)

/-- DISCARD (R306). -/
def State.discardOp (s : State) (o : Op) : State :=
  let d := o.desc
  if !(folBodyOk d 65536 && decide (folArg d = 0) && decide (folKind d = 0)) then s.refuseOp o stMalformed
  else s.folioOp o (State.discardStep o)

/-- MAP of the folio that stands `i` folios into the range (R279, R305). A host address and a remote folio number keep the
width of their field in HOME (R278; log entry 132). -/
def State.mapStep (o : Op) (s : State) (v : Nat) : FolStep :=
  let p := o.part
  let d := o.desc
  let i := v - folAddr d / 65536
  if (s.leaf p v).state ≠ .absent then .same s
  else
    let missing := s.missingTables p v
    if s.lpddrShare p < s.lpddrCharge p + missing.length then .fail (s.quotaErr p) stNotPermitted
    else if !s.tableRoom p v false then
      (if s.hasScrub false then .wait s else .fail (s.quotaErr p) stNotPermitted)
    else
      let t := missing.foldl (fun u k => u.makeTable p k) s
      let base : Leaf := { state := .resident, wclass := folWclass d, keygen := (s.part p).keyCur }
      .did (t.setLeaf p v
        (if folKind d = 3 then { base with cls := .host, home := (folArg d + 65536 * i) % 2 ^ 64 }
         else { base with cls := .peer, home := (bits (folArg d) 45 10 + i) % 2 ^ 36 * 1024 + bits (folArg d) 9 0 }))

/-- MAP (R303, R305). -/
def State.mapOp (s : State) (o : Op) : State :=
  let d := o.desc
  if !(folBodyOk d 65536 && (decide (folKind d = 2) || (decide (folKind d = 3) && decide (folArg d % 65536 = 0)))) then
    s.refuseOp o stMalformed
  else s.folioOp o (State.mapStep o)

/-! ### Streams -/

/-- The cluster in which STREAM_OPEN opens its stream (R307). -/
def State.streamCluster (s : State) (p : Nat) (d : Bytes) : Option Nat :=
  if dCore d ≠ 0xFF then some (clusterOf (dCore d))
  else argMin (fun c => ((List.range 16).filter (fun i => (s.stream c i).enable)).length) (s.clustersOf p)

/-- STREAM_OPEN (R307, R311). -/
def State.streamOpenOp (s : State) (o : Op) : State :=
  let d := o.desc
  let ok := decide (le d 0x18 8 % 65536 = 0) && decide (le d 0x18 8 < 2 ^ 52) && decide (1 ≤ le d 0x24 4) &&
    decide (1 ≤ le d 0x28 1) && decide (1 ≤ le d 0x29 1) && decide (le d 0x29 1 ≤ 64) &&
    decide (bits (le d 0x2A 1) 7 4 = 0) && decide (bits (le d 0x2B 1) 7 2 = 0) && allZero (slice d 0x2C 20)
  if !ok then s.refuseOp o stMalformed
  else
    let free := (s.streamCluster o.part d).bind (fun c =>
      ((List.range 16).find? (fun i => !(s.stream c i).enable)).map (fun i => (c, i)))
    match free with
    | none => s.refuseOp o stNotPermitted
    | some (c, i) =>
      let x : Stream :=
        { enable := true, release := bit (le d 0x2B 1) 0, wrap := bit (le d 0x2B 1) 1, part := o.part,
          wclass := bits (le d 0x2A 1) 3 0, w := le d 0x28 1, ahead := le d 0x29 1, base := le d 0x18 8,
          stride := le d 0x20 4, count := le d 0x24 4 }
      (s.setStream c i x).endOp o.part o.tag stDone 0 (16 * c + i)

/-- STREAM_CLOSE (R311); a stream that another partition holds is not closed (log entry 20). -/
def State.streamCloseOp (s : State) (o : Op) : State :=
  let n := bits (le o.desc 0x18 1) 6 0
  let x := s.stream (n / 16) (n % 16)
  if x.enable && x.part != o.part then s.refuseOp o stNotPermitted
  else (s.setStream (n / 16) (n % 16) { x with enable := false }).endOp o.part o.tag stDone 0 0

/-- Every stream of partition `p` closes (R311). -/
def State.closeStreams (s : State) (p : Nat) : State :=
  s.modFolio (fun f => { f with streams := f.streams.map (fun e => if e.2.part == p then (e.1, { e.2 with enable := false }) else e) })

/-! ### Expert placement -/

/-- Pins that placements in flight will set (R314). -/
def State.pinsDue (s : State) (p : Nat) : Nat :=
  (s.folio.moves.filter (fun m => m.part == p && m.place && (decide (m.kind = .fetch) || decide (m.kind = .column)) &&
    !(s.leaf p m.vfn).pin)).length

/-- PIN of one folio, past the map's word (R279, R313). -/
def State.pinHere (o : Op) (s : State) (v : Nat) : FolStep :=
  let p := o.part
  let l := s.leaf p v
  let full := decide (s.folioFrames p ≤ s.pinnedFrames p + s.pinsDue p)
  let alloc (t : State) : FolStep := match t.allocFolio p v (t.colFor o v) (t.wclassFor p v (folWclass o.desc)) true with
    | .ok u => .did u
    | .wait u => .wait u
    | .fail u st => .fail u st
  match l.state with
  | .absent => if full then .fail s stNotPermitted else alloc s
  | .scrub => if full then .fail s stNotPermitted else alloc (s.finishScrub p v)
  | .retired => .fail s stUncorrectable
  | .moving => .wait s
  | .resident =>
    if l.pin then .same s
    else if full then .fail s stNotPermitted
    else if l.hvalid then .did (s.setLeaf p v { l with pin := true })
    else match s.startFetch p v (s.colFor o v) [o.tag] with
      | .ok u => .wait (u.prof o.cluster p 0x11 1)
      | .wait u => .wait u
      | .fail u st => .fail u st

/-- PIN of one folio: a folio of another package is mapped first (R279, R313, 07 R332). -/
def State.pinStep (o : Op) (s : State) (v : Nat) : FolStep :=
  match s.classGate o.part v with
  | .ok t => State.pinHere o t v
  | .wait t => .wait t
  | .fail t st => .fail t st

/-- PIN, UNPIN, PLACE and EVICT are expert opcodes (R312). -/
def State.expertOp (s : State) (o : Op) (ok : Bool) (g : State → Nat → FolStep) : State :=
  if !s.expertOps o.part then s.refuseOp o stNotPermitted
  else if !ok then s.refuseOp o stMalformed
  else s.folioOp o g

/-- The body checks of PIN, UNPIN and EVICT: ARG and KIND are 0. -/
def folPlain (d : Bytes) : Bool := folBodyOk d 65536 && decide (folArg d = 0) && decide (folKind d = 0)

/-- UNPIN of one folio. -/
def State.unpinStep (o : Op) (s : State) (v : Nat) : FolStep :=
  let l := s.leaf o.part v
  match l.state with
  | .resident | .moving => if l.pin then .did (s.setLeaf o.part v { l with pin := false, phasePin := false }) else .same s
  | .retired => .fail s stUncorrectable
  | .absent | .scrub => .same s

/-- PLACE of the folio (R314). With KIND 1, a folio without a home gets the named frame as its home, and that of a HOST
folio moves there; the home of a PEER folio is not the package's to move (log entry 133). -/
def State.placeStep (o : Op) (s : State) (v : Nat) : FolStep :=
  let p := o.part
  let l := s.leaf p v
  let f := folArg o.desc
  let hoard := decide (folKind o.desc = 0)
  let frameOk := if hoard then decide (f < 131072) && s.frameFree .cache f
    else decide (f < 128 * s.chanFrames) && decide (s.lUse f = .free) && !s.folio.chRetired.testBit (chanOf f)
  if !frameOk then .fail s stNotPermitted
  else if hoard && !l.pin && decide (s.folioFrames p ≤ s.pinnedFrames p + s.pinsDue p) then .fail s stNotPermitted
  else match l.state with
    | .retired => .fail s stUncorrectable
    | .absent | .scrub => .same s
    | .moving => .wait s
    | .resident =>
      if !s.moveRoom then .wait s
      else if hoard then
        if l.hvalid then
          .did ((s.setHUse f (.folio p v)).startMove { part := p, vfn := v, kind := .column, dest := f, place := true, waiters := [o.tag] })
        else if s.homeKey p l then
          let m : Move := { part := p, vfn := v, kind := .fetch, dest := f, gen := l.keygen, place := true, waiters := [o.tag] }
          let t := s.setHUse f (.folio p v)
          .did (if l.cls = .peer then (t.askPeer p (l.home % 1024) (l.home / 1024)).startPeer m (l.home % 1024) else t.startMove m)
        else .fail s (s.homeCheck p l)
      else if l.cls = .peer then .fail s stNotPermitted
      else if l.cls = .host ∧ s.lpddrShare p < s.lpddrCharge p + 1 then .fail (s.quotaErr p) stNotPermitted
      else
        if s.homeKey p l && s.memLive p (s.part p).keyCur then
          .did ((s.setLUse f (.folio p v)).startMove
            { part := p, vfn := v, kind := .walk, dest := f, gen := (s.part p).keyCur, place := true, waiters := [o.tag] })
        else .fail s (if s.homeKey p l then s.memCheck p (s.part p).keyCur else s.homeCheck p l)

/-- EVICT of one folio (R289, R290, R315). -/
def State.evictStep (o : Op) (s : State) (v : Nat) : FolStep :=
  let p := o.part
  let l := s.leaf p v
  let held := s.ops.any (fun q => q.part == p && q.tag != o.tag && decide (q.stage ≠ .recording) && q.holdsFolio v)
  match l.state with
  | .retired => .fail s stUncorrectable
  | .resident =>
    if l.pin || !l.hvalid || held then .same s
    else if !l.dirty && decide (l.cls ≠ .hoard) then .did (s.dropCopy p v)
    else if !s.memLive p (s.part p).keyCur then .fail s (s.memCheck p (s.part p).keyCur)
    else match s.startWriteback p v [o.tag] with
      | some t => .did t
      | none => .wait s
  | _ => .same s

/-- COPY (R302). -/
def execCopy (p : Fin 16) (tag : Fin 4096) (s : State) : Host.Outcome State Fault Refusal :=
  .next (s.runOp p tag 0x0300 s.copyOp)

/-- FILL (R302). -/
def execFill (p : Fin 16) (tag : Fin 4096) (s : State) : Host.Outcome State Fault Refusal :=
  .next (s.runOp p tag 0x0301 s.fillOp)

/-- DISCARD (R306). -/
def execDiscard (p : Fin 16) (tag : Fin 4096) (s : State) : Host.Outcome State Fault Refusal :=
  .next (s.runOp p tag 0x0302 s.discardOp)

/-- STREAM_OPEN (R307). -/
def execStreamOpen (p : Fin 16) (tag : Fin 4096) (s : State) : Host.Outcome State Fault Refusal :=
  .next (s.runOp p tag 0x0310 s.streamOpenOp)

/-- STREAM_CLOSE (R311). -/
def execStreamClose (p : Fin 16) (tag : Fin 4096) (s : State) : Host.Outcome State Fault Refusal :=
  .next (s.runOp p tag 0x0311 s.streamCloseOp)

/-- MAP (R305). -/
def execMap (p : Fin 16) (tag : Fin 4096) (s : State) : Host.Outcome State Fault Refusal :=
  .next (s.runOp p tag 0x0320 s.mapOp)

/-- PIN (R313). -/
def execPin (p : Fin 16) (tag : Fin 4096) (s : State) : Host.Outcome State Fault Refusal :=
  .next (s.runOp p tag 0x0330 (fun o => s.expertOp o (folPlain o.desc) (State.pinStep o)))

/-- UNPIN (R302). -/
def execUnpin (p : Fin 16) (tag : Fin 4096) (s : State) : Host.Outcome State Fault Refusal :=
  .next (s.runOp p tag 0x0331 (fun o => s.expertOp o (folPlain o.desc) (State.unpinStep o)))

/-- PLACE (R314). -/
def execPlace (p : Fin 16) (tag : Fin 4096) (s : State) : Host.Outcome State Fault Refusal :=
  .next (s.runOp p tag 0x0332 (fun o => s.expertOp o
    (folBodyOk o.desc 65536 && decide (folLen o.desc = 65536) && decide (folKind o.desc ≤ 1)) (State.placeStep o)))

/-- EVICT (R315). -/
def execEvict (p : Fin 16) (tag : Fin 4096) (s : State) : Host.Outcome State Fault Refusal :=
  .next (s.runOp p tag 0x0333 (fun o => s.expertOp o (folPlain o.desc) (State.evictStep o)))

/-! ### The folio unit's own steps -/

/-- The first check that is not passed of two. -/
def orElseStatus (a b : Nat) : Nat := if a = stDone then b else a

/-- The checks of 15 R622 on the keys of a transfer (15 R623). -/
def State.moveCheck (s : State) (m : Move) : Nat :=
  let l := s.leaf m.part m.vfn
  match m.kind with
  | .fetch => s.homeCheck m.part l
  | .writeback => s.memCheck m.part m.gen
  | .walk =>
    if m.raw ∨ (m.dest = l.home ∧ m.gen = l.keygen) then stDone else orElseStatus (s.memCheck m.part m.gen) (s.homeCheck m.part l)
  | .column => stDone
  | .pull => orElseStatus (s.jobCheck m.part) (s.memCheck m.part m.gen)

/-- Every part of a transfer has arrived: a peer's come in FOLIO frames. -/
def State.moveArrived (s : State) (m : Move) : Bool :=
  !((decide (m.kind = .fetch) && decide ((s.leaf m.part m.vfn).cls = .peer)) || decide (m.kind = .pull)) || decide (m.parts = 255)

/-! ### LPDDR5X channels (R268 to R271) -/

/-- Partitions whose LPDDR_GIB share can no longer be kept are flagged (R271). -/
def State.flagLpddr (s : State) : State :=
  let ps := ((s.dev).map (·.parts)).getD []
  let have_ := (128 - popCount 128 s.folio.chRetired) * s.chanFrames
  if have_ < (ps.map (·.lpddrGib)).sum * 16384 then
    ps.foldl (fun t r => if r.lpddrGib = 0 then t else t.modPart r.id (fun x => { x with lpddrDeg := true })) s
  else s

/-- A folio of a retired channel begins to move to a free frame of another (R270, R279, R283), or is RETIRED where none is
left (R271). It is enciphered under the current generation where its keys are live (R298), and else copied as it is. -/
def State.rehome (s : State) (p v : Nat) : State :=
  let l := s.leaf p v
  let g := (s.part p).keyCur
  let live := s.memLive p l.keygen && s.memLive p g
  match s.freeLpddr v with
  | some f => (s.setLUse f (.folio p v)).startMove
      { part := p, vfn := v, kind := .walk, dest := f, gen := if live then g else l.keygen, raw := !live }
  | none => (s.retireFolio p v).setLUse l.home .retired

/-- The folios that still stand on retired channels begin to move, as far as there is room for transfers. -/
def State.leaveChannels (s : State) : State :=
  if s.folio.chRetired = 0 then s
  else
    let ps := s.folio.leaves.filter (fun e => decide (e.2.cls = .lpddr) && decide (e.2.state = .resident) &&
      s.folio.chRetired.testBit (chanOf e.2.home))
    ps.foldl (fun t e => if t.moveRoom then t.rehome (e.1 / 2 ^ 36) (e.1 % 2 ^ 36) else t) s

/-- A transfer reads or writes channel `ch`. -/
def State.usesChannel (s : State) (ch : Nat) (m : Move) : Bool :=
  let l := s.leaf m.part m.vfn
  let home := decide (l.cls = .lpddr) && decide (chanOf l.home = ch)
  let dest := decide (chanOf m.dest = ch)
  match m.kind with
  | .fetch => home
  | .writeback => decide (l.cls ≠ .host) && dest
  | .walk => home || (dest && (decide (l.cls = .lpddr) || m.place))
  | .pull => dest
  | .column => false

/-- A transfer that a retired channel broke off is made again from a clean Hoard copy, or fails (R317). -/
def State.reissue (clean : Bool) (s : State) (m : Move) : State :=
  let l := s.leaf m.part m.vfn
  let again := clean && decide (m.kind = .walk) && decide (l.cls = .lpddr) && decide (l.state = .resident) && l.hvalid
  match if again then s.freeLpddr m.vfn else none with
  | some g => (s.setLUse g (.folio m.part m.vfn)).startMove { m with dest := g }
  | none => s.failTags m.part m.tags stUncorrectable

/-- A table frame of a retired channel moves to another. -/
def State.moveTable (s : State) (k f g : Nat) : State :=
  match s.freeLpddr (k % 2 ^ 38) with
  | some h => ((s.setLUse h (s.lUse f)).setLUse f .retired).modFolio (fun x => { x with tables := Tab.put1 x.tables k (h, g) })
  | none => s

/-- A channel is retired (R270, R271, R317): transfers that use it are broken off, the folios of `bad` are not readable,
and its other folios and tables move to other channels. -/
def State.retireChannel (s : State) (ch : Nat) (bad : List (Fin 16 × Nat)) : State :=
  if s.folio.chRetired.testBit ch then s
  else
    let s0 := s.modFolio (fun f => { f with chRetired := f.chRetired ||| 2 ^ ch })
    let broken := s.folio.moves.filter (s.usesChannel ch)
    let s1 := broken.foldl (fun t m => t.abandonMove m) s0
    let s2 := bad.foldl (fun t e =>
      let l := t.leaf e.1 e.2
      if l.cls = .lpddr ∧ l.state = .resident ∧ chanOf l.home = ch then
        (if l.hvalid && !l.dirty && t.memLive e.1 (t.part e.1).keyCur then t.restoreHome e.1 e.2 else t.retireFolio e.1 e.2) else t) s1
    let s3 := (s2.folio.tables.filter (fun e => decide (chanOf e.2.1 = ch))).foldl (fun t e => t.moveTable e.1 e.2.1 e.2.2) s2
    let s4 := broken.foldl (fun t m => t.reissue (!(s.leaf m.part m.vfn).dirty) m) s3
    let d := s4.leaveChannels.free
    (d.2.addErr (d.1.toNat % 24) 0x05 0 none 0xFF (toLE 1 ch ++ zeros 7)).flagLpddr

/-- An uncorrectable error of channel `ch` counted: the sixteenth within one second retires the channel (R270). -/
def State.countChanErr (s : State) (ch : Nat) (bad : Fin 16 × Nat) : State :=
  let es := Tab.look (fun _ => []) s.folio.chErrs ch
  let s1 := s.modFolio (fun f => { f with chErrs := Tab.store (fun _ => []) f.chErrs ch ((s.cycles :: es).take 15) })
  match es[14]? with
  | some t => if s.cycles ≤ t + 312500000 then s1.retireChannel ch [bad] else s1
  | none => s1

/-- A transfer reads LPDDR5X: a fetch or a copy of a folio of CLASS LPDDR. -/
def State.readsLpddr (s : State) (m : Move) : Bool :=
  decide ((s.leaf m.part m.vfn).cls = .lpddr) && (decide (m.kind = .fetch) || decide (m.kind = .walk))

/-- An error that the code does not detect leaves open what a line of a home holds (R268; log entry 134). -/
def State.spoilLine (s : State) (l : Leaf) (line : Nat) : State :=
  { s with fresh := s.fresh + 1 }.modFolio (fun f => { f with
    lpddr := Mem.write f.lpddr (65536 * l.home + 64 * line) ((List.range 64).map (Config.lostByte s.fresh)) })

/-- A transfer ends: it commits, or its source could not be read (R279, R317). With its key retired it
ends without writing (R317, 15 R623). -/
def State.settleMove (s : State) (p v : Nat) (res : ReadResult) : State :=
  match s.moveOf p v with
  | none => s
  | some m =>
    let l := s.leaf p v
    let ddr := s.readsLpddr m
    if s.moveCheck m ≠ stDone then ((s.abandonMove m).failTags p m.tags (s.moveCheck m)).retireGens p
    else match res with
    | .bad =>
      let t := s.loseMove m
      if ddr then t.countChanErr (chanOf l.home) (BitVec.toFin (BitVec.ofNat 4 p), v) else t
    | .ok => if s.moveArrived m then s.commitMove m else s
    | .corrected n =>
      let t := if ddr then s.modFolio (fun f => { f with lpddrCorr := min 0xFFFF (f.lpddrCorr + n) }) else s
      if s.moveArrived m then t.commitMove m else t
    | .undetected line =>
      let t := if ddr then s.spoilLine l line else s
      if s.moveArrived m then t.commitMove m else t

/-- Evictions ahead of demand in one column, at most `n` of them, with fuel (R291): a victim whose write-back cannot start
is passed over. -/
def State.evictAhead (s : State) (c : Nat) : Nat → Nat → List Nat → State
  | 0, _, _ => s
  | k + 1, n, skip =>
    if n = 0 then s
    else match s.victim none c skip with
    | none => s
    | some (q, v) =>
      let l := s.leaf q v
      if !l.dirty && decide (l.cls ≠ .hoard) then (s.dropCopy q v).evictAhead c k (n - 1) skip
      else match s.startWriteback q v [] with
        | some t => t.evictAhead c k (n - 1) skip
        | none => s.evictAhead c k n (leafKey q v :: skip)

/-- LOW_WATER_EVICTION (R291): as many as the column lacks, write-backs in flight counted. -/
def execLowWaterEviction (col : Fin 8) (s : State) : Host.Outcome State Fault Refusal :=
  let going := (s.folio.moves.filter (fun m => decide (m.kind = .writeback) && decide (colOf (s.leaf m.part m.vfn).hframe = col))).length
  let n := bits (s.regN aFolioCfg) 7 0 - s.freeCount col - going
  .next (s.evictAhead col (n + s.folio.leaves.length) n [])

/-- AGE_TICK (R287): AGE_TICK_US µs after the last one. -/
def execAgeTick (s : State) : Host.Outcome State Fault Refusal :=
  let t := s.advanceToCycle (s.folio.lastAge + usCycles (bits (s.regN aFolioCfg) 15 8))
  .next (t.modFolio (fun f => { f with lastAge := t.cycles, leaves := f.leaves.map (fun e =>
    if e.2.hvalid then (e.1, { e.2 with age := if e.2.touched then e.2.age else min 15 (e.2.age + 1), touched := false })
    else e) }))

/-- The next folio that the walker copies: the lowest of its pass whose home copy is under another generation and
that is not MOVING; after the end of the pass, the lowest of those that it skipped (R299, R300). -/
def State.walkNext (s : State) (p : Nat) : Option (Nat × Leaf) :=
  let due (e : Nat × Leaf) : Bool := (decide (e.2.cls = .lpddr) || decide (e.2.cls = .host)) &&
    decide (e.2.state = .resident) && decide (e.2.keygen ≠ (s.part p).keyCur)
  ((s.leavesOf p).find? (fun e => due e && decide (Tab.look (fun _ => 0) s.folio.walkPos p ≤ e.1))).orElse
    (fun _ => (s.leavesOf p).find? due)

/-- The walker's pass has reached folio `v`. -/
def State.walkTo (s : State) (p v : Nat) : State :=
  s.modFolio (fun f => { f with walkPos := Tab.store (fun _ => 0) f.walkPos p v })

/-- The table frames of partition `p` rewritten under the current generation. -/
def State.walkTables (s : State) (p : Nat) : State :=
  (s.modFolio (fun f => { f with tables := f.tables.map (fun e =>
    if e.1 / 2 ^ 40 == p then (e.1, (e.2.1, (s.part p).keyCur + 4)) else e) })).retireGens p

/-- WALKER_MOVE (R299): the next folio's copy starts; after the last one, the table frames follow. -/
def execWalkerMove (p : Fin 16) (s : State) : Host.Outcome State Fault Refusal :=
  let g := (s.part p).keyCur
  .next (match s.walkNext p with
    | none => if s.memLive p g then (s.walkTables p).walkTo p 0 else s
    | some (v, l) =>
      if !s.memLive p g || !s.memLive p l.keygen || !s.moveRoom then s
      else if l.cls = .host then (s.walkTo p (v + 1)).startMove { part := p, vfn := v, kind := .walk, dest := l.home, gen := g }
      else match s.freeLpddr v with
        | none => s
        | some f => ((s.walkTo p (v + 1)).setLUse f (.folio p v)).startMove { part := p, vfn := v, kind := .walk, dest := f, gen := g })

/-- The prefetch of one folio of a stream; what cannot start is left as it was (R308, R311). Its weight class is the
stream's, or for a stream of the charter that of its own class (07 R327). -/
def State.prefetchOne (c : Nat) (x : Stream) (s : State) (i : Nat) : State :=
  let v := x.folio i
  let l := s.leaf x.part v
  if l.state = .resident ∧ !l.hvalid then
    match s.startFetch x.part v c [] true with
    | .ok t => t.modLeaf x.part v (fun l => { l with wclass := if x.charter then s.wclassFor x.part v x.wclass else x.wclass })
    | .wait t => t
    | .fail t _ => t
  else s

/-- STREAM_PREFETCH (R308). -/
def execStreamPrefetch (c : Fin 8) (st : Fin 16) (s : State) : Host.Outcome State Fault Refusal :=
  let x := s.stream c st
  .next (x.window.foldl (State.prefetchOne c x) s)

end Sys2Proof.Machine
end

