-- ==== Sys2Proof/Machine/TallyOps.lean ====
section
/-!
DEFINITION. Machine/TallyOps.lean: shared operations of Tally: windows, ledgers, accumulators, hampers, the
retention ring and submissions (09_hampers R381 to R407, 10_tally R411 to R440, 11_tally R449 to R451).
-/
namespace Sys2Proof.Machine

/-! ### Parts of the state -/

/-- Window `w`. -/
def State.win (s : State) (w : Nat) : Window := Tab.look (fun _ => {}) s.tally.wins w

/-- Tally changed. -/
def State.modTally (s : State) (g : TallySt → TallySt) : State := { s with tally := g s.tally }

/-- Window `w` replaced. -/
def State.setWin (s : State) (w : Nat) (x : Window) : State :=
  s.modTally (fun t => { t with wins := Tab.store (fun _ => {}) t.wins w x })

/-- Window `w` changed. -/
def State.modWin (s : State) (w : Nat) (g : Window → Window) : State := s.setWin w (g (s.win w))

/-- Hamper `h`. -/
def State.hmp (s : State) (h : Nat) : Hamper := Tab.look (fun _ => {}) s.tally.hmps h

/-- Hamper `h` replaced. -/
def State.setHmp (s : State) (h : Nat) (x : Hamper) : State :=
  s.modTally (fun t => { t with hmps := Tab.store (fun _ => {}) t.hmps h x })

/-- The windows of partition `p` that are not FREE. -/
def State.winsOf (s : State) (p : Nat) : List Nat :=
  (List.range 64).filter (fun w => decide ((s.win w).st ≠ .free) && (s.win w).part == p)

/-- OPEN, GRACE or RECOVERING. -/
def WinState.active (x : WinState) : Bool := decide (x = .opn) || decide (x = .grace) || decide (x = .recovering)

/-- A terminal state (R422). -/
def WinState.terminal (x : WinState) : Bool :=
  decide (x = .released) || decide (x = .discarded) || decide (x = .contaminated) || decide (x = .belowThreshold)

/-- The submission of a contributor in window `w` that is open and has not aborted. -/
def State.subOf (s : State) (w c : Nat) : Option Sub :=
  s.tally.subs.find? (fun x => x.win == w && x.contributor == c && x.aborted.isNone)

/-- The submission of a contributor in window `w` that is being reversed. -/
def State.revOf (s : State) (w c : Nat) : Option Sub :=
  s.tally.subs.find? (fun x => x.win == w && x.contributor == c && x.aborted.isSome)

/-- Submission `y` is that of contributor `c` in window `w` with the id given. -/
def Sub.named (y : Sub) (w c sid : Nat) : Bool := y.win == w && y.contributor == c && y.subId == sid

/-- That submission changed. -/
def State.modSub (s : State) (w c sid : Nat) (g : Sub → Sub) : State :=
  s.modTally (fun t => { t with subs := t.subs.map (fun x => if x.named w c sid then g x else x) })

/-- That submission leaves the open set. -/
def State.dropSub (s : State) (w c sid : Nat) : State :=
  s.modTally (fun t => { t with subs := t.subs.filter (fun x => !x.named w c sid) })

/-! ### Events (R410, R448, R485) -/

/-- Bits set in an event register of window `w`; each that goes from 0 to 1 raises its VECTOR. -/
def State.vecEvents (s : State) (w off mask : Nat) : State :=
  let old := s.regN off
  let x := s.win w
  (setBits 32 mask).foldl (fun t b => if old.testBit b then t else t.sendMsix x.func x.vector)
    (s.setBitsHw off mask)

/-- Bits of TALLY_WIN_EVENTS: 0 STATE, 1 SUMMED, 2 SLICE_MOVED, 3 CONTAMINATED. -/
def State.winEvents (s : State) (w mask : Nat) : State := s.vecEvents w (aTallyWinEvents w) mask

/-- A change of state, which sets EVENTS.STATE. -/
def State.winGo (s : State) (w : Nat) (x : WinState) : State := (s.modWin w (fun y => { y with st := x })).winEvents w 1

/-- Bits set in TALLY_HMP_EVENTS (R410). -/
def State.hmpEvents (s : State) (h mask : Nat) : State :=
  match (s.hmp h).win with
  | some w => s.vecEvents w (aTallyHmpEvents h) mask
  | none => s.setBitsHw (aTallyHmpEvents h) mask

/-! ### Element types (R414) -/

/-- Segments of full length hold this many elements. -/
def perSegment (elem : Nat) : Nat := 8192 / elemBytes elem

/-- A NaN sum of an FP64 window: a quiet NaN, whose sign and payload IEEE 754 leaves open (R416; log entry 119). -/
def accNan (acc x : Nat) : Nat :=
  let r := (Config.fp64Nan acc x).toNat
  0x7FF8000000000000 + r / 2 ^ 51 * 2 ^ 63 + r % 2 ^ 51

/-- An accumulator plus or minus an element (R414, R416, R437). -/
def accAdd (geo : Geometry) (neg : Bool) (acc x : Nat) : Nat :=
  match geo.elem with
  | 4 =>
    let v := flDecode fp32 x
    match flAdd (flDecode fp64 acc) (if neg then flNeg v else v) with
    | .nan => accNan acc x
    | y => flRound fp64 .rne y
  | e =>
    let m := if e = 3 then geo.modulus else 2 ^ (8 * accBytes e)
    if neg then subMod acc x m else (acc + x) % m

/-! ### The shard layout and the accumulators (R338, R420) -/

/-- The slices of a layout, ascending. -/
def Window.sliceList (x : Window) : List Nat := setBits 8 x.slices

/-- The place of element `e`: the number of its slice among those of the layout, and its rank there. -/
def Window.place (x : Window) (e : Nat) : Nat × Nat :=
  let n := max x.sliceList.length 1
  let b := e / 2 ^ x.blockLog2
  (b % n, b / n * 2 ^ x.blockLog2 + e % 2 ^ x.blockLog2)

/-- Elements that slice number `k` of the layout sums. -/
def Window.sliceCount (x : Window) (k : Nat) : Nat :=
  let n := max x.sliceList.length 1
  let full := x.geo.length / 2 ^ x.blockLog2
  let rest := x.geo.length % 2 ^ x.blockLog2
  (full / n + b2n (decide (k < full % n))) * 2 ^ x.blockLog2 + (if full % n = k then rest else 0)

/-- The Hoard address of the accumulator of element `e`: a slice's elements lie packed, in ascending order,
in its frames (log entry 34). -/
def Window.accAddr (x : Window) (e : Nat) : Nat :=
  let pl := x.place e
  let o := pl.2 * accBytes x.geo.elem
  65536 * ((x.accFrames.getD pl.1 []).getD (o / 65536) 0) + o % 65536

/-- The accumulator of element `e` of a window. -/
def State.acc (s : State) (x : Window) (e : Nat) : Nat := leNat (Mem.read s.folio.hoard (x.accAddr e) (accBytes x.geo.elem))

/-- The accumulator of element `e` replaced. -/
def State.setAcc (s : State) (x : Window) (e v : Nat) : State :=
  s.modFolio (fun f => { f with hoard := Mem.write f.hoard (x.accAddr e) (toLE (accBytes x.geo.elem) v) })

/-- The slice that serves block `b` of the layout: where it has failed, the next working one among the set bits, with
wrap-around (R338, R439). -/
def State.blockSlice (s : State) (x : Window) (b : Nat) : Nat :=
  let ks := x.sliceList
  let n := max ks.length 1
  let order := (List.range n).map (fun i => ks.getD ((b + i) % n) 0)
  (order.find? (fun k => !s.sliceFailed.testBit k)).getD (order.headD 0)

/-- The slices that sum the elements of segment `seg` of `len` bytes. -/
def State.segSlices (s : State) (x : Window) (seg len : Nat) : List Nat :=
  let first := seg * perSegment x.geo.elem
  let last := first + (max len 1 - 1) / elemBytes x.geo.elem
  (List.range (last / 2 ^ x.blockLog2 + 1 - first / 2 ^ x.blockLog2)).map (fun i => s.blockSlice x (first / 2 ^ x.blockLog2 + i))

/-- Elements added to, or taken from, the accumulators from element `e` on. -/
def State.addElems (x : Window) (neg : Bool) : List Nat → Nat → State → State
  | [], _, s => s
  | v :: l, e, s => State.addElems x neg l (e + 1) (s.setAcc x e (accAdd x.geo neg (s.acc x e) v))

/-- The elements of a payload. -/
def payloadElems (elem : Nat) (bs : Bytes) : List Nat := (chunks (elemBytes elem) bs).map leNat

/-- `n` element-adds from element `first` on, in the profiling counters of the slices that make them, in units of 256 (20
R743; log entry 181). -/
def State.profAdds (s : State) (x : Window) (first n : Nat) : State :=
  if (s.reg aDbgProfCtrl).getLsbD 31 then
    let size := 2 ^ x.blockLog2
    (List.range ((first + n) / size + 1)).foldl (fun t b =>
      let k := min (first + n) (size * (b + 1)) - max first (size * b)
      if k = 0 then t else t.prof (s.blockSlice x b) x.part 0x32 (ceilDiv k 256)) s
  else s

/-- One segment added to, or taken from, the accumulators. -/
def State.addSegment (s : State) (x : Window) (neg : Bool) (seg : Nat) (bs : Bytes) : State :=
  let es := payloadElems x.geo.elem bs
  let first := seg * perSegment x.geo.elem
  (State.addElems x neg es first s).profAdds x first es.length

/-! ### TALLY_ACC and SCRATCH frames (R417, R418, R451) -/

/-- Frames of a region of HOARD_SPLIT. -/
def State.regionFrames (s : State) (r : Region) : Nat :=
  match r with
  | .scratch => s.split.scratch
  | .tallyAcc => s.split.tallyAcc
  | .retention => s.split.retention
  | .cache => 0

/-- Frames of TALLY_ACC neither in use nor reserved. -/
def State.freeTally (s : State) : Nat :=
  s.regionFrames .tallyAcc -
    ((s.folio.hUse.filter (fun e => decide (s.regionOf e.1 = .tallyAcc) && decide (e.2 ≠ .free))).length) -
    ((s.tally.wins.map (fun e => e.2.reserved)).foldl (· + ·) 0)

/-- The lowest free frame of a region in column `c`, else in the columns after it (log entry 34). -/
def State.takeRegion (s : State) (r : Region) (c : Nat) : Option Nat :=
  (List.range 8).findSome? (fun k => firstFrom (s.frameFree r) 16384 (16384 * ((c + k) % 8)))

/-- `n` frames of a region taken for window `w`, from column `c` on. -/
def State.takeFrames (w : Nat) (r : Region) (c : Nat) : Nat → State → List Nat → State × List Nat
  | 0, s, l => (s, l)
  | n + 1, s, l =>
    match s.takeRegion r c with
    | some f => State.takeFrames w r c n (s.setHUse f (.tally w)) (l ++ [f])
    | none => (s, l)

/-- Frames zeroed. -/
def State.zeroHoard (s : State) (fs : List Nat) : State :=
  s.modFolio (fun f => { f with
    hoard := fs.foldl (fun m g => Mem.zero m (65536 * g) 65536) f.hoard
    poison := Tab.without (fun w => fs.contains (w / 8192)) f.poison })

/-- Frames queued for zeroing (R678). -/
def State.scrubHoard (s : State) (fs : List Nat) : State :=
  fs.foldl (fun t f => if t.hUse f = .retired then t else
    (t.setHUse f .scrub).modFolio (fun x => { x with scrubs := x.scrubs ++ [{ hoard := true, frame := f, folio := none }] })) s

/-! ### Contributor ledger (R435, R436) -/

/-- An entry of a contributor ledger (R435). -/
structure LedgerEntry where
  state : Nat := 0
  reason : Nat := 0
  aborts : Nat := 0
  segs : Nat := 0
  unrev : Bool := false
  subId : Nat := 0
deriving DecidableEq, Repr, Inhabited

/-- The address of contributor `c`'s entry. -/
def Window.ledgerAddr (x : Window) (c : Nat) : Nat := 65536 * (x.ledgerFrames.getD (8 * c / 65536) 0) + 8 * c % 65536

/-- Contributor `c`'s entry. -/
def State.ledger (s : State) (x : Window) (c : Nat) : LedgerEntry :=
  let v := leNat (Mem.read s.folio.hoard (x.ledgerAddr c) 8)
  { state := bits v 63 61, reason := bits v 60 58, aborts := bits v 57 53, segs := bits v 52 33, unrev := bit v 32,
    subId := v % 2 ^ 32 }

/-- Contributor `c`'s entry replaced. -/
def State.setLedger (s : State) (x : Window) (c : Nat) (e : LedgerEntry) : State :=
  let v := e.state * 2 ^ 61 + e.reason * 2 ^ 58 + e.aborts * 2 ^ 53 + e.segs % 2 ^ 20 * 2 ^ 33 + b2n e.unrev * 2 ^ 32 + e.subId % 2 ^ 32
  s.modFolio (fun f => { f with hoard := Mem.write f.hoard (x.ledgerAddr c) (toLE 8 v) })

/-- The entry changed. -/
def State.modLedger (s : State) (x : Window) (c : Nat) (g : LedgerEntry → LedgerEntry) : State :=
  s.setLedger x c (g (s.ledger x c))

/-! ### Hampers (R382 to R395) -/

/-- A bank of a hamper. -/
def Hamper.bank (x : Hamper) (b : Bool) : Bank := if b then x.bank1 else x.bank0

/-- A bank replaced. -/
def Hamper.setBank (x : Hamper) (b : Bool) (k : Bank) : Hamper := if b then { x with bank1 := k } else { x with bank0 := k }

/-- The FILLING bank. -/
def Hamper.filling (x : Hamper) : Option Bool :=
  if x.bank0.st = .filling then some false else if x.bank1.st = .filling then some true else none

/-- FULL (R387). -/
def Hamper.full (x : Hamper) : Bool := x.win.isSome && x.filling.isNone

/-- Unpopped slots of a bank. -/
def Bank.unpopped (k : Bank) : Nat := (k.slots.filter (fun y => !y.popped)).length

/-- DEPTH (R386). -/
def Hamper.depth (x : Hamper) : Nat := x.bank0.unpopped + x.bank1.unpopped

/-- The slots of a bank are visible (R385, R389). -/
def Bank.visible (k : Bank) : Bool := decide (k.st = .consuming) || (decide (k.st = .filling) && k.ctOpen)

/-- Visible unpopped slots (R386). -/
def Hamper.visibleCount (x : Hamper) : Nat :=
  (if x.bank0.visible then x.bank0.unpopped else 0) + (if x.bank1.visible then x.bank1.unpopped else 0)

/-- FREE_SLOTS (R395). -/
def Hamper.freeSlots (x : Hamper) : Nat :=
  match x.filling with
  | some b => if x.win.isNone then 0 else
      (64 - (x.bank b).slots.length) + (if (x.bank (!b)).st = .free then 64 else 0)
  | none => 0

/-- The bank that holds the oldest unpopped slot: the one that did not become FILLING last, unless all of
its slots are popped (R388). -/
def Hamper.oldest (x : Hamper) : Option Bool :=
  if 0 < (x.bank (!x.last)).unpopped then some (!x.last)
  else if 0 < (x.bank x.last).unpopped then some x.last
  else none

/-- A popped slot that is being summed. -/
def Hamper.summing (x : Hamper) : Option (Bool × HSlot) :=
  let one (b : Bool) := ((x.bank b).slots.find? (fun y => y.popped && !y.summed)).map (fun y => (b, y))
  match one false with
  | some r => some r
  | none => one true

/-- The first slot of a list that passes, changed. -/
def modFirst {α : Type} (p : α → Bool) (g : α → α) : List α → List α
  | [] => []
  | y :: l => if p y then g y :: l else y :: modFirst p g l

/-- THRESHOLD of hamper `h` for its window: 64 where the window is not modular (R390). -/
def State.threshold (s : State) (h : Nat) : Nat :=
  match (s.hmp h).win with
  | some w => if (s.win w).geo.elem ≤ 3 then s.regN (aTallyHmpCfg h) % 128 else 64
  | none => 64

/-- A bank becomes FILLING. -/
def State.startFill (s : State) (h : Nat) (b : Bool) : State :=
  let x := s.hmp h
  s.setHmp h { (x.setBank b { st := .filling, thr := s.threshold h }) with last := b }

/-- Hand-over of bank `b` (R385): every slot becomes visible, and the other bank becomes FILLING where it
is FREE. -/
def State.handOver (s : State) (h : Nat) (b : Bool) : State :=
  let x := s.hmp h
  let s1 := s.setHmp h (x.setBank b { (x.bank b) with st := .consuming, ctOpen := false })
  if (x.bank (!b)).st = .free then s1.startFill h (!b) else s1

/-- Release of bank `b` where every slot in it has been popped, summed and retained (R385). -/
def State.releaseOne (s : State) (h : Nat) (b : Bool) : State :=
  let x := s.hmp h
  let k := x.bank b
  let o := x.bank (!b)
  if k.st = .consuming ∧ k.slots.all (fun y => y.popped && y.summed && y.retained) then
    let s1 := s.setHmp h (x.setBank b {})
    if o.st = .consuming then s1.startFill h b
    else if o.st = .filling ∧ ((o.slots.getLast?).map (·.fin)).getD false then s1.handOver h (!b)
    else s1
  else s

/-- Releases that are due in hamper `h`: the older bank first, and again where one follows. -/
def State.release (s : State) (h : Nat) : State :=
  let go (t : State) (b : Bool) := t.releaseOne h b
  let b := !(s.hmp h).last
  go (go (go s b) (!b)) b

/-- The level event (R391): DEPTH rose from `old` to LEVEL or more. -/
def State.levelEvent (s : State) (h old : Nat) : State :=
  let lv := s.regN (aTallyHmpLevel h) % 256
  if lv ≠ 0 ∧ old < lv ∧ lv ≤ (s.hmp h).depth then s.hmpEvents h 1 else s

/-- A push that finds FULL (R392). -/
def State.overrun (s : State) (h p : Nat) : State :=
  let s1 := s.countUp (aTallyHmpOverruns h) 1
  let was := bit (s.regN (aTallyHmpEvents h)) 1
  let s2 := s1.hmpEvents h 2
  let w := ((s.hmp h).win).getD 0
  if was then s2 else s2.addErr stOverrun 0x07 0 (some p) 0xFF (toLE 1 w ++ toLE 1 h)

/-- A push of one slot (R383, R385, R389) into a hamper that is not FULL. -/
def State.push (s : State) (h : Nat) (y : HSlot) : State :=
  let x := s.hmp h
  match x.filling with
  | none => s
  | some b =>
    let k := x.bank b
    let k1 := { k with slots := k.slots ++ [y] }
    let same := (k1.slots.filter (fun z => z.contributor == y.contributor && z.subId == y.subId)).length
    let k2 := { k1 with ctOpen := k1.ctOpen || decide (k1.thr ≤ same) }
    let s1 := s.setHmp h (x.setBank b k2)
    let s2 := if 64 ≤ k2.slots.length ∨ (y.fin ∧ (x.bank (!b)).st = .free) then (s1.handOver h b).release h else s1
    let s3 : State := { s2 with power := if s2.power = .idle then .active else s2.power }
    s3.levelEvent h x.depth

/-- Changes to every slot of window `w`'s hampers. -/
def State.mapSlots (s : State) (w : Nat) (g : HSlot → HSlot) : State :=
  (s.win w).hampers.foldl (fun t h =>
    let x := t.hmp h
    let f (k : Bank) : Bank := { k with slots := k.slots.map g }
    t.setHmp h { x with bank0 := f x.bank0, bank1 := f x.bank1 }) s

/-- Releases due in every hamper of window `w`. -/
def State.releaseAll (s : State) (w : Nat) : State := (s.win w).hampers.foldl (fun t h => t.release h) s

/-- Every slot of the hampers bound to window `w`. -/
def State.slotsOf (s : State) (w : Nat) : List HSlot :=
  (s.win w).hampers.flatMap (fun h => (s.hmp h).bank0.slots ++ (s.hmp h).bank1.slots)

/-- A hamper bound to window `w` (R382). -/
def State.bindHamper (s : State) (w h thr : Nat) : State :=
  let s1 := ((s.setRegN (aTallyHmpCfg h) thr).setRegN (aTallyHmpEvents h) 0).setRegN (aTallyHmpOverruns h) 0
  s1.setHmp h { win := some w, bank0 := { st := .filling, thr := thr } }

/-- The hampers of window `w` unbound, with whatever they hold dropped. -/
def State.unbind (s : State) (w : Nat) : State :=
  ((s.win w).hampers.foldl (fun t h => t.setHmp h {}) s).modWin w (fun x => { x with hampers := [] })

/-- A free hamper of cluster `c`, or of the clusters after it (R417). -/
def State.freeHamper (s : State) (c : Nat) : Option Nat :=
  (List.range 8).findSome? (fun k => (List.range 8).map (8 * ((c + k) % 8) + ·) |>.find? (fun h => (s.hmp h).win.isNone))

/-! ### The retention ring (R397 to R405) -/

/-- The size of the ring in bytes. -/
def State.ringBytes (s : State) : Nat := s.split.retention * 65536

/-- The frame that stands `rank` frames into column `c`, frames retired at the load left out. -/
def State.nthFrame (s : State) (c rank : Nat) : Nat :=
  (s.folio.splitRetired.filter (fun g => colOf g == c)).foldl (fun f g => if g ≤ f then f + 1 else f) (16384 * c + rank)

/-- The column and rank of ring position `k`: RETENTION frames in ascending frame number. -/
def ringPlace (n : Nat) : Nat → Nat → Nat → Nat × Nat
  | 0, c, k => (c, k)
  | fuel + 1, c, k => if k < colShare n c then (c, k) else ringPlace n fuel (c + 1) (k - colShare n c)

/-- The frame of ring position `k` (R397). -/
def State.ringFrame (s : State) (k : Nat) : Nat :=
  Tab.look (fun j =>
    let r := ringPlace s.split.retention 8 0 j
    s.nthFrame r.1 (colShare s.split.scratch r.1 + colShare s.split.tallyAcc r.1 + r.2)) s.tally.ringSwap k

/-- The Hoard address of ring offset `o`. -/
def State.ringAddr (s : State) (o : Nat) : Nat := 65536 * s.ringFrame (o / 65536) + o % 65536

/-- A payload of partition `p` written at ring offset `o`, in lines of 64 bytes that may wrap. -/
def State.ringWrite (s : State) (p o : Nat) (bs : Bytes) : State :=
  (List.zip (List.range (ceilDiv bs.length 64)) (chunks 64 bs)).foldl (fun t c =>
    let a := s.ringAddr ((o + 64 * c.1) % s.ringBytes)
    (t.modTally (fun y => { y with ringOwner := Tab.store (fun _ => 0) y.ringOwner (a / 64) (p + 1) })).modFolio (fun f => { f with
      hoard := Mem.write f.hoard a (fit 64 c.2), poison := Tab.without (fun w => w / 8 == a / 64) f.poison })) s

/-- The ring's lines that hold bytes of partition `p` are zeroed (01 R39). -/
def State.ringForget (s : State) (p : Nat) : State :=
  let mine := (s.tally.ringOwner.filter (fun e => e.2 == p + 1)).map (·.1)
  (s.modTally (fun y => { y with ringOwner := y.ringOwner.filter (fun e => e.2 != p + 1) })).modFolio (fun f => { f with
    hoard := mine.foldl (fun m a => Mem.zero m (64 * a) 64) f.hoard, poison := Tab.without (fun w => mine.contains (w / 8)) f.poison })

/-- `n` bytes of the ring from offset `o`. -/
def State.ringRead (s : State) (o n : Nat) : Bytes :=
  ((List.range (ceilDiv n 64)).flatMap (fun i => Mem.read s.folio.hoard (s.ringAddr ((o + 64 * i) % s.ringBytes)) 64)).take n

/-- The oldest open submission that is not UNREVERSIBLE, by its first append (R401; log entry 35). -/
def State.markSub (s : State) : Option Sub :=
  argMin (fun x => ((x.first).map (·.1)).getD 0) (s.tally.subs.filter (fun x => x.first.isSome && !x.unrev))

/-- MARK (R401). -/
def State.mark (s : State) : Nat := (s.markSub.bind (·.first)).elim s.tally.wptr (·.2)

/-- The free space (R401). -/
def State.ringFree (s : State) : Nat :=
  match s.markSub.bind (·.first) with
  | some f => (f.2 + s.ringBytes - s.tally.wptr) % s.ringBytes
  | none => s.ringBytes

/-- Submissions open device-wide (R400; log entry 35). -/
def State.openSubs (s : State) : Nat := (s.tally.subs.filter (fun x => x.first.isSome)).length

/-- RETAIN_GUARD of partition `p`. -/
def State.guard (s : State) (p : Nat) : Bool := bit (s.regN (aTallyRetPartCtrl p)) 31

/-- The length of an append (R398). -/
def appendLen (n : Nat) : Nat := ceilDiv n 64 * 64

/-- A retained segment of a submission lies where an append of `len` bytes at WPTR goes. -/
def State.overwrites (s : State) (len : Nat) (x : Sub) : Bool :=
  x.segs.any (fun g => match g.ring with
    | some o => decide ((o + s.ringBytes - s.tally.wptr) % s.ringBytes < len) ||
        decide ((s.tally.wptr + s.ringBytes - o) % s.ringBytes < appendLen g.len)
    | none => false)

/-- An append of `len` bytes at WPTR reaches the first segment of a submission of another partition than `p`
(R403, R407). -/
def State.reachesOther (s : State) (p len : Nat) : Bool :=
  s.tally.subs.any (fun x => !x.unrev && decide ((s.win x.win).part ≠ p) && (match x.first with
    | some f => decide ((f.2 + s.ringBytes - s.tally.wptr) % s.ringBytes ≤ len)
    | none => false))

/-- Why an append of partition `p` waits: 0 not at all, 1 under R403, 2 under R400. With RETAIN_GUARD 0 it may pass
submissions of its own partition, and never reach another's (R405, R407). -/
def State.appendHold (s : State) (p len : Nat) (first : Bool) : Nat :=
  if first ∧ 4096 ≤ s.openSubs then 2
  else if len < s.ringFree then 0
  else if s.guard p then 1
  else match s.markSub with
    | some m => if (s.win m.win).part = p ∧ !s.reachesOther p len then 0 else 1
    | none => 0

/-- A submission becomes UNREVERSIBLE (R405). -/
def State.makeUnrev (s : State) (x : Sub) : State :=
  let w := s.win x.win
  ((s.modSub x.win x.contributor x.subId (fun y => { y with unrev := true })).modLedger w x.contributor (fun e => { e with unrev := true })).countUp
    (aTallyRetPartUnrev w.part) 1

/-- The oldest waiting append of hamper `h`, with its window and its submission while that is open; the
appends of a submission that has committed still wait (R398). -/
def State.nextAppend (s : State) (h : Nat) : Option (HSlot × Nat × Option Sub) :=
  let x := s.hmp h
  let ws := ((x.bank (!x.last)).slots ++ (x.bank x.last).slots).filter (·.waiting)
  match ws.head?, x.win with
  | some y, some w => some (y, w, (s.subOf w y.contributor).filter (fun u => u.subId == y.subId))
  | _, _ => none

/-- A slot is one segment of a submission. -/
def HSlot.same (y z : HSlot) : Bool := z.contributor == y.contributor && z.subId == y.subId && z.seg == y.seg

/-- Slot `y` of hamper `h` is retained (R399). -/
def State.retainSlot (s : State) (h : Nat) (y : HSlot) : State :=
  let x := s.hmp h
  let g (k : Bank) : Bank := { k with slots := k.slots.map (fun z => if y.same z then { z with waiting := false, retained := true } else z) }
  (s.setHmp h { x with bank0 := g x.bank0, bank1 := g x.bank1 }).release h

/-- One append of window `w` is made (R398, R399, R405). What stands between the payload's end and the multiple of 64
is not stated (log entry 146). -/
def State.doAppend (s : State) (h : Nat) (y : HSlot) (w : Nat) : State :=
  let len := appendLen y.payload.length
  let p := (s.win w).part
  let gone := if s.ringFree ≤ len then s.tally.subs.filter (fun x => !x.unrev && (s.win x.win).part == p && s.overwrites len x) else []
  let r := State.freeBytes 8 (gone.foldl State.makeUnrev s)
  let s1 := r.2
  let o := s1.tally.wptr
  let s2 := (s1.ringWrite p o (y.payload ++ r.1.take (len - y.payload.length))).modTally (fun t => { t with
    wptr := (o + len) % s.ringBytes, appends := t.appends + 1 })
  let s3 := s2.modSub w y.contributor y.subId (fun x =>
    { x with
      segs := x.segs.map (fun g => if g.seg == y.seg then { g with ring := some o } else g)
      first := match x.first with | some f => some f | none => some (s1.tally.appends, o) })
  s3.retainSlot h y

/-- Why the next append of hamper `h` waits (R399, R400, R403): 0 not at all. -/
def State.nextHold (s : State) (h : Nat) : Nat :=
  match s.nextAppend h with
  | none => 0
  | some (y, w, u) =>
    if (u.map (·.unrev)).getD false then 0
    else s.appendHold (s.win w).part (appendLen y.payload.length) (decide (y.seg = 0))

/-- Hamper `h` makes its oldest waiting append where it fits; a slot of an UNREVERSIBLE submission is not
appended (R399). -/
def State.tryAppend (s : State) (h : Nat) : State :=
  match s.nextAppend h with
  | none => s
  | some (y, w, u) =>
    if (u.map (·.unrev)).getD false then s.retainSlot h y
    else if s.nextHold h = 0 then s.doAppend h y w
    else s

/-! ### Idle timers (R424, R404) -/

/-- The idle timer of a submission stands still: its outcome is settled, its partition is paused by a
device charter reload, or an append is held and it does not hold MARK. -/
def State.idleFrozen (s : State) (x : Sub) : Bool :=
  x.aborted.isSome || x.sealBytes.isSome || (s.part (s.win x.win).part).paused ||
  ((s.tally.hold || s.tally.holdOpen) && !(match s.markSub with
    | some m => m.named x.win x.contributor x.subId
    | none => false))

/-- Every idle timer counted up to now, and started or stopped as the state has it. -/
def State.idleSync (s : State) : State :=
  s.modTally (fun t => { t with subs := t.subs.map (fun x =>
    { x with
      idleRun := if x.frozen then x.idleRun else x.idleRun + (s.cycles - x.idleAt)
      idleAt := s.cycles
      frozen := s.idleFrozen x }) })

/-- HOLD and HOLD_OPEN as the waiting appends have them (R400, R403); TALLY_RET_HOLDS counts. -/
def State.refreshHold (s : State) : State :=
  let why := (List.range 64).map s.nextHold
  let hold := why.contains 1
  let s1 := if hold && !s.tally.hold then s.countUp aTallyRetHolds 1 else s
  (s1.modTally (fun t => { t with hold := hold, holdOpen := why.contains 2 })).idleSync

/-- Operation `o` is the TALLY_INGEST that brought this submission's END segment. -/
def Sub.hostOp (u : Sub) (o : Op) : Bool :=
  decide (bits (le o.desc 0x20 3) 20 0 = u.contributor) && decide (le o.desc 0x24 4 = u.subId) && bit (le o.desc 0x28 4) 31

/-- A host operation that waits for the outcome of its submission ends (R442). -/
def State.endHost (s : State) (u : Sub) (status : Nat) : State :=
  match u.host with
  | some (p, tag) =>
    if ((s.runningOp p tag 0x0405).map u.hostOp).getD false then
      s.endOpCycles p tag status (if (s.win u.win).sliceMoved then flDegraded else 0)
    else s
  | none => s

/-! ### Masks and the recovery ledger (11 R457 to R466) -/

/-- Key and nonce of a mask (11 R458); `kind` 1 self, 2 pair. -/
def maskKey (x : Window) (kind lo hi : Nat) (ikm : Bytes) : Bytes × Bytes :=
  let info := ascii "GK7MASK1" ++ toBE 1 kind ++ toBE 1 x.geo.template ++ toBE 4 x.index ++ toBE 4 lo ++ toBE 4 hi
  let okm := hkdf [] ikm info 28
  (okm.take 16, okm.drop 16)

/-- Element `e` of a mask (11 R459). -/
def maskElem (geo : Geometry) (k : Bytes × Bytes) (e : Nat) : Nat :=
  let d := [2, 4, 8, 16].getD geo.elem 4
  let block := aesBlock (aesKeys k.1) (k.2 ++ toBE 4 (e * d / 16))
  let v := leNat (slice block (e * d % 16) d)
  if geo.elem = 3 then v % max geo.modulus 1 else v

/-- `n` elements of a group's masks taken from the accumulators, or added to them, from place `i` on: the masks follow
one another (11 R461, R462). -/
def State.applyMasks (x : Window) (ms : List (Bool × Bytes × Bytes)) : Nat → Nat → State → State
  | 0, _, s => s
  | n + 1, i, s =>
    let m := ms.getD (i / max x.geo.length 1) (false, [], [])
    let e := i % max x.geo.length 1
    State.applyMasks x ms n (i + 1) (s.setAcc x e (accAdd x.geo m.1 (s.acc x e) (maskElem x.geo m.2 e)))

/-- The same in the profiling counters, mask by mask. -/
def State.profMasks (s : State) (x : Window) (masks i n : Nat) : State :=
  let len := x.geo.length
  (List.range masks).foldl (fun t j =>
    let lo := max i (len * j)
    t.profAdds x (lo - len * j) (min (i + n) (len * (j + 1)) - lo)) s

/-- The address of contributor `c`'s byte in the recovery ledger. -/
def Window.recAddr (x : Window) (c : Nat) : Nat := 65536 * (x.recFrames.getD (c / 65536) 0) + c % 65536

/-- Its KIND and APPLIED (11 R464). -/
def State.recEntry (s : State) (x : Window) (c : Nat) : Nat × Bool :=
  let b := (Mem.get s.folio.hoard (x.recAddr c)).toNat
  (b % 4, bit b 2)

/-- The byte replaced. -/
def State.setRecEntry (s : State) (x : Window) (c kind : Nat) (applied : Bool) : State :=
  s.modFolio (fun f => { f with hoard := Mem.set f.hoard (x.recAddr c) (BitVec.ofNat 8 (kind + 4 * b2n applied)) })

/-- A group ends, and its slot is zeroised (11 R457). -/
def State.dropGroup (s : State) (r : RecGroup) : State :=
  (s.zeroise r.slot).modTally (fun t => { t with groups := t.groups.filter (fun q => !(q == r)) })

/-- The elements of a group's masks. -/
def RecGroup.size (r : RecGroup) (x : Window) : Nat := r.masks.length * x.geo.length

/-- The last mask of a group is subtracted, and APPLIED is set (11 R461, R466). -/
def State.finishGroup (s : State) (r : RecGroup) : State :=
  let x := s.win r.win
  let n := r.size x - r.at_
  let s1 := ((State.applyMasks x r.masks n r.at_ s).profMasks x r.masks.length r.at_ n).setRecEntry x r.contributor r.kind true
  let s2 := (s1.countUp (aTallyRecSkipped r.win) r.skipped).countUp (if r.kind = 2 then aTallyRecPair r.win else aTallyRecSelf r.win) 1
  s2.dropGroup r

/-- The groups in progress that pass a test. -/
def State.groupsOf (s : State) (sel : RecGroup → Bool) : List RecGroup := s.tally.groups.filter sel

/-! ### Ends of windows (R422, R440) -/

/-- The operations in flight that name window `w` in their first body byte, of the opcodes given. -/
def State.winOps (s : State) (w : Nat) (ocs : List Nat) : List Op :=
  s.ops.filter (fun o => o.part == (s.win w).part && ocs.contains (dOpcode o.desc) && decide (le o.desc 0x18 1 = w) &&
    (decide (o.stage = .waiting) || decide (o.stage = .running)))

/-- The operations of recovery and release (11 R468). -/
def recOps : List Nat := [0x0410, 0x0411, 0x0412, 0x0413]

/-- Window `w` ends in a state without a sum: its open submissions leave without reversal, its hampers are
unbound, its accumulators and its reservation go back (R422), its recovery groups are abandoned with their slots
zeroised (11 R483), and its recovery operations end with the status given (11 R477). -/
def State.endWindow (s : State) (w : Nat) (x : WinState) (status : Nat) : State :=
  let y := s.win w
  let s0 := (s.groupsOf (fun r => r.win == w)).foldl State.dropGroup s
  let s1 := s0.modTally (fun t => { t with subs := t.subs.filter (fun u => !(u.win == w)) })
  let s2 := (s.tally.subs.filter (fun u => u.win == w)).foldl (fun t u => t.endHost u status) s1
  let s3 := ((s2.unbind w).scrubHoard y.accFrames.flatten).modWin w (fun z => { z with
    accFrames := [], reserved := 0, phase := .none })
  let hit := (s.winOps w recOps).filter (fun o => decide (o.stage = .running) || decide (status = stContaminated))
  let s4 := hit.foldl (fun t o => t.cancelOp o.part o.tag status) s3
  ((s4.winGo w x).refreshHold)

/-- The window goes to CONTAMINATED (R406, R440). -/
def State.contaminate (s : State) (w : Nat) : State := (s.endWindow w .contaminated stContaminated).winEvents w 8

/-- Groups are abandoned: a mask that was partly subtracted can neither be completed nor undone, so its window goes to
CONTAMINATED (11 R483). -/
def State.abandonGroups (s : State) (sel : RecGroup → Bool) : State :=
  let rs := s.groupsOf sel
  ((rs.filter (fun r => decide (0 < r.at_))).map (·.win)).eraseDups.foldl (fun t w =>
    if (t.win w).st.active then t.contaminate w else t) (rs.foldl State.dropGroup s)

/-- What becomes of the groups of operations that are about to be cancelled: one that has begun to subtract finishes,
and one that has not ends with its KIND recorded (11 R466, R483; log entry 147). -/
def State.settleGroups (s : State) (sel : RecGroup → Bool) : State :=
  (s.groupsOf sel).foldl (fun t r =>
    if r.at_ = 0 then t.dropGroup r
    else if t.keyLives r.slot then t.finishGroup r
    else t.abandonGroups (fun q => q == r)) s

/-- The window goes to DISCARDED (R422). -/
def State.discardWindow (s : State) (w : Nat) : State := s.endWindow w .discarded stCancelled

/-- The window becomes FREE (R421, R422). -/
def State.freeWindow (s : State) (w : Nat) : State :=
  let y := s.win w
  let s1 := ((s.unbind w).scrubHoard (y.accFrames.flatten ++ y.ledgerFrames ++ y.recFrames)).setWin w {}
  let base := aTallyWinState w
  let rec_ := aTallyRecStatus w
  { s1 with regs := Tab.without (fun k => (decide (base ≤ k) && decide (k < base + 0x40)) ||
      (decide (rec_ ≤ k) && decide (k < rec_ + 0x40))) s1.regs }

/-! ### Opening and closing (R420, R422, R425) -/

/-- The shard layout in force in partition `p` (R37, R338). -/
def State.layout (s : State) (p : Nat) : Nat × Nat :=
  match s.phaseMap p with
  | some m => (m.slices, m.blockLog2)
  | none => (0xFF, 10)

/-- Window `w` opens: the layout is fixed and each slice's frames are taken in its own column (R420). -/
def State.openWindow (s : State) (w : Nat) : State :=
  let x := s.win w
  let lay := s.layout x.part
  let x1 := { x with slices := lay.1, blockLog2 := lay.2, reserved := 0 }
  let s0 := s.setWin w x1
  let r := (List.zip (List.range x1.sliceList.length) x1.sliceList).foldl (fun (a : State × List (List Nat)) k =>
    let t := State.takeFrames w .tallyAcc k.2 (ceilDiv (x1.sliceCount k.1 * accBytes x.geo.elem) 65536) a.1 []
    (t.1, a.2 ++ [t.2])) (s0, [])
  (r.1.modWin w (fun y => { y with
    accFrames := r.2, sliceMoved := decide (lay.1 &&& s.sliceFailed ≠ 0) })).winGo w .opn

/-- The window goes to GRACE, and the grace timer starts. -/
def State.closeWindow (s : State) (w : Nat) : State :=
  (s.modWin w (fun y => { y with graceFrom := s.cycles, graceUs := s.regN (aTallyWinCtrl w) / 2 ^ 17 })).winGo w .grace

/-- A job charter load of partition `p` is BUSY (02 R72). -/
def State.jobLoadBusy (s : State) (p : Nat) : Bool :=
  match s.load with
  | some l => (match l.charter with
    | .job _ => l.part == p
    | .device _ => false)
  | none => false

/-- A hold of R72 or R425 keeps a DEFINED window of partition `p` from opening by time. -/
def State.openHeld (s : State) (p : Nat) : Bool :=
  s.jobLoadBusy p || s.restarting || !s.startDone || decide (s.power = .doze) || decide (s.power = .waking)

/-- A DEFINED window whose OPEN_AT has passed while it was held opens, or goes to DISCARDED where CLOSE_AT
has passed too (R422, R425). -/
def State.openLate (s : State) (w : Nat) : State :=
  let x := s.win w
  if x.st = .defined ∧ s.ftLocked ∧ x.openAt ≤ s.ftNs ∧ !s.openHeld x.part then
    (if x.closeAt ≤ s.ftNs then s.discardWindow w else s.openWindow w)
  else s

/-- Every window that was held. -/
def State.openLateAll (s : State) : State := (List.range 64).foldl (fun t w => t.openLate w) s

/-! ### The course of RECOVERING (11 R449, R451, R478) -/

/-- The release begins: the copy to DEST is then made by RELEASE_COPY_DONE (R449). -/
def State.startRelease (s : State) (w : Nat) : State :=
  s.modWin w (fun x => { x with phase := .releasing, releaseFailed := false })

/-- The release of window `w` is due (R478). -/
def State.releaseDue (s : State) (w : Nat) : Bool :=
  let x := s.win w
  decide (x.geo.releaseDelay = 0) || (s.ftLocked && decide (x.closeAt + x.geo.releaseDelay ≤ s.ftNs))

/-- The window enters RECOVERED (R449), and the release starts where it is due. -/
def State.enterRecovered (s : State) (w : Nat) : State :=
  let s1 := (s.modWin w (fun x => { x with phase := .recovered })).vecEvents w (aTallyRecEvents w) 1
  let s2 := s1.setPair (aTallyRecDoneLo w) s1.ftNs
  if s2.releaseDue w then s2.startRelease w else s2

/-- RELEASE_THRESHOLD of partition `p` (R450). -/
def State.releaseThreshold (s : State) (p : Nat) : Nat := ((s.job p).map (·.threshold)).getD 0

/-- The decision at SUMMED (R449). -/
def State.judgeSum (s : State) (w : Nat) : State :=
  let x := s.win w
  if s.regN (aTallyWinCommits w) < s.releaseThreshold x.part then
    let waiting := (s.winOps w recOps).filter (fun o => decide (o.stage = .running))
    let s1 := waiting.foldl (fun t o => t.endOpCycles o.part o.tag stBelowThreshold 0) s
    (s1.modWin w (fun y => { y with phase := .none })).winGo w .belowThreshold
  else if x.geo.elem ≤ 3 then
    let r := State.takeFrames w .scratch 0 (ceilDiv x.geo.contributors 65536) s []
    (r.1.zeroHoard r.2).modWin w (fun y => { y with recFrames := r.2, phase := .accepting })
  else s.enterRecovered w

/-- SUMMED is set once every reversal is done and every hamper has drained (R422). -/
def State.checkSummed (s : State) (w : Nat) : State :=
  let x := s.win w
  if x.st = .recovering ∧ !x.summed ∧ !(s.tally.subs.any (fun u => u.win == w)) ∧
      (s.slotsOf w).all (fun y => y.popped && y.summed && y.retained) then
    (((s.unbind w).modWin w (fun y => { y with summed := true })).winEvents w 2).judgeSum w
  else s

/-! ### Commit and abort (R432 to R434) -/


/-- The status of a host END segment for an abort's reason (R442; log entry 36). -/
def abortStatus (reason : Nat) : Nat :=
  match reason with
  | 1 => stAuthFailed
  | 3 => stMalformed
  | 4 => stUncorrectable
  | 5 => stLate
  | _ => stStale

/-- The submission of contributor `c` in window `w` aborts (R433, R434). -/
def State.abortSub (s : State) (w c reason : Nat) : State :=
  match s.subOf w c with
  | none => s
  | some u =>
    if u.aborted.isSome then s
    else
      let x := s.win w
      let s1 := s.modLedger x c (fun e => { e with
        state := if reason = 5 then 4 else 3
        reason := reason
        aborts := satInc 5 e.aborts })
      let s2 := (s1.countUp (aTallyWinAborts w) 1).endHost u (abortStatus reason)
      let s3 := s2.mapSlots w (fun y =>
        if y.contributor == c && y.subId == u.subId then
          (if y.popped then { y with waiting := false } else { y with waiting := false, retained := true, dropped := true })
        else y)
      let s4 := s3.modSub w c u.subId (fun z => { z with aborted := some reason, host := none })
      if u.unrev then s4.contaminate w else (s4.releaseAll w).refreshHold

/-- The IV of a seal (R431). -/
def sealIv (x : Window) (u : Sub) : Bytes := toBE 4 u.contributor ++ toBE 4 u.subId ++ toBE 4 (x.index % 2 ^ 32)

/-- The seal of a submission verifies (R431). -/
def State.sealOk (s : State) (u : Sub) : Bool :=
  let x := s.win u.win
  match s.jobPrk x.part, u.sealBytes with
  | some pj, some t => decide (gcmTag (submissionKey pj u.relay) (sealIv x u) u.aad [] = t)
  | _, _ => false

/-- The submission commits (R432). -/
def State.commitSub (s : State) (u : Sub) : State :=
  let x := s.win u.win
  let s1 := s.modLedger x u.contributor (fun e => { e with state := 2 })
  let s2 := ((s1.countUp (aTallyWinCommits u.win) 1).endHost u stDone).dropSub u.win u.contributor u.subId
  let s3 := if u.unrev then s2.mapSlots u.win (fun y =>
      if y.contributor == u.contributor && y.subId == u.subId then { y with waiting := false, retained := true } else y)
    else s2
  ((s3.releaseAll u.win).refreshHold).checkSummed u.win

/-- The cycle at which the grace of window `w` ends (R422), once it has begun. -/
def State.graceEnd (s : State) (w : Nat) : Option Nat :=
  if (s.win w).st = .grace then some ((s.win w).graceFrom + usCycles (s.win w).graceUs) else none

/-- The cycle at which a submission whose seal verifies commits: later by DELAY_US (R432, 20 R748). -/
def Sub.commitAt (u : Sub) : Nat := u.endAt + usCycles u.delayUs

/-- The END segment's seal is judged (R432, R433). A commit that would fall after the end of the grace
does not take effect (20 R749). -/
def State.judge (s : State) (w c : Nat) : State :=
  match s.subOf w c with
  | none => s
  | some u =>
    if u.sealBytes.isNone then s
    else if !s.sealOk u then s.abortSub w c 1
    else if ((s.graceEnd w).map (fun g => decide (g < u.commitAt))).getD false then s
    else (s.advanceToCycle (u.commitAt)).commitSub u

/-- A payload of a segment to be reversed: from the ring, or from its bank (R434). -/
def State.retained (s : State) (u : Sub) (g : SegRec) : Bytes :=
  match g.ring with
  | some o => s.ringRead o g.len
  | none => (((s.slotsOf u.win).find? (fun y => y.contributor == u.contributor && y.subId == u.subId && y.seg == g.seg)).map
      (·.payload)).getD []

/-- A retained byte that the reversal needs is uncorrectable (R433). -/
def State.retainedBad (s : State) (u : Sub) : Bool :=
  u.segs.any (fun g => g.summed && (match g.ring with
    | some o => (List.range (ceilDiv g.len 64)).any (fun i =>
        let a := s.ringAddr ((o + 64 * i) % s.ringBytes)
        s.folio.poison.any (fun e => decide (a / 8 ≤ e.1) && decide (e.1 < a / 8 + 8)))
    | none => false))

/-- A reversal is due in one of the slices given; one of a paused partition waits (02 R70). -/
def State.reversalIn (s : State) (ks : List Nat) : Bool :=
  s.tally.subs.any (fun u => u.aborted.isSome && !u.unrev && !(s.part (s.win u.win).part).paused &&
    u.segs.any (fun g => g.summed && (s.segSlices (s.win u.win) g.seg g.len).any ks.contains))

/-- The reversal of an aborted submission is done (R434). -/
def State.reverse (s : State) (u : Sub) : State :=
  let x := s.win u.win
  let busy := (s.slotsOf u.win).any (fun y => y.contributor == u.contributor && y.subId == u.subId && y.popped && !y.summed)
  if busy then s
  else if u.unrev then s.contaminate u.win
  else if s.retainedBad u then
    (s.modLedger x u.contributor (fun e => { e with reason := 4 })).contaminate u.win
  else
    let s1 := (u.segs.filter (·.summed)).foldl (fun t g => t.addSegment x true g.seg (s.retained u g)) s
    let s2 := (s1.dropSub u.win u.contributor u.subId).mapSlots u.win (fun y =>
      if y.contributor == u.contributor && y.subId == u.subId then { y with waiting := false, retained := true } else y)
    ((s2.releaseAll u.win).refreshHold).checkSummed u.win

end Sys2Proof.Machine
end

