-- ==== Sys2Proof/Machine/LinkTx.lean ====
section
/-!
DEFINITION. Machine/LinkTx.lean: ports and lanes (13_ryinig R523 to R531), the Ethernet, IP, UDP and RYT
layers of a frame (R527 to R535), and what a port sends (R540 to R551).
-/
namespace Sys2Proof.Machine

/-! ### Ports (R524, R531) -/

/-- The PORT_PLAN in force. -/
def State.plan (s : State) : PortPlan := ((s.dev).map (·.plan)).getD {}

/-- Ports of the mode in force. -/
def State.portCount (s : State) : Nat := 64 / modeLanes s.plan.mode

/-- The entry of an enabled port. -/
def State.portEnt (s : State) (i : Nat) : Option PortEnt :=
  if i < s.portCount then (s.plan.ports[i]?).filter (·.enable) else none

/-- Partition `p` may send on port `i` (R525). -/
def State.mayUsePort (s : State) (p i : Nat) : Bool :=
  let n := modeLanes s.plan.mode
  decide (i < s.portCount) && (List.range n).all (fun k => ((s.partRec p).elim 0 PartRec.portMask).testBit (n * i + k))

/-- The MAC address of port `i` (R530). -/
def portMac (i : Nat) : Bytes := toBE 6 ((Config.macBase.toNat + i) % 2 ^ 48)

/-! ### Ethernet, IP and UDP (R527, R528) -/

/-- The ones' complement sum of 16-bit words. -/
def onesSum (m : Bytes) : Nat :=
  let t := ((chunks 2 m).map (fun w => be (fit 2 w) 0 2)).foldl (· + ·) 0
  let u := t % 65536 + t / 65536
  let v := u % 65536 + u / 65536
  v % 65536 + v / 65536

/-- A frame with its FCS, the low byte of the check sequence first (R527). -/
def withFcs (f : Bytes) : Bytes := f ++ toLE 4 (crc32 f).toNat

/-- The head of an Ethernet frame with its 802.1Q tag. -/
def ethHead (dst src : Bytes) (ent : PortEnt) (ethertype : Nat) : Bytes :=
  dst ++ src ++ toBE 2 0x8100 ++ toBE 2 (ent.pcp * 2 ^ 13 + ent.vid) ++ toBE 2 ethertype

/-- The pseudo header of UDP and ICMPv6 checksums. -/
def pseudoHead (ipv4 : Bool) (src dst : Bytes) (proto len : Nat) : Bytes :=
  if ipv4 then src.drop 12 ++ dst.drop 12 ++ toBE 2 proto ++ toBE 2 len
  else src ++ dst ++ toBE 4 len ++ toBE 4 proto

/-- An IP packet (R528): DF set, hop limit or TTL 64, DSCP 0 and Not-ECT. -/
def ipPacket (ent : PortEnt) (dst : Bytes) (proto ttl : Nat) (body : Bytes) : Bytes :=
  if ent.ipv4 then
    let h (c : Nat) : Bytes := [0x45, 0] ++ toBE 2 (20 + body.length) ++ toBE 2 Config.ipv4Id.toNat ++ toBE 2 0x4000 ++
      toBE 1 ttl ++ toBE 1 proto ++ toBE 2 c ++ ent.address.drop 12 ++ dst.drop 12
    h (65535 - onesSum (h 0)) ++ body
  else
    toBE 4 (6 * 2 ^ 28 + Config.flowLabel.toNat) ++ toBE 2 body.length ++ toBE 1 proto ++ toBE 1 ttl ++ ent.address ++ dst ++ body

/-- A UDP datagram with its checksum (R528). -/
def udpDatagram (ent : PortEnt) (dst : Bytes) (port : Nat) (body : Bytes) : Bytes :=
  let h (c : Nat) : Bytes := toBE 2 Config.udpSource.toNat ++ toBE 2 port ++ toBE 2 (8 + body.length) ++ toBE 2 c
  let c := 65535 - onesSum (pseudoHead ent.ipv4 ent.address dst 17 (8 + body.length) ++ h 0 ++ body)
  h (if c = 0 then 65535 else c) ++ body

/-- The whole frame of a UDP payload from port `i` to a MAC and IP address. -/
def udpFrame (i : Nat) (ent : PortEnt) (mac dst : Bytes) (port : Nat) (body : Bytes) : Bytes :=
  withFcs (ethHead mac (portMac i) ent (if ent.ipv4 then 0x0800 else 0x86DD) ++ ipPacket ent dst 17 64 (udpDatagram ent dst port body))

/-- A frame as it passed the MAC: source MAC, ethertype and what follows. -/
structure RxEth where
  src : Bytes := []
  dst : Bytes := []
  ethertype : Nat := 0
  body : Bytes := []
deriving DecidableEq, Repr, Inhabited

/-- A UDP datagram received. -/
structure RxUdp where
  addr : Bytes := []
  srcPort : Nat := 0
  dstPort : Nat := 0
  body : Bytes := []
deriving DecidableEq, Repr, Inhabited

/-- A frame has a good FCS and at most 9,216 bytes (R527). -/
def fcsOk (f : Bytes) : Bool :=
  decide (f.length ≤ 9216) && decide (18 ≤ f.length) &&
    f.drop (f.length - 4) == toLE 4 (crc32 (f.take (f.length - 4))).toNat

/-- The MAC layer (R527): exactly one tag with the port's VID. -/
def rxEth (ent : PortEnt) (f : Bytes) : Option RxEth :=
  let g := f.take (f.length - 4)
  let et := be g 16 2
  if g.length < 18 ∨ be g 12 2 ≠ 0x8100 ∨ be g 14 2 % 4096 ≠ ent.vid ∨ et = 0x8100 ∨ et = 0x88A8 then none
  else some { dst := slice g 0 6, src := slice g 6 6, ethertype := et, body := g.drop 18 }

/-- The payload of an IP packet to the port's own address, with its source and protocol (R528). -/
def rxIp (ent : PortEnt) (e : RxEth) : Option (Bytes × Nat × Nat × Bytes) :=
  let b := e.body
  if ent.ipv4 then
    let n := be b 2 2
    if e.ethertype ≠ 0x0800 ∨ be b 0 1 ≠ 0x45 ∨ n < 20 ∨ b.length < n ∨ be b 6 2 % 2 ^ 14 ≠ 0 ∨ onesSum (b.take 20) ≠ 65535 ∨
        slice b 16 4 ≠ ent.address.drop 12 then none
    else some (zeros 12 ++ slice b 12 4, be b 9 1, be b 8 1, slice b 20 (n - 20))
  else
    let n := be b 4 2
    if e.ethertype ≠ 0x86DD ∨ be b 0 1 / 16 ≠ 6 ∨ b.length < 40 + n then none
    else some (slice b 8 16, be b 6 1, be b 7 1, slice b 40 n)

/-- A UDP datagram for port `i` (R528): its address and checksum are right. -/
def rxUdp (i : Nat) (ent : PortEnt) (e : RxEth) : Option RxUdp :=
  match rxIp ent e with
  | none => none
  | some (src, proto, _, b) =>
    let n := be b 4 2
    if e.dst ≠ portMac i ∨ proto ≠ 17 ∨ n < 8 ∨ b.length < n ∨ be b 6 2 = 0 ∨
        (!ent.ipv4 ∧ slice e.body 24 16 ≠ ent.address) ∨
        onesSum (pseudoHead ent.ipv4 src ent.address 17 n ++ b.take n) ≠ 65535 then none
    else some { addr := src, srcPort := be b 0 2, dstPort := be b 2 2, body := slice b 8 (n - 8) }

/-! ### The RYT header (R533) -/

/-- An RYT header. -/
structure Ryt where
  type : Nat := 0
  job : Nat := 0
  flow : Nat := 0
  peer : Nat := 0
  seq : Nat := 0
  ack : Nat := 0
  sack : Nat := 0
  keygen : Nat := 0
  try_ : Nat := 0
  ackValid : Bool := false
  more : Bool := false
  credit : Nat := 0
  stamp : Nat := 0
deriving DecidableEq, Repr, Inhabited

/-- The 32 bytes of a header. -/
def Ryt.bytes (h : Ryt) : Bytes :=
  toBE 1 (16 + h.type) ++ toBE 3 h.job ++ toBE 2 h.flow ++ toBE 2 h.peer ++ toBE 4 h.seq ++ toBE 4 h.ack ++ toBE 4 h.sack ++
    toBE 1 h.keygen ++ toBE 1 (h.try_ * 32 + b2n h.ackValid * 16 + b2n h.more * 8) ++ toBE 2 h.credit ++ toBE 8 h.stamp

/-- The header of a UDP payload: none where VERSION is not 1 or a reserved field is not 0. -/
def readRyt (b : Bytes) : Option Ryt :=
  let fl := be b 0x15 1
  if b.length < 32 ∨ be b 0 1 / 16 ≠ 1 ∨ 1024 ≤ be b 6 2 ∨ fl % 8 ≠ 0 then none
  else some
    { type := be b 0 1 % 16, job := be b 1 3, flow := be b 4 2, peer := be b 6 2, seq := be b 8 4, ack := be b 12 4,
      sack := be b 16 4, keygen := be b 0x14 1, try_ := fl / 32, ackValid := bit fl 4, more := bit fl 3,
      credit := be b 0x16 2, stamp := be b 0x18 8 }

/-- The nonce of a frame (R535). -/
def rytNonce (salt : Bytes) (h : Ryt) : Bytes := salt ++ toBE 4 h.seq ++ toBE 1 h.try_

/-- The UDP payload of a frame of a job (R535). -/
def sealRyt (key : Bytes × Bytes) (h : Ryt) (body : Bytes) : Bytes :=
  let r := gcmSeal key.1 (rytNonce key.2 h) h.bytes body
  h.bytes ++ r.1 ++ r.2

/-- Sub-head and data of a frame of a job, where its tag is right (R535). -/
def openRyt (key : Bytes × Bytes) (h : Ryt) (b : Bytes) : Option Bytes :=
  if b.length < 48 then none
  else gcmOpen key.1 (rytNonce key.2 h) (b.take 32) (slice b 32 (b.length - 48)) (b.drop (b.length - 16))

/-! ### What a stream sends (R540 to R543) -/

/-- RTO_US and RETX_LIMIT of partition `p` (R573). -/
def State.retx (s : State) (p : Nat) : Nat × Nat :=
  let v := s.regN (aRytPartRetx p)
  (bits v 31 16, bits v 2 0)

/-- PEER_TIMEOUT of partition `p` in reference cycles (R544). -/
def State.peerTimeout (s : State) (p : Nat) : Nat :=
  let r := s.retx p
  usCycles (r.1 * (2 ^ (r.2 + 1) - 1))

/-- The cap on credits and grants while that control of the perturbation unit acts (20 R748). -/
def State.creditCap (s : State) : Nat :=
  if s.perturbNow.testBit 1 then bits (s.regN aDbgPtbCredit) 12 0 else 2 ^ 16

/-- The oldest SEQ that is not acknowledged. -/
def Link.base (l : Link) : Nat := match l.sent with | [] => l.txSeq | f :: _ => f.seq

/-- SACK: the frames held beyond the next one expected (R533). -/
def Link.sack (l : Link) : Nat :=
  ((l.held.filter (fun h => decide (l.rxNext < h.seq) && decide (h.seq ≤ l.rxNext + 32))).map
    (fun h => 2 ^ (h.seq - l.rxNext - 1))).foldl (· + ·) 0

/-- A frame leaves port `i` (R528). -/
def State.sendFrame (s : State) (i : Nat) (f : Bytes) : State := (s.countUp (aRytPortTxFrames i) 1).emit (.frame i f)

/-- The port that a peer's entry names is trained and knows the MAC address of NEXT_HOP (R529). -/
def State.portReady (s : State) (i : Nat) : Bool :=
  (s.portEnt i).isSome && (s.port i).up && (s.port i).nextMac.isSome

/-- Partition `p` may send on port `i` (R525), which is ready. -/
def State.maySend (s : State) (p i : Nat) : Bool := s.portReady i && s.mayUsePort p i

/-- A generation advances once nothing of it is unacknowledged (R563). -/
def State.advanceGen (s : State) (p i : Nat) : State :=
  let l := s.link p i
  if l.rekey && l.sent.isEmpty then
    (s.modLink p i (fun x => { x with txGen := x.txGen + 1, txSeq := 0, txAck := 0, rekey := false })).countUp (aRytPartRekeys p) 1
  else s

/-- The generation is due to advance: its frames or its ACK counter have reached the limit (R563). -/
def State.checkRekey (s : State) (p i : Nat) : State :=
  let n := 2 ^ ((s.job p).map (·.key.rekeyLog2)).getD 32
  let l := s.link p i
  if n ≤ l.txSeq ∨ n ≤ l.txAck then (s.modLink p i (fun x => { x with rekey := true })).advanceGen p i else s

/-- A frame of a stream leaves: its header takes the acknowledgements that are due, SEND_STAMP and the
key of its generation (R535, R543). -/
def State.putFrame (s : State) (p i gen seq try_ : Nat) (ackFrame : Bool) (m : TxMsg) : State :=
  match s.peer p i, s.jobPrk p with
  | some e, some prk =>
    match s.portEnt e.port, (s.port e.port).nextMac with
    | some ent, some mac =>
      let l := s.link p i
      let own := (s.part p).adm.own
      let valid := ackFrame || decide (0 < l.accepts)
      let h : Ryt :=
        { type := m.type, job := s.jobId p, flow := m.flow, peer := own, seq := seq, ack := if valid then l.rxNext else 0,
          sack := if valid then l.sack else 0, keygen := gen % 256, try_ := try_, ackValid := valid, more := m.more,
          credit := if valid then min (l.w / 256) s.creditCap else 0, stamp := s.stamp256 / 256 }
      let f := udpFrame e.port ent mac e.address e.udp (sealRyt (trafficKey prk own i gen) h m.body)
      (s.modLink p i (fun x => { x with accepts := 0 })).sendFrame e.port f
    | _, _ => s
  | _, _ => s

/-- A message leaves for the first time and takes the next SEQ (R540). -/
def State.sendFirst (s : State) (p i : Nat) (m : TxMsg) : State :=
  let l := s.link p i
  let r := s.retx p
  let s1 := s.putFrame p i l.txGen l.txSeq 0 false m
  (s1.modLink p i (fun x => { x with
    txSeq := l.txSeq + 1
    sent := x.sent ++ [{ gen := l.txGen, seq := l.txSeq, at_ := s.cycles, rtoUs := r.1, limit := r.2, msg := m }] })).checkRekey p i

/-- A frame is retransmitted (R540, R544). -/
def State.resend (s : State) (p i : Nat) (f : TxFrame) : State :=
  let s1 := (s.putFrame p i f.gen f.seq (f.try_ + 1) false f.msg).countUp (aRytPartRetrans p) 1
  s1.modLink p i (fun x => { x with sent := x.sent.map (fun g =>
    if g.seq == f.seq then { g with try_ := g.try_ + 1, at_ := s.cycles, due := false } else g) })

/-! ### Grants (R548) -/

/-- The hampers of rank `r` of partition `p`'s windows that take segments. -/
def State.rankHampers (s : State) (p r : Nat) : List Nat :=
  (s.tally.wins.filter (fun e => e.2.part == p && (decide (e.2.st = .opn) || decide (e.2.st = .grace) || decide (e.2.st = .defined)))).filterMap
    (fun e => e.2.hampers[r]?)

/-- The relays of partition `p`'s job. -/
def State.relays (s : State) (p : Nat) : List Nat :=
  ((s.part p).adm.peers.filter (fun e => decide (e.role = 1))).map (·.index)

/-- Element `r` of a list of 8 changed. -/
def mod8 (l : List Nat) (r : Nat) (g : Nat → Nat) : List Nat := l.set r (g (l.getD r 0))

/-- The free grants of hamper rank `r` dealt out (R548): equally among the relays whose segments came in the
last 100 µs, or among all while none did (log entry 46); a remainder one by one in rotation. -/
def State.dealGrants (s : State) (p r : Nat) : State :=
  let all := s.relays p
  let free := match (s.rankHampers p r).map (fun h => (s.hmp h).freeSlots) with
    | [] => 0
    | n :: ns => ns.foldl min n
  let out := (all.map (fun i => (s.link p i).grants.getD r 0 - (s.link p i).pushed.getD r 0)).foldl (· + ·) 0
  let recent := all.filter (fun i =>
    let c := (s.link p i).lastSeg.getD r 0
    decide (0 < c) && decide (s.cycles + 1 ≤ c + usCycles 100))
  let aims := if recent.isEmpty then all else recent
  let n := aims.length
  if n = 0 ∨ free ≤ out then s
  else
    let share := min ((free - out) / n) s.creditCap
    let rest := if share = s.creditCap then 0 else (free - out) % n
    let turn := (s.part p).adm.grantTurn.getD r 0
    let s1 := (List.range n).foldl (fun t k =>
      let i := aims.getD k 0
      let extra := b2n (decide ((k + n - turn % n) % n < rest))
      t.modLink p i (fun x => { x with grants := mod8 x.grants r (· + share + extra) })) s
    s1.modPart p (fun x => { x with adm := { x.adm with grantTurn := mod8 x.adm.grantTurn r (fun _ => (turn + rest) % n) } })

/-- The stream comes from a relay. -/
def State.isRelay (s : State) (p i : Nat) : Bool := (s.relays p).contains i

/-- An ACK frame is sent (R543, R548). -/
def State.sendAck (s : State) (p i : Nat) : State :=
  match s.peer p i with
  | none => s
  | some e =>
    if !s.maySend p e.port then s
    else
      let relay := s.isRelay p i
      let s1 := if relay then (List.range 8).foldl (fun t r => t.dealGrants p r) s else s
      let l := s1.link p i
      let body := if relay then l.grants.flatMap (fun g => toBE 2 (g % 65536)) else zeros 16
      let s2 := s1.putFrame p i l.txGen l.txAck 7 true { type := 0, body := body }
      (s2.modLink p i (fun x => { x with txAck := x.txAck + 1 })).checkRekey p i

/-! ### Beats and the order of a port (R549 to R551, 08 R372 to R375) -/

/-- The beat plan in force. -/
def State.beats (s : State) : Option BeatPlan := s.dev.bind (·.beats)

/-- Beats run: FTIME_BEAT.ACTIVE (08 R363). -/
def State.beatsActive (s : State) : Bool := s.beats.isSome && s.ftLocked

/-- The beat position now. -/
def State.beatPos (s : State) (b : BeatPlan) : Nat := s.ftNs / 2 ^ b.log2 % max b.cycle 1

/-- Bytes that leave the port for a UDP payload, its preamble among them. -/
def wireBytes (ipv4 : Bool) (udp : Nat) : Nat := 8 + 18 + (if ipv4 then 20 else 40) + 8 + udp + 4

/-- A frame of `n` bytes that starts now leaves before the end of the beat minus the guard time (08 R375). -/
def State.inBeat (s : State) (b : BeatPlan) (lanes n : Nat) : Bool :=
  let stop := (s.ftNs / 2 ^ b.log2 + 1) * 2 ^ b.log2 - 64 * b.guard
  decide (s.ft256 * (25 * lanes) + 256 * n < stop * 256 * (25 * lanes))

/-- Collective frames of partition `p` may start on port `i` now (R550). -/
def State.collectiveMay (s : State) (p i : Nat) (m : TxMsg) : Bool :=
  match s.beats with
  | none => true
  | some b =>
    if !s.ftLocked || decide (s.ftNs < s.ft.beatFrom) then true
    else match b.entries.find? (fun e => e.port == i && e.part == p) with
      | none => true
      | some e => e.slots.testBit (s.beatPos b) &&
          s.inBeat b (s.port i).lanes (wireBytes (((s.portEnt i).map (·.ipv4)).getD false) (48 + m.body.length))

/-- A collective frame (R549). -/
def TxMsg.collective (m : TxMsg) : Bool := decide (m.type = 3)

/-- A message may start on port `i` now. -/
def State.msgMay (s : State) (p i : Nat) (m : TxMsg) : Bool := !m.collective || s.collectiveMay p i m

/-- What a stream sends next of the messages that `ok` lets start: a retransmission that is due, or the
first message that it may, within the window and outside a hold (R540, R546, R551, R563). -/
inductive Next where
  | again (f : TxFrame)
  | first (k : Nat) (m : TxMsg)
deriving DecidableEq, Repr

def Link.next (l : Link) (cap : Nat) (ok : TxMsg → Bool) : Option Next :=
  match l.sent.find? (fun f => f.due && ok f.msg) with
  | some f => some (.again f)
  | none =>
    if l.rekey || decide (l.base + min l.credit cap ≤ l.txSeq) then none
    else match (List.range l.queue.length).find? (fun k => ok (l.queue.getD k {})) with
      | some k => some (.first k (l.queue.getD k {}))
      | none => none

/-- The partition has an entry on the port and the position is its own (R550). -/
def State.inSlot (s : State) (p i : Nat) : Bool :=
  match s.beats with
  | none => false
  | some b => s.ftLocked && decide (s.ft.beatFrom ≤ s.ftNs) &&
      b.entries.any (fun e => e.port == i && e.part == p && e.slots.testBit (s.beatPos b))

/-- The next frame of partition `p` on port `i`, of its peers in the order of the table (log entry 47). The transmit slots of
a paused partition stay empty (02 R70). -/
def State.partNext (s : State) (p i : Nat) (ok : TxMsg → Bool) : Option (Nat × Next) :=
  if !s.admitted p || !s.mayUsePort p i || ((s.part p).paused && s.inSlot p i) then none
  else ((s.part p).adm.peers.filter (fun e => e.port == i)).findSome? (fun e =>
    ((s.link p e.index).next s.creditCap (fun m => ok m && s.msgMay p i m)).map (fun n => (e.index, n)))

/-- The next frame of a port: collective frames of the partitions whose slot this is first, then every
frame that may start, in round robin by partition (R550). -/
def State.portNext (s : State) (i : Nat) : Option (Nat × Nat × Next) :=
  let order := (List.range 16).map (fun k => ((s.port i).turn + k) % 16)
  match (order.filter (fun p => s.inSlot p i)).findSome? (fun p => (s.partNext p i TxMsg.collective).map (fun n => (p, n))) with
  | some n => some n
  | none => order.findSome? (fun p => (s.partNext p i (fun _ => true)).map (fun n => (p, n)))

/-- A frame of a stream chosen for a port leaves. -/
def State.sendNext (s : State) (p i : Nat) : Next → State
  | .again f => s.resend p i f
  | .first k m => (s.modLink p i (fun x => { x with queue := x.queue.eraseIdx k })).sendFirst p i m

/-! ### Frames outside any stream (R529, R536) -/

/-- A frame joins those of a port. -/
def State.queueCtl (s : State) (i : Nat) (m : CtlMsg) : State := s.modPort i (fun q => { q with control := q.control ++ [m] })

/-- A message of job 0 to an address, in frames of at most 8,192 bytes (R535, R536; log entry 48). -/
def State.queueZero (s : State) (i : Nat) (addr : Bytes) (udp type flow : Nat) (body : Bytes) : State :=
  let ps := if body.isEmpty then [[]] else chunks 8192 body
  (List.range ps.length).foldl (fun t k => t.queueCtl i
    { addr := addr, udp := udp, type := type, flow := flow, seq := k, more := decide (k + 1 < ps.length), body := ps.getD k [] }) s

/-- The frame of a control message. -/
def State.ctlFrame (s : State) (i : Nat) (ent : PortEnt) (mac : Bytes) (m : CtlMsg) : Bytes :=
  match m.raw with
  | some f => f
  | none =>
    let h : Ryt := { type := m.type, job := 0, flow := m.flow, seq := m.seq, more := m.more, stamp := s.stamp256 / 256 }
    udpFrame i ent mac m.addr m.udp (h.bytes ++ m.body ++ zeros 16)

/-- The solicited-node multicast address of an IPv6 address. -/
def solicited (a : Bytes) : Bytes := [0xFF, 0x02] ++ zeros 9 ++ [1, 0xFF] ++ a.drop 13

/-- An ARP packet. -/
def arpPacket (op : Nat) (mac ip tmac tip : Bytes) : Bytes := toBE 2 1 ++ toBE 2 0x0800 ++ [6, 4] ++ toBE 2 op ++ mac ++ ip ++ tmac ++ tip

/-- An ICMPv6 Neighbor Solicitation or Advertisement. -/
def ndMessage (src dst : Bytes) (type flags : Nat) (target : Bytes) (opt : Nat) (mac : Bytes) : Bytes :=
  let m (c : Nat) : Bytes := toBE 1 type ++ [0] ++ toBE 2 c ++ toBE 4 flags ++ target ++ toBE 1 opt ++ [1] ++ mac
  m (65535 - onesSum (pseudoHead false src dst 58 32 ++ m 0))

/-- The request by which a port resolves NEXT_HOP (R529). -/
def resolveFrame (i : Nat) (ent : PortEnt) : Bytes :=
  let mac := portMac i
  if ent.ipv4 then
    withFcs (ethHead (List.replicate 6 0xFF) mac ent 0x0806 ++ arpPacket 1 mac (ent.address.drop 12) (zeros 6) (ent.nextHop.drop 12))
  else
    let g := solicited ent.nextHop
    withFcs (ethHead ([0x33, 0x33] ++ g.drop 12) mac ent 0x86DD ++
      ipPacket ent g 58 255 (ndMessage ent.address g 135 0 ent.nextHop 1 mac))

/-- A port sends its next frame: what waits outside any stream first (log entry 47),
then the streams' frames; until NEXT_HOP is resolved it sends the request for it. -/
def State.transmit (s : State) (port : Nat) : State :=
  match s.portEnt port with
    | none => s
    | some ent =>
      let q := s.port port
      if !q.up then s
      else match q.control, q.nextMac with
        | { raw := some f, .. } :: ms, _ => (s.modPort port (fun x => { x with control := ms })).sendFrame port f
        | m :: ms, some mac => (s.modPort port (fun x => { x with control := ms })).sendFrame port (s.ctlFrame port ent mac m)
        | [], some _ =>
          match s.portNext port with
          | none => s
          | some (p, i, n) => (s.sendNext p i n).modPort port (fun x => { x with turn := (p + 1) % 16 })
        | m :: _, none => if m.raw.isNone then s.sendFrame port (resolveFrame port ent) else s
        | [], none => if (s.portNext port).isSome then s.sendFrame port (resolveFrame port ent) else s

/-- FRAME_TRANSMIT (R550): a port sends its next frame, whose SEND_STAMP is the instant at which it leaves (08 R364). -/
def execFrameTransmit (port : Fin 64) (sub : Fin 820) (s : State) : Host.Outcome State Fault Refusal :=
  .next (s.atInstant sub (fun t => t.transmit port))

end Sys2Proof.Machine
end

