-- ==== Sys2Proof/Machine/Phase.lean ====
section
/-!
DEFINITION. Machine/Phase.lean: phase switches (05 R227 to R229, 07_phase_maps R323 to R349): the
boundary, the move plan, the opening of a phase, and the service of pulls.
-/
namespace Sys2Proof.Machine

/-! ### Opening a phase (07 R335 to R337) -/

/-- The ledger entry of a pin or stream that a phase could not give a class (07 R335, R337). -/
def State.classErr (s : State) (p what cls old new : Nat) : State :=
  s.addErr stNotPermitted 0x06 0 (some p) 0xFF ([BitVec.ofNat 8 what, 0, 0, 0] ++ toLE 2 cls ++ toLE 1 old ++ toLE 1 new)

/-- Partition `p`'s move plan changed. -/
def State.modPlan (s : State) (p : Nat) (g : MovePlan → MovePlan) : State := s.modPart p (fun x => { x with plan := g x.plan })

/-- A folio of a PIN class made resident in its column and pinned (R335); one that must wait for its copy or a frame joins
`pins`. -/
def State.pinFolio (s : State) (p v : Nat) : State :=
  let l := s.leaf p v
  let col := ((s.placeOf p v).bind (·.col)).getD 0
  let later (t : State) : State := t.modPlan p (fun x => if x.pins.contains v then x else { x with pins := x.pins ++ [v] })
  let settled (t : State) : State := t.modPlan p (fun x => { x with pins := x.pins.filter (· != v) })
  let pinned (t : State) : State := (settled t).modLeaf p v (fun x => { x with pin := true, phasePin := true })
  match l.state with
  | .absent | .scrub =>
    match (s.finishScrub p v).allocFolio p v col (s.wclassFor p v 0) true with
    | .ok t => pinned t
    | .wait t => later t
    | .fail t _ => settled t
  | .resident =>
    if l.hvalid then (if l.pin then settled s else pinned s)
    else if l.cls = .peer then settled s
    else match s.startFetch p v col [] with
      | .ok t => later t
      | .wait t => later t
      | .fail t _ => settled t
  | .moving => later s
  | .retired => settled s

/-- The folios of a class, those of this rank among them pinned in ascending order (R335). Where FOLIO_FRAMES is reached
the class stops, with its ledger entry. -/
def State.phasePins (p : Nat) (rank : Option Nat) (m : PhaseMap) (c : ClassEnt) (old : Nat) : List Nat → State → State
  | [], s => s
  | v :: vs, s =>
    match s.placeIn p m v with
    | some pl =>
      if pl.mineIf rank && pl.pin && !(s.leaf p v).pin && !(s.part p).plan.pins.contains v then
        if s.folioFrames p ≤ s.pinnedFrames p + s.pinsDue p + (s.part p).plan.pins.length then s.classErr p 1 c.id old m.phase
        else State.phasePins p rank m c old vs (s.pinFolio p v)
      else State.phasePins p rank m c old vs s
    | none => State.phasePins p rank m c old vs s

/-- The folios of a class. -/
def ClassEnt.folios (c : ClassEnt) : List Nat := (List.range (c.len / 65536)).map (c.base / 65536 + ·)

/-- A class lies wholly inside another of the map (07 R327). -/
def nestedIn (m : PhaseMap) (c : ClassEnt) : Bool :=
  m.classes.any (fun d => d.id != c.id && decide (d.base ≤ c.base) && decide (c.base + c.len ≤ d.base + d.len))

/-- The shards of a class that this rank holds in column `col`, in ascending order (07 R329, R330): those of a REPLICATED
class whatever the rank. -/
def State.colShards (s : State) (p : Nat) (rank : Option Nat) (col : Nat) (c : ClassEnt) : List Nat :=
  let mine := (List.range c.cluWays).filter (fun k => s.shardCol p k == some col)
  if c.kind = 0 then mine
  else match rank with
    | none => []
    | some r => if c.pkgWays ≤ r then [] else mine.map (fun k => k * c.pkgWays + r)

/-- The stream of a class in column `col`, where it holds folios of it (07 R336). -/
def State.classStream (s : State) (p : Nat) (rank : Option Nat) (col : Nat) (c : ClassEnt) : Option Stream :=
  let ways := (if c.kind = 0 then 1 else c.pkgWays) * c.cluWays
  let total := c.len / 65536
  let first := c.base / 65536
  let shards := s.colShards p rank col c
  let base : Stream :=
    { enable := true, release := c.release, wrap := c.wrap, charter := true, part := p, wclass := c.wclass, ahead := c.ahead }
  match shards with
  | [] => none
  | sh :: rest =>
    if c.unit ≤ 255 then
      let n := (shards.map (shardCount total c.unit ways)).sum
      if n = 0 then none
      else some { base with
        w := c.unit, stride := c.unit * ways % 2 ^ 32, base := 65536 * (first + sh * c.unit), count := n
        shards := if rest.isEmpty then [] else shards.map (fun k => (k - sh) * c.unit) }
    else
      let blocks := ((List.range (ceilDiv total c.unit)).filter (fun j => shards.contains (j % ways))).map (fun j => first + j * c.unit)
      match blocks with
      | [] => none
      | b :: _ => some { base with w := 1, stride := 1, base := 65536 * b, count := c.unit, blocks := blocks }

/-- A stream of the charter walks the class in a column already. -/
def State.hasClassStream (s : State) (p col : Nat) (c : ClassEnt) : Bool :=
  (List.range 16).any (fun i =>
    let x := s.stream col i
    x.enable && x.charter && x.part == p && c.has x.first)

/-- The streams of one class opened, one in each column (07 R336, R337). -/
def State.openClassStreams (p : Nat) (rank : Option Nat) (old new : Nat) (s : State) (c : ClassEnt) : State :=
  (List.range 8).foldl (fun t col =>
    match t.classStream p rank col c with
    | none => t
    | some x =>
      if t.hasClassStream p col c then t
      else match (List.range 16).find? (fun i => !(t.stream col i).enable) with
      | some i => t.setStream col i x
      | none => t.classErr p 2 c.id old new) s

/-- The pins and then the streams of the classes of the map in force, as far as the rank is known (07 R335, R336). -/
def State.openClasses (s : State) (p old : Nat) (m : PhaseMap) : State :=
  let rank := s.myRank p
  let s1 := (m.classes.filter (·.pin)).foldl (fun t c => State.phasePins p rank m c old c.folios t) s
  (m.classes.filter (fun c => c.prefetch && !nestedIn m c)).foldl (State.openClassStreams p rank old m.phase) s1

/-- A phase opens: weight classes, pins, BIAS and streams (07 R335, R336, 06 R292). -/
def State.openPhase (s : State) (p old : Nat) : State :=
  match s.phaseMap p with
  | none => s
  | some m =>
    let s1 := (s.leavesOf p).foldl (fun t e => match t.placeIn p m e.1 with
      | some pl => if e.2.wclass = pl.wclass then t else t.setLeaf p e.1 { e.2 with wclass := pl.wclass }
      | none => t) s
    (s1.setPair (aFolioPartBiasLo p) m.bias).openClasses p old m

/-- The rank has just become known: the phase in force pins and opens streams for what this rank owns (R334; log
entry 138). -/
def State.openRank (s : State) (p : Nat) : State :=
  match s.phaseMap p with
  | some m => if (s.part p).ph = .opn then s.openClasses p m.phase m else s
  | none => s

/-- The pins that the phase map set are cleared (07 R335). -/
def State.clearPhasePins (s : State) (p : Nat) : State :=
  (s.modPlan p (fun x => { x with pins := [] })).modFolio (fun f => { f with leaves := f.leaves.map (fun e =>
    if e.1 / 2 ^ 36 == p && e.2.phasePin then (e.1, { e.2 with pin := false, phasePin := false }) else e) })

/-! ### The service of pulls and fetches (07 R341, R342, 13 R539) -/

/-- Parts of a folio sent to a peer, or an absent mark; false where it cannot be read. -/
def State.sendFolio (s : State) (p peer v flow first parts : Nat) : State × Bool :=
  let l := s.leaf p v
  match l.state with
  | .absent | .scrub => (s.queueMsg p peer { type := 3, flow := flow, body := folioHead v first 1 }, true)
  | .retired => (s, false)
  | .resident | .moving =>
    if l.cls = .peer || (!l.hvalid && !s.homeKey p l) then (s, false)
    else
      ((List.range parts).foldl (fun t k => t.queueMsg p peer
        { type := 3, flow := flow, more := decide (k + 1 < parts),
          body := folioHead v (first + k) 0 ++ s.folioRead p v (8192 * (first + k)) 8192 }) s, true)

/-- A phase that partition `p` is in or moves to, other than `t` where there is one. -/
def State.otherPhase (s : State) (p t : Nat) : Nat :=
  let x := s.part p
  if x.target ≠ t then x.target else if x.phase ≠ t then x.phase else (t + 1) % 16

/-- A pull refused (07 R342). TARGET_PHASE of the REFUSE is the pull's own where the folio is RETIRED, and else another
(07 R347; log entry 137). -/
def State.refusePull (s : State) (p : Nat) (h : HeldPull) (gone : Bool) : State :=
  s.queueMsg p h.peer { type := 4, flow := h.flow, body := moveHead h.vfn 2 (if gone then h.phase else s.otherPhase p h.phase) }

/-- A handoff or a copy of folio `v` to a peer is due no longer. -/
def State.pullOver (s : State) (p peer v : Nat) : State :=
  match s.peer p peer with
  | some e => s.modPlan p (fun x => { x with
      handoffs := x.handoffs.filter (· != (v, e.rank)), copies := x.copies.filter (· != (v, e.rank)) })
  | none => s

/-- A pull served. A folio that cannot be read is refused; one that is ABSENT or RETIRED needs no confirmation. -/
def State.servePull (s : State) (p : Nat) (h : HeldPull) : State :=
  let st := (s.leaf p h.vfn).state
  match s.sendFolio p h.peer h.vfn h.flow 0 8 with
  | (t, true) => if st = .absent ∨ st = .scrub then t.pullOver p h.peer h.vfn else t
  | (t, false) =>
    let u := t.refusePull p h (decide (st = .retired))
    if st = .retired then u.pullOver p h.peer h.vfn else u

/-- A held pull is still wanted: MOVE_WAIT_MS has not passed (07 R342; log entry 139). -/
def State.pullLive (s : State) (p : Nat) (h : HeldPull) : Bool :=
  decide (s.cycles ≤ h.since + 312500 * bits (s.regN (aSchedPartMoveCtrl p)) 15 0)

/-- A PULL_REQ is served, held or refused by the partition's phase (07 R342). -/
def State.takePull (s : State) (p : Nat) (h : HeldPull) : State :=
  let x := s.part p
  if (decide (x.ph = .moving) && x.target == h.phase) || (decide (x.ph = .opn) && x.phase == h.phase) then s.servePull p h
  else if x.ph = .moving then
    (s.refusePull p h false).addErr stNotPermitted 0x06 0 (some p) 0xFF
      ([3, 0, 0, 0] ++ toLE 2 h.peer ++ toLE 1 h.phase ++ toLE 1 x.target)
  else s.modPart p (fun y => { y with heldPulls := y.heldPulls.filter (s.pullLive p) ++ [h] })

/-- The pulls held for the phase that partition `p` now moves to are served; the others stay, but for those whose time has
passed (07 R342). -/
def State.takeHeldPulls (s : State) (p : Nat) : State :=
  let x := s.part p
  let live := x.heldPulls.filter (s.pullLive p)
  (live.filter (fun h => h.phase == x.target)).foldl (fun t h => t.servePull p h)
    (s.modPart p (fun y => { y with heldPulls := live.filter (fun h => h.phase != x.target) }))

/-! ### The move plan (07 R340) -/

/-- Owner's rank of folio `v` before or after: this package's own where no class holds it (07 R333). -/
def ownerIs (pl : Option Placed) (rank : Nat) : Bool := match pl with | none => true | some x => x.mine rank

/-- The classes of the new map that differ from the old one's. -/
def changedClasses (old new : PhaseMap) : List ClassEnt :=
  new.classes.filter (fun c => !nestedIn new c && !old.classes.contains c)

/-- A folio that this package gives up: a PEER entry is cleared, and another's frames go to SCRUB (07 R340, R346). One that
is MOVING leaves when its transfer has ended. -/
def State.giveUp (s : State) (p v : Nat) : State :=
  let l := s.leaf p v
  if l.state = .moving then s.modPlan p (fun x => if x.leaving.contains v then x else { x with leaving := x.leaving ++ [v] })
  else
    let s1 := s.modPlan p (fun x => { x with leaving := x.leaving.filter (· != v) })
    if l.cls = .peer then (if l.hvalid then s1.dropCopy p v else s1).setLeaf p v {}
    else (s1.toScrub p v).retireGens p

/-- The plan from one map to another, and the entries that it clears (07 R340). A folio that the same class places in both
contributes nothing. Handoffs that earlier switches left unconfirmed stay (07 R346). -/
def State.planMoves (s : State) (p rank : Nat) (old new : PhaseMap) : State :=
  let leaves := s.leavesOf p
  let pl := (s.part p).plan
  let was (v : Nat) := s.placeIn p old v
  let will (v : Nat) := s.placeIn p new v
  let same (v : Nat) : Bool := (new.outer v).isSome && old.outer v == new.outer v
  let held (v : Nat) : Bool :=
    let l := s.leaf p v
    (decide (l.state = .resident) || decide (l.state = .moving)) && decide (l.cls ≠ .peer)
  let columns := leaves.filterMap (fun e =>
    match (will e.1).bind (·.col) with
    | some c => if e.2.hvalid && held e.1 && !same e.1 && ownerIs (was e.1) rank && ownerIs (will e.1) rank && decide (colOf e.2.hframe ≠ c)
        then some (e.1, c) else none
    | none => none)
  let pulls := ((changedClasses old new).flatMap ClassEnt.folios).filterMap (fun v =>
    match (was v).bind (·.owner) with
    | some r => if r ≠ rank && ownerIs (will v) rank && !held v then some (v, r) else none
    | none => none)
  let gone := leaves.filter (fun e => ownerIs (was e.1) rank && !ownerIs (will e.1) rank && decide (e.2.cls ≠ .peer))
  let handed (v : Nat) := decide (((was v).bind (·.owner)).isSome)
  let handoffs := (gone.filter (fun e => handed e.1 && held e.1)).map (fun e => (e.1, ((will e.1).bind (·.owner)).getD 0))
  let scrubbed := (gone.filter (fun e => !handed e.1)).map (·.1)
  let peers := leaves.filter (fun e => decide (e.2.cls = .peer) && !ownerIs (was e.1) rank)
  let cleared := (peers.filter (fun e => (will e.1).isNone || (!ownerIs (will e.1) rank &&
    decide ((was e.1).bind (·.owner) ≠ (will e.1).bind (·.owner))))).map (·.1)
  let copies := (leaves.filter (fun e => held e.1 && (match was e.1 with | some x => x.owner == some rank | none => false) &&
      (match will e.1 with | some x => x.owner.isNone | none => false))).flatMap (fun e =>
    ((List.range (s.packages p)).filter (· != rank)).map (fun r => (e.1, r)))
  let s1 := s.modPlan p (fun x =>
    { columns := columns, pulls := pulls, copies := copies, leaving := x.leaving
      behind := x.behind.filter (fun b => ownerIs (will b.1) rank && !pulls.any (fun q => q.1 == b.1))
      handoffs := (pl.handoffs.filter (fun h => !ownerIs (will h.1) rank && !handoffs.contains h)) ++ handoffs })
  (scrubbed ++ cleared).foldl (fun t v => t.giveUp p v) s1

/-- One folio's pull starts: a request to the old owner and a frame for the folio (07 R341); where none
can be had it is left behind. -/
def State.startPull (s : State) (p v rank phase : Nat) : State × Bool :=
  match s.rankPeer p rank with
  | none => (s, false)
  | some e =>
    let missing := s.missingTables p v
    if !s.moveRoom || !s.memLive p (s.part p).keyCur || decide (s.lpddrShare p < s.lpddrCharge p + 1 + missing.length) ||
        !s.tableRoom p v true || decide ((s.leaf p v).state ≠ .absent ∧ (s.leaf p v).state ≠ .resident) then (s, false)
    else
      let t := missing.foldl (fun u k => u.makeTable p k) s
      match t.freeLpddr v with
      | none => (s, false)
      | some f =>
        let r := t.takeFlow p e.index
        let u := r.2.queueMsg p e.index { type := 4, flow := r.1, body := moveHead v 0 phase }
        ((u.setLUse f (.folio p v)).startPeer
          { part := p, vfn := v, kind := .pull, dest := f, gen := (s.part p).keyCur } e.index, true)

/-- A folio left behind: its entry becomes PEER and points to the old owner (07 R345). -/
def State.leaveBehind (s : State) (p v rank : Nat) : State :=
  let s0 := if (s.leaf p v).state = .scrub then s.finishScrub p v else s
  let s1 : State := match s0.rankPeer p rank with
    | some e => if (s0.leaf p v).state = .absent then
        ((s0.missingTables p v).foldl (fun u k => u.makeTable p k) s0).setLeaf p v
          { cls := .peer, state := .resident, home := v * 1024 + e.index, wclass := s0.wclassFor p v 0 } else s0
    | none => s0
  s1.modPlan p (fun x => { x.pulled v with
    behind := (x.behind.filter (fun b => b.1 != v)) ++ [(v, rank)], pulls := x.pulls.filter (fun b => b.1 != v) })

/-- The moves of a plan that can start do (07 R341, R343). -/
def State.kickMoves (s : State) (p : Nat) : State :=
  let x := s.part p
  let s1 := x.plan.columns.foldl (fun t (vc : Nat × Nat) =>
    let l := t.leaf p vc.1
    let done (u : State) : State := u.modPlan p (fun y => { y with columns := y.columns.filter (· != vc) })
    if l.state = .moving then t
    else if l.state ≠ .resident ∨ !l.hvalid ∨ colOf l.hframe = vc.2 then done t
    else if !t.moveRoom then t
    else match t.takeHoard p vc.2 with
      | (u, none) => u
      | (u, some f) => done ((u.setHUse f (.folio p vc.1)).startMove { part := p, vfn := vc.1, kind := .column, dest := f })) s
  x.plan.pulls.foldl (fun t (vr : Nat × Nat) =>
    match t.startPull p vr.1 vr.2 x.target with
    | (u, true) => u.modPlan p (fun y => { y with pulls := y.pulls.filter (· != vr), flying := y.flying ++ [vr] })
    | (u, false) => u) s1

/-- The folio unit keeps pulling what was left behind, while the partition is not MOVING (07 R345). -/
def State.keepPulling (s : State) (p : Nat) : State :=
  let x := s.part p
  if x.ph = .opn ∨ x.ph = .draining then
    x.plan.behind.foldl (fun t (vr : Nat × Nat) => if (t.moveOf p vr.1).isSome then t else (t.startPull p vr.1 vr.2 x.phase).1) s
  else s

/-- What a partition's folios wait for goes on where it can: those that leave, the pins of its phase, and the pulls left
behind (07 R335, R345, R346). -/
def State.folioGoesOn (s : State) (p : Nat) : State :=
  let s1 := (s.part p).plan.leaving.foldl (fun t v => t.giveUp p v) s
  let s2 := (s1.part p).plan.pins.foldl (fun t v => t.pinFolio p v) s1
  s2.keepPulling p

/-- The same for every partition. -/
def State.foliosGoOn (s : State) : State := (List.range 16).foldl State.folioGoesOn s

/-- Transfers of partition `p`'s plan in flight. -/
def State.planMovesOpen (s : State) (p : Nat) : List Move :=
  s.folio.moves.filter (fun m => m.part == p && ((decide (m.kind = .column) && !m.place) || decide (m.kind = .pull)))

/-- The barrier of 07 R344: the COLUMN moves have committed, and either the wait has passed or every pull of the plan has
ended and every peer has confirmed its own. -/
def State.barrierMet (s : State) (p : Nat) : Bool :=
  let x := s.part p
  let late := ((x.switch).map (·.waitOver)).getD true
  x.plan.columns.isEmpty && !(s.planMovesOpen p).any (fun m => decide (m.kind = .column)) &&
  (late || (x.plan.pulls.isEmpty && x.plan.flying.isEmpty && x.plan.handoffs.isEmpty && x.plan.copies.isEmpty))

/-! ### The boundary (05 R227) -/

/-- Flags of an operation admitted now (00_scope R27, 19 R727). -/
def State.admFlags (s : State) (p : Nat) : Nat :=
  (if s.degradedBits p ≠ 0 then flDegraded else 0) + (if (s.part p).expert then flExpert else 0) +
  (if s.perturbNow ≠ 0 then flPerturbed else 0)

/-- A PHASE_SWITCH completes: its record, and its scoreboard entry. -/
def State.endSwitch (s : State) (p : Nat) (sw : Switch) (status info : Nat) : State :=
  let s1 := s.immediate sw.func sw.slot sw.desc status sw.flags info
  (s1.setLastOk p (dTag sw.desc) (decide (status = stDone))).modPart p (fun x => { x with switch := none })

/-- BOUNDARY is reached: substitution, then STOPPED or MOVING (05 R227, 07 R339). -/
def State.boundary (s : State) (p : Nat) : State :=
  match (s.part p).switch with
  | none => s
  | some sw =>
    let us := (s.cycles - sw.drainAt) * 2 / 625
    let s1 := ((s.substitute p).closeStreams p).clearPhasePins p
    let old := s1.regN (aSchedPartSwitch p)
    let s2 := s1.setRegN (aSchedPartSwitch p) (old / 65536 * 65536 + min us 65535)
    let minCores := ((s2.job p).map (·.minCores)).getD 0
    if (s2.enabledCores p).length < minCores then
      (s2.endSwitch p sw stCapacityLost 0).modPart p (fun x => { x with ph := .stopped })
    else
      let wait := bits (s2.regN (aSchedPartMoveCtrl p)) 15 0
      let s3 := s2.modPart p (fun x => { x with ph := .moving, switch := some { sw with moveAt := s.cycles, moveMs := wait } })
      let x := s3.part p
      let maps := (s3.job p).map (fun j => (j.phases.find? (fun m => m.phase == x.phase), j.phases.find? (fun m => m.phase == x.target)))
      let s4 := match maps, s3.myRank p with
        | some (some a, some b), some r => (s3.planMoves p r a b).kickMoves p
        | _, _ => s3
      s4.takeHeldPulls p

/-- DRAINING ends once every operation of the partition has finished executing (05 R227, R228). -/
def State.checkDrained (s : State) (p : Nat) : State :=
  if (s.part p).ph = .draining ∧ (s.opsOf p).all (fun o =>
      decide (o.stage = .finished) || decide (o.stage = .recording) || s.suspended o) then
    s.boundary p
  else s

/-- The phase opens where the barrier is met (07 R339 step 4). -/
def State.tryOpen (s : State) (p : Nat) : State :=
  let x := s.part p
  match x.switch with
  | none => s
  | some sw =>
    if x.ph = .moving ∧ s.barrierMet p then
      let ms := (s.cycles - sw.moveAt) / 312500
      let old := s.regN (aSchedPartSwitch p)
      let s1 := s.setRegN (aSchedPartSwitch p) (old % 65536 + 65536 * min ms 65535)
      let s2 := s1.modPart p (fun y => { y with ph := .opn, phase := x.target })
      let behind := (s2.part p).plan.behind
      ((s2.openPhase p x.phase).endSwitch p sw stDone (min behind.length (2 ^ 32 - 1))).keepPulling p
    else s

/-- PHASE_OPEN (R339): what still waits to start is started, and the phase opens once the barrier is
met. In an open phase the folio unit goes on with its pins and with what was left behind. -/
def execPhaseOpen (p : Fin 16) (s : State) : Host.Outcome State Fault Refusal :=
  .next (if (s.part p).ph = .moving then (s.kickMoves p).tryOpen p else s.folioGoesOn p)

/-- MOVE_WAIT_EXPIRY (07 R344, R345): time passes until the wait ends; a pull whose last part has come commits (07 R347), and
those of the plan that have not committed are left behind. -/
def execMoveWaitExpiry (p : Fin 16) (s : State) : Host.Outcome State Fault Refusal :=
  .next (match (s.part p).switch with
    | none => s
    | some sw =>
      if (s.part p).ph ≠ .moving then s
      else
        let s1 := s.advanceToCycle (sw.moveAt + 312500 * sw.moveMs)
        let mine (t : State) : List Move := t.folio.moves.filter (fun m => m.part == p.val && decide (m.kind = .pull) &&
          (t.part p).plan.flying.any (fun b => b.1 == m.vfn))
        let s2 := ((mine s1).filter (fun m => decide (m.parts = 255))).foldl (fun t m => t.settleMove p m.vfn .ok) s1
        let s3 := (mine s2).foldl (fun t m => t.abandonMove m) s2
        let left := (s3.part p).plan.flying ++ (s3.part p).plan.pulls
        (left.foldl (fun t (vr : Nat × Nat) => t.leaveBehind p vr.1 vr.2) s3).modPart p
          (fun x => { x with switch := some { sw with waitOver := true } }))

/-- MOVE_COMMIT (06 R279). Folios that wait to leave a retired channel follow, and so does what waits for a transfer to
end. -/
def execMoveCommit (p : Fin 16) (vfn : Nat) (res : ReadResult) (s : State) : Host.Outcome State Fault Refusal :=
  .next ((s.settleMove p vfn res).leaveChannels.foliosGoOn)

/-- SCRUB_ZEROED (17 R678): a frame is free again, which may be waited for. -/
def execScrubZeroed (hoard : Bool) (frame : Nat) (s : State) : Host.Outcome State Fault Refusal :=
  .next ((s.zeroFrame hoard frame).foliosGoOn)

/-- DRAIN_TIMEOUT (05 R227): time passes until DRAIN_MS has elapsed; what has not finished executing is
cancelled, and the boundary follows. -/
def execDrainTimeout (p : Fin 16) (s : State) : Host.Outcome State Fault Refusal :=
  .next (match (s.part p).switch with
    | none => s
    | some sw =>
      if (s.part p).ph ≠ .draining then s
      else
        let s1 := s.advanceToCycle (sw.drainAt + 312500 * sw.drainMs)
        let s2 := s1.settleGroups (fun r => r.part == p.val)
        ((s2.cutOps p).foldl (fun t o => t.cancelOp p o.tag stCancelled) s2).checkDrained p)

end Sys2Proof.Machine
end

