-- ==== Sys2Proof/Machine/Rng.lean ====
section
/-!
DEFINITION. Machine/Rng.lean: the steps of the random number generator that no caller waits on (16_random
R654 to R669). Serving callers, and failing them, is in Machine/RngServe.lean.
-/
namespace Sys2Proof.Machine

/-- The generator changed. -/
def State.modRng (s : State) (g : Rng → Rng) : State := { s with rng := g s.rng }

/-- The generator begins again in STARTUP: what it held is zeroised, and calls keep their places (R661). -/
def State.rngRestart (s : State) : State := s.modRng (fun r => r.restart s.cycles)

/-- RNG_STARTUP_DONE (R661): 1,024 samples after the start. The samples that follow them fill the pool. -/
def execRngStartupDone (s : State) : Host.Outcome State Fault Refusal :=
  let c := s.rng.startAt + 4 * 1024
  .next (if s.rng.st = .startup then (s.advanceToCycle c).modRng (fun r => { r with st := .seeding, poolAt := c }) else s)

/-- DRBG_RESEED (R657): after 2^20 calls, else 1 s after the last instantiation or reseed, once the pool is full
(R668). -/
def execDrbgReseed (s : State) : Host.Outcome State Fault Refusal :=
  .next (if s.rng.st = .ready then
      let s1 := s.advanceToCycle (max s.rng.poolFull (if 2 ^ 20 ≤ s.rng.calls then 0 else s.rng.seededAt + 312500000))
      s1.modRng (fun r => r.reseed s1.cycles)
    else s)

/-- A write of RNG_TEST that reaches it (R666, R667): a generator that has FAILED stays so (R661). -/
def State.rngTest (s : State) (req : Req) (v : W32) : State :=
  if s.sbox.lc = .factory then
    let s1 := s.modRng (fun r => { r with test := v.getLsbD 31, testSeed := if v.toNat % 65536 = 0 then 1 else v.toNat % 65536 })
    if s.rng.st = .failed then s1 else s1.rngRestart
  else s.regErr stNotPermitted req aRngTest

end Sys2Proof.Machine
end

