-- ==== Sys2Proof/Machine/Tally.lean ====
section
/-!
DEFINITION. Machine/Tally.lean: the Tally operations, the segments that reach Tally, and its own steps
(09_hampers R383 to R407, 10_tally R417 to R445).
-/
namespace Sys2Proof.Machine

/-! ### Segments (R426 to R430, R784) -/

/-- A segment as it reaches Tally (R426); `stamp` is in 1/256 ns, DBG_PTB_STAMP.OFFSET added (20 R748). -/
structure Segm where
  part : Nat := 0
  contributor : Nat := 0
  template : Nat := 0
  subId : Nat := 0
  seg : Nat := 0
  fin : Bool := false
  payload : Bytes := []
  relay : Nat := 0
  sealBytes : Bytes := []
  stamp : Nat := 0
  /-- The TALLY_INGEST that brings it: partition and tag. -/
  host : Option (Nat × Nat) := none
deriving DecidableEq, Repr, Inhabited

/-- What became of a segment. `rejected` is a first segment refused under R427. -/
inductive Taken where
  | pushed | duplicate | stale | rejected | aborted | overrun
deriving DecidableEq, Repr

/-- DBG_PTB_STAMP.OFFSET as the stamps of this cycle take it: a change acts from the next reference cycle on
(20 R751). -/
def State.stampOffset (s : State) : Int :=
  sgn 32 (if s.ft.offsetAt = some s.cycles then s.ft.offsetOld else s.regN aDbgPtbStamp)

/-- A stamp, with the offset of 20 R748 added. -/
def State.stampOf (s : State) (t : Nat) : Nat := ((t : Int) + 256 * s.stampOffset).toNat

/-- A stamp lies in a window (08 R367). -/
def Window.holds (x : Window) (t : Nat) : Bool := decide (256 * x.openAt ≤ t) && decide (t < 256 * x.closeAt)

/-- The window that admits a stamp, or that R784 names for it. -/
def State.windowFor (s : State) (p tmpl t : Nat) : Option Nat :=
  let ws := (s.winsOf p).filter (fun w => (s.win w).geo.template == tmpl)
  match ws.find? (fun w => (s.win w).holds t && (decide ((s.win w).st = .opn) || decide ((s.win w).st = .grace))) with
  | some w => some w
  | none =>
    match ws.find? (fun w => (s.win w).holds t) with
    | some w => some w
    | none => ws.find? (fun w => decide (256 * (s.win w).closeAt = t))

/-- A segment counted as dropped in a window's STALE or REJECTS (R784). -/
def State.countDrop (s : State) (w : Option Nat) (stale : Bool) : State :=
  match w with
  | some w => s.countUp (if stale then aTallyWinStale w else aTallyWinRejects w) 1
  | none => s

/-- The open submissions of a contributor under a template of partition `p`. -/
def State.openOf (s : State) (p tmpl c : Nat) : List Sub :=
  s.tally.subs.filter (fun u => u.contributor == c && u.aborted.isNone && (s.win u.win).part == p &&
    (s.win u.win).geo.template == tmpl)

/-- Submissions whose seal has been judged by now (R432): a commit is due in the cycle after the END
segment. -/
def State.settleDue (s : State) (us : List Sub) : State :=
  us.foldl (fun t u => if u.sealBytes.isSome ∧ (u.commitAt ≤ s.cycles ∨ !s.sealOk u) then t.judge u.win u.contributor else t) s

/-- A segment breaks a length rule of R429, after `before` payload bytes, or R415. -/
def Segm.breaks (g : Segm) (x : Window) (before : Nat) : Bool :=
  let eb := elemBytes x.geo.elem
  let limit := x.geo.length * eb
  let total := before + g.payload.length
  (if g.fin then decide (total ≠ limit) else decide (g.payload.length ≠ 8192) || decide (limit ≤ total)) ||
  (decide (x.geo.elem = 3) && (payloadElems 3 g.payload).any (fun v => decide (x.geo.modulus ≤ v)))

/-- The head and payload that the seal covers (R431). -/
def Segm.sealed (g : Segm) : Bytes :=
  toBE 4 g.seg ++ toBE 2 g.payload.length ++ toBE 1 g.template ++ toBE 1 (b2n g.fin) ++ g.payload

/-- The hamper of a contributor (R419). -/
def Window.hamperOf (x : Window) (c : Nat) : Nat := x.hampers.getD (c % max x.hampers.length 1) 0

/-- A segment of open submission `u` pushed (R383, R398, R399, R424). -/
def State.pushSeg (s : State) (g : Segm) (u : Sub) : State :=
  let x := s.win u.win
  let h := x.hamperOf g.contributor
  let slot : HSlot :=
    { contributor := g.contributor, subId := g.subId, seg := g.seg, fin := g.fin, payload := g.payload,
      stamp := g.stamp, waiting := !u.unrev, retained := u.unrev }
  let s1 := s.modSub u.win g.contributor g.subId (fun y =>
    { y with
      nextSeg := g.seg + 1
      bytes := y.bytes + g.payload.length
      aad := y.aad ++ g.sealed
      relay := g.relay
      sealBytes := if g.fin then some g.sealBytes else none
      endAt := s.cycles
      delayUs := s.regN aDbgPtbCommit % 65536
      segs := y.segs ++ [{ seg := g.seg, len := g.payload.length }]
      idleRun := 0
      idleAt := s.cycles
      idleUs := s.regN (aTallyWinCtrl u.win) % 2 ^ 17
      host := if g.fin then g.host else none })
  let s2 := s1.modLedger x g.contributor (fun e => { e with segs := e.segs + 1 })
  ((s2.push h slot).prof (h / 8) x.part 0x30 1).idleSync

/-- A first segment opens a submission in window `w` (R427, R436). -/
def State.openSub (s : State) (g : Segm) (w : Nat) : Sub × State :=
  let u : Sub := { win := w, contributor := g.contributor, subId := g.subId, relay := g.relay, idleAt := s.cycles }
  let s1 := s.modLedger (s.win w) g.contributor (fun e =>
    { e with state := 1, subId := g.subId, segs := 0, unrev := false })
  (u, (s1.modTally (fun t => { t with subs := t.subs ++ [u] })).countUp (aTallyWinOpened w) 1)

/-- A segment that may be pushed: a breach of R415 or R429 aborts its submission, FULL overruns (R392), and
otherwise it is pushed. `fresh` is a first segment, which has opened nothing yet. -/
def State.offer (s : State) (g : Segm) (u : Sub) (fresh : Bool) : State × Taken :=
  let x := s.win u.win
  let h := x.hamperOf g.contributor
  let opened (t : State) : State := if fresh then (t.openSub g u.win).2 else t
  if g.breaks x u.bytes then ((opened s).abortSub u.win g.contributor 3, .aborted)
  else if (s.hmp h).full then (s.overrun h x.part, .overrun)
  else ((opened s).pushSeg g u, .pushed)

/-- A first segment (R427, R428, R430). -/
def State.takeFirst (s : State) (g : Segm) : State × Taken :=
  match (s.openOf g.part g.template g.contributor).find? (fun u => u.subId == g.subId) with
  | some u => (s.countDrop (some u.win) true, .stale)
  | none =>
    match s.windowFor g.part g.template g.stamp with
    | none => (s, .rejected)
    | some w =>
      let x := s.win w
      if x.geo.contributors ≤ g.contributor then (s.countDrop (some w) false, .rejected)
      else
        let e := s.ledger x g.contributor
        if e.state ≠ 0 ∧ g.subId ≤ e.subId then (s.countDrop (some w) true, .stale)
        else if x.holds g.stamp && (decide (x.st = .opn) || decide (x.st = .grace)) &&
            (decide (e.state = 0) || decide (e.state = 3)) then
          s.offer g { win := w, contributor := g.contributor, subId := g.subId, relay := g.relay } true
        else (s.countDrop (some w) false, .rejected)

/-- A later segment (R429, R430). -/
def State.takeLater (s : State) (g : Segm) : State × Taken :=
  let us := (s.openOf g.part g.template g.contributor).filter (fun u => u.subId == g.subId)
  match (match us.find? (fun u => u.nextSeg == g.seg) with | some u => some u | none => us.head?) with
  | none => (s.countDrop (s.windowFor g.part g.template g.stamp) true, .stale)
  | some u =>
    if g.seg < u.nextSeg then (s.countDrop (some u.win) false, .duplicate)
    else if u.nextSeg < g.seg then (s.abortSub u.win g.contributor 3, .aborted)
    else s.offer g u false

/-- A segment reaches Tally. -/
def State.takeSeg (s : State) (g : Segm) : State × Taken :=
  let s1 := s.settleDue (s.openOf g.part g.template g.contributor)
  if g.seg = 0 then s1.takeFirst g else s1.takeLater g

/-! ### Window operations (R417, R418, R441 to R444) -/

/-- The flags of an operation of window `w` (R439). -/
def State.winFlags (s : State) (w : Nat) : Nat := if (s.win w).sliceMoved then flDegraded else 0

/-- An operation of window `w` ends. -/
def State.endWinOp (s : State) (o : Op) (w status : Nat) : State := s.endOpCycles o.part o.tag status (s.winFlags w)

/-- An operation of window `w` ends with INFO given. -/
def State.endWinInfo (s : State) (o : Op) (w status info : Nat) : State := s.endOp o.part o.tag status (s.winFlags w) info

/-- The window handle of a body, and the window is the partition's (R444). -/
def winHandle (d : Bytes) : Nat := bits (le d 0x18 1) 5 0
def State.ownsWin (s : State) (p w : Nat) : Bool := decide ((s.win w).st ≠ .free) && (s.win w).part == p

/-- The body of WINDOW_OPEN and its like: the handle and nothing else. -/
def winBodyOk (d : Bytes) : Bool := decide (bits (le d 0x18 1) 7 6 = 0) && allZero (slice d 0x19 39)

/-- The lowest free hampers that WINDOW_DEFINE binds (R417). -/
def State.pickHampers : Nat → Nat → State → Nat → Nat → State × Nat
  | 0, _, s, _, _ => (s, 0)
  | n + 1, i, s, w, thr =>
    match s.freeHamper i with
    | some h =>
      let r := State.pickHampers n (i + 1) ((s.bindHamper w h thr).modWin w (fun x => { x with
        hampers := (List.range 64).filter (fun k => k == h || x.hampers.contains k) })) w thr
      (r.1, r.2 + 1)
    | none => (s, 0)

/-- Hampers bound to no window. -/
def State.freeHampers (s : State) : Nat := ((List.range 64).filter (fun h => (s.hmp h).win.isNone)).length

/-- WINDOW_DEFINE of a template (R413, R417). -/
def State.defineWindow (s : State) (o : Op) (geo : Geometry) (index vector w : Nat) : State :=
  let at_ := geo.firstOpen + index * geo.period
  let x : Window :=
    { st := .defined, part := o.part, func := o.func, vector := vector, geo := geo, index := index,
      openAt := at_, closeAt := at_ + geo.duration,
      reserved := ceilDiv (geo.length * accBytes geo.elem) 65536 + 8 }
  let base := aTallyWinState w
  let rec_ := aTallyRecStatus w
  let s1 : State := { s with regs := Tab.without (fun k => (decide (base ≤ k) && decide (k < base + 0x40)) ||
      (decide (rec_ ≤ k) && decide (k < rec_ + 0x40))) s.regs }
  let s2 := (s1.setWin w x).setRegN (aTallyWinCtrl w) (geo.graceUs * 2 ^ 17 + geo.idleUs)
  let thr := if geo.elem ≤ 3 then geo.threshold else 64
  let s3 := (State.pickHampers geo.hampers 0 s2 w thr).1
  let r := State.takeFrames w .tallyAcc 0 (ceilDiv (geo.contributors * 8) 65536) s3 []
  ((((r.1.zeroHoard r.2).modWin w (fun y => { y with ledgerFrames := r.2 })).winEvents w 1)).endOp o.part o.tag stDone 0 w

/-- WINDOW_DEFINE (R417, R418, R444). -/
def State.windowDefineOp (s : State) (o : Op) : State :=
  let d := o.desc
  let tmpl := bits (le d 0x18 1) 5 0
  let index := le d 0x1C 4
  let okBytes := decide (bits (le d 0x18 1) 7 6 = 0) && allZero (slice d 0x1A 2) && allZero (slice d 0x20 32)
  match ((s.job o.part).map (·.templates)).bind (fun l => l.find? (fun g => g.template == tmpl)) with
  | none => s.refuseOp o stMalformed
  | some geo =>
    let close := geo.firstOpen + index * geo.period + geo.duration
    let need := ceilDiv (geo.length * accBytes geo.elem) 65536 + 8 + ceilDiv (geo.contributors * 8) 65536
    match (List.range 64).find? (fun w => decide ((s.win w).st = .free)) with
    | none => s.refuseOp o stNotPermitted
    | some w =>
      if s.freeHampers < geo.hampers ∨ s.freeTally < need ∨ (s.ftLocked ∧ close ≤ s.ftNs) then s.refuseOp o stNotPermitted
      else if !okBytes || (decide (geo.period = 0) && decide (0 < index)) ||
          (s.winsOf o.part).any (fun v => (s.win v).geo.template == tmpl && (s.win v).index == index) then
        s.refuseOp o stMalformed
      else s.defineWindow o geo index (le d 0x19 1) w

/-- An operation on a window that its partition owns (R444). -/
def State.winOp (s : State) (o : Op) (ok : Window → Bool) (body : Nat → State) : State :=
  let w := winHandle o.desc
  if !s.ownsWin o.part w || !ok (s.win w) then s.refuseOp o stNotPermitted
  else if !winBodyOk o.desc then s.refuseOp o stMalformed
  else body w

/-- WINDOW_OPEN (R422, R423): it waits under a hold of 02 R72 or R425. -/
def State.windowOpenOp (s : State) (o : Op) : State :=
  s.winOp o (fun x => !s.ftLocked && decide (x.st = .defined)) (fun w =>
    if s.openHeld o.part || (s.part o.part).paused then s
    else
      ((s.modWin w (fun x => { x with openAt := s.ftNs, byCommand := true })).openWindow w).endWinOp o w stDone)

/-- WINDOW_CLOSE (R422, R423). -/
def State.windowCloseOp (s : State) (o : Op) : State :=
  s.winOp o (fun x => !s.ftLocked && decide (x.st = .opn)) (fun w =>
    ((s.modWin w (fun x => { x with closeAt := s.ftNs, byCommand := true })).closeWindow w).endWinOp o w stDone)

/-- WINDOW_DISCARD (R422); out of DEFINED it waits while the partition is paused (02 R72). -/
def State.windowDiscardOp (s : State) (o : Op) : State :=
  s.winOp o (fun x => decide (x.st = .defined) || x.st.active) (fun w =>
    if (s.part o.part).paused ∧ (s.win w).st = .defined then s
    else (s.discardWindow w).endWinOp o w stDone)

/-- WINDOW_FREE (R422). -/
def State.windowFreeOp (s : State) (o : Op) : State :=
  s.winOp o (fun x => x.st.terminal) (fun w => (s.endWinOp o w stDone).freeWindow w)

/-- A stored word of some bytes of the Hoard is uncorrectable. -/
def State.hoardBad (s : State) (a n : Nat) : Bool :=
  s.folio.poison.any (fun e => decide (a < 8 * e.1 + 8) && decide (8 * e.1 < a + n))

/-- LEDGER_READ or REC_LEDGER_READ (R443, 11 R468): `n` bytes each, found by `addr`. -/
def State.ledgerReadOp (s : State) (o : Op) (n : Nat) (addr : Window → Nat → Option Nat) : State :=
  let d := o.desc
  let w := winHandle d
  let x := s.win w
  let first := ledgerFirst d
  let count := ledgerCount d
  let ok := decide (bits (le d 0x18 1) 7 6 = 0) && allZero (slice d 0x19 3) && allZero (slice d 0x24 4) &&
    allZero (slice d 0x30 16) && decide (1 ≤ count) && decide (count ≤ 2097152) &&
    decide (first + count ≤ x.geo.contributors) && decide (ledgerDst d % 64 = 0) && rangeOk (ledgerDst d, n * count)
  if !s.ownsWin o.part w then s.refuseOp o stNotPermitted
  else if !ok then s.refuseOp o stMalformed
  else
    let cells := (List.range count).map (fun i => addr x (first + i))
    if cells.any (fun a => (a.map (fun b => s.hoardBad b n)).getD false) then s.refuseOp o stUncorrectable
    else
      let bs := cells.flatMap (fun a => match a with | some b => Mem.read s.folio.hoard b n | none => zeros n)
      (s.prepare o [] [(ledgerDst d, n * count)] 0 noWhole).finish o (fun t =>
        (t.writeVa o.part o.tag (ledgerDst d) bs).endWinInfo o w stDone count)

/-- The segment that TALLY_INGEST brings (R442). -/
def State.ingestSeg (s : State) (o : Op) : Segm :=
  let d := o.desc
  { part := o.part, contributor := bits (le d 0x20 3) 20 0, template := bits (le d 0x23 1) 5 0, subId := le d 0x24 4,
    seg := bits (le d 0x28 4) 19 0, fin := bit (le d 0x28 4) 31,
    payload := Mem.read s.hostMem (le d 0x18 8) (bits (le d 0x2C 2) 13 0), relay := bits (le d 0x2E 2) 9 0,
    sealBytes := slice d 0x30 16, stamp := s.stampOf s.stamp256, host := some (o.part, o.tag) }

/-- The body of TALLY_INGEST is well formed (R442). -/
def ingestOk (d : Bytes) (elem : Nat) : Bool :=
  let n := bits (le d 0x2C 2) 13 0
  decide (le d 0x18 8 % 64 = 0) && decide (bits (le d 0x20 3) 23 21 = 0) && decide (bits (le d 0x23 1) 7 6 = 0) &&
  decide (bits (le d 0x28 4) 30 20 = 0) && decide (bits (le d 0x2C 2) 15 14 = 0) && decide (bits (le d 0x2E 2) 15 10 = 0) &&
  (bit (le d 0x28 4) 31 || allZero (slice d 0x30 16)) &&
  decide (1 ≤ n) && decide (n ≤ 8192) && decide (n % elemBytes elem = 0)

/-- The submission that operation `o` waits for. -/
def State.waitsFor (s : State) (o : Op) : Bool := s.tally.subs.any (fun u => u.host == some (o.part, o.tag) && u.hostOp o)

/-- TALLY_INGEST (R442, R444): the operation of an END segment goes on until its submission's outcome. -/
def State.tallyIngestOp (s : State) (o : Op) (hostOk : Bool) : State :=
  let d := o.desc
  let g := s.ingestSeg o
  if s.waitsFor o then s
  else match ((s.job o.part).map (·.templates)).bind (fun l => l.find? (fun y => y.template == g.template)) with
    | none => s.refuseOp o stMalformed
    | some geo =>
      if !geo.hostIngest || !s.admitted o.part ||
          !(((s.peer o.part g.relay).map (fun e => decide (e.role = 1))).getD false) then s.refuseOp o stNotPermitted
      else if !ingestOk d geo.elem then s.refuseOp o stMalformed
      else if !hostOk then s.refuseOp o stUncorrectable
      else
        let w := (match (s.openOf o.part g.template g.contributor).find? (fun (u : Sub) => u.subId == g.subId) with
          | some u => some u.win
          | none => s.windowFor o.part g.template g.stamp).getD 64
        let r := s.takeSeg g
        let fin (st : Nat) : State := r.1.endWinOp o w st
        match r.2 with
        | .pushed => if g.fin then r.1 else fin stDone
        | .duplicate => fin stStale
        | .stale => fin stStale
        | .rejected => fin stNotPermitted
        | .aborted => fin stMalformed
        | .overrun => fin stOverrun

/-! ### Commands -/

/-- WINDOW_DEFINE (R417). -/
def execWindowDefine (p : Fin 16) (tag : Fin 4096) (s : State) : Host.Outcome State Fault Refusal :=
  .next (s.runOp p tag 0x0400 s.windowDefineOp)

/-- WINDOW_OPEN (R423). -/
def execWindowOpen (p : Fin 16) (tag : Fin 4096) (s : State) : Host.Outcome State Fault Refusal :=
  .next (s.runOp p tag 0x0401 s.windowOpenOp)

/-- WINDOW_CLOSE (R423). -/
def execWindowClose (p : Fin 16) (tag : Fin 4096) (s : State) : Host.Outcome State Fault Refusal :=
  .next (s.runOp p tag 0x0402 s.windowCloseOp)

/-- WINDOW_DISCARD (R422). -/
def execWindowDiscard (p : Fin 16) (tag : Fin 4096) (s : State) : Host.Outcome State Fault Refusal :=
  .next (s.runOp p tag 0x0403 s.windowDiscardOp)

/-- WINDOW_FREE (R422). -/
def execWindowFree (p : Fin 16) (tag : Fin 4096) (s : State) : Host.Outcome State Fault Refusal :=
  .next (s.runOp p tag 0x0404 s.windowFreeOp)

/-- TALLY_INGEST (R442); its segment is stamped `sub` 820ths into the reference cycle (08 R364). -/
def execTallyIngest (p : Fin 16) (tag : Fin 4096) (hostOk : Bool) (sub : Fin 820) (s : State) : Host.Outcome State Fault Refusal :=
  .next (s.atInstant sub (fun t => t.runOp p tag 0x0405 (fun o => t.tallyIngestOp o hostOk)))

/-- LEDGER_READ (R443). -/
def execLedgerRead (p : Fin 16) (tag : Fin 4096) (s : State) : Host.Outcome State Fault Refusal :=
  .next (s.runOp p tag 0x0406 (fun o => s.ledgerReadOp o 8 (fun x c => some (x.ledgerAddr c))))

/-- The ledger entry of a timed Tally action that falls while FT is UNLOCKED (08 R376; log entry 37). -/
def State.heldByTime (s : State) (w : Nat) : State :=
  s.addErr stTimeUnlocked 0x07 0 (some (s.win w).part) 0xFF (toLE 1 w)

/-- OPEN_AT (R422): the instant comes; while FT is UNLOCKED or under a hold the window stays DEFINED. -/
def execOpenAt (w : Fin 64) (s : State) : Host.Outcome State Fault Refusal :=
  .next (if (s.win w).st ≠ .defined then s
    else
      let s1 := s.advanceTo (s.win w).openAt
      if s1.ftLocked then s1.openLate w else s1.heldByTime w)

/-- CLOSE_AT (R422). -/
def execCloseAt (w : Fin 64) (s : State) : Host.Outcome State Fault Refusal :=
  .next (if (s.win w).st ≠ .opn then s
    else
      let s1 := s.advanceTo (s.win w).closeAt
      if s1.ftLocked then s1.closeWindow w else s1.heldByTime w)

/-- The grace of window `w` is over (R422, R385): what was completed in time commits first (R445). -/
def State.endGrace (s : State) (w : Nat) : State :=
  let mine (t : State) : List Sub := t.tally.subs.filter (fun u => u.win == w && u.aborted.isNone)
  let s1 := (mine s).foldl (fun t u => t.judge w u.contributor) s
  let s2 := (mine s1).foldl (fun t u => t.abortSub w u.contributor 5) s1
  if (s2.win w).st ≠ .grace then s2
  else
    let s3 := (s2.modWin w (fun x => { x with phase := .summing })).winGo w .recovering
    let s4 := (s3.win w).hampers.foldl (fun t h =>
      match (t.hmp h).filling with
      | some b => if ((t.hmp h).bank b).slots.isEmpty then t else (t.handOver h b).release h
      | none => t) s3
    s4.checkSummed w

/-- GRACE_END (R422). -/
def execGraceEnd (w : Fin 64) (s : State) : Host.Outcome State Fault Refusal :=
  .next (match s.graceEnd w with
    | some c => (s.advanceToCycle c).endGrace w
    | none => s)

/-- IDLE_TIMEOUT (R424, R433): the timer of the contributor's submission runs out; a frozen timer does
not. -/
def execIdleTimeout (w : Fin 64) (contributor : Nat) (s : State) : Host.Outcome State Fault Refusal :=
  .next (match s.subOf w contributor with
    | none => s
    | some u =>
      if s.idleFrozen u then s
      else
        let s1 := s.idleSync
        let run := ((s1.subOf w contributor).map (·.idleRun)).getD 0
        ((s1.advance (usCycles u.idleUs - run)).idleSync).abortSub w contributor 2)

/-- REVERSAL_DONE (R434). -/
def execReversalDone (w : Fin 64) (contributor : Nat) (s : State) : Host.Outcome State Fault Refusal :=
  .next (match s.revOf w contributor with
    | some u => if (s.part (s.win w).part).paused then s else s.reverse u
    | none => s)

/-- COMMIT (R432, R433): the END segment's seal is judged. -/
def execCommit (w : Fin 64) (contributor : Nat) (s : State) : Host.Outcome State Fault Refusal :=
  .next (s.judge w contributor)

/-- The first unpopped slot of a bank marked popped. -/
def Bank.pop (k : Bank) : Bank :=
  { k with slots := modFirst (fun y => !y.popped) (fun y => { y with popped := true, summed := y.dropped }) k.slots }

/-- The next pop of a bank of window `w` waits for a reversal in one of its slot's slices (R438); a slot that is dropped
needs none. -/
def State.popWaits (s : State) (w : Nat) (k : Bank) : Bool :=
  match k.slots.find? (fun y => !y.popped) with
  | some y => !y.dropped && s.reversalIn (s.segSlices (s.win w) y.seg y.payload.length)
  | none => false

/-- The reference cycle of hamper `h`'s next pop: back-pressure withholds pops in the first DUTY of every 256 Tally
cycles, of 3.3 GHz (20 R748; log entry 152). In tamper hold no control acts (20 R755). -/
def State.popCycle (s : State) (h : Nat) : Nat :=
  let duty := bits (s.regN aDbgPtbHamper) 7 0
  let n := s.cycles * 264 / 25
  if !s.tamperHold && (s.pair aDbgPtbHmpMaskLo).testBit h && decide (n % 256 < duty) then (n / 256 * 256 + duty) * 25 / 264
  else s.cycles

/-- HAMPER_POP (R384, R388, R434, R437, R438): the oldest visible slot; pops wait while the partition is paused (02 R70),
and for back-pressure (20 R748). -/
def execHamperPop (h : Fin 64) (s0 : State) : Host.Outcome State Fault Refusal :=
  let s := s0.advanceToCycle (s0.popCycle h)
  let x := s.hmp h
  .next (match x.win, x.oldest with
    | some w, some b =>
      if !(x.bank b).visible || x.summing.isSome || (s.part (s.win w).part).paused || s.popWaits w (x.bank b) then s
      else
        let s1 := (s.setHmp h (x.setBank b (x.bank b).pop)).prof (h / 8) (s.win w).part 0x31 1
        (s1.release h).checkSummed w
    | _, _ => s)

/-- SLOT_SUMMED (R437): the popped slot's elements have been added; summation waits while the partition is paused
(02 R70). -/
def execSlotSummed (h : Fin 64) (s : State) : Host.Outcome State Fault Refusal :=
  let x := s.hmp h
  .next (match x.win, x.summing with
    | some w, some (b, y) =>
      if (s.part (s.win w).part).paused then s
      else
      let win := s.win w
      let s1 := s.addSegment win false y.seg y.payload
      let k := x.bank b
      let s2 := s1.setHmp h (x.setBank b { k with slots := modFirst (fun z => z.popped && !z.summed) (fun z => { z with summed := true }) k.slots })
      let s3 := s2.modSub w y.contributor y.subId (fun u => { u with
        segs := u.segs.map (fun g => if g.seg == y.seg then { g with summed := true } else g) })
      (s3.release h).checkSummed w
    | _, _ => s)

/-- RETENTION_APPEND (R398 to R405): one cycle of appends in ascending hamper number; what cannot be
appended waits. -/
def execRetentionAppend (s : State) : Host.Outcome State Fault Refusal :=
  let s1 := (List.range 64).foldl (fun t h => t.tryAppend h) s
  .next ((List.range 64).foldl (fun t w => t.checkSummed w) s1.refreshHold)

/-- SLICE_FAIL (R439): recorded in the spare map; the windows that use the slice note it. -/
def execSliceFail (k : Fin 8) (s : State) : Host.Outcome State Fault Refusal :=
  if s.sliceFailed.testBit k then .next s
  else
    let s1 : State := { s with sliceFailed := s.sliceFailed ||| 2 ^ k.val }
    .next ((List.range 64).foldl (fun t w =>
      if (t.win w).st.active && (t.win w).slices.testBit k then
        (t.modWin w (fun x => { x with sliceMoved := true })).winEvents w 4
      else t) s1)

end Sys2Proof.Machine
end

