-- ==== Sys2Proof/Machine/Links.lean ====
section
/-!
DEFINITION. Machine/Links.lean: what a link port receives (13_ryinig R527 to R548), the stranger filter
(R552 to R556), retransmission and generations (R544, R563), and the state of the lanes (R565 to R567).
-/
namespace Sys2Proof.Machine

/-! ### Strangers (R552 to R555) -/

/-- A stranger counted, and entered in the port's ledger: `reason` 1 UNKNOWN_JOB, 2 NOT_PEER, 3 RATE (R572). -/
def State.stranger (s : State) (i : Nat) (addr : Bytes) (job reason : Nat) : State :=
  let q := s.port i
  let hit := (List.range q.strangers.length).find? (fun k =>
    (q.strangers.getD k {}).addr == addr && (q.strangers.getD k {}).job == job)
  let seen := s.stampOf s.stamp256 / 256
  let fresh : Stranger := { addr := addr, job := job, reason := reason, count := 1, lastSeen := seen }
  let led := match hit with
    | some k => q.strangers.modify k (fun e => { e with count := satInc 32 e.count, lastSeen := seen })
    | none =>
      if q.strangers.length < 256 then q.strangers ++ [fresh]
      else match argMin (fun k => (q.strangers.getD k {}).lastSeen) (List.range 256) with
        | some k => q.strangers.set k fresh
        | none => q.strangers
  let ms := s.cycles / 312500
  let n := (if q.strMs = ms then q.strCount else 0) + 1
  let s1 := (s.modPort i (fun x => { x with strangers := led, strMs := ms, strCount := n })).countUp (aRytPortDropStranger i) 1
  if n = s.regN (aRytPortCc i) % 65536 + 1 then
    let s2 := s1.setEvents (aRytPortEvents i) 8 2
    let sec := s.cycles / 312500000
    if q.alarmSec = some sec then s2
    else (s2.modPort i (fun x => { x with alarmSec := some sec })).addErr stNotPermitted 0x0A 0 none 0xFF (toLE 1 i)
  else s1

/-- A frame of job 0 within the rate of R553; false makes it a stranger. -/
def State.zeroRate (s : State) (i : Nat) : State × Bool :=
  let q := s.port i
  let sec := s.cycles / 312500000
  let n := (if q.zeroSec = sec then q.zeroCount else 0) + 1
  (s.modPort i (fun x => { x with zeroSec := sec, zeroCount := n }), decide (n ≤ 1024))

/-! ### Consumers (R537 to R542) -/

/-- A SUBMIT sub-head and its data, as Tally takes it (R426, R537). -/
def submitSeg (p relay stamp : Nat) (b : Bytes) : Segm :=
  let w0 := be b 0 4
  let w2 := be b 8 4
  let len := be b 12 2 % 2 ^ 14
  { part := p, template := bits w0 31 26, contributor := bits w0 20 0, subId := be b 4 4, fin := bit w2 31,
    seg := bits w2 19 0, payload := slice b 16 len, sealBytes := b.drop (16 + len), relay := relay, stamp := stamp }

/-- The reserved fields of a SUBMIT sub-head are 0, and the data has the length that it says. -/
def submitOk (b : Bytes) : Bool :=
  let len := be b 12 2
  decide (16 ≤ b.length) && decide (bits (be b 0 4) 25 21 = 0) && decide (bits (be b 8 4) 30 20 = 0) &&
    decide (len ≤ 8192) && decide (be b 14 2 = 0) &&
    decide (b.length = 16 + len + (if bit (be b 8 4) 31 then 16 else 0))

/-- The hamper rank of a segment, where a window of its template tells it (R419, R548). -/
def State.segRank (s : State) (g : Segm) : Option Nat :=
  ((s.winsOf g.part).find? (fun w => (s.win w).geo.template == g.template)).map
    (fun w => g.contributor % max (s.win w).hampers.length 1)

/-- A SUBMIT reaches Tally; false where it is ignored because its hamper is FULL (R542, 09 R393). -/
def State.takeSubmit (s : State) (p i stamp : Nat) (b : Bytes) : State × Bool :=
  if !submitOk b then (s, true)
  else
    let g := submitSeg p i stamp b
    let rank := s.segRank g
    let r := s.takeSeg g
    if r.2 = .overrun then (r.1, false)
    else match rank with
      | none => (r.1, true)
      | some k => (r.1.modLink p i (fun l => { l with pushed := mod8 l.pushed k (· + 1), lastSeg := mod8 l.lastSeg k (fun _ => s.cycles + 1) }), true)

/-- A FETCH is answered with FOLIO frames (R539). -/
def State.takeFetch (s : State) (p i flow : Nat) (b : Bytes) : State :=
  let first := be b 8 1
  let parts := be b 9 1
  if b.length ≠ 16 ∨ 2 ^ 36 ≤ be b 0 8 ∨ parts = 0 ∨ 8 < first + parts ∨ !allZero (slice b 10 6) then s
  else (s.sendFolio p i (be b 0 8) flow first parts).1

/-- The transfer from peer `i` that FLOW `flow` names. -/
def State.peerMove (s : State) (p i flow : Nat) : Option Move :=
  s.folio.moves.find? (fun m => m.part == p && m.peer == i && m.flow == flow &&
    (decide (m.kind = .pull) || (decide (m.kind = .fetch) && decide ((s.leaf p m.vfn).cls = .peer))))

/-- A pull ends without the folio: it is left behind (07 R345). -/
def State.pullFails (s : State) (m : Move) : State :=
  let pl := (s.part m.part).plan
  match (pl.flying ++ pl.behind).find? (fun b => b.1 == m.vfn) with
  | some b => s.leaveBehind m.part m.vfn b.2
  | none => s

/-- A pull is refused: its folio is RETIRED where the REFUSE names the pull's own phase (07 R347; log entry 137), else left
behind (07 R342). -/
def State.pullRefused (s : State) (m : Move) (phase : Nat) : State :=
  let p := m.part
  if phase ≠ s.pullPhase p then (s.abandonMove m).pullFails m
  else
    let s1 := s.abandonMove m
    let l := s1.leaf p m.vfn
    ((if l.hvalid then s1.dropCopy p m.vfn else s1).setLeaf p m.vfn { state := .retired, wclass := l.wclass }).modPart p (fun y => { y with plan := y.plan.pulled m.vfn })

/-- A FOLIO frame's data is written (06 R281, 07 R341, R539). An absent mark leaves a pulled folio ABSENT, and
a fetched one reads 0 (06 R280). -/
def State.takeFolio (s : State) (p i flow : Nat) (b : Bytes) : State :=
  match s.peerMove p i flow with
  | none => s
  | some m =>
    let part := be b 8 1
    let remote := if m.kind = .pull then m.vfn else (s.leaf p m.vfn).home / 1024
    if b.length < 16 ∨ be b 0 8 ≠ remote ∨ 8 ≤ part ∨ 2 ≤ be b 9 1 ∨ !allZero (slice b 10 6) then s
    else if be b 9 1 = 1 then
      if m.kind = .pull then
        let s1 := s.abandonMove m
        let s2 := if (s1.leaf p m.vfn).cls = .peer then s1.setLeaf p m.vfn {} else s1
        s2.modPart p (fun x => { x with plan := x.plan.pulled m.vfn })
      else (s.modFolio (fun f => { f with hoard := Mem.zero f.hoard (65536 * m.dest) 65536 })).modMove p m.vfn (fun y => { y with parts := 255 })
    else if b.length ≠ 16 + 8192 then s
    else
      let a := 65536 * m.dest + 8192 * part
      let s1 := if m.kind = .pull then s.lpddrSeal p m.vfn m.gen m.dest (128 * part) (b.drop 16)
        else s.modFolio (fun f => { f with hoard := Mem.write f.hoard a (b.drop 16) })
      s1.modMove p m.vfn (fun y => { y with parts := y.parts ||| 2 ^ part })

/-- A MOVE frame is taken by its KIND (07 R342, R345, R346). -/
def State.takeMove (s : State) (p i flow : Nat) (b : Bytes) : State :=
  let v := be b 0 8
  let phase := be b 9 1
  if b.length ≠ 16 ∨ 2 ^ 36 ≤ v ∨ 16 ≤ phase ∨ !allZero (slice b 10 6) then s
  else match be b 8 1 with
    | 0 => s.takePull p { peer := i, vfn := v, phase := phase, flow := flow, since := s.cycles }
    | 1 =>
      match s.peer p i with
      | none => s
      | some e =>
        let x := s.part p
        let s1 := s.modPart p (fun y => { y with plan := { y.plan with
          handoffs := y.plan.handoffs.filter (· != (v, e.rank)), copies := y.plan.copies.filter (· != (v, e.rank)) } })
        if x.plan.handoffs.contains (v, e.rank) then s1.giveUp p v else s1
    | 2 =>
      match s.peerMove p i flow with
      | none => s
      | some m => if m.kind = .pull ∧ m.vfn = v then s.pullRefused m phase else s
    | _ => s

/-! ### Streams (R540 to R546) -/

/-- The window after a data frame accepted with stamp and send stamp in ns (R546). -/
def Link.congest (l : Link) (target : Nat) (rx tx : Nat) (now : Nat) : Link :=
  let d : Int := (rx : Int) - (tx : Int)
  let fresh := match l.dmin with | none => true | some m => decide (d < m) || decide ((l.dminAt : Int) + 10000000000 < (now : Int))
  let dmin := if fresh then d else l.dmin.getD d
  let l1 := if fresh then { l with dmin := some d, dminAt := now } else l
  let q := d - dmin
  if q ≤ (target : Int) then { l1 with w := min (l1.w + 65536 / l1.w) (4096 * 256) }
  else if d ≤ (now : Int) - (l1.lastCut : Int) then
    let cut := min 128 (205 * (q.toNat - target) / q.toNat)
    { l1 with w := max 256 (l1.w - l1.w * cut / 256), lastCut := now }
  else l1

/-- A frame accepted: the stream moves on, the window follows (R546), and 16 acceptances send an ACK
frame (R543). -/
def State.accepted (s : State) (p i port : Nat) (h : RxHeld) : State :=
  let s1 := s.modLink p i (fun l =>
    { (l.congest (s.regN (aRytPortCc port) / 65536) (h.stamp / 256) h.sendStamp s.ftNs) with
      rxNext := h.seq + 1
      accepts := l.accepts + 1
      acceptAt := if l.accepts = 0 then s.cycles else l.acceptAt })
  if 16 ≤ (s1.link p i).accepts then s1.sendAck p i else s1

/-- A message reaches its consumer; false where it is not accepted (R542). -/
def State.consume (s : State) (p i : Nat) (h : RxHeld) (msg : Bytes) : State × Bool :=
  match h.type with
  | 1 => s.takeSubmit p i h.stamp msg
  | 2 => (s.takeFetch p i h.flow msg, true)
  | 3 => (s.takeFolio p i h.flow msg, true)
  | _ => (s.takeMove p i h.flow msg, true)

/-- A frame is delivered: it goes on with a message whose other frames carried MORE, and the last brings it to its
consumer (R535, R541). -/
def State.deliver (s : State) (p i : Nat) (h : RxHeld) : State × Bool :=
  let msg := (s.link p i).asm ++ h.body
  if h.more then (s.modLink p i (fun l => { l with asm := msg }), true)
  else
    let r := s.consume p i h msg
    if r.2 then (r.1.modLink p i (fun l => { l with asm := [] }), true) else r

/-- The frames held that are next in order are delivered, at most `n` of them (R541). -/
def State.drain (p i port : Nat) : Nat → State → State
  | 0, s => s
  | n + 1, s =>
    let l := s.link p i
    match l.held.find? (fun h => h.seq == l.rxNext) with
    | none => s
    | some h =>
      let s1 := s.modLink p i (fun x => { x with held := x.held.filter (fun y => y.seq != h.seq) })
      match s1.deliver p i h with
      | (s2, true) => State.drain p i port n (s2.accepted p i port h)
      | (s2, false) => s2

/-- Segments in the reorder store of a port (R541). -/
def State.storeUse (s : State) (port : Nat) : Nat :=
  (s.links.map (fun e => match s.peer (e.1 / 1024) (e.1 % 1024) with
    | some x => if x.port = port then e.2.held.length else 0
    | none => 0)).foldl (· + ·) 0

/-- A duplicate is acknowledged again (R542). -/
def State.ackAgain (s : State) (p i : Nat) : State :=
  let s1 := s.modLink p i (fun l => { l with accepts := l.accepts + 1, acceptAt := if l.accepts = 0 then s.cycles else l.acceptAt })
  if 16 ≤ (s1.link p i).accepts then s1.sendAck p i else s1

/-- An authenticated data frame of the current generation in its place (R541, R542). -/
def State.inOrder (s : State) (p i port : Nat) (h : RxHeld) : State :=
  let l := s.link p i
  if h.seq < l.rxNext then s.ackAgain p i
  else if l.rxNext + 32 < h.seq then s.countUp (aRytPortDropReorder port) 1
  else if h.seq = l.rxNext then
    match s.deliver p i h with
    | (s1, true) => State.drain p i port 32 (s1.accepted p i port h)
    | (s1, false) => s1
  else if l.held.any (fun y => y.seq == h.seq) then s
  else if 2048 ≤ s.storeUse port then s.countUp (aRytPortDropReorder port) 1
  else s.modLink p i (fun x => { x with held := x.held ++ [h] })

/-- The acknowledgement and credit that a frame carries (R533, R546). -/
def State.takeAck (s : State) (p i : Nat) (h : Ryt) : State :=
  if !h.ackValid || decide ((s.link p i).txSeq < h.ack) then s
  else (s.modLink p i (fun l =>
    { l with sent := l.sent.filter (fun f => decide (h.ack ≤ f.seq)), credit := h.credit })).advanceGen p i

/-- The first authenticated frame of generation `g + 1`: the one before stays live for PEER_TIMEOUT (R563). -/
def State.nextGen (s : State) (p i : Nat) : State :=
  s.modLink p i (fun l =>
    { l with rxGen := l.rxGen + 1, rxNext := 0, held := [], asm := [], oldGen := some (l.rxGen, s.cycles + s.peerTimeout p) })

/-- The live generation of the stream that KEYGEN names (R556, R563). -/
def Link.liveGen (l : Link) (k : Nat) : Option Nat :=
  if l.rxGen % 256 = k then some l.rxGen
  else if (l.rxGen + 1) % 256 = k then some (l.rxGen + 1)
  else match l.oldGen with
    | some (g, _) => if g % 256 = k then some g else none
    | none => none

/-- A FOLIO frame of a transfer whose tag fails: the request is repeated once, and then the operations that
wait end with AUTH_FAILED (06 R294; a pull is left behind, 07 R345). -/
def State.folioTagFails (s : State) (p i flow : Nat) : State :=
  match s.peerMove p i flow with
  | none => s
  | some m =>
    if m.tries = 0 then
      let r := s.takeFlow p i
      let body := if m.kind = .pull then moveHead m.vfn 0 (s.pullPhase p) else fetchHead ((s.leaf p m.vfn).home / 1024) 0 8
      (r.2.queueMsg p i { type := if m.kind = .pull then 4 else 2, flow := r.1, body := body }).modMove p m.vfn
        (fun y => { y with flow := r.1, tries := 1, parts := 0, since := s.cycles })
    else ((s.abandonMove m).failTags p m.tags stAuthFailed).pullFails m

/-- A frame of a job from an entry of its peer table: tag, generation, acknowledgements and place in its
stream (R535, R541, R556). `want` says of an authenticated message whether this command brings it. -/
def State.rxJob (s0 s : State) (port p : Nat) (e : Peer) (h : Ryt) (payload : Bytes) (want : Bytes → Bool) : State :=
  let i := e.index
  let l := s.link p i
  match l.liveGen h.keygen, s.jobPrk p with
  | some g, some prk =>
    match openRyt (trafficKey prk i (s.part p).adm.own g) h payload with
    | none =>
      let s1 := s.countUp (aRytPortDropAuth port) 1
      if h.type = 3 then s1.folioTagFails p i h.flow else s1
    | some body =>
      if !want body then s0
      else if (h.type = 1 ∧ e.role ≠ 1) ∨ (2 ≤ h.type ∧ e.role ≠ 0) then s.countUp (aRytPortDropAuth port) 1
      else
        let s1 := if g = l.rxGen + 1 then s.nextGen p i else s
        let s2 := s1.takeAck p i h
        if h.type = 0 then s2
        else if g < (s2.link p i).rxGen then s2.ackAgain p i
        else s2.inOrder p i port
          { seq := h.seq, type := h.type, flow := h.flow, more := h.more, stamp := s.stampOf s.stamp256, sendStamp := h.stamp, body := body }
  | _, _ => s.countUp (aRytPortDropKeygen port) 1

/-- What a port makes of a frame before it knows its message: dropped, or an RYT frame with its sender. -/
inductive RxFrame where
  | dropped (s : State)
  | ryt (s : State) (u : RxUdp) (h : Ryt)

/-- The MAC and IP layers and the RYT header (R526 to R533): nothing is received while the port is down, and a
frame that arrives while the management domain restarts is dropped (18 R704). -/
def State.rxFrame (s : State) (port : Nat) (f : Bytes) : RxFrame :=
  match s.portEnt port with
  | none => .dropped s
  | some ent =>
    if !(s.port port).up || s.restarting then .dropped s
    else if !fcsOk f then .dropped (s.countUp (aRytPortDropMac port) 1)
    else
      let s1 := s.countUp (aRytPortRxFrames port) 1
      match (rxEth ent f).bind (rxUdp port ent) with
      | none => .dropped (s1.countUp (aRytPortDropMac port) 1)
      | some u =>
        if u.dstPort ≠ s.plan.udpPort then .dropped (s1.countUp (aRytPortDropMac port) 1)
        else match readRyt u.body with
          | none => .dropped (s1.countUp (aRytPortDropMac port) 1)
          | some h =>
            if 0xB ≤ h.type then .dropped (s1.countUp (aRytPortDropMac port) 1)
            else .ryt s1 u h

/-- A segment that arrives in the cycle in which a removal was accepted: it is decrypted under the keys at the start of the
cycle, and then refused and counted (17 R674, R679). -/
def State.lateSegment (s : State) (r : Removal) (port : Nat) (addr : Bytes) (h : Ryt) (payload : Bytes) : State :=
  match r.peers.find? (fun e => e.index == h.peer), r.prk with
  | some e, some prk =>
    if e.address ≠ addr then s.stranger port addr h.job 2
    else match (Tab.look (fun _ => {}) r.links (1024 * r.part + e.index)).liveGen h.keygen with
      | none => s.countUp (aRytPortDropKeygen port) 1
      | some g =>
        if e.role ≠ 1 ∨ (openRyt (trafficKey prk e.index r.own g) h payload).isNone then s.countUp (aRytPortDropAuth port) 1
        else s.countUp aCharterRemoveSegments 1
  | _, _ => s.stranger port addr h.job 2

/-- A frame of a job arrives as message `type` (R552): strangers are dropped before anything is
decrypted. A frame of another message leaves the state as it is: another command brings it. -/
def State.rxMessage (s : State) (port : Nat) (f : Bytes) (type : Nat) (want : Bytes → Bool) : State :=
  match s.rxFrame port f with
  | .dropped t => t
  | .ryt t u h =>
    if h.type ≠ type then s
    else match (List.range 16).find? (fun p => s.admitted p && s.jobId p == h.job && decide ((s.part p).adm.known ≤ s.cycles)) with
      | none =>
        match t.removal.filter (fun r => r.since == t.cycles && r.jobId == h.job && r.prk.isSome && type == 1) with
        | some r => t.lateSegment r port u.addr h u.body
        | none => t.stranger port u.addr h.job 1
      | some p =>
        match s.peer p h.peer with
        | none => t.stranger port u.addr h.job 2
        | some e => if e.address ≠ u.addr then t.stranger port u.addr h.job 2 else State.rxJob s t port p e h u.body want

/-- A message of job 0 under the number of another job: a stranger where the filter makes it one, else dropped and
counted in DROP_MAC (R552; log entry 179). -/
def State.notZero (s : State) (port : Nat) (u : RxUdp) (h : Ryt) : State :=
  match (List.range 16).find? (fun p => s.admitted p && s.jobId p == h.job && decide ((s.part p).adm.known ≤ s.cycles)) with
  | none => s.stranger port u.addr h.job 1
  | some p =>
    if (s.peer p h.peer).any (fun e => e.address == u.addr) then s.countUp (aRytPortDropMac port) 1
    else s.stranger port u.addr h.job 2

/-- A frame of a job 0 message of `type`, whose content goes on to `body` once it is whole (R535, R536,
R553). -/
def State.rxZero (s : State) (port : Nat) (f : Bytes) (type : Nat) (body : State → RxUdp → Ryt → Bytes → State) : State :=
  match s.rxFrame port f with
  | .dropped t => t
  | .ryt t u h =>
    if h.type ≠ type then s
    else if h.job ≠ 0 then t.notZero port u h
    else match t.zeroRate port with
      | (t1, false) => t1.stranger port u.addr 0 3
      | (t1, true) =>
        let n := u.body.length
        if n < 48 ∨ !allZero (u.body.drop (n - 16)) then t1.countUp (aRytPortDropMac port) 1
        else
          let data := slice u.body 32 (n - 48)
          let q := t1.port port
          let old := q.zero.find? (fun z => z.addr == u.addr && z.type == type && z.next == h.seq)
          let whole := (match old with | some z => z.body | none => []) ++ data
          let rest := q.zero.filter (fun z => !(z.addr == u.addr && z.type == type))
          if h.more ∧ whole.length ≤ 65536 then
            t1.modPort port (fun x => { x with zero := rest ++ [{ addr := u.addr, type := type, next := h.seq + 1, body := whole }] })
          else if h.more then t1.modPort port (fun x => { x with zero := rest })
          else body (t1.modPort port (fun x => { x with zero := rest })) u h whole

/-- SUBMIT (R537, R538), with the instant of its ingress stamp (08 R364, R365). -/
def execSubmit (port : Fin 64) (frame : Bytes) (sub : Fin 820) (s : State) : Host.Outcome State Fault Refusal :=
  .next (s.atInstant sub (fun t => t.rxMessage port frame 1 (fun _ => true)))

/-- FETCH (R539). -/
def execFetch (port : Fin 64) (frame : Bytes) (s : State) : Host.Outcome State Fault Refusal :=
  .next (s.rxMessage port frame 2 (fun _ => true))

/-- FOLIO (R539). -/
def execFolio (port : Fin 64) (frame : Bytes) (s : State) : Host.Outcome State Fault Refusal :=
  .next (s.rxMessage port frame 3 (fun _ => true))

/-- PULL_REQ (07 R342). -/
def execPullReq (port : Fin 64) (frame : Bytes) (s : State) : Host.Outcome State Fault Refusal :=
  .next (s.rxMessage port frame 4 (fun b => be b 8 1 == 0))

/-- CONFIRM (07 R346). -/
def execConfirm (port : Fin 64) (frame : Bytes) (s : State) : Host.Outcome State Fault Refusal :=
  .next (s.rxMessage port frame 4 (fun b => be b 8 1 == 1))

/-- REFUSE (07 R342). -/
def execRefuse (port : Fin 64) (frame : Bytes) (s : State) : Host.Outcome State Fault Refusal :=
  .next (s.rxMessage port frame 4 (fun b => be b 8 1 == 2))

/-- ACK (R543). -/
def execAck (port : Fin 64) (frame : Bytes) (s : State) : Host.Outcome State Fault Refusal :=
  .next (s.rxMessage port frame 0 (fun _ => true))

/-- ACK_DELAY_EXPIRY (R543): 2 µs after the first acceptance that no frame has acknowledged, an ACK frame
is sent; a relay without grants in hand gets one too (log entry 46). -/
def execAckDelayExpiry (p : Fin 16) (peer : Nat) (s : State) : Host.Outcome State Fault Refusal :=
  .next (
    let l := s.link p peer
    if !s.admitted p then s
    else if 0 < l.accepts then (s.advanceToCycle (l.acceptAt + usCycles 2)).sendAck p peer
    else if s.isRelay p peer && (List.range 8).any (fun r =>
        decide (l.grants.getD r 0 ≤ l.pushed.getD r 0) && decide (s.dealGrants p r ≠ s)) then s.sendAck p peer
    else s)

/-! ### Retransmission and generations (R544, R563) -/

/-- A stream fails: what waits on it ends with UNCORRECTABLE, and it restarts at SEQ 0 under a new
generation (R544, 06 R295). -/
def State.streamFails (s : State) (p i : Nat) : State :=
  let s1 := (s.modLink p i (fun l =>
    { l with txGen := l.txGen + 1, txSeq := 0, txAck := 0, sent := [], rekey := false, credit := 16 })).countUp (aRytPartFails p) 1
  let ms := s1.folio.moves.filter (fun m => m.part == p && m.peer == i &&
    (decide (m.kind = .pull) || (decide (m.kind = .fetch) && decide ((s1.leaf p m.vfn).cls = .peer))))
  (ms.foldl (fun t m => (t.loseMove m).pullFails m) s1).countUp (aRytPartRekeys p) 1

/-- The cycle at which a frame's RTO passes: RTO doubles at each TRY (R544). -/
def TxFrame.expires (f : TxFrame) : Nat := f.at_ + usCycles (f.rtoUs * 2 ^ f.try_)

/-- The frame in flight whose RTO passes first. -/
def Link.nextRto (l : Link) : Option TxFrame := argMin TxFrame.expires (l.sent.filter (fun f => !f.due))

/-- The transfer from peer `i` that has waited longest for its answer (06 R295). -/
def State.oldestAsk (s : State) (p i : Nat) : Option Move :=
  argMin (fun m => m.since) (s.folio.moves.filter (fun m => m.part == p && m.peer == i && decide (m.parts ≠ 255) &&
    (decide (m.kind = .pull) || (decide (m.kind = .fetch) && decide ((s.leaf p m.vfn).cls = .peer)))))

/-- A retransmission leaves where nothing stands in its way; with the port down it is lost (R567). -/
def State.retryFrame (s : State) (p i : Nat) (f : TxFrame) : State :=
  match s.peer p i with
  | none => s
  | some e =>
    if !(s.port e.port).up then
      s.modLink p i (fun x => { x with sent := x.sent.map (fun g =>
        if g.seq == f.seq then { g with try_ := g.try_ + 1, at_ := s.cycles } else g) })
    else if s.maySend p e.port && s.msgMay p e.port f.msg then s.resend p i f
    else s.modLink p i (fun x => { x with sent := x.sent.map (fun g => if g.seq == f.seq then { g with due := true } else g) })

/-- RTO_EXPIRY (R544): time passes until the first RTO of the stream; the frame is retransmitted, or the
stream fails. A peer that has acknowledged a request and does not answer it within PEER_TIMEOUT fails
the transfer (06 R295). -/
def execRtoExpiry (p : Fin 16) (peer : Nat) (s : State) : Host.Outcome State Fault Refusal :=
  .next (
    if !s.admitted p then s
    else match (s.link p peer).nextRto with
    | some f =>
      let t := s.advanceToCycle f.expires
      if f.limit ≤ f.try_ then t.streamFails p peer else t.retryFrame p peer f
    | none =>
      match s.oldestAsk p peer with
      | none => s
      | some m =>
        let t := s.advanceToCycle (m.since + s.peerTimeout p)
        (t.loseMove m).pullFails m)

/-- Every stream of partition `p` falls due for a new generation (R563). -/
def State.rekeyAll (s : State) (p : Nat) : State :=
  (s.part p).adm.peers.foldl (fun t e =>
    if e.index = (s.part p).adm.own then t
    else (t.modLink p e.index (fun x => { x with rekey := true })).advanceGen p e.index) s

/-- The next REKEY_AT time of partition `p`. -/
def State.nextRekey (s : State) (p : Nat) : Option Nat :=
  ((s.job p).map (·.key.rekeyAt)).bind (fun l => l[(s.part p).adm.rekeys]?)

/-- A REKEY_AT time is acted on (R563). -/
def State.rekeyNow (s : State) (p : Nat) : State :=
  (s.modPart p (fun x => { x with adm := { x.adm with rekeys := x.adm.rekeys + 1 } })).rekeyAll p

/-- REKEY_AT (R563, 08 R369, R376): time passes until the next time of the partition; while FT is UNLOCKED
the rotation is held. -/
def execRekeyAt (p : Fin 16) (s : State) : Host.Outcome State Fault Refusal :=
  .next (if !s.admitted p then s
    else match s.nextRekey p with
    | none => s
    | some t =>
      let s1 := s.advanceTo t
      if s.ftLocked then s1.rekeyNow p else s1.addErr stTimeUnlocked 0x0A 0 (some p) 0xFF [])

/-- KEYGEN_RETIRE (R563): PEER_TIMEOUT after the first frame of the new generation the old one is
retired. -/
def execKeygenRetire (p : Fin 16) (peer : Nat) (s : State) : Host.Outcome State Fault Refusal :=
  .next (match (s.link p peer).oldGen with
    | none => s
    | some (_, c) => (s.advanceToCycle c).modLink p peer (fun l => { l with oldGen := none }))

/-! ### Address resolution (R529) -/

/-- A port answers a request for its own address, and learns the MAC address of NEXT_HOP. -/
def State.resolveArp (s : State) (port : Nat) (ent : PortEnt) (e : RxEth) : Option State :=
  let b := e.body
  if e.ethertype ≠ 0x0806 ∨ !ent.ipv4 ∨ b.length < 28 ∨ b.take 6 ≠ [0, 1, 8, 0, 6, 4] then none
  else
    let mac := slice b 8 6
    let ip := slice b 14 4
    let mine := slice b 24 4 == ent.address.drop 12
    match be b 6 2 with
    | 1 =>
      if mine then some (s.queueCtl port { raw := some (withFcs (ethHead mac (portMac port) ent 0x0806 ++
        arpPacket 2 (portMac port) (ent.address.drop 12) mac ip)) })
      else some s
    | 2 => some (if mine && ip == ent.nextHop.drop 12 then s.modPort port (fun q => { q with nextMac := some mac }) else s)
    | _ => none

/-- The source or target link-layer address option of a Neighbor message. -/
def ndOption (kind : Nat) (b : Bytes) : Option Bytes :=
  if 32 ≤ b.length ∧ be b 24 1 = kind ∧ be b 25 1 = 1 then some (slice b 26 6) else none

/-- The same for IPv6: Neighbor Solicitation and Advertisement. -/
def State.resolveNd (s : State) (port : Nat) (ent : PortEnt) (e : RxEth) : Option State :=
  match (if ent.ipv4 then none else rxIp ent e) with
  | none => none
  | some (src, proto, hop, b) =>
    let dst := slice e.body 24 16
    if proto ≠ 58 ∨ hop ≠ 255 ∨ b.length < 24 ∨ be b 1 1 ≠ 0 ∨
        onesSum (pseudoHead false src dst 58 b.length ++ b) ≠ 65535 then none
    else match be b 0 1 with
      | 135 =>
        if slice b 8 16 == ent.address then
          let mac := (ndOption 1 b).getD e.src
          some (s.queueCtl port { raw := some (withFcs (ethHead mac (portMac port) ent 0x86DD ++
            ipPacket ent src 58 255 (ndMessage ent.address src 136 0x60000000 ent.address 2 (portMac port)))) })
        else some s
      | 136 =>
        some (if slice b 8 16 == ent.nextHop then
          s.modPort port (fun q => { q with nextMac := some ((ndOption 2 b).getD e.src) }) else s)
      | _ => none

/-- ADDRESS_RESOLUTION (R529): any other frame that is not RYT is dropped and counted. -/
def execAddressResolution (port : Fin 64) (frame : Bytes) (s : State) : Host.Outcome State Fault Refusal :=
  .next (match s.portEnt port with
    | none => s
    | some ent =>
      if !(s.port port).up then s
      else if !fcsOk frame then s.countUp (aRytPortDropMac port) 1
      else
        let s1 := s.countUp (aRytPortRxFrames port) 1
        match rxEth ent frame with
        | none => s1.countUp (aRytPortDropMac port) 1
        | some e =>
          match s1.resolveArp port ent e with
          | some t => t
          | none =>
            match s1.resolveNd port ent e with
            | some t => t
            | none =>
              match rxUdp port ent e with
              | some u => if u.dstPort = s.plan.udpPort then s else s1.countUp (aRytPortDropMac port) 1
              | none => s1.countUp (aRytPortDropMac port) 1)

/-! ### Lanes (R565 to R567) -/

/-- The largest group of working lanes of a port that is aligned to its own size: first lane and lanes
(R566). -/
def laneGroup (lanes failed : Nat) : Option (Nat × Nat) :=
  ([8, 4, 2, 1].filter (fun n => decide (n ≤ lanes))).findSome? (fun n =>
    ((List.range (lanes / n)).find? (fun k => (List.range n).all (fun j => !failed.testBit (n * k + j)))).map (fun k => (n * k, n)))

/-- A port trains on the group of its working lanes, or is down without one (R566, R567). -/
def State.train (s : State) (i : Nat) : State :=
  let q := s.port i
  let s1 := if q.up then s.setEvents (aRytPortEvents i) 2 2 else s
  match laneGroup (modeLanes s.plan.mode) q.failed with
  | some (k, n) => s1.modPort i (fun x => { x with up := false, retraining := true, firstLane := k, lanes := n })
  | none => s1.modPort i (fun x => { x with up := false, retraining := false, lanes := 0 })

/-- Lane `k` of port `i` fails: the port retrains. The status of the ledger entry is not stated (log entry 49). -/
def State.laneFails (s : State) (i k : Nat) : State :=
  if (s.port i).failed.testBit k then s
  else
    let s1 := s.modPort i (fun q => { q with failed := q.failed ||| 2 ^ k })
    if (s.portEnt i).isNone then s1
    else
      let r := (s1.setEvents (aRytPortEvents i) 4 2).free
      (r.2.addErr (r.1.toNat % 24) 0x0A 0 none 0xFF (toLE 1 i)).train i

/-- The reports of a lane's uncorrectable codewords within the last second, one of `n` now among them (R565). -/
def State.fecReports (s : State) (i k n : Nat) : List (Nat × Nat) :=
  (s.cycles, n) :: (Tab.look (fun _ => []) (s.port i).fec k).filter (fun r => decide (s.cycles < r.1 + 312500000))

/-- LANE_FAIL (R565, R566): alignment lost fails the lane, and a report of its FEC fails it where more than 1,024
codewords were uncorrectable within one second. The report is counted (R571). -/
def execLaneFail (lane : Fin 64) (cause : LaneCause) (s : State) : Host.Outcome State Fault Refusal :=
  .next (
    let n := modeLanes s.plan.mode
    let i := lane.val / n
    let k := lane.val % n
    match cause with
    | .align => s.laneFails i k
    | .fec corr uncorr =>
      let es := s.fecReports i k uncorr
      let s1 := ((s.countUp (aRytPortFecCorr i) corr).countUp (aRytPortFecUncorr i) uncorr).modPort i (fun q =>
        { q with fec := Tab.store (fun _ => []) q.fec k es })
      if 1024 < (es.map (·.2)).foldl (· + ·) 0 then s1.laneFails i k else s1)

/-- RETRAIN_COMPLETE (R566). -/
def execRetrainComplete (port : Fin 64) (s : State) : Host.Outcome State Fault Refusal :=
  .next (if (s.port port).retraining && (s.portEnt port).isSome then
    (s.modPort port (fun q => { q with up := true, retraining := false })).setEvents (aRytPortEvents port) 1 2
  else s)

/-- A port retrains on all its lanes (R567): those that work again are in use again. -/
def State.retrain (s : State) (req : Req) (i : Nat) : State :=
  if reqIsPf req && (s.portEnt i).isSome then (s.modPort i (fun q => { q with failed := 0 })).train i else s

/-- RETRAIN (R567): a write of RYT_PORT_CTRL.RETRAIN; from any function other than the PF it is
discarded. -/
def execRetrain (req : Req) (port : Fin 64) (s : State) : Host.Outcome State Fault Refusal :=
  .next (s.retrain req port)

end Sys2Proof.Machine
end

