-- ==== Sys2Proof/Machine/Admit.lean ====
section
/-!
DEFINITION. Machine/Admit.lean: admission to a job (13_ryinig R557 to R562) and evidence on request (R564).
-/
namespace Sys2Proof.Machine

/-! ### The HELLO (R558, R561) -/

/-- The parts of an ADMIT_HELLO: target JOB_ID, nonce, ephemeral key, encapsulation key, admitter key and
signature. -/
def helloJob (h : Bytes) : Nat := be h 0 3
def helloNonce (h : Bytes) : Bytes := slice h 4 32
def helloEph (h : Bytes) : Bytes := slice h 36 65
def helloKem (h : Bytes) : Bytes := slice h 101 1184
def helloKey (h : Bytes) : Bytes := slice h 1285 64
def helloSig (h : Bytes) : Bytes := slice h 1349 64

/-- The length of an ADMIT_HELLO. -/
def helloLen : Nat := 1413

/-- The partition whose job charter carries a JOB_ID. -/
def State.jobPart (s : State) (j : Nat) : Option Nat :=
  (List.range 16).find? (fun p => (s.job p).isSome && s.jobId p == j)

/-- Peer contexts in use (R561). -/
def State.peerContexts (s : State) : Nat :=
  ((List.range 16).map (fun p => (s.part p).adm.peers.length)).foldl (· + ·) 0

/-- STATUS codes of R561. -/
def adOk : Nat := 0
def adNoJob : Nat := 1
def adPin : Nat := 2
def adAlready : Nat := 3
def adNoRoom : Nat := 4
def adMalformed : Nat := 5
def adTimeout : Nat := 6
def adEntropy : Nat := 7

/-- The checks of R561 on a HELLO of partition `p`'s job: the status of the first failure. A further table
of peers has room while one context is free; the table itself is checked with the confirm. -/
def State.helloCheck (s : State) (p : Nat) (h : Bytes) : Nat :=
  let pin := ((s.job p).map (·.key.admitterPin)).getD []
  if sha256 (helloKey h) ≠ pin ∨ !ecdsaOk (helloKey h) (helloSig h) (h.take 1349) then adPin
  else if (s.part p).adm.st = .admitted then adAlready
  else if atValid (s.slot (jobRootSlot p)).attr ∨ 4096 ≤ s.peerContexts then adNoRoom
  else adOk

/-- An admission changed. -/
def State.modAdm (s : State) (p : Nat) (g : Admission → Admission) : State :=
  s.modPart p (fun x => { x with adm := g x.adm })

/-- A waiting reply of partition `p` leaves the generator's queue: a fresh HELLO replaces it (R561). -/
def State.dropReplies (s : State) (p : Nat) : State :=
  s.modRng (fun r => r.leave (fun c => match c with
    | .sec (.admitReply q _ _ _ _) => q == p
    | _ => false))

/-- A reply that carries a STATUS and nothing else (log entry 51). -/
def State.refuseHello (s : State) (port : Nat) (src : Bytes) (udp : Nat) (status : Nat) : State :=
  s.queueZero port src udp 8 0 (toLE 1 status ++ zeros 3)

/-- The x coordinate that the ephemeral keys agree on, where both keys of a HELLO are well formed: a point of the
curve, and an encapsulation key that ML-KEM-768 accepts. -/
def helloShared (d : Nat) (h : Bytes) : Option Bytes :=
  if kemKeyOk (helloKem h) then ecdh d ((helloEph h).drop 1) else none

/-- The reply to a HELLO with 72 random bytes: 40 for the ephemeral key and 32 for the encapsulation (R558,
R559); the handshake is PENDING for 10 s (R562). A HELLO whose keys are not well formed is MALFORMED (log
entry 42). -/
def State.helloReply (s : State) (p port : Nat) (src : Bytes) (udp : Nat) (h rnd : Bytes) : State :=
  let d := scalarOf (rnd.take 40)
  let kem := kemEncaps (helloKem h) (slice rnd 40 32)
  let head := zeros 4 ++ [(4 : Byte)] ++ p256Public d ++ kem.1
  match helloShared d h, s.evidence p (helloNonce h) with
  | some z, some ev =>
    let ss := z ++ kem.2
    let reply := head ++ ev
    let prk := hkdfExtract (sha256 (h ++ reply.take (reply.length - 64))) ss
    (s.modAdm p (fun a => { a with
      st := .pending, reason := adOk, port := port, source := src, sourceUdp := udp
      kA2p := hkdfExpand prk (ascii "RYT1 a2p") 44
      kP2a := hkdfExpand prk (ascii "RYT1 p2a") 44
      deadline := s.cycles + 10 * 312500000 })).queueZero port src udp 8 0 reply
  | none, _ => (s.modAdm p (fun a => { a with reason := adMalformed })).refuseHello port src udp adMalformed
  | _, none => s

/-- A HELLO whole (R561, R562, 16 R663). -/
def State.takeHello (s : State) (port : Nat) (u : RxUdp) (h : Bytes) : State :=
  if h.length ≠ helloLen then s
  else match s.jobPart (helloJob h) with
    | none => s.refuseHello port u.addr u.srcPort adNoJob
    | some p =>
      let st := s.helloCheck p h
      if st ≠ adOk then (s.modAdm p (fun a => { a with reason := st })).refuseHello port u.addr u.srcPort st
      else if s.rngFailed then (s.modAdm p (fun a => { a with reason := adEntropy })).refuseHello port u.addr u.srcPort adEntropy
      else
        let s1 := s.dropReplies p
        if s1.rngServes then
          let r := s1.draw 72
          r.2.helloReply p port u.addr u.srcPort h r.1
        else s1.rngWait (.sec (.admitReply p port u.addr u.srcPort h))

/-- ADMIT_HELLO (R561). -/
def execAdmitHello (port : Fin 64) (frame : Bytes) (s : State) : Host.Outcome State Fault Refusal :=
  .next (s.rxZero port frame 7 (fun t u _ h => t.takeHello port u h))

/-! ### The confirm (R558, R560, R562) -/

/-- A peer entry of 32 bytes (R560). -/
def readPeer (b : Bytes) : Peer :=
  { index := be b 0 2, role := be b 2 1, rank := be b 3 1, port := be b 4 1, address := slice b 8 16, udp := be b 24 2 }

/-- The peer table of a confirm obeys R560. -/
def State.peersOk (s : State) (p own : Nat) (es : List Peer) : Bool :=
  let ranks := (es.filter (fun e => decide (e.role = 0))).map (·.rank)
  let n := s.packages p
  decide (es.length ≤ 1024) && decide ((es.map (·.index)).Nodup) && es.all (fun e => decide (e.index < 1024) && decide (e.role ≤ 2)) &&
    es.all (fun e => s.mayUsePort p e.port) &&
    decide (ranks.length = n) && (List.range n).all ranks.contains &&
    es.any (fun e => e.index == own && decide (e.role = 0))

/-- The RESULT of a handshake under k_p2a (R558). -/
def State.sendResult (s : State) (a : Admission) (status : Nat) : State :=
  let r := gcmSeal (a.kP2a.take 32) (a.kP2a.drop 32) [] (toLE 1 status)
  s.queueZero a.port a.source a.sourceUdp 10 0 (r.1 ++ r.2)

/-- A pending handshake fails: NONE, and a RESULT with the STATUS (R562). -/
def State.admitFails (s : State) (p status : Nat) : State :=
  let a := (s.part p).adm
  (s.modAdm p (fun x => { x with st := .none, reason := status, kA2p := [], kP2a := [] })).sendResult a status

/-- The partition is admitted (R562, 15 R625). -/
def State.admitPart (s : State) (p own : Nat) (jms : Bytes) (es : List Peer) : State :=
  let a := (s.part p).adm
  let s1 := s.installKey (jobRootSlot p) (tenantAttr p (partRootSlot p) (2 ^ unLink + 2 ^ unTally) usLink 2 0) jms
  let past := (((s.job p).map (·.key.rekeyAt)).getD []).filter (fun t => decide (t ≤ s.ftNs))
  let s2 := (s1.dropLinks p).modPart p (fun x =>
    { x with
      rank := (es.find? (fun e => e.index == own)).map (·.rank)
      adm := { st := .admitted, reason := adOk, own := own, peers := es, rekeys := past.length, known := s.cycles + 1 } })
  (s2.openRank p).sendResult a adOk

/-- A confirm whole, for the pending handshake that it authenticates for (R558). -/
def State.takeConfirm (s : State) (port : Nat) (c : Bytes) : State :=
  let n := c.length
  let opened (p : Nat) : Option (Nat × Bytes) :=
    let a := (s.part p).adm
    if a.st ≠ .pending ∨ n < 16 then none
    else (gcmOpen (a.kA2p.take 32) (a.kA2p.drop 32) [] (c.take (n - 16)) (c.drop (n - 16))).map (fun b => (p, b))
  match (List.range 16).findSome? opened with
  | none => s.countUp (aRytPortDropAuth port) 1
  | some (p, b) =>
    let own := be b 32 2
    let count := be b 34 2
    let es := (List.range count).map (fun k => readPeer (slice b (40 + 32 * k) 32))
    if (s.part p).adm.deadline < s.cycles then s.admitFails p adTimeout
    else if 1024 < count ∨ b.length ≠ 40 + 32 * count ∨ !s.peersOk p own es then s.admitFails p adMalformed
    else if 4096 < s.peerContexts + count then s.admitFails p adNoRoom
    else s.admitPart p own (b.take 32) es

/-- ADMIT_CONFIRM (R562). -/
def execAdmitConfirm (port : Fin 64) (frame : Bytes) (s : State) : Host.Outcome State Fault Refusal :=
  .next (s.rxZero port frame 9 (fun t _ _ c => t.takeConfirm port c))

/-- ADMIT_TIMEOUT (R562): 10 s pass from the reply without a confirm. -/
def execAdmitTimeout (p : Fin 16) (s : State) : Host.Outcome State Fault Refusal :=
  .next (if (s.part p).adm.st = .pending then
    (s.advanceToCycle (s.part p).adm.deadline).admitFails p adTimeout
  else s)

/-! ### Evidence (R564) -/

/-- EVIDENCE_REQ (R564). -/
def execEvidenceReq (port : Fin 64) (frame : Bytes) (s : State) : Host.Outcome State Fault Refusal :=
  .next (s.rxZero port frame 5 (fun t u h b =>
    if b.length < 33 ∨ 16 ≤ be b 32 1 then t
    else match t.evidence (be b 32 1) (b.take 32) with
      | none => t
      | some ev => t.queueZero port u.addr u.srcPort 6 h.flow ev))

end Sys2Proof.Machine
end

