-- ==== Sys2Proof/Machine/Sched.lean ====
section
/-!
DEFINITION. Machine/Sched.lean: the scheduler's commands (05_hardware_scheduler R199 to R249) and core
faults (19_limits R720 to R724).
-/
namespace Sys2Proof.Machine

/-! ### Command windows (R199 to R205) -/

/-- The key of a byte of a function's window. -/
def winKey (f off : Nat) : Nat := 65536 * f + off

/-- The 64 bytes of a slot. -/
def State.slotBytes (s : State) (f i : Nat) : Bytes := Mem.read s.slots (winKey f (64 * i)) 64

/-- The function's window exists: no VF is enabled in recovery mode (18 R710). -/
def State.winServed (s : State) (f : Nat) : Bool :=
  s.portServed && !s.tamperHold && !(s.recoveryMode && decide (f ≠ 0))

/-- The bytes of a write that fall into one slot: discarded and counted while the device owns it (R201),
else stored (R202). -/
def State.slotPart (f off : Nat) (s : State) (bs : Bytes) : State :=
  if dOwner (s.slotBytes f (off / 64)) then s.modFunc f (fun x => { x with discards := min 1023 (x.discards + 1) })
  else { s with slots := Mem.write s.slots (winKey f off) bs }

/-- A write cut at slot boundaries, with fuel for the slots. -/
def State.slotWriteN (f : Nat) : Nat → Nat → State → Bytes → State
  | 0, _, s, _ => s
  | n + 1, off, s, bs =>
    if bs.isEmpty then s
    else
      let m := 64 - off % 64
      State.slotWriteN f n (off + m) (State.slotPart f off s (bs.take m)) (bs.drop m)

/-- SLOT_WRITE (R200 to R202): a write beyond the window reaches nothing. -/
def execSlotWrite (f : Fin 64) (off : Nat) (data : Bytes) (s : State) : Host.Outcome State Fault Refusal :=
  .next (if s.winServed f ∧ off + data.length ≤ 65536 then State.slotWriteN f 1025 off s data else s)

/-- ENABLE of a function's window. -/
def State.winOn (s : State) (f : Nat) : Bool := bit (s.regN (aSchedWinCtrl f)) 0

/-- The partition of a function holds the fetcher back: a pause (02 R70), a phase switch (R227) or a
removal (17 R674). -/
def State.fetchHeld (s : State) (f : Nat) : Bool :=
  match s.partOfFunc f with
  | none => false
  | some p =>
    let x := s.part p
    x.paused || decide (x.ph = .draining) || decide (x.ph = .boundary) || decide (x.ph = .moving) ||
      ((s.removal).map (fun r => r.part == p)).getD false

/-! ### The checks of R208 -/

/-- A failed check: its status, and whether the tag's scoreboard entry records it (R215). -/
abbrev AdmErr := Nat × Bool

/-- The checks of R208 on a descriptor of function `f`. -/
def State.admCheck (s : State) (f : Nat) (d : Bytes) : Option AdmErr :=
  let p := dTenant d
  let oc := dOpcode d
  let x := s.part p
  if s.funcOfPart p ≠ some f then some (stNotPermitted, false)
  else if x.job.isNone then some (stNotPermitted, false)
  else if x.ph = .stopped then some (stCapacityLost, true)
  else if !(opcodes.contains oc && dReservedOk d && s.ringOn f (dCq d) && (decide (dCore d = 0xFF) || decide (dCore d ≤ 0x3F))) then
    some (stMalformed, true)
  else if dCore d ≠ 0xFF ∧ !(s.coreMask p).testBit (dCore d) then some (stNotPermitted, true)
  else if !(if oc = 0x0010 then ((x.job).map (fun j => j.phases.any (fun m => m.phase == dPhase d))).getD false
      else decide (dPhase d = x.phase)) then some (stMalformed, true)
  else if (s.findOp p (dTag d)).isSome then some (stMalformed, false)
  else if (dDeps d).contains (dTag d) then some (stMalformed, true)
  else if isCoreOp oc ∧ (s.enabledCores p).isEmpty then
    some (if s.coreMask p = 0 then stNotPermitted else stCapacityLost, true)
  else none

/-- A descriptor taken by the fetcher: it fails its checks at once, or is held (R204, R208, R211). -/
def State.takeDesc (s : State) (f i : Nat) (d : Bytes) : State :=
  let n := (s.func f).fetched
  let s1 : State := { s with slots := Mem.set s.slots (winKey f (64 * i + 3)) (byteAt d 3 &&& 0x7F) }
  let s2 := s1.modFunc f (fun x => { x with fetchPtr := (i + 1) % 1024, fetched := n + 1 })
  match s.admCheck f d with
  | some (st, scores) => s2.failHeld f i d st scores
  | none => s2.modFunc f (fun x => { x with held := some { desc := d, slot := i, fetchNo := n } })

/-- The fetcher can take a descriptor from a function's window. -/
def State.fetchable (s : State) (f : Nat) : Bool :=
  let x := s.func f
  s.winOn f && x.held.isNone && dOwner (s.slotBytes f x.fetchPtr) && !s.fetchHeld f

/-- The window that the round robin serves next (R205). -/
def State.fetchNext (s : State) : Option Nat :=
  ((List.range 64).map (fun i => (s.fetchTurn + i) % 64)).find? s.fetchable

/-- DESCRIPTOR_FETCH (R203 to R205, R208): the next window of the round robin, from function 0 on after reset (log
entry 122). -/
def execDescriptorFetch (f : Fin 64) (s : State) : Host.Outcome State Fault Refusal :=
  let x := s.func f
  .next (if s.partsRun && s.fetchNext == some f.val then
    ({ s with fetchTurn := (f.val + 1) % 64 } : State).takeDesc f x.fetchPtr (s.slotBytes f x.fetchPtr)
  else s)

/-! ### Admission (R209 to R216, R219) -/

/-- Where an operation would be admitted: its core, window, and unit. -/
def State.placement (s : State) (p : Nat) (d : Bytes) : Option (Nat × Nat × Nat) :=
  if isCoreOp (dOpcode d) then (s.placeCore p d).map (fun l => (l, l, 0))
  else (s.sharedHolder p d).map (fun h => (0xFF, h, if isPolyOp (dOpcode d) then s.polyUnit p d else 0))

/-- CORE_SR_SEED of the cores of partition `p` (04 R174). -/
def State.seedOf (s : State) (p : Nat) : Nat :=
  match ((s.enabledCores p).filterMap s.physOf).head? with
  | some i => s.pair (aCoreSrSeedLo (i / 9) (i % 9))
  | none => 0

/-- The entry of a newly admitted operation (R209, R214). -/
def State.newOp (s : State) (p f : Nat) (h : Held) (core holder unit : Nat) : Op :=
  let d := h.desc
  { part := p, tag := dTag d, desc := d, func := f, slot := h.slot, fetchNo := h.fetchNo, holder := holder, core := core,
    deps := (dDeps d).filter (fun t => ((s.findOp p t).map (fun o => decide (o.stage ≠ .recording))).getD false),
    waitSub := decide (core ≠ 0xFF) && !s.hasPhys core, flags := s.admFlags p, unit := unit,
    auto := decide (dCore d = 0xFF) || s.retired.testBit (dCore d),
    seed := s.seedOf p, engines := s.regN (aHostPartDma p) % 16,
    bmeOff := decide (dOpcode d / 256 = 6) && !(s.func f).bme }

/-- The dependencies that have already failed (R214). -/
def State.failedDeps (s : State) (p : Nat) (d : Bytes) : List Nat :=
  (dDeps d).filter (fun t =>
    match s.findOp p t with
    | some o => decide (o.stage = .recording) && !s.lastOk p t
    | none => !s.lastOk p t)

/-- A dependency has already failed (R214). -/
def State.depFailed (s : State) (p : Nat) (d : Bytes) : Bool := !(s.failedDeps p d).isEmpty

/-- INFLIGHT_QUOTA of partition `p` (02 R56). -/
def State.quota (s : State) (p : Nat) : Nat := ((s.job p).map (·.quota)).getD 0

/-- One folio of an operand brought to the Hoard ahead of the operation that reads it; what cannot start is left to the
operation itself (R218). -/
def State.fetchAhead (o : Op) (s : State) (v : Nat) : State :=
  let l := s.leaf o.part v
  if l.state = .resident ∧ !l.hvalid then
    match s.startFetch o.part v (s.colFor o v) [] with
    | .ok t => t.prof o.cluster o.part 0x11 1
    | .wait t => t
    | .fail t _ => t
  else s

/-- The operands of the next LOOKAHEAD operations of core window `l` of partition `p` are staged, in admission order
(R218): an operation that waits has every dependency satisfied or in flight. Their folios come to the Hoard; what they
hold is read when the operation runs (log entry 131). -/
def State.stageAhead (s : State) (p l : Nat) : State :=
  let next := (s.ops.filter (fun o => o.part == p && o.holder == l && isCoreOp (dOpcode o.desc) && decide (o.stage = .waiting))).take
    (bits (s.regN (aSchedPartCtrl p)) 19 16)
  next.foldl (fun t o => ((namedReads o.desc).flatMap foliosOf).foldl (State.fetchAhead o) t) s

/-- The held descriptor of a function admitted where R211 lets it. -/
def State.admitHeld (s : State) (f : Nat) (h : Held) : State :=
  let d := h.desc
  let p := dTenant d
  let x := s.part p
  let s0 := s.modFunc f (fun y => { y with held := none })
  if isCoreOp (dOpcode d) ∧ (s.enabledCores p).isEmpty then
    s0.failHeld f h.slot d (if s.coreMask p = 0 then stNotPermitted else stCapacityLost) true
  else if x.paused ∨ x.ph ≠ .opn ∨ s.quota p ≤ (s.opsOf p).length then s
  else
    match s.placement p d with
    | none => s
    | some (core, holder, unit) =>
      if 64 ≤ s.occupied holder then s
      else
        let o := s.newOp p f h core holder unit
        let s1 : State := { s0 with ops := s0.ops ++ [o], power := if s.power = .idle then .active else s.power }
        let s2 := s1.prof (clusterOf holder) p 0x20 1
        if s.depFailed p d then (s2.cancelAfter o (s2.failedDeps p d)).cascade 4096 p [o.tag] else s2.stageAhead p holder

/-- ADMIT (R211). -/
def execAdmitDesc (f : Fin 64) (s : State) : Host.Outcome State Fault Refusal :=
  .next (match (s.func f).held with
    | some h => if s.partsRun ∧ dOpcode h.desc ≠ 0x0010 ∧ dOpcode h.desc ≠ 0x0011 then s.admitHeld f h else s
    | none => s)

/-! ### Dispatch (R216, R217, 14 R596) -/

/-- The queue of an operation: its kind and the engine. ACC_SETTLE does not occupy the array (04 R188). -/
def Op.queue (o : Op) : Nat × Nat :=
  let oc := dOpcode o.desc
  if oc = 0x0200 then (1, o.core)
  else if oc = 0x0102 then (6, o.core)
  else if isCoreOp oc then (0, o.core)
  else if isPolyOp oc then (2, o.unit)
  else if oc / 256 = 6 ∨ oc = 0x0405 then (3, 0)
  else if oc / 256 = 4 then (4, o.holder / 8)
  else (5, o.holder / 8)

/-- The fence of an operation is satisfied (R216). -/
def State.fenceOk (s : State) (o : Op) : Bool :=
  !dFence o.desc || !(s.ops.any (fun q => q.func == o.func && decide (q.fetchNo < o.fetchNo) && decide (q.stage ≠ .recording)))

/-- An operation is ready (R217). -/
def State.ready (s : State) (o : Op) : Bool :=
  decide (o.stage = .waiting) && o.deps.isEmpty && !o.waitSub && s.fenceOk o &&
  (decide (o.core = 0xFF) || s.hasPhys o.core)

/-- The host DMA operations of a partition that run. -/
def State.dmaRunning (s : State) (p : Nat) : Nat :=
  (s.ops.filter (fun o => o.part == p && decide (o.stage = .running) && o.queue == (3, 0))).length

/-- A DMA operation's partition is below its ENGINES limit and its function may issue requests (14 R596,
R599); one that was not permitted at admission only has to end (R598). -/
def State.dmaMay (s : State) (o : Op) : Bool :=
  o.bmeOff || (decide (s.dmaRunning o.part < o.engines) && (s.func o.func).bme)

/-- The lowest idle DMA engine. -/
def State.dmaIdle (s : State) : Option Nat :=
  (List.range 8).find? (fun e => decide (s.mgmt.stageEng ≠ some e) && !(s.ops.any (fun o => decide (o.stage = .running) && o.queue == (3, 0) && o.unit == e)))

/-- An engine that runs one operation at a time is free, and no macro holds it (12 R504, R515). -/
def State.engineFree (s : State) (o : Op) : Bool :=
  decide (2 < o.queue.1) ||
    (!(s.ops.any (fun q => decide (q.stage = .running) && q.queue == o.queue)) && !(decide (o.queue.1 = 2) && s.macroHolds o.unit))

/-- An earlier operation of the same queue is ready, and is taken first (R217). -/
def State.earlierReady (s : State) (o : Op) : Bool :=
  (s.ops.takeWhile (fun q => !(q.part == o.part && q.tag == o.tag))).any
    (fun q => q.queue == o.queue && s.ready q && (decide (o.queue ≠ (3, 0)) || s.dmaMay q))

/-- OP_DISPATCH (R217). -/
def execOpDispatch (p : Fin 16) (tag : Fin 4096) (s : State) : Host.Outcome State Fault Refusal :=
  .next (match s.findOp p tag with
    | none => s
    | some o =>
      if !(s.partsRun && s.ready o && s.engineFree o && !s.earlierReady o) then s
      else if o.queue = (3, 0) then
        match s.dmaIdle with
        | some e => if s.dmaMay o then s.modOp p tag (fun q => { q with stage := .running, unit := e }) else s
        | none => s
      else
        let t := s.modOp p tag (fun q => { q with stage := .running })
        if isCoreOp (dOpcode o.desc) then t.stageAhead p o.holder else t)

/-! ### Completion (R215, R234 to R239) -/

/-- OP_COMPLETE (R215): not while a transfer still holds writes of the operation. -/
def execOpComplete (p : Fin 16) (tag : Fin 4096) (s : State) : Host.Outcome State Fault Refusal :=
  .next (match s.findOp p tag with
    | none => s
    | some o =>
      if o.stage ≠ .finished ∨ s.folio.moves.any (fun m => m.part == p.val && m.held.any (fun h => h.2.1 == tag.val)) then s
      else
        let s1 := (s.countCore o).complete o o.status
        (s1.substituteIdle p).checkDrained p)

/-- The message of a ring is sent, and its counts start anew (R239). -/
def State.ringMsg (s : State) (f r : Nat) : State :=
  (s.sendMsix f (bits (s.regN (aSchedCqCfg f r)) 31 24)).modRing f r (fun x => { x with since := 0, firstAt := none })

/-- A record is written at TAIL (R235, R236), its entry is freed, and the message follows where one is
due (R239). -/
def State.writeRecord (s : State) (f r : Nat) (x : PendRec) : State :=
  let tail := s.regN (aSchedCqTail f r)
  let n := s.ringSize f r
  let cfg := s.regN (aSchedCqCfg f r)
  let rg := s.ring f r
  let bs := x.bytes.take 28 ++ toLE 4 (if rg.lap then 2 ^ 31 else 0)
  let s1 : State := { s with
    hostMem := Mem.write s.hostMem (s.pair (aSchedCqBaseLo f r) + 32 * tail) bs, recs := s.recs.erase x }
  let s2 := if x.hasEntry then s1.freeEntry x.part x.tag else s1
  let s3 := (s2.setRegN (aSchedCqTail f r) ((tail + 1) % n)).modRing f r (fun y =>
    { lap := if tail + 1 = n then !y.lap else y.lap, since := y.since + 1,
      firstAt := match y.firstAt with | some c => some c | none => some s.cycles })
  if x.irq ∨ (bits cfg 23 16 ≠ 0 ∧ bits cfg 23 16 ≤ rg.since + 1) then s3.ringMsg f r else s3

/-- A record is not written before those of the operations that caused its cancellation (R215). -/
def State.recordWaits (s : State) (x : PendRec) : Bool :=
  s.recs.any (fun y => y.hasEntry && y.part == x.part && x.after.contains y.tag)

/-- RECORD_WRITE (R237): the oldest record of the ring, once the ring has room and the function may
issue requests (14 R599); not while the management domain restarts (00_scope R18). -/
def execRecordWrite (f : Fin 64) (r : Fin 8) (s : State) : Host.Outcome State Fault Refusal :=
  .next (match s.recs.find? (fun x => x.func == f.val && x.ring == r.val) with
    | none => s
    | some x =>
      if s.portServed && (s.func f).bme && s.ringRoom f r && !s.recordWaits x then
        let t := s.writeRecord f r x
        if x.hasEntry then t.substituteIdle x.part else t
      else s)

/-- COAL_TIMEOUT (R239): COAL_US µs after the first pending record. -/
def execCoalTimeout (f : Fin 64) (r : Fin 8) (s : State) : Host.Outcome State Fault Refusal :=
  let us := bits (s.regN (aSchedCqCfg f r)) 15 8
  .next (match (s.ring f r).firstAt with
    | some c => if us = 0 then s else (s.advanceToCycle (c + usCycles us)).ringMsg f r
    | none => s)

/-! ### Cancellation (R230 to R233) -/

/-- CANCEL's body is well formed (R230). -/
def cancelOk (d : Bytes) : Bool :=
  decide (bits (le d 0x18 2) 15 12 = 0) && decide (le d 0x1A 1 ≤ 1) && allZero (slice d 0x1B 37)

/-- What CANCEL cancels: the state after, and the number cancelled directly (R232; log entry 21). -/
def State.cancelScope (s : State) (p : Nat) (d : Bytes) : State × Nat :=
  if le d 0x1A 1 = 1 then (s.settleGroups (fun r => r.part == p)).cancelPart p stCancelled
  else
    let t := bits (le d 0x18 2) 11 0
    match s.findOp p t with
    | some o => if o.stage = .waiting ∨ o.stage = .running then ((s.settleGroups (fun r => r.part == p && r.tag == t)).cancelOp p t stCancelled, 1) else (s, 0)
    | none => (s, 0)

/-- CANCEL (R230, R232): it acts on the held descriptor. -/
def execCancel (f : Fin 64) (s : State) : Host.Outcome State Fault Refusal :=
  .next (match (s.func f).held with
    | none => s
    | some h =>
      let p := dTenant h.desc
      if dOpcode h.desc ≠ 0x0011 ∨ (s.removal.map (·.part)) = some p then s
      else
        let s1 := s.modFunc f (fun x => { x with held := none })
        if !cancelOk h.desc then s1.failHeld f h.slot h.desc stMalformed true
        else
          let r := s1.cancelScope p h.desc
          let s2 := (r.1.setLastOk p (dTag h.desc) true).immediate f h.slot h.desc stDone (s.admFlags p) r.2
          (s2.substituteIdle p).checkDrained p)

/-- CANCEL_ALL of a function (R233). -/
def State.cancelFunc (s : State) (f : Nat) : State :=
  match s.partOfFunc f with
  | some p => (((s.settleGroups (fun r => r.part == p)).cancelPart p stCancelled).1.substituteIdle p).checkDrained p
  | none => s

/-- CANCEL_ALL (R233). -/
def execCancelAll (f : Fin 64) (s : State) : Host.Outcome State Fault Refusal :=
  .next (if s.partsRun then s.cancelFunc f else s)

/-- PHASE_SWITCH (R227, R229): the body is 0, and the partition drains. -/
def execPhaseSwitch (f : Fin 64) (s : State) : Host.Outcome State Fault Refusal :=
  .next (match (s.func f).held with
    | none => s
    | some h =>
      let p := dTenant h.desc
      let x := s.part p
      if dOpcode h.desc ≠ 0x0010 ∨ x.ph ≠ .opn ∨ x.paused then s
      else
        let s1 := s.modFunc f (fun y => { y with held := none })
        if !allZero (slice h.desc 0x18 40) then s1.failHeld f h.slot h.desc stMalformed true
        else
          (s1.modPart p (fun y => { y with
            ph := .draining, target := dPhase h.desc,
            switch := some { desc := h.desc, func := f, slot := h.slot, drainAt := s.cycles,
                             drainMs := bits (s.regN (aSchedPartCtrl p)) 9 0, flags := s.admFlags p } })).checkDrained p)

/-! ### Window and ring registers (R245 to R249) -/

/-- A function has an operation in flight. -/
def State.funcBusy (s : State) (f : Nat) : Bool := s.ops.any (fun o => o.func == f)

/-- BAR0 is served for function `f`'s own registers. -/
def State.regsServed (s : State) : Bool := s.portServed && !s.tamperHold && !s.recoveryMode

/-- A write of a ring register is let through (R247). -/
def State.ringMay (s : State) (f : Nat) : Bool := !s.winOn f && !s.funcBusy f

/-- CQ_HEAD_WRITE (R237, R247). -/
def execCqHeadWrite (f : Fin 64) (r : Fin 8) (v : W32) (s : State) : Host.Outcome State Fault Refusal :=
  .next (if s.regsServed then s.setReg (aSchedCqHead f r) (v &&& 0xFFFF) else s)

/-- A write of CQ_CFG made by a requester (R247, R249). -/
def State.cqCfg (s : State) (req : Req) (f r : Nat) (v : W32) : State :=
  let n := bits v.toNat 4 0
  if !s.ringMay f then s.regErrOf (s.partOfFunc f) stNotPermitted req (aSchedCqCfg f r)
  else if (1 ≤ n ∧ n ≤ 5) ∨ 16 < n then s.regErrOf (s.partOfFunc f) stMalformed req (aSchedCqCfg f r)
  else ((s.setReg (aSchedCqCfg f r) (v &&& 0xFFFFFF1F)).setRegN (aSchedCqTail f r) 0).modRing f r (fun _ => {})

/-- CQ_CFG_WRITE (R249). -/
def execCqCfgWrite (f : Fin 64) (r : Fin 8) (v : W32) (s : State) : Host.Outcome State Fault Refusal :=
  .next (if s.regsServed then s.cqCfg (.fn f) f r v else s)

/-- ENABLE written: 1 is discarded while ring 0 is off. -/
def State.winSet (s : State) (f : Nat) (on : Bool) : State :=
  if on && !s.ringOn f 0 then s else s.setRegN (aSchedWinCtrl f) (b2n on)

/-- RESET written: ignored while ENABLE is 1 (R203). -/
def State.winClear (s : State) (f : Nat) : State :=
  if s.winOn f then s
  else
    let t : State := { s with slots := (List.range 1024).foldl (fun m i =>
      let a := winKey f (64 * i + 3)
      Mem.set m a (Mem.get m a &&& 0x7F)) s.slots }
    t.modFunc f (fun x => { x with fetchPtr := 0, discards := 0 })

/-- WIN_ENABLE (R205). -/
def execWinEnable (f : Fin 64) (v : W32) (s : State) : Host.Outcome State Fault Refusal :=
  .next (if s.regsServed then s.winSet f (v.getLsbD 0) else s)

/-- WIN_RESET (R203). -/
def execWinReset (f : Fin 64) (s : State) : Host.Outcome State Fault Refusal :=
  .next (if s.regsServed then s.winClear f else s)

/-! ### Core faults -/

/-- CORE_FAULT (19 R720 to R724): `cause` 0 self-test, 1 residue or parity, 2 hang, 3 scratch. -/
def execCoreFault (c : Fin 8) (k : Fin 9) (cause : Fin 4) (line : W32) (s : State) : Host.Outcome State Fault Refusal :=
  .next (s.failCore (9 * c + k) cause line.toNat)

/-- CORE_HANG (19 R720). -/
def execCoreHang (c : Fin 8) (k : Fin 9) (s : State) : Host.Outcome State Fault Refusal :=
  .next (s.failCore (9 * c + k) 2 0)

end Sys2Proof.Machine
end

