-- ==== Sys2Proof/Machine/Hoard.lean ====
section
/-!
DEFINITION. Machine/Hoard.lean: row repair and retirement of Hoard frames (06_hoard R254 to R261), the BAR4
aperture (R263, R264), and retirement of LPDDR5X channels (R269 to R271).
-/
namespace Sys2Proof.Machine

/-! ### Counters -/

/-- A corrected Hoard error counted (R254). -/
def State.hoardCe (s : State) : State := s.modFolio (fun f => { f with eccCorr := satInc 16 f.eccCorr })

/-- The number of the patrol period (R255). -/
def State.patrolPeriod (s : State) : Nat :=
  s.cycles / (max 1 (bits (s.regN aFolioCfg) 31 24) * 60 * 312500000)

/-- Corrected errors of a row in this patrol period; the table keeps the period with the count (R256). -/
def State.rowCount (s : State) (k : Nat) : Nat :=
  let v := Tab.look (fun _ => 0) s.folio.rowCe k
  if v / 16 = s.patrolPeriod then v % 16 else 0

/-- The ledger entry of a Hoard word or frame (19 R732). -/
def State.hoardErr (s : State) (status frame row word : Nat) : State :=
  s.addErr status 0x04 0 none 0xFF (toLE 4 frame ++ toLE 2 row ++ toLE 1 word)

/-! ### Frames that are retired (R258 to R260, R55) -/

/-- Partitions whose FOLIO_FRAMES can no longer be kept are flagged (R55; log entry 62). -/
def State.flagHoard (s : State) : State :=
  let ps := ((s.dev).map (·.parts)).getD []
  if ((List.range 8).map s.cacheFrames).sum < (ps.map (·.folioFrames)).sum then
    ps.foldl (fun t r => if r.folioFrames = 0 then t else t.modPart r.id (fun x => { x with hoardDeg := true })) s
  else s

/-- A free frame of the folio cache, from column `c` on (R260). -/
def State.spareFrame (s : State) (c : Nat) : Option Nat := (List.range 8).findSome? (fun k => s.freeInCol ((c + k) % 8))

/-- A frame number replaced in a list. -/
def swapFrame (a b : Nat) (l : List Nat) : List Nat := l.map (fun f => if f = a then b else f)

/-- The position of a frame in the retention ring (R397). -/
def State.ringPos (s : State) (f : Nat) : Option Nat :=
  (List.range s.split.retention).find? (fun k => s.ringFrame k == f)

/-- Frame `g` of the folio cache takes the place of frame `f` in its region, with its readable contents
(R260, 09 R397). -/
def State.replaceFrame (s : State) (f g : Nat) (r : Region) : State :=
  let pos := if r = .retention then s.ringPos f else none
  let s1 := s.modFolio (fun x => { x with
    hoard := Mem.copy x.hoard (65536 * f) x.hoard (65536 * g) 65536
    poison := (x.poison.filter (fun e => decide (e.1 / 8192 = f))).foldl
      (fun t e => Tab.store (fun _ => false) t (8192 * g + e.1 % 8192) true) x.poison
    regionSwap := Tab.put1 x.regionSwap g r })
  let s2 := match s.hUse f with
    | .tally w => (s1.setHUse g (.tally w)).modWin w (fun x => { x with
        accFrames := x.accFrames.map (swapFrame f g), ledgerFrames := swapFrame f g x.ledgerFrames,
        recFrames := swapFrame f g x.recFrames })
    | _ => s1
  match pos with
  | some k => s2.modTally (fun t => { t with
      ringSwap := Tab.put1 t.ringSwap k g
      ringOwner := (t.ringOwner.filter (fun e => decide (e.1 / 1024 = f))).foldl
        (fun o e => Tab.store (fun _ => 0) o (1024 * g + e.1 % 1024) e.2) (t.ringOwner.filter (fun e => decide (e.1 / 1024 ≠ f))) })
  | none => s2

/-- A folio leaves a Hoard frame that is retired, with no transfer of it under way: a copy that LPDDR5X or host
memory also holds is dropped unless it is pinned, another moves to a free frame with its PIN (R317), and without
one the folio is RETIRED (log entry 61). -/
def State.leaveRetired (s : State) (p v f : Nat) : State :=
  let l := s.leaf p v
  if !l.hvalid ∨ l.hframe ≠ f then s
  else if !l.pin && !l.dirty && decide (l.cls ≠ .hoard) then s.dropCopy p v
  else match s.spareFrame (colOf f) with
    | some g =>
      ((s.modFolio (fun x => { x with hoard := Mem.copy x.hoard (65536 * f) x.hoard (65536 * g) 65536 })).setHUse g (.folio p v)).setLeaf p v
        { l with hframe := g }
    | none => if !l.dirty && decide (l.cls ≠ .hoard) then s.dropCopy p v else s.retireFolio p v

/-- The same where a transfer of the folio is under way: one that reads or writes the frame ends first, and the
writes that it holds go to where the folio then is; the frame is taken out of use before that. -/
def State.evacuate (s : State) (p v f : Nat) : State :=
  match s.moveOf p v with
  | none => s.leaveRetired p v f
  | some m =>
    if m.kind = .column ∨ m.kind = .writeback ∨ (m.kind = .fetch ∧ m.dest = f) then
      let t := ((s.abandonMove m).leaveRetired p v f).setHUse f .retired
      if (t.leaf p v).state = .retired then t.failTags p m.tags stUncorrectable else t.applyHeld m (colOf f)
    else s.leaveRetired p v f

/-- A Hoard frame is retired (R259, R260). The status of its ledger entry is not stated (log entry 49). -/
def State.retireFrame (s : State) (f : Nat) : State :=
  let r := s.regionOf f
  let s1 := match s.hUse f with
    | .folio p v => s.evacuate p v f
    | .scrub => s.zeroFrame true f
    | _ => s
  let s2 := if r = .cache then s1 else match s1.spareFrame (colOf f) with
    | some g => s1.replaceFrame f g r
    | none => s1
  let d := s2.free
  let s3 := (d.2.setHUse f .retired).modFolio (fun x => { x with
    scrubs := x.scrubs.filter (fun y => !(y.hoard && y.frame == f)), regionSwap := Tab.drop1 x.regionSwap f })
  (s3.hoardErr (d.1.toNat % 24) f 0 0).flagHoard

/-- What an uncorrectable word does to what the frame holds (R258, 10 R440, 09 R433). A word of the frame into which a
transfer goes is written again by the transfer, or where it came from a peer or the host the transfer is broken off. -/
def State.loseWord (s : State) (f w : Nat) : State :=
  let k := 8192 * f + w
  let s1 := s.modFolio (fun x => { x with eccUncorr := satInc 8 x.eccUncorr })
  let zeroed (t : State) : State := t.modFolio (fun x => { x with hoard := Mem.zero x.hoard (8 * k) 8 })
  match s.hUse f with
  | .folio p v =>
    let l := s.leaf p v
    let mv := s.moveOf p v
    let into := (mv.map (fun m => (decide (m.kind = .fetch) || decide (m.kind = .column)) && decide (m.dest = f))).getD false
    let same := l.hvalid && !l.dirty && decide (l.cls = .lpddr) && decide (l.hframe = f) && s.memLive p l.keygen &&
      (decide (l.state = .resident) || (mv.map (fun m => decide (m.kind = .walk))).getD false)
    if same then s1.modFolio (fun x => { x with hoard := Mem.write x.hoard (8 * k) (s1.homePlain p v l (8 * w) 8) })
    else if into then
      (match mv with
       | some m => if l.cls = .lpddr ∨ m.kind = .column then zeroed s1 else (zeroed (s1.abandonMove m)).failTags p m.tags stUncorrectable
       | none => zeroed s1)
    else
      let s2 := match mv with
        | some m => s1.loseMove m
        | none => if l.hvalid then s1.retireFolio p v else s1
      zeroed s2
  | .tally x =>
    let s2 := (zeroed s1).modFolio (fun y => { y with poison := Tab.store (fun _ => false) y.poison k true })
    if (s.win x).accFrames.flatten.contains f && !(s.win x).st.terminal then s2.contaminate x else s2
  | _ =>
    let s2 := zeroed s1
    if s.regionOf f = .retention then s2.modFolio (fun y => { y with poison := Tab.store (fun _ => false) y.poison k true }) else s2

/-- A failing row is repaired with a spare row of its sub-array, or its frame is retired (R256, R257, R259). -/
def State.repairRow (s : State) (f row : Nat) : State :=
  let used := Tab.look (fun _ => 0) s.folio.spares (f / 16)
  let s1 := s.modFolio (fun x => { x with rowCe := Tab.drop1 x.rowCe (128 * f + row) })
  if used < 32 then s1.modFolio (fun x => { x with
    spares := Tab.put1 x.spares (f / 16) (used + 1), repaired := Tab.put1 x.repaired (128 * f + row) true })
  else s1.retireFrame f

/-- PATROL_SCRUB (R254 to R259): the patrol reads one row, or operation `by_` meets its error, which ends it where the word
is uncorrectable (R254). -/
def execPatrolScrub (frame : Fin 131072) (row : Fin 128) (res : RowResult) (by_ : Option (Fin 16 × Fin 4096)) (s : State) : Host.Outcome State Fault Refusal :=
  let f := frame.val
  let k := 128 * f + row.val
  .next (if s.hUse f = .retired then s
    else match res with
    | .clean => s
    | .corrected =>
      let n := s.rowCount k + 1
      let s1 := s.hoardCe.modFolio (fun x => { x with rowCe := Tab.put1 x.rowCe k (16 * s.patrolPeriod + min n 15) })
      if bits (s.regN aFolioCfg) 23 20 ≤ n then s1.repairRow f row else s1
    | .double w =>
      let word := 64 * row.val + w.val
      let s1 := ((s.loseWord f word).hoardErr stUncorrectable f row w).repairRow f row
      match by_ with
      | some (p, tag) => s1.failTags p [tag.val] stUncorrectable
      | none => s1
    | .verifyFail => s.repairRow f row)

/-- HOARD_ECC_CLEAR (R254). -/
def execHoardEccClear (req : Req) (s : State) : Host.Outcome State Fault Refusal :=
  .next (if reqIsPf req && s.regsServed then s.modFolio (fun f => { f with eccCorr := 0, eccUncorr := 0 }) else s)

/-! ### The aperture (R263, R264, 20 R754) -/

/-- A read of a frame by the operator is declared in block 8 of the partition whose data it reaches. -/
def State.declareFrame (s : State) (f : Nat) : State :=
  match s.hUse f with
  | .folio p _ => if p = 0 then s else s.markReach p 16
  | .tally w => s.markReach (s.win w).part 32
  | _ =>
    if s.regionOf f ≠ .retention then s
    else match s.ringPos f with
      | none => s
      | some k =>
        (s.tally.subs.filter (fun u => u.segs.any (fun g => match g.ring with
          | some o => decide (o / 65536 ≤ k) && decide (k ≤ (o + g.len) / 65536) || decide (s.ringBytes < o + g.len)
          | none => false))).foldl (fun t u => t.markReach (s.win u.win).part 32) s

/-- One byte through BAR4. The device keeps its own buffers in the SCRATCH frames, whose contents no rule states (R262). -/
def State.aperture (s : State) (a : Nat) : Byte :=
  if s.hUse (a / 65536) = .retired then 0xFF
  else if s.regionOf (a / 65536) = .scratch then Config.scratchFrame s.fresh a
  else Mem.get s.folio.hoard a

/-- HOARD_APERTURE_ACCESS (R263, R264): a write to a retired frame is discarded. In tamper hold BAR4 is
inert (15 R647). -/
def execHoardApertureAccess (addr : Nat) (len : Nat) (wr : Option Bytes) (s : State) : Host.Outcome State Fault Refusal :=
  let n := match wr with | some b => b.length | none => len
  .next (if !s.regsServed || decide (n = 0) || decide (2 ^ 33 < addr + n) then s
    else
      let fs := (List.range ((addr + n - 1) / 65536 - addr / 65536 + 1)).map (addr / 65536 + ·)
      let s1 := fs.foldl State.declareFrame s
      match wr with
      | none => { s1 with fresh := s1.fresh + 1 }.emit (.barData ((List.range n).map (fun i => s.aperture (addr + i))))
      | some b => s1.modFolio (fun f => { f with
          hoard := (List.zip (List.range n) b).foldl (fun m e =>
            if s.hUse ((addr + e.1) / 65536) = .retired then m else Mem.set m (addr + e.1) e.2) f.hoard }))

/-! ### LPDDR5X channels (R270, R271) -/

/-- CHANNEL_RETIRE (R270, R271, R317): the channel failed retraining, or its errors exceeded the limit; `bad` are the
folios of it that cannot be read. -/
def execChannelRetire (ch : Fin 128) (bad : List (Fin 16 × Nat)) (s : State) : Host.Outcome State Fault Refusal :=
  .next (s.retireChannel ch bad)

end Sys2Proof.Machine
end

