-- ==== Sys2Proof/Machine/Host.lean ====
section
/-!
DEFINITION. Machine/Host.lean: the host port (14_host R574 to R606): host DMA, Bus Master Enable, TDIs and IDE
streams, Function Level Reset, configuration requests and the link.
-/
namespace Sys2Proof.Machine

/-! ### Host DMA (R595 to R599) -/

/-- The body of a DMA operation is well formed (R595, R781). -/
def dmaOk (d : Bytes) : Bool :=
  decide (dmaHost d % 64 = 0) && decide (dmaVa d % 64 = 0) && decide (64 ≤ dmaLen d) && decide (dmaLen d ≤ 2 ^ 36) &&
  decide (dmaLen d % 64 = 0) && decide (bits (dmaFlags d) 7 1 = 0) && allZero (slice d 0x31 15) &&
  rangeOk (dmaVa d, dmaLen d)

/-- The checks of R598 before any byte is moved. -/
def State.dmaCheck (s : State) (o : Op) (hostOk : Bool) : Nat :=
  if o.bmeOff then stNotPermitted
  else if !s.memLive o.part (s.part o.part).keyCur then s.memCheck o.part (s.part o.part).keyCur
  else if !dmaOk o.desc then stMalformed
  else if !hostOk then stUncorrectable
  else stDone

/-- DMA_IN: host memory into tenant memory. -/
def State.dmaInOp (s : State) (o : Op) (hostOk : Bool) : State :=
  let d := o.desc
  let r : VRange := (dmaVa d, dmaLen d)
  let st := s.dmaCheck o hostOk
  if st ≠ stDone then s.refuseOp o st
  else
    (s.prepare o [] [r] 0 noWhole).finish o (fun t =>
      (t.writeVa o.part o.tag r.1 (Mem.read t.hostMem (dmaHost d) r.2)).endOpCycles o.part o.tag stDone 0)

/-- DMA_OUT: tenant memory into host memory. -/
def State.dmaOutOp (s : State) (o : Op) (hostOk : Bool) : State :=
  let d := o.desc
  let r : VRange := (dmaVa d, dmaLen d)
  let st := s.dmaCheck o hostOk
  if st ≠ stDone then s.refuseOp o st
  else
    (s.prepare o [r] [] 0 noWhole).finish o (fun t =>
      let u : State := { t with hostMem := Mem.write t.hostMem (dmaHost d) (t.readVa o.part r.1 r.2) }
      u.endOpCycles o.part o.tag stDone 0)

/-- DMA_IN (R595, R598): `hostOk` says whether the host answers every read. -/
def execDmaIn (p : Fin 16) (tag : Fin 4096) (hostOk : Bool) (s : State) : Host.Outcome State Fault Refusal :=
  .next (s.runOp p tag 0x0600 (fun o => s.dmaInOp o hostOk))

/-- DMA_OUT (R595, R597, R598). -/
def execDmaOut (p : Fin 16) (tag : Fin 4096) (hostOk : Bool) (s : State) : Host.Outcome State Fault Refusal :=
  .next (s.runOp p tag 0x0601 (fun o => s.dmaOutOp o hostOk))

/-! ### Bus Master Enable (R599) -/

/-- What a partition does after some of its operations ended from outside. -/
def State.afterCancel (s : State) (f : Nat) : State :=
  match s.partOfFunc f with
  | some p => (s.substituteIdle p).checkDrained p
  | none => s

/-- The running host DMA operations of a function. -/
def State.dmaOf (s : State) (f : Nat) : List Op :=
  s.ops.filter (fun o => o.func == f && decide (o.stage = .running) && decide (dOpcode o.desc / 256 = 6))

/-- Bus Master Enable cleared: running DMA operations are cancelled. -/
def State.bmeOff (s : State) (f : Nat) : State :=
  let s1 := s.modFunc f (fun x => { x with bme := false })
  ((s1.dmaOf f).foldl (fun t o => t.cancelOp o.part o.tag stCancelled) s1).afterCancel f

/-- Bus Master Enable set: the messages that waited are sent, and records follow. -/
def State.bmeOn (s : State) (f : Nat) : State :=
  let held := s.msixHeld.filter (fun e => e.1 == f)
  let s1 : State := { s with msixHeld := s.msixHeld.filter (fun e => e.1 != f) }
  held.foldl (fun t e => t.sendMsix e.1 e.2) (s1.modFunc f (fun x => { x with bme := true }))

/-- BME_CLEAR (R599). -/
def execBmeClear (f : Fin 64) (s : State) : Host.Outcome State Fault Refusal := .next (s.bmeOff f)

/-- BME_SET (R599). -/
def execBmeSet (f : Fin 64) (s : State) : Host.Outcome State Fault Refusal := .next (s.bmeOn f)

/-! ### TDIs (R586 to R590) -/

/-- The code of a TDI state in HOST_FN_STATE. -/
def tdiCode : Tdi → Nat
  | .unlocked => 0 | .locked => 1 | .run => 2 | .error => 3

/-- The TDI of a function that is locked or runs. -/
def State.tdiHeld (s : State) (f : Nat) : Bool := decide ((s.func f).tdi = .locked) || decide ((s.func f).tdi = .run)

/-- The records of a function that wait are discarded, their entries are freed, and its messages are
dropped (R590, R601). -/
def State.dropRecs (s : State) (f : Nat) : State :=
  let mine := s.recs.filter (fun r => r.func == f)
  let s1 : State := { s with recs := s.recs.filter (fun r => r.func != f), msixHeld := s.msixHeld.filter (fun e => e.1 != f) }
  mine.foldl (fun t r => if r.hasEntry then t.freeEntry r.part r.tag else t) s1

/-- A TDI goes to another state with the effects of R590: every operation of the VF is cancelled, and its
records and messages are discarded until it is in CONFIG_UNLOCKED. -/
def State.tdiLeave (s : State) (f : Nat) (dst : Tdi) : State :=
  let s1 := s.modFunc f (fun x => { x with tdi := dst, discard := true })
  let s2 := (s1.dropRecs f).cancelFunc f
  if dst = .unlocked then s2.modFunc f (fun x => { x with discard := false }) else s2

/-- A TDI goes to ERROR where it is locked or runs (R588), with a ledger entry of the status given. -/
def State.tdiError (s : State) (f status : Nat) : State :=
  if s.tdiHeld f then
    (s.addErr status 0x0B 0 (s.partOfFunc f) f (toLE 1 (tdiCode (s.func f).tdi) ++ toLE 1 (s.func f).stream)).tdiLeave f .error
  else s

/-- A load that pauses partition `p` is BUSY (02 R72). -/
def State.loadPauses (s : State) (p : Nat) : Bool :=
  match s.load with
  | none => false
  | some l => l.affects.contains p

/-- A load bars LOCK and START of a function (02 R72). -/
def State.loadBars (s : State) (f : Nat) : Bool := ((s.partOfFunc f).map s.loadPauses).getD false

/-- LOCK_INTERFACE_REQUEST: whether it is accepted, and the state after (R588). -/
def State.tdiLock (s : State) (f : Nat) : Bool × State :=
  if f ≠ 0 ∧ (s.func f).tdi = .unlocked ∧ !s.loadBars f then (true, s.modFunc f (fun x => { x with tdi := .locked }))
  else (false, s)

/-- START_INTERFACE_REQUEST (R588, 02 R62). -/
def State.tdiStart (s : State) (f : Nat) : Bool × State :=
  let signed := (((s.partOfFunc f).bind s.job).map (·.signed)).getD false
  if f ≠ 0 ∧ (s.func f).tdi = .locked ∧ signed ∧ !s.loadBars f then (true, s.modFunc f (fun x => { x with tdi := .run }))
  else (false, s)

/-- STOP_INTERFACE_REQUEST (R588). -/
def State.tdiStop (s : State) (f : Nat) : Bool × State :=
  if f = 0 then (false, s)
  else match (s.func f).tdi with
    | .unlocked => (true, s)
    | .run => (true, s.tdiLeave f .unlocked)
    | .locked | .error => (true, s.modFunc f (fun x => { x with tdi := .unlocked, discard := false }))

/-- LOCK_INTERFACE_REQUEST (R588). -/
def execLockInterfaceRequest (f : Fin 64) (s : State) : Host.Outcome State Fault Refusal := .next (s.tdiLock f).2

/-- START_INTERFACE_REQUEST (R588). -/
def execStartInterfaceRequest (f : Fin 64) (s : State) : Host.Outcome State Fault Refusal := .next (s.tdiStart f).2

/-- STOP_INTERFACE_REQUEST (R588). -/
def execStopInterfaceRequest (f : Fin 64) (s : State) : Host.Outcome State Fault Refusal := .next (s.tdiStop f).2

/-- LOCKED_SETTING_WRITE (R588). -/
def execLockedSettingWrite (f : Fin 64) (s : State) : Host.Outcome State Fault Refusal := .next (s.tdiError f stAuthFailed)

/-- REQUEST_WITHOUT_T_BIT (R589). -/
def execRequestWithoutTBit (f : Fin 64) (s : State) : Host.Outcome State Fault Refusal :=
  .next (if (s.func f).tdi = .run then s.emit (.cpl f 1) else s)

/-! ### IDE streams (R585 to R588) -/

/-- The stream that protects function `f`: the selective one bound to it, else the link stream, numbered
64. -/
def State.streamOf (s : State) (f : Nat) : Nat := if (s.func f).stream < 64 then (s.func f).stream else 64

/-- After a change of the streams from `s`, every VF whose stream has left Secure goes to ERROR (R588). -/
def State.checkStreams (s t : State) : State :=
  (List.range 63).foldl (fun u i => if s.ideSecure (i + 1) && !u.ideSecure (i + 1) then u.tdiError (i + 1) stAuthFailed else u) t

/-- A stream enters or leaves the Secure state. -/
def State.setIde (s : State) (i : Nat) (on : Bool) : State :=
  s.checkStreams { s with ide := Tab.store (fun _ => false) s.ide i on }

/-- IDE_INTEGRITY_FAILURE (R588): the TDI of the VF goes to ERROR, and its stream leaves Secure. -/
def execIdeIntegrityFailure (f : Fin 64) (s : State) : Host.Outcome State Fault Refusal :=
  .next ((s.tdiError f stAuthFailed).setIde (s.streamOf f) false)

/-- A VF bound to a selective stream, or function 0 for the link stream, with the stream's key. -/
def State.programIde (s : State) (f i key : Nat) : State :=
  let b := if f = 0 then s else s.modFunc f (fun x => { x with stream := i })
  s.checkStreams { b with ideKeys := Tab.store (fun _ => 0) b.ideKeys (if f = 0 then 64 else i) key }

/-- IDE_KM (R585): the key of a stream is programmed, and the stream enters or leaves Secure. -/
def execIdeKm (f stream : Fin 64) (key : BitVec 256) (secure : Bool) (s : State) : Host.Outcome State Fault Refusal :=
  .next ((s.programIde f stream key.toNat).setIde (if f.val = 0 then 64 else stream.val) secure)

/-! ### Function Level Reset (R601) -/

/-- The window, ring and MSI-X registers of a function at their reset values. -/
def State.resetFunc (s : State) (f : Nat) : State :=
  let lo := aSchedWinCtrl f
  let s1 : State := { s with
    regs := Tab.without (fun a => decide (lo ≤ a) && decide (a < lo + 0x200)) s.regs
    pendLo := Tab.without (fun a => decide (lo ≤ a) && decide (a < lo + 0x200)) s.pendLo
    rings := Tab.without (fun k => k / 8 == f) s.rings
    msix := Tab.without (fun k => k / 1024 == f) s.msix
    pba := Tab.without (fun k => k / 256 == f) s.pba
    load := s.load.map (fun l => if l.func = f then { l with mute := true } else l) }
  (s1.winClear f).modFunc f (fun x => { x with held := none })

/-- FLR (R574, R601): of a VF only. -/
def execFlr (f : Fin 64) (s : State) : Host.Outcome State Fault Refusal :=
  .next (if f.val = 0 then s else (s.tdiLeave f .unlocked).resetFunc f)

/-! ### Configuration requests (R575, R600) -/

/-- Configuration requests complete with Request Retry Status until the MP firmware is ready and during the
pause of ACTIVATE (R575, R600). -/
def State.configRetry (s : State) : Bool := !s.configReady || s.restarting || decide (s.power = .waking)

/-- Dword `k` of the PF's SR-IOV capability (R576; log entry 63). -/
def sriovDword (k : Nat) : Nat := 64 + Config.sriovAt.toNat + k

/-- The value of a dword of configuration space (00_scope R2, R576): identifiers, class, Bus Master Enable and, of the PF,
TotalVFs, NumVFs, First VF Offset and VF Stride; the other dwords are open (log entry 63). -/
def State.configRead (s : State) (f off : Nat) : W32 × State :=
  if off = 0 then (BitVec.ofNat 32 ((if f = 0 then 0x7400 else 0x7401) * 65536 + 0x1D9F), s)
  else if off = 2 then (0x120000B1, s)
  else if f = 0 ∧ off = sriovDword 3 then (BitVec.ofNat 32 (63 * 65536 + 63), s)
  else if f = 0 ∧ off = sriovDword 4 then
    let r := s.free
    (BitVec.ofNat 32 (r.1.toNat / 65536 % 65536 * 65536 + s.numVfs), r.2)
  else if f = 0 ∧ off = sriovDword 5 then (BitVec.ofNat 32 (65536 + 1), s)
  else
    let r := s.free
    if off = 1 then (BitVec.ofNat 32 (putBits (r.1.toNat % 2 ^ 32) 2 2 (b2n (s.func f).bme)), r.2)
    else (BitVec.ofNat 32 (r.1.toNat % 2 ^ 32), r.2)

/-- NumVFs written: an SR-IOV setting, which is locked for a VF that is locked or runs (R588). -/
def State.setNumVfs (s : State) (n : Nat) : State :=
  ((List.range 64).filter (fun f => f ≠ 0 ∧ s.tdiHeld f)).foldl (fun t f => t.tdiError f stAuthFailed) { s with numVfs := n }

/-- A write to configuration space: Bus Master Enable is bit 2 of the Command register (R599). -/
def State.configWrite (s : State) (f off : Nat) (v : W32) : State :=
  if f = 0 ∧ off = sriovDword 4 then s.setNumVfs (v.toNat % 65536)
  else if off = 1 ∧ v.getLsbD 2 ∧ !(s.func f).bme then s.bmeOn f
  else if off = 1 ∧ !v.getLsbD 2 ∧ (s.func f).bme then s.bmeOff f
  else s

/-- CONFIG_REQUEST (R575). -/
def execConfigRequest (f : Fin 64) (off : BitVec 12) (wr : Option W32) (s : State) : Host.Outcome State Fault Refusal :=
  let i := off.toNat / 4
  .next (if s.configRetry then s.emit (.cpl f 2)
    else match wr with
      | none => let r := s.configRead f i; r.2.emit (.cfgData f (4 * i) r.1)
      | some v => (s.configWrite f i v).emit (.cpl f 0))

/-! ### The link (R574, HOST_LINK, HOST_EVENTS) -/

/-- HOST_LINK after the link has trained. -/
def linkWord (up flit : Bool) (width speed : Nat) : Nat := b2n up * 2 ^ 31 + b2n flit * 2 ^ 30 + width * 2 ^ 16 + speed

/-- HOST_LINK_RETRAIN (R574): only the widths and rates of R574 arise. -/
def execHostLinkRetrain (up flit : Bool) (width speed : Nat) (s : State) : Host.Outcome State Fault Refusal :=
  let old := s.regN aHostLink
  let legal := [1, 2, 4, 8, 16].contains width && decide (1 ≤ speed) && decide (speed ≤ 6)
  .next (if !up then
      (s.setRegN aHostLink (putBits old 31 31 0)).setEvents aHostEvents (if bit old 31 then 1 else 0) 7
    else if legal then
      (s.setRegN aHostLink (linkWord up flit width speed)).setEvents aHostEvents
        ((if width < bits old 20 16 then 2 else 0) + (if speed < bits old 3 0 then 4 else 0)) 7
    else s)

end Sys2Proof.Machine
end

