-- ==== Sys2Proof/Machine/Strongbox.lean ====
section
/-!
DEFINITION. Machine/Strongbox.lean: the security mailboxes and their commands (15_strongbox R607 to R643).
-/
namespace Sys2Proof.Machine

/-! ### Mailboxes (R627 to R629, R653) -/

/-- A mailbox. -/
def State.mbx (s : State) (m : Mbx) : Mailbox := match m with | .pf => s.sbox.pf | .mp => s.sbox.mp

/-- A mailbox replaced. -/
def State.setMbx (s : State) (m : Mbx) (x : Mailbox) : State :=
  s.modSbox (fun b => match m with | .pf => { b with pf := x } | .mp => { b with mp := x })

/-- OPCODE, SLOT and PARENT of SECMBX_CMD. -/
def Mailbox.opcode (x : Mailbox) : Nat := bits x.cmd 31 24
def Mailbox.slotNo (x : Mailbox) : Nat := bits x.cmd 23 14
def Mailbox.parentNo (x : Mailbox) : Nat := bits x.cmd 13 4

/-- The master that a mailbox acts as: HOST or MP. -/
def mbxUnit : Mbx → Nat
  | .pf => unHost
  | .mp => unMp

/-- The opcodes of R627. -/
def mbxOpcodes : List Nat := [1, 2, 3, 4, 5, 6, 7, 8, 9, 10, 11]

/-- A command ends: the buffer is zeroed but for the output (R653). -/
def State.mbxEnd (s : State) (m : Mbx) (status : Nat) (out : Bytes) : State :=
  s.setMbx m { s.mbx m with busy := false, waitRng := false, status := status, len := out.length, data := fit 256 out }

/-- A command that ends without output. -/
def State.mbxStatus (s : State) (m : Mbx) (status : Nat) : State := s.mbxEnd m status []

/-- The command of a mailbox runs where it holds one of this opcode: the MP's first; none is served in
tamper hold (R627, R647). One that waits for random numbers goes on when its call is served. -/
def State.runMbx (s : State) (m : Mbx) (oc : Nat) (body : Mailbox → State) : State :=
  let x := s.mbx m
  if !x.busy || decide (x.opcode ≠ oc) || x.waitRng || (decide (m = .pf) && s.sbox.mp.busy && !s.sbox.mp.waitRng) then s
  else if s.tamperHold then s.mbxStatus m stNotPermitted
  else body x

/-- A command that needs random numbers (R628, R664, R665): it waits, fails, or goes on. -/
def State.mbxRandom (s : State) (m : Mbx) (body : State) : State :=
  if s.rngServes then body
  else if s.rngFailed then s.mbxStatus m stEntropyFailed
  else (s.setMbx m { s.mbx m with waitRng := true }).rngWait (.mbx m)

/-- A slot number exists (R620). -/
def slotExists (i : Nat) : Bool := decide (i < 0x240)

/-- The reserved slots of the partition hierarchy (R624; log entry 17). -/
def slotReserved (i : Nat) : Bool := decide (0x1A0 ≤ i) && decide (i < 0x200)

/-- A partition holds a job charter. -/
def State.hasJob (s : State) (p : Nat) : Bool := (s.job p).isSome

/-- A new key may be written to slot `i` by command, for partition `p` (R624, R628, R629). -/
def State.slotTakes (s : State) (i p : Nat) : Bool :=
  !slotReserved i && !atValid (s.slot i).attr && !s.hasJob p

/-- The attribute bits that a requester gives, and that R621 and R620 let stand. -/
def attrOk (a : Nat) : Bool := decide (a % 64 = 0) && usageLengthOk (atUsage a) (atLength a)

/-- What HOST may set in an attribute word (R628). -/
def hostAttrOk (m : Mbx) (a : Nat) : Bool :=
  decide (m = .mp) || (!bit (atWorld a) 1 && decide (atMaster a &&& (127 - (2 ^ unHost + 2 ^ unMp + 2 ^ unDma)) = 0))

/-! ### Persistent slots (R637 to R639) -/

/-- A record of a persistent slot (R637). -/
def mramRecord (attr seq : Nat) (key : Bytes) : Bytes :=
  let b := toLE 8 attr ++ toLE 4 seq ++ zeros 4 ++ fit 64 key ++ zeros 12
  b ++ toLE 4 (crc32c b).toNat

/-- Bank `b` of persistent slot `i`. -/
def State.mramBank (s : State) (i b : Nat) : Bytes := Tab.look (fun _ => []) s.sbox.mram (2 * (i - 512) + b)

/-- A record whose CRC holds. -/
def recordOk (r : Bytes) : Bool := decide (r.length = 96) && decide (leNat (r.drop 92) = (crc32c (r.take 92)).toNat)

/-- SEQ of a record. -/
def recordSeq (r : Bytes) : Nat := le r 8 4

/-- The bank whose record is kept (R637). -/
def State.keptBank (s : State) (i : Nat) : Option Nat :=
  let a := s.mramBank i 0
  let b := s.mramBank i 1
  if recordOk a && recordOk b then
    let d := (recordSeq b + 2 ^ 32 - recordSeq a) % 2 ^ 32
    some (if 1 ≤ d ∧ d < 2 ^ 31 then 1 else 0)
  else if recordOk a then some 0
  else if recordOk b then some 1
  else none

/-- The new record of a persistent slot, changed by `g`, goes into the inactive bank (R638). -/
def State.mramPut (s : State) (i attr : Nat) (key : Bytes) (g : Bytes → Bytes) : State :=
  let k := s.keptBank i
  let seq := match k with | some b => (recordSeq (s.mramBank i b) + 1) % 2 ^ 32 | none => 0
  let bank := match k with | some b => 1 - b | none => 0
  s.modSbox (fun b => { b with mram := Tab.store (fun _ => []) b.mram (2 * (i - 512) + bank) (g (mramRecord attr seq key)) })

/-- One write of R638. -/
def State.mramWrite (s : State) (i attr : Nat) (key : Bytes) : State := s.mramPut i attr key id

/-- A write whose read-back fails twice: the inactive record ends with a CRC of 0 (R638). -/
def State.mramSpoil (s : State) (k : KeySlot) (i : Nat) : State := s.mramPut i k.attr k.key (fun r => r.take 92 ++ zeros 4)

/-- The shadow of a persistent slot as a start finds it (R637). -/
def State.shadow (s : State) (i : Nat) : KeySlot :=
  match s.keptBank i with
  | none => {}
  | some b =>
    let r := s.mramBank i b
    let a := le r 0 8
    if atValid a then { attr := a, key := slice r 16 (lenBytes (atLength a)) } else { attr := a, key := [] }

/-- A persistent slot's record follows its shadow. -/
def State.persist (s : State) (i : Nat) : State := if 512 ≤ i then s.mramWrite i (s.slot i).attr (s.slot i).key else s

/-- A slot zeroised, and a persistent one in both banks (R639). -/
def State.zeroiseSlot (s : State) (i : Nat) : State := let s1 := s.zeroise i; (s1.persist i).persist i

/-- A key installed, with its record. -/
def State.putKey (s : State) (i attr : Nat) (key : Bytes) : State := (s.installKey i attr key).persist i

/-- A command puts a key into its slot and ends. Where the slot is persistent and the read-back of its record fails twice,
the old copy stays in force (R638). -/
def State.putKeyEnd (s : State) (m : Mbx) (readBack : Bool) (i attr : Nat) (key : Bytes) : State :=
  if 512 ≤ i ∧ !readBack then (s.mramSpoil ((s.installKey i attr key).slot i) i).mbxStatus m stUncorrectable
  else (s.putKey i attr key).mbxStatus m stDone

/-- The partition that a mailbox acts for (R622): the PF acts for partition 0 (log entry 38). -/
def State.mbxCheck (s : State) (m : Mbx) (i usage : Nat) : Nat := s.keyCheck i usage (mbxUnit m) 0 0

/-! ### The commands of R627 -/

/-- KEY_WRITE. -/
def State.keyWriteRun (s : State) (m : Mbx) (readBack : Bool) (x : Mailbox) : State :=
  let a := putBits (putBits x.attr 13 12 0) 8 6 0
  if !slotExists x.slotNo || !attrOk x.attr || decide (x.len ≠ lenBytes (atLength a)) then s.mbxStatus m stMalformed
  else if !s.slotTakes x.slotNo (atPart a) || !hostAttrOk m a then s.mbxStatus m stNotPermitted
  else s.putKeyEnd m readBack x.slotNo a (x.data.take x.len)

/-- The input key of a derivation, with the ORIGIN and DEPTH that the new key records (R612 to R614); a
child takes those of its parent slot (log entry 39). -/
def State.deriveInput (s : State) (m : Mbx) (parent origin : Nat) : Except Nat (Bytes × Nat × Nat) :=
  if parent = 0x3FF then
    match s.root with
    | none => .error stNotPermitted
    | some r =>
      if s.sbox.gateClosed then .error stKeyRetired
      else if origin = 1 ∧ s.stableOk then .ok (r, 1, 0)
      else match s.sbox.cdis.getLast? with
        | some c => .ok (c, 2, s.depth)
        | none => .error stNotPermitted
  else
    let st := s.mbxCheck m parent usDerive
    let a := (s.slot parent).attr
    if st = stDone then .ok ((s.slot parent).key, atOrigin a, atDepth a) else .error st

/-- KEY_DERIVE (R614, R616, R628). -/
def State.keyDeriveRun (s : State) (m : Mbx) (readBack : Bool) (x : Mailbox) : State :=
  let i := x.slotNo
  let root := decide (x.parentNo = 0x3FF)
  if !slotExists i || !attrOk x.attr || decide (x.len < 1) || decide (64 < x.len) ||
      (root && decide (atOrigin x.attr ≠ 1) && decide (atOrigin x.attr ≠ 2)) || (!root && !slotExists x.parentNo) then
    s.mbxStatus m stMalformed
  else if !s.slotTakes i (atPart x.attr) || (root && decide (m = .pf)) then s.mbxStatus m stNotPermitted
  else match s.deriveInput m x.parentNo (atOrigin x.attr) with
    | .error st => s.mbxStatus m st
    | .ok (k, origin, depth) =>
      let a := putBits (putBits (putBits x.attr 47 38 x.parentNo) 13 12 origin) 8 6 depth
      let ctx := kdfContext (atPart a) ((atGen (s.slot i).attr + 1) % 256) origin depth
      s.putKeyEnd m readBack i a (kdf108 k (x.data.take x.len) ctx (lenBytes (atLength a)))

/-- The head of a blob (R630). -/
def blobHead (attr wrapSlot wrapGen : Nat) (nonce : Bytes) : Bytes :=
  let a := putBits (putBits (putBits attr 63 38 0) 11 9 0) 5 0 0
  ascii "GKKB" ++ toLE 1 1 ++ toLE 1 (atLength attr) ++ zeros 2 ++ toLE 8 a ++ toLE 2 wrapSlot ++ toLE 1 wrapGen ++
    zeros 1 ++ fit 12 nonce

/-- KEY_WRAP (R630, R631). -/
def State.keyWrapRun (s : State) (m : Mbx) (x : Mailbox) : State :=
  let i := x.slotNo
  let w := x.parentNo
  if !slotExists i || !slotExists w then s.mbxStatus m stMalformed
  else
    let st := s.mbxCheck m w usWrap
    let a := (s.slot i).attr
    let b := (s.slot w).attr
    if st ≠ stDone then s.mbxStatus m st
    else if !s.keyLives i then s.mbxStatus m stKeyRetired
    else if atPart a ≠ atPart b ∨ atWorld a &&& atWorld b ≠ atWorld a ∨ atMaster a &&& atMaster b ≠ atMaster a ∨
        atOrigin a = 2 then s.mbxStatus m stNotPermitted
    else
      let r := s.draw 12
      let head := blobHead a w (atGen b) r.1
      let c := gcmSeal (s.slot w).key (fit 12 r.1) head (s.slot i).key
      s.mbxRandom m (r.2.mbxEnd m stDone (head ++ c.1 ++ c.2))

/-- KEY_UNWRAP (R632). -/
def State.keyUnwrapRun (s : State) (m : Mbx) (readBack : Bool) (x : Mailbox) : State :=
  let i := x.slotNo
  let w := x.parentNo
  let d := x.data.take x.len
  let n := lenBytes (le d 5 1)
  let a := putBits (le d 8 8) 47 38 w
  let ok := slotExists i && slotExists w && decide (d.take 4 = ascii "GKKB") && decide (le d 4 1 = 1) && decide (n ≠ 0) &&
    allZero (slice d 6 2) && allZero (slice d 0x13 1) && decide (x.len = 48 + n) && attrOk a && decide (atLength a = le d 5 1)
  let st := s.mbxCheck m w usWrap
  if !ok then s.mbxStatus m stMalformed
  else if !s.slotTakes i (atPart a) || !hostAttrOk m a then s.mbxStatus m stNotPermitted
  else if st ≠ stDone then s.mbxStatus m st
  else if le d 0x12 1 ≠ atGen (s.slot w).attr then s.mbxStatus m stKeyRetired
  else match gcmOpen (s.slot w).key (slice d 0x14 12) (d.take 32) (slice d 32 n) (slice d (32 + n) 16) with
    | none => s.mbxStatus m stAuthFailed
    | some key => s.putKeyEnd m readBack i a key

/-- The partition was admitted, and its JOB_ROOT fails step 1 of R622. -/
def State.jobDead (s : State) (p : Nat) : Bool := decide ((s.part p).adm.st = .admitted) && (s.jms p).isNone

/-- The links of partitions whose JOB_ROOT no longer lives lose their stream contexts (R626). -/
def State.dropDeadLinks (s : State) : State :=
  (List.range 16).foldl (fun t p => if t.jobDead p then t.dropLinks p else t) s

/-- KEY_ORPHAN (R633). -/
def State.keyOrphanRun (s : State) (m : Mbx) (x : Mailbox) : State :=
  if !slotExists x.slotNo then s.mbxStatus m stMalformed
  else ((s.orphan x.slotNo).dropDeadLinks).mbxStatus m stDone

/-- KEY_ZEROISE (R627, R639): the descendants are orphaned with it, as step 1 of R622 finds. -/
def State.keyZeroiseRun (s : State) (m : Mbx) (readBack : Bool) (x : Mailbox) : State :=
  let i := x.slotNo
  if !slotExists i then s.mbxStatus m stMalformed
  else
    let ds := s.validSlots.filter (fun j => decide (j ≠ i) && s.descends i 577 j)
    let s1 := ds.foldl (fun t j => t.orphan j) s
    if 512 ≤ i ∧ !readBack then
      (((s1.orphan i).mramSpoil ((s1.zeroise i).slot i) i).dropDeadLinks).mbxStatus m stUncorrectable
    else ((s1.zeroiseSlot i).dropDeadLinks).mbxStatus m stDone

/-- KEY_INFO. -/
def State.keyInfoRun (s : State) (m : Mbx) (x : Mailbox) : State :=
  if !slotExists x.slotNo then s.mbxStatus m stMalformed
  else
    let s1 := s.mbxStatus m stDone
    s1.setMbx m { s1.mbx m with attr := (s.slot x.slotNo).attr }

/-- SIGN: the key is a scalar modulo the order of the group (log entry 40). -/
def State.signRun (s : State) (m : Mbx) (x : Mailbox) : State :=
  if !slotExists x.slotNo || decide (x.len ≠ 32) then s.mbxStatus m stMalformed
  else
    let st := s.mbxCheck m x.slotNo usSign
    if st ≠ stDone then s.mbxStatus m st
    else s.mbxEnd m stDone (ecdsaSign (beNat (s.slot x.slotNo).key % p256N) (x.data.take 32))

/-- MEM_ROTATE (R641, R642). -/
def State.memRotateRun (s : State) (m : Mbx) (x : Mailbox) : State :=
  let p := bits x.cmd 7 4
  let y := s.part p
  let g := (y.keyCur + 1) % 4
  if (s.partRec p).isNone ∨ !s.hasPartKeys p ∨ (s.removal.map (·.part)) = some p then s.mbxStatus m stNotPermitted
  else if y.keyLive.testBit g then s.mbxStatus m stRotationBusy
  else
    let r := s.draw 64
    let s1 := (r.2.putKey (memSlot p g) (tenantAttr p (partRootSlot p) (2 ^ unFolio + 2 ^ unDma) usMemory 4 3) r.1).modPart p
      (fun z => { z with keyCur := g, keyLive := z.keyLive ||| 2 ^ g })
    s.mbxRandom m (((s1.retireGens p).modFolio (fun f => { f with walkPos := Tab.drop1 f.walkPos p })).mbxStatus m stDone)

/-! ### The tamper ledger (R651) -/

/-- The bytes of an entry. -/
def TamperEntry.bytes (e : TamperEntry) : Bytes :=
  let b := toLE 4 e.seq ++ toLE 1 e.source ++ toLE 1 e.state ++ toLE 1 e.response ++ toLE 1 (b2n e.sweep) ++
    toLE 8 e.ftNs ++ zeros 12
  b ++ toLE 4 (crc32c b).toNat

/-- The entry at place `i` of the ring: SEQ modulo 64 (log entry 41). -/
def State.tamperAt (s : State) (i : Nat) : Bytes :=
  ((s.sbox.tamperLog.find? (fun e => decide (e.seq % 64 = i))).map TamperEntry.bytes).getD (zeros 32)

/-- TAMPER_READ. -/
def State.tamperReadRun (s : State) (m : Mbx) (x : Mailbox) : State :=
  s.mbxEnd m stDone ((List.range 4).flatMap (fun k => s.tamperAt (bits x.cmd 19 14 + k)))

/-- KEY_WRITE (R627). -/
def execKeyWrite (m : Mbx) (readBack : Bool) (s : State) : Host.Outcome State Fault Refusal := .next (s.runMbx m 1 (s.keyWriteRun m readBack))

/-- KEY_DERIVE (R616). -/
def execKeyDerive (m : Mbx) (readBack : Bool) (s : State) : Host.Outcome State Fault Refusal := .next (s.runMbx m 2 (s.keyDeriveRun m readBack))

/-- KEY_WRAP (R631). -/
def execKeyWrap (m : Mbx) (s : State) : Host.Outcome State Fault Refusal := .next (s.runMbx m 3 (s.keyWrapRun m))

/-- KEY_UNWRAP (R632). -/
def execKeyUnwrap (m : Mbx) (readBack : Bool) (s : State) : Host.Outcome State Fault Refusal := .next (s.runMbx m 4 (s.keyUnwrapRun m readBack))

/-- KEY_ORPHAN (R633). -/
def execKeyOrphan (m : Mbx) (s : State) : Host.Outcome State Fault Refusal := .next (s.runMbx m 5 (s.keyOrphanRun m))

/-- KEY_ZEROISE (R639). -/
def execKeyZeroise (m : Mbx) (readBack : Bool) (s : State) : Host.Outcome State Fault Refusal := .next (s.runMbx m 6 (s.keyZeroiseRun m readBack))

/-- KEY_INFO (R627). -/
def execKeyInfo (m : Mbx) (s : State) : Host.Outcome State Fault Refusal := .next (s.runMbx m 7 (s.keyInfoRun m))

/-- SIGN (R627). -/
def execSign (m : Mbx) (s : State) : Host.Outcome State Fault Refusal := .next (s.runMbx m 8 (s.signRun m))

/-- MEM_ROTATE (R641). -/
def execMemRotate (m : Mbx) (s : State) : Host.Outcome State Fault Refusal := .next (s.runMbx m 9 (s.memRotateRun m))

/-- TAMPER_READ (R651). -/
def execTamperRead (m : Mbx) (s : State) : Host.Outcome State Fault Refusal := .next (s.runMbx m 11 (s.tamperReadRun m))

/-- ORPHAN_ZEROISE_DONE (R633): the background has zeroised every orphaned slot and its descendants. -/
def execOrphanZeroiseDone (s : State) : Host.Outcome State Fault Refusal :=
  .next (s.orphaned.foldl (fun t i => if i < 512 then t.zeroise i else t.zeroiseSlot i) s)

/-- SWEEP_MARK_CLEARED (R634, R648): both banks of every persistent slot hold zeroised records. -/
def execSweepMarkCleared (s : State) : Host.Outcome State Fault Refusal :=
  .next (if s.sbox.sweepPending then
      s.modSbox (fun b => { b with sweepPending := false, mram := [],
                                   slots := Tab.without (fun i => decide (512 ≤ i)) b.slots })
    else s)

end Sys2Proof.Machine
end

