-- ==== Sys2Proof/Machine/Recovery.lean ====
section
/-!
DEFINITION. Machine/Recovery.lean: recovery and release (11_tally_recovery R449 to R486).
-/
namespace Sys2Proof.Machine

/-! ### Secrets (R452 to R456) -/

/-- A share: x, and y in GF(2^255 − 19). -/
abbrev Share := Nat × Nat

/-- The Lagrange factor at `z` of the share with x among the others. -/
def lagrange (z x : Nat) (xs : List Nat) : Nat :=
  let others := xs.filter (· != x)
  let num := others.foldl (fun a j => a * subMod z j p25519 % p25519) 1
  let den := others.foldl (fun a j => a * subMod x j p25519 % p25519) 1
  num * invMod den p25519 % p25519

/-- The polynomial through some shares, at `z` (R453). -/
def shamirAt (z : Nat) (l : List Share) : Nat :=
  l.foldl (fun a s => (a + s.2 * lagrange z s.1 (l.map (·.1))) % p25519) 0

/-- The secret of a request's shares; none where a further share does not fit (R453). -/
def shamir (t : Nat) (l : List Share) : Option Bytes :=
  let base := l.take t
  if (l.drop t).all (fun s => decide (shamirAt s.1 base = s.2)) then some (toLE 32 (shamirAt 0 base)) else none

/-- A share list is well formed (R454). -/
def sharesOk (geo : Geometry) (l : List Share) : Bool :=
  decide (geo.shamirT ≤ l.length) && decide (l.length ≤ 64) && decide (l.map (·.1)).Nodup &&
  l.all (fun s => decide (1 ≤ s.1) && decide (s.1 ≤ geo.contributors) && decide (s.2 < p25519))

/-! ### Groups (R470 to R473) -/

/-- One group of a request. -/
structure Group where
  contributor : Nat := 0
  shares : List Share := []
  neighbours : List (Nat × Bytes) := []
  pku : Bytes := []
  /-- Its reserved bytes are 0. -/
  clean : Bool := true
deriving DecidableEq, Repr, Inhabited

/-- The size of the group that starts a string. -/
def groupSize (pair : Bool) (bs : Bytes) : Nat :=
  let n := le bs 4 1
  if pair then 40 + 40 * (n + le bs 5 1) else 8 + 40 * n

/-- The groups of a string; none where they do not fill it. -/
def splitGroups (pair : Bool) : Nat → Bytes → Option (List Bytes)
  | 0, bs => if bs.isEmpty then some [] else none
  | n + 1, bs =>
    let k := groupSize pair bs
    if bs.length < 8 ∨ bs.length < k then none
    else (splitGroups pair n (bs.drop k)).map (bs.take k :: ·)

/-- The records of 40 bytes at offset `o`. -/
def records40 (bs : Bytes) (o n : Nat) : List Bytes := (List.range n).map (fun i => slice bs (o + 40 * i) 40)

/-- A group read. -/
def readGroup (pair : Bool) (bs : Bytes) : Group :=
  let n := le bs 4 1
  let m := if pair then le bs 5 1 else 0
  let o := if pair then 40 else 8
  let sh := records40 bs o n
  let ne := records40 bs (o + 40 * n) m
  { contributor := le bs 0 4, shares := sh.map (fun r => (le r 0 4, le r 8 32)),
    neighbours := ne.map (fun r => (le r 0 4, slice r 8 32)), pku := if pair then slice bs 8 32 else [],
    clean := (if pair then allZero (slice bs 6 2) else allZero (slice bs 5 3)) &&
      sh.all (fun r => allZero (slice r 4 4)) && ne.all (fun r => allZero (slice r 4 4)) }

/-- The structure of a group (R454, R470, R471). -/
def Group.ok (g : Group) (geo : Geometry) : Bool :=
  g.clean && decide (g.contributor < geo.contributors) && sharesOk geo g.shares &&
  decide (g.neighbours.length ≤ geo.neighbours) && decide (g.neighbours.map (·.1)).Nodup &&
  g.neighbours.all (fun n => decide (n.1 ≠ g.contributor) && decide (n.1 < geo.contributors))

/-- The secret of a group and the masks that it removes: taken from the sum, or added; none where R453 or R456 fails.
The number counts the neighbours skipped (R461). -/
def State.groupMasks (s : State) (x : Window) (pair : Bool) (g : Group) : Option (Bytes × List (Bool × Bytes × Bytes) × Nat) :=
  let c := g.contributor
  match shamir x.geo.shamirT g.shares with
  | none => none
  | some k =>
    if !pair then some (k, [(true, maskKey x 1 c c k)], 0)
    else if x25519 k x25519Base ≠ g.pku then none
    else
      let live := g.neighbours.filter (fun n => decide ((s.ledger x n.1).state = 2))
      let secrets := live.map (fun n => (n.1, x25519 k n.2))
      if secrets.any (fun n => allZero n.2) then none
      else some (k, secrets.map (fun n => (decide (n.1 < c), maskKey x 2 (min c n.1) (max c n.1) n.2)),
        g.neighbours.length - live.length)

/-- TALLY_REC_PART_CTRL.SLOTS of a partition (R457, R486). -/
def State.recSlots (s : State) (p : Nat) : Nat := bits (s.regN (aTallyRecPartCtrl p)) 6 0

/-- A free shared slot of the Strongbox for a group of partition `p` that may hold one more (R457, 15 R624). -/
def State.freeSlot (s : State) (p : Nat) : Option Nat :=
  if s.recSlots p ≤ (s.groupsOf (fun r => r.part == p)).length then none
  else (List.range 0x1A0).find? (fun k => !atValid (s.slot k).attr)

/-- What becomes of the next group: it runs or needs nothing, it waits, or it fails. -/
inductive GroupStart where
  | next (s : State)
  | wait (s : State)
  | fail (s : State) (status : Nat)

/-- The next group of an operation begins (R463, R465 to R467, R472, R483): its KIND is recorded as it passes the ledger
check; it waits while a group for the same contributor runs, or for a slot; then its secret, agreements and keys are
formed. Each group holds one slot (log entry 148). -/
def State.startGroup (s : State) (o : Op) (w : Nat) (pair : Bool) (index : Nat) (bs : Bytes) : GroupStart :=
  let x := s.win w
  let g := readGroup pair bs
  let c := g.contributor
  let kind := if pair then 2 else 1
  if !g.ok x.geo then .fail s stMalformed
  else
    let st := (s.ledger x c).state
    let r := s.recEntry x c
    let fits := if pair then decide (st ≠ 2) else decide (st = 2)
    if !fits || (decide (r.1 ≠ 0) && decide (r.1 ≠ kind)) then .fail (s.countUp (aTallyRecConflicts w) 1) stLedgerConflict
    else if r.2 then .next s
    else if (s.groupsOf (fun q => q.win == w && q.contributor == c)) ≠ [] then .wait s
    else
      let s1 := s.setRecEntry x c kind false
      match s1.freeSlot o.part with
      | none => .wait s1
      | some k =>
        match s1.groupMasks x pair g with
        | none => .fail s1 stAuthFailed
        | some (secret, ms, skipped) =>
          .next ((s1.installKey k (tenantAttr o.part (partRootSlot o.part) (2 ^ unTally) usMaskSeed 2 0) secret).modTally (fun t =>
            { t with groups := t.groups ++ [{ part := o.part, tag := o.tag, index := index, win := w, contributor := c,
                                              kind := kind, slot := k, masks := ms, skipped := skipped }] }))

/-- A group is one of operation `o`. -/
def RecGroup.ofOp (o : Op) (r : RecGroup) : Bool := r.part == o.part && r.tag == o.tag

/-- Every group of an operation that runs finishes. -/
def State.finishGroups (s : State) (o : Op) : State := (s.groupsOf (RecGroup.ofOp o)).foldl State.finishGroup s

/-- An operation whose groups have all been begun and have all finished ends (R473). -/
def State.recoverEnd (s : State) (o : Op) (w total : Nat) : State :=
  if ((s.runningOp o.part o.tag (dOpcode o.desc)).map (·.progress)) = some total ∧ s.groupsOf (RecGroup.ofOp o) = [] then
    s.endWinInfo o w stDone total
  else s

/-- Up to `n` further groups of an operation begin, each after the one before has finished where `finish` says so. The
first that fails decides the operation: the groups before it are applied, and INFO holds its index (R473). -/
def State.startGroups (pair : Bool) (w : Nat) (gs : List Bytes) (finish : Bool) : Nat → Op → State → State
  | 0, _, s => s
  | n + 1, o, s =>
    match gs[o.progress]? with
    | none => s
    | some bs =>
      match s.startGroup o w pair o.progress bs with
      | .wait t => t
      | .fail t st => (t.finishGroups o).endWinInfo o w st o.progress
      | .next t =>
        let t1 := (if finish then t.finishGroups o else t).modOp o.part o.tag (fun q => { q with progress := o.progress + 1 })
        State.startGroups pair w gs finish n { o with progress := o.progress + 1 } t1

/-- `n` more elements of the masks of group `index` of an operation. -/
def State.stepGroup (s : State) (o : Op) (index n : Nat) : State :=
  match (s.groupsOf (RecGroup.ofOp o)).find? (fun r => r.index == index) with
  | none => s
  | some r =>
    let x := s.win r.win
    if r.size x ≤ r.at_ + n then s.finishGroup r
    else
      ((State.applyMasks x r.masks n r.at_ s).profMasks x r.masks.length r.at_ n).modTally (fun t => { t with
        groups := t.groups.map (fun q => if q == r then { q with at_ := r.at_ + n } else q) })

/-- A recovery operation proceeds as the command says. -/
def State.recoverGo (s : State) (o : Op) (w : Nat) (pair : Bool) (gs : List Bytes) : RecGo → State
  | .whole => (State.startGroups pair w gs true gs.length o (s.finishGroups o)).recoverEnd o w gs.length
  | .start => (State.startGroups pair w gs false 1 o s).recoverEnd o w gs.length
  | .lines i n => (s.stepGroup o i n).recoverEnd o w gs.length

/-- A key of an operation's groups fails step 1 of 15 R622 (R623). -/
def State.recoverDead (s : State) (o : Op) : Bool :=
  !s.hasPartKeys o.part || (s.groupsOf (RecGroup.ofOp o)).any (fun r => !s.keyLives r.slot)

/-- The body of RECOVER_SELF and RECOVER_PAIR (R469). -/
def recBodyOk (d : Bytes) : Bool :=
  decide (bits (le d 0x18 1) 7 6 = 0) && allZero (slice d 0x19 3) && allZero (slice d 0x2C 20) &&
  decide (1 ≤ recCount d) && decide (recCount d ≤ 65536) && decide (recSrc d % 64 = 0) &&
  decide (8 ≤ recLen d) && decide (recLen d ≤ 2 ^ 28) && rangeOk (recSrc d, recLen d)

/-- RECOVER_SELF and RECOVER_PAIR (R469 to R477): in SUMMING the operation waits (R474). -/
def State.recoverOp (pair : Bool) (go : RecGo) (s : State) (o : Op) : State :=
  let d := o.desc
  let w := winHandle d
  let x := s.win w
  if !s.ownsWin o.part w || decide (x.st ≠ .recovering) || decide (4 ≤ x.geo.elem) || decide (x.phase = .recovered) ||
      decide (x.phase = .releasing) then s.refuseOp o stNotPermitted
  else if !recBodyOk d then s.refuseOp o stMalformed
  else if x.phase ≠ .accepting then s
  else if s.recoverDead o then (s.endWinOp o w stKeyRetired).abandonGroups (RecGroup.ofOp o)
  else
    (s.prepare o [(recSrc d, recLen d)] [] 0 noWhole).finish o (fun t =>
      match splitGroups pair (recCount d) (t.readVa o.part (recSrc d) (recLen d)) with
      | none => t.endWinInfo o w stMalformed 0
      | some gs => t.recoverGo o w pair gs go)

/-- COMMITTED contributors without SELF_SEED applied. -/
def State.missing (s : State) (w : Nat) : Nat := s.regN (aTallyWinCommits w) - s.regN (aTallyRecSelf w)

/-- An earlier recovery operation of window `w` has not completed (R475). -/
def State.recoveringBefore (s : State) (o : Op) (w : Nat) : Bool :=
  (s.ops.takeWhile (fun q => !(q.part == o.part && q.tag == o.tag))).any (fun q =>
    q.part == o.part && (decide (dOpcode q.desc = 0x0410) || decide (dOpcode q.desc = 0x0411)) &&
    decide (winHandle q.desc = w) && decide (q.stage ≠ .recording))

/-- RECOVER_FINISH (R474, R475). -/
def State.recoverFinishOp (s : State) (o : Op) : State :=
  let w := winHandle o.desc
  let x := s.win w
  if !s.ownsWin o.part w then s.refuseOp o stNotPermitted
  else if x.st ≠ .recovering ∧ x.st ≠ .released then s.refuseOp o stNotPermitted
  else if !winBodyOk o.desc then s.refuseOp o stMalformed
  else if x.st = .released ∨ x.phase = .recovered ∨ x.phase = .releasing then s.endWinOp o w stDone
  else if x.phase ≠ .accepting ∨ s.recoveringBefore o w then s
  else if s.missing w ≠ 0 then s.endWinInfo o w stNotPermitted (s.missing w)
  else (s.enterRecovered w).endWinOp o w stDone

/-- RELEASE (R476, R477). -/
def State.releaseOp (s : State) (o : Op) : State :=
  s.winOp o (fun x => decide (x.st = .recovering) && decide (x.phase = .recovered) && s.releaseDue (winHandle o.desc))
    (fun w => (s.startRelease w).endWinOp o w stDone)

/-- RECOVER_SELF (R469). -/
def execRecoverSelf (p : Fin 16) (tag : Fin 4096) (go : RecGo) (s : State) : Host.Outcome State Fault Refusal :=
  .next (s.runOp p tag 0x0410 (s.recoverOp false go))

/-- RECOVER_PAIR (R469). -/
def execRecoverPair (p : Fin 16) (tag : Fin 4096) (go : RecGo) (s : State) : Host.Outcome State Fault Refusal :=
  .next (s.runOp p tag 0x0411 (s.recoverOp true go))

/-- RECOVER_FINISH (R475). -/
def execRecoverFinish (p : Fin 16) (tag : Fin 4096) (s : State) : Host.Outcome State Fault Refusal :=
  .next (s.runOp p tag 0x0412 s.recoverFinishOp)

/-- RELEASE (R476). -/
def execRelease (p : Fin 16) (tag : Fin 4096) (s : State) : Host.Outcome State Fault Refusal :=
  .next (s.runOp p tag 0x0413 s.releaseOp)

/-- REC_LEDGER_READ (R468): before the ledger is allocated its entries read 0. -/
def execRecLedgerRead (p : Fin 16) (tag : Fin 4096) (s : State) : Host.Outcome State Fault Refusal :=
  .next (s.runOp p tag 0x0414 (fun o =>
    s.ledgerReadOp o 1 (fun x c => if x.recFrames.isEmpty then none else some (x.recAddr c))))

/-- The timed release of window `w` falls due where it applies and has not failed before (R478, R480). -/
def State.timedRelease (s : State) (w : Nat) : State :=
  let x := s.win w
  if x.st = .recovering ∧ x.phase = .recovered ∧ !x.releaseFailed ∧ s.releaseDue w then s.startRelease w else s

/-- TIMED_RELEASE (R478): held while FT is UNLOCKED (08 R363, R376). -/
def execTimedRelease (w : Fin 64) (s : State) : Host.Outcome State Fault Refusal :=
  let x := s.win w
  .next (if x.st ≠ .recovering ∨ x.phase ≠ .recovered ∨ x.geo.releaseDelay = 0 then s
    else
      let s1 := s.advanceTo (x.closeAt + x.geo.releaseDelay)
      if s1.ftLocked then s1.timedRelease w else s1.heldByTime w)

/-- The bytes released: the accumulators' elements in order (R479). -/
def State.sumBytes (s : State) (x : Window) : Bytes :=
  (List.range x.geo.length).flatMap (fun e => toLE (accBytes x.geo.elem) (s.acc x e))

/-- The unit that writes DEST, as the folio unit sees it: no tag waits for it. -/
def Window.writer (x : Window) : Op := { part := x.part, tag := 4096, holder := 0 }

/-- The sum written to DEST folio by folio from folio `k` of it on (R479); where a write fails, what is written before it
stays (R480). -/
def State.copySum (x : Window) (bs : Bytes) : Nat → Nat → State → Prep
  | 0, _, s => .ok s
  | n + 1, k, s =>
    let a := x.geo.dest + 65536 * k
    let c := slice bs (65536 * k) (min 65536 (bs.length - 65536 * k))
    match s.prepare x.writer [] [(a, c.length)] 0 noWhole with
    | .ok t => State.copySum x bs n (k + 1) (t.writeVa x.part 4096 a c)
    | r => r

/-- RELEASE_COPY_DONE (R449, R479, R480): the copy is made, or a write to DEST fails. -/
def execReleaseCopyDone (w : Fin 64) (s : State) : Host.Outcome State Fault Refusal :=
  let x := s.win w
  .next (if x.st ≠ .recovering ∨ x.phase ≠ .releasing then s
    else
      let bs := s.sumBytes x
      match State.copySum x bs (ceilDiv bs.length 65536) 0 s with
      | .wait t => t
      | .ok t => ((t.modWin w (fun y => { y with phase := .none })).setPair (aTallyRecRelLo w) t.ftNs).winGo w .released
      | .fail t st =>
        ((t.modWin w (fun y => { y with phase := .recovered, releaseFailed := true })).vecEvents w (aTallyRecEvents w) 2).addErr
          st 0x07 0 (some x.part) 0xFF (toLE 1 w))

end Sys2Proof.Machine
end

