-- ==== Sys2Proof/Machine/Time.lean ====
section
/-!
DEFINITION. Machine/Time.lean: federation time (08_federation_time R350 to R380): the servo, the lock
states, held timed actions, IEEE 1588 messages and the PPS pins.
-/
namespace Sys2Proof.Machine

/-- The state with federation time changed. -/
def State.modFt (s : State) (g : FtSt → FtSt) : State := { s with ft := g s.ft }

/-- The TIME_SOURCE in force; none is SOURCE 2. -/
def State.timeSource (s : State) : TimeSource := ((s.dev).map (·.time)).getD {}

/-- The estimated error in 1/256 ns (R361; log entry 44). -/
def State.estErr (s : State) : Nat :=
  let f := s.ft
  if f.growing then f.estBase + f.holdRate * 256 * (s.cycles - f.lossAt) / 312500000
  else match f.hist with
    | [] => f.estBase
    | l => (l.map Int.natAbs).foldl (· + ·) 0 / l.length

/-- The estimated error in ns. -/
def State.estNs (s : State) : Nat := s.estErr / 256

/-- FTIME_EVENTS bits (R380). -/
def evUnlocked : Nat := 1
def evLocked : Nat := 2
def evHoldover : Nat := 4
def evStep : Nat := 8
def evMaster : Nat := 16

/-- FTIME_EVENTS bits set. -/
def State.ftEvents (s : State) (mask : Nat) : State := s.setEvents aFtimeEvents mask 1

/-- Some window is OPEN or GRACE (R353, R360). -/
def State.windowsOpen (s : State) : Bool :=
  s.tally.wins.any (fun e => decide (e.2.st = .opn) || decide (e.2.st = .grace))

/-! ### Held actions (R369 to R371) -/

/-- A timed action. -/
inductive Timed where
  | openW (w : Nat)
  | closeW (w : Nat)
  | releaseW (w : Nat)
  | rekey (p : Nat)
deriving DecidableEq, Repr

/-- An action takes its place in a list by time. -/
def insertTimed (x : Nat × Timed) : List (Nat × Timed) → List (Nat × Timed)
  | [] => [x]
  | y :: ys => if x.1 < y.1 then x :: y :: ys else y :: insertTimed x ys

/-- The actions whose times have passed, in ascending order of time. -/
def State.dueActions (s : State) : List (Nat × Timed) :=
  let ws := (List.range 64).flatMap (fun w =>
    let x := s.win w
    match x.st with
    | .defined => [(x.openAt, Timed.openW w), (x.closeAt, Timed.closeW w)]
    | .opn => [(x.closeAt, Timed.closeW w)]
    | .recovering => if x.geo.releaseDelay = 0 then [] else [(x.closeAt + x.geo.releaseDelay, Timed.releaseW w)]
    | _ => [])
  let ks := (List.range 16).flatMap (fun p =>
    if s.admitted p then ((((s.job p).map (·.key.rekeyAt)).getD []).drop (s.part p).adm.rekeys).map (fun t => (t, Timed.rekey p)) else [])
  ((ws ++ ks).filter (fun e => decide (e.1 ≤ s.ftNs))).foldl (fun l e => insertTimed e l) []

/-- A held action runs where it still applies (R370). -/
def State.runTimed (s : State) : Timed → State
  | .openW w => if (s.win w).st = .defined then s.openLate w else s
  | .closeW w => if (s.win w).st = .opn ∧ (s.win w).closeAt ≤ s.ftNs then s.closeWindow w else s
  | .releaseW w => s.timedRelease w
  | .rekey p => s.rekeyNow p

/-- The actions whose times have passed run in ascending order of time (R370, R371). -/
def State.runDue (s : State) : State := s.dueActions.foldl (fun t e => t.runTimed e.2) s

/-! ### Lock states (R362, R363) -/

/-- FT becomes UNLOCKED from a locked state (R362): the ledger entry and the event; PPS_OUT goes low (R366). -/
def State.ftUnlock (s : State) : State :=
  let s1 := s.addErr stTimeUnlocked 0x09 0 none 0xFF (toLE 4 (min s.estNs (2 ^ 32 - 1)))
  let s2 := (s1.modFt (fun f => { f with lock := .unlocked })).ftEvents evUnlocked
  if s.ft.ppsOut then (s2.modFt (fun f => { f with ppsOut := false })).emit (.pin "PPS_OUT" false) else s2

/-- The beat boundary that comes next (R362, R372). -/
def State.nextBeat (s : State) : Nat :=
  match s.beats with
  | some b => ceilDiv s.ftNs (2 ^ b.log2) * 2 ^ b.log2
  | none => 0

/-- FT becomes LOCKED (R362, R370). -/
def State.ftLock (s : State) : State :=
  let was := s.ftLocked
  let s1 := (s.modFt (fun f => { f with
    lock := .locked, ever := true, beatFrom := if was then f.beatFrom else s.nextBeat })).ftEvents evLocked
  if was then s1 else s1.runDue

/-- The source is lost (R361, R362): only once an update has come since the last loss. -/
def State.ftLose (s : State) : State :=
  if s.ft.growing || (s.ft.hist.isEmpty && !s.ft.stepped && decide (s.ft.lock ≠ .locked)) then s
  else
    let e := s.estErr
    let s1 := s.modFt (fun f => { f with estBase := e, growing := true, lossAt := s.cycles, hist := [], good := 0 })
    if s.ft.lock = .locked then (s1.modFt (fun f => { f with lock := .holdover })).ftEvents evHoldover else s1

/-- FT is stepped to the source, `off` being FT minus the source in 1/256 ns (R360, R362, R371, R547). Stamps taken on FT
before the step are of no further use. -/
def State.ftStep (s : State) (off : Int) : State :=
  let locked := s.ftLocked
  let s1 := s.modFt (fun f => { f with
    acc := ((f.acc : Int) - off * 2 ^ 24).toNat % 2 ^ 96, hist := [], good := 0, estBase := off.natAbs, growing := false
    stepped := true, syncWait := none, delayWait := none, lastT12 := none })
  let s2 : State := { s1 with links := s1.links.map (fun e => (e.1, { e.2 with dmin := none })) }
  let s3 := s2.ftEvents evStep
  if locked then ((if off < 0 then s3.runDue else s3)).ftUnlock else s3

/-- The nominal rate word, and how far the servo may move it (R351, R360). -/
def nominalRate : Nat := 0x333333333
def rateSwing : Nat := 13743895

/-- The rate word after a slew of an offset: at most 1,000 ppm from nominal (log entry 43). -/
def slewed (off : Int) : Nat :=
  let d := max (-(rateSwing : Int)) (min (rateSwing : Int) (Config.slew off))
  ((nominalRate : Int) + d).toNat

/-- An update of the servo: `off` is FT minus the source, in 1/256 ns (R360 to R362, R379). -/
def State.ftUpdate (s : State) (off : Int) : State :=
  let v := s.regN aFtimeHold
  let s0 := s.modFt (fun f => { f with
    limit := bits v 19 0, holdRate := bits v 31 20, growing := false
    lastOffset := off.tdiv 256 })
  if (!s.ft.ever && !s.ft.stepped && decide (off ≤ 0)) || (decide (256000000 < off.natAbs) && !s.windowsOpen) then s0.ftStep off
  else
    let s1 := s0.modFt (fun f => { f with hist := (off :: f.hist).take 8, rate := slewed off })
    let ok := decide (s1.estErr ≤ 256 * s1.ft.limit)
    let s2 := s1.modFt (fun f => { f with good := if ok then f.good + 1 else 0 })
    match s2.ft.lock with
    | .locked => if ok then s2 else s2.ftUnlock
    | .unlocked => if 8 ≤ s2.ft.good then s2.ftLock else s2
    | .holdover => if 8 ≤ s2.ft.good then s2.ftLock else if ok then s2 else s2.ftUnlock

/-- HOLDOVER_LIMIT_EXCEEDED (R361, R362): time passes until the estimate exceeds the limit; a new limit is compared from the
next reference cycle on (R379). -/
def execHoldoverLimitExceeded (s : State) : Host.Outcome State Fault Refusal :=
  let f := s.ft
  .next (if f.lock = .unlocked then s
    else if f.growing then
      let need := 256 * f.limit + 1 - f.estBase
      (s.advanceToCycle (f.lossAt + max 1 (ceilDiv (need * 312500000) (max 1 (f.holdRate * 256))))).ftUnlock
    else if f.lock = .holdover ∧ 256 * f.limit < s.estErr then (s.advance 1).ftUnlock
    else s)

/-- A write of FTIME_HOLD that has been accepted acts at once while the estimate grows and in HOLDOVER (R379). -/
def State.ftHold (s : State) : State :=
  if s.ft.growing || decide (s.ft.lock = .holdover) then
    let v := s.regN aFtimeHold
    let e := s.estErr
    s.modFt (fun f => { f with
      estBase := if f.growing then e else f.estBase, lossAt := if f.growing then s.cycles else f.lossAt
      limit := bits v 19 0, holdRate := bits v 31 20 })
  else s

/-- The servo state is cleared by a charter that changes TIME_SOURCE (R376). -/
def State.ftClear (s : State) : State :=
  let e := s.estErr
  let s1 := s.modFt (fun f => { f with
    hist := [], good := 0, estBase := e, growing := f.growing || decide (f.lock ≠ .unlocked), lossAt := s.cycles
    gm := none, foreign := [], selfMaster := false, syncWait := none, lastT12 := none, delayWait := none, pathDelay := 0, followDue := none, delayDue := []
    tod := none, lastPps := none })
  if s.ft.lock = .locked then (s1.modFt (fun f => { f with lock := .holdover })).ftEvents evHoldover else s1

/-! ### PPS (R359, R366) -/

/-- A rising edge of PPS_IN (R359): with a valid time of day it is an update, and without one a missing update. -/
def State.ppsEdge (s : State) : State :=
  if s.timeSource.source ≠ 1 then s
  else
    let stamp : Int := (s.stamp256 : Int) - sgn 24 (s.regN aFtimePps % 2 ^ 24)
    let s1 := s.modFt (fun f => { f with lastPps := some s.cycles, tod := none })
    match s.ft.tod with
    | some t => s1.ftUpdate (stamp - (t : Int) * 256000000000)
    | none => s1.ftLose

/-- PPS_IN_EDGE (R359), at an instant within the reference cycle (R364). -/
def execPpsInEdge (sub : Fin 820) (s : State) : Host.Outcome State Fault Refusal := .next (s.atInstant sub State.ppsEdge)

/-- A time-of-day message in its interval (R359, R594). -/
def State.takeTod (s : State) (sec seq : Nat) : State :=
  match s.ft.lastPps with
  | none => s
  | some c =>
    let d := s.cycles - c
    if s.timeSource.source ≠ 1 ∨ d < 31250000 ∨ 281250000 < d then s
    else ((s.modFt (fun f => { f with tod := some sec })).setRegN aHostTodLo (sec % 2 ^ 32)).setRegN aHostTodHi
      (seq * 65536 + sec / 2 ^ 32 % 65536)

/-- PPS_OUT_PULSE (R366): the rise at the next whole second of FT, while FT is locked and OUT_EN is 1, and
the fall 100 ms later. -/
def execPpsOutPulse (fall : Bool) (s : State) : Host.Outcome State Fault Refusal :=
  .next (if fall then
      if s.ft.ppsOut then
        ((s.advanceTo (s.ftNs / 1000000000 * 1000000000 + 100000000)).modFt (fun f => { f with ppsOut := false })).emit (.pin "PPS_OUT" false)
      else s
    else if s.ft.ppsOut then s
    else
      let t := s.advanceTo (ceilDiv s.ftNs 1000000000 * 1000000000)
      if t.ftLocked && (t.reg aFtimePps).getLsbD 31 then (t.modFt (fun f => { f with ppsOut := true })).emit (.pin "PPS_OUT" true)
      else t)

/-! ### IEEE 1588 (R356 to R358) -/

/-- A PTP timestamp of 10 bytes, in 1/256 ns. -/
def ptpTime (b : Bytes) : Int := ((be b 0 6 * 1000000000 + be b 6 4 : Nat) : Int) * 256

/-- A correctionField in 1/256 ns. -/
def ptpCorr (b : Bytes) : Int := sgn 64 (be b 8 8) / 256

/-- The data set of an Announce message. -/
def readAnnounce (b : Bytes) : Announce :=
  { priority1 := be b 47 1, clockClass := be b 48 1, accuracy := be b 49 1, variance := be b 50 2, priority2 := be b 52 1,
    gmId := be b 53 8, steps := be b 61 2, sender := be b 20 10 }

/-- Lexicographic order. -/
def lexLess : List Nat → List Nat → Bool
  | x :: xs, y :: ys => decide (x < y) || (decide (x = y) && lexLess xs ys)
  | _, _ => false

/-- The package's own data set as a clock (log entry 52). -/
def ownClock : Announce :=
  { priority1 := 128, clockClass := 248, accuracy := 0xFE, variance := 0xFFFF, priority2 := 128,
    gmId := Config.clockIdentity.toNat, steps := 0, sender := Config.clockIdentity.toNat * 65536 + 1 }

/-- The data set comparison of IEEE 1588: of one grandmaster by the steps removed and the sender, of two by their data
(log entry 52). -/
def Announce.better (a b : Announce) : Bool :=
  if a.gmId = b.gmId then lexLess [a.steps, a.sender] [b.steps, b.sender]
  else lexLess [a.priority1, a.clockClass, a.accuracy, a.variance, a.priority2, a.gmId]
    [b.priority1, b.clockClass, b.accuracy, b.variance, b.priority2, b.gmId]

/-- The Announce interval of the default profile, 2 s, in reference cycles (log entry 52). -/
def announceCycles : Nat := 625000000

/-- The device serves time on its port (R356): FTIME_STATUS.MASTER. -/
def State.ftMaster (s : State) : Bool := decide (s.timeSource.source = 0) && s.timeSource.masterOk && s.ft.selfMaster

/-- A clock is qualified as a foreign master: two Announce messages of it within four Announce intervals. -/
def Foreign.qualified (f : Foreign) (now : Nat) : Bool :=
  match f.prev with
  | some p => decide (now ≤ p + 4 * announceCycles)
  | none => false

/-- The better one of a clock and the best so far. -/
def bestOf (best : Option Announce) (f : Foreign) : Option Announce :=
  match best with
  | none => some f.data
  | some b => if f.data.better b then some f.data else some b

/-- The best of the qualified clocks heard on the PTP port. -/
def State.bestForeign (s : State) : Option Announce := (s.ft.foreign.filter (fun f => f.qualified s.cycles)).foldl bestOf none

/-- The master of the port changes: what was exchanged with the one before is of no further use, and the source is
lost (R362). -/
def State.newMaster (s : State) (gm : Option Announce) (self : Bool) : State :=
  let had := s.ft.gm.isSome
  let s1 := s.modFt (fun f => { f with
    gm := gm, selfMaster := self, syncWait := none, delayWait := none, lastT12 := none, pathDelay := 0, lastAnnounce := s.cycles })
  let s2 := if gm.isSome || (self && !s.ft.selfMaster) then s1.ftEvents evMaster else s1
  if had then s2.ftLose else s2

/-- The state decision of the best master clock algorithm for an ordinary clock (R356, R362): the best clock heard, or the
device's own where it may serve and is better; without a qualified clock nothing changes before the Announce timeout. -/
def State.bmca (s : State) : State :=
  match s.bestForeign with
  | none => s
  | some b =>
    if s.timeSource.masterOk && ownClock.better b then (if s.ft.selfMaster then s else s.newMaster none true)
    else match s.ft.gm with
      | some g => if g.sender = b.sender then s.modFt (fun f => { f with gm := some b }) else s.newMaster (some b) false
      | none => s.newMaster (some b) false

/-- The Announce timeout, three Announce intervals without one of the master: the clocks heard are forgotten, and the device
serves where it may. -/
def State.announceTimeout (s : State) : State :=
  (s.modFt (fun f => { f with foreign := [] })).newMaster none s.timeSource.masterOk

/-- SOURCE_LOST (R362): time passes until four Sync intervals have gone by, until the master's Announce messages, or those
of any master, have stayed away for the Announce timeout, or until a PPS_IN edge is overdue (log entry 53). -/
def execSourceLost (s : State) : Host.Outcome State Fault Refusal :=
  let t := s.timeSource
  .next (if t.source = 0 then
      let q := 4 * 312500000 * 128
      let span := if t.logSync < 0 then q / 128 / 2 ^ t.logSync.natAbs else q / 128 * 2 ^ t.logSync.natAbs
      let quiet := s.ft.lastAnnounce + 3 * announceCycles
      if s.ft.gm.isNone || decide (quiet < s.ft.lastSync + span) then (s.advanceToCycle quiet).announceTimeout
      else ((s.advanceToCycle (s.ft.lastSync + span)).modFt (fun f => { f with syncWait := none, delayWait := none })).ftLose
    else if t.source = 1 then
      match s.ft.lastPps with
      | some c => (s.advanceToCycle (c + 343750000)).ftLose
      | none => s.ftLose
    else s)

/-- An Announce message (R356): its clock is entered among those heard, the master's last message is noted, and the
algorithm runs. One of 255 steps or more, of an alternate master, or of the device itself does not count. -/
def State.takeAnnounce (s : State) (a : Announce) (alternate : Bool) : State :=
  if 255 ≤ a.steps ∨ alternate ∨ a.sender / 65536 = Config.clockIdentity.toNat then s
  else
    let old := s.ft.foreign.find? (fun f => f.data.sender == a.sender)
    let f : Foreign := { data := a, last := s.cycles, prev := old.map (·.last) }
    let mine := (s.ft.gm).any (fun g => g.sender == a.sender)
    (s.modFt (fun x => { x with
      foreign := x.foreign.filter (fun y => y.data.sender != a.sender) ++ [f]
      lastAnnounce := if mine then s.cycles else x.lastAnnounce })).bmca

/-- A Sync, with its Follow_Up where there are two steps, gives an update. -/
def State.syncUpdate (s : State) (t1 t2 : Int) : State :=
  (s.modFt (fun f => { f with syncWait := none, lastT12 := some (t1, t2) })).ftUpdate (t2 - t1 - s.ft.pathDelay)

/-- The message is of the master chosen. -/
def State.fromMaster (s : State) (b : Bytes) : Bool :=
  match s.ft.gm with
  | some g => decide (g.sender = be b 20 10) && !s.ftMaster
  | none => false

/-- A PTP message on the PTP port (R356 to R358). -/
def State.takePtp (s : State) (b : Bytes) : State :=
  let t := s.timeSource
  let ty := be b 0 1 % 16
  let drop := s.countUp aFtimePtpDrops 1
  if b.length < 34 ∨ be b 1 1 % 16 ≠ 2 ∨ be b 4 1 ≠ t.domain then s
  else if t.masterId ≠ 0 ∧ be b 20 8 ≠ t.masterId then drop
  else match ty with
    | 0 =>
      if !s.fromMaster b || decide (b.length < 44) then s
      else
        let s1 := s.modFt (fun f => { f with lastSync := s.cycles })
        if (be b 6 1).testBit 1 then s1.modFt (fun f => { f with syncWait := some (be b 30 2, (s.stamp256 : Int), ptpCorr b) })
        else s1.syncUpdate (ptpTime (b.drop 34) + ptpCorr b) s.stamp256
    | 8 =>
      if !s.fromMaster b || decide (b.length < 44) then s
      else match s.ft.syncWait with
        | some (q, t2, c) => if q = be b 30 2 then s.syncUpdate (ptpTime (b.drop 34) + ptpCorr b + c) t2 else s
        | none => s
    | 1 =>
      if s.ftMaster && decide (44 ≤ b.length) then
        s.modFt (fun f => { f with delayDue := f.delayDue ++ [(be b 20 10, be b 30 2, s.stamp256, ptpCorr b)] })
      else s
    | 9 =>
      match s.ft.delayWait, s.ft.lastT12 with
      | some (q, t3), some (t1, t2) =>
        if s.fromMaster b && decide (54 ≤ b.length) && decide (q = be b 30 2) && decide (be b 44 10 = ownClock.sender) then
          let t4 := ptpTime (b.drop 34) - ptpCorr b
          s.modFt (fun f => { f with delayWait := none, pathDelay := ((t2 - t1) + (t4 - t3)) / 2 })
        else s
      | _, _ => s
    | 11 => if b.length < 64 then s else s.takeAnnounce (readAnnounce b) ((be b 6 1).testBit 0)
    | 2 | 3 | 10 | 12 | 13 => drop
    | _ => s

/-! The transports of IEEE 1588-2019 Annex C (UDP over IPv4), D (UDP over IPv6) and E (IEEE 802.3); multicast addresses,
ports and the ethertype are the standard's (log entry 141). -/

/-- The multicast IP address of PTP over the transport, in 16 bytes. -/
def ptpGroup (ipv4 : Bool) : Bytes := if ipv4 then zeros 12 ++ [224, 0, 1, 129] else [0xFF, 0x0E] ++ zeros 12 ++ [1, 0x81]

/-- The destination MAC address of PTP over the transport. -/
def ptpMac (transport : Nat) : Bytes :=
  match transport with
  | 0 => [0x33, 0x33, 0, 0, 1, 0x81]
  | 1 => [0x01, 0x00, 0x5E, 0, 1, 129]
  | _ => [0x01, 0x1B, 0x19, 0, 0, 0]

/-- The message of a PTP frame: event messages come to UDP port 319 and the others to 320. -/
def rxPtp (transport : Nat) (ent : PortEnt) (e : RxEth) : Option Bytes :=
  if e.dst ≠ ptpMac transport then none
  else if 2 ≤ transport then (if e.ethertype = 0x88F7 then some e.body else none)
  else
    let ipv4 := transport == 1
    match rxIp { ent with ipv4 := ipv4, address := ptpGroup ipv4 } e with
    | none => none
    | some (src, proto, _, b) =>
      let n := be b 4 2
      let m := slice b 8 (n - 8)
      if proto ≠ 17 ∨ n < 8 ∨ b.length < n ∨ (!ipv4 ∧ slice e.body 24 16 ≠ ptpGroup false) ∨
          be b 2 2 ≠ (if be m 0 1 % 16 < 8 then 319 else 320) ∨
          (be b 6 2 ≠ 0 ∧ onesSum (pseudoHead ipv4 src (ptpGroup ipv4) 17 n ++ b.take n) ≠ 65535) then none
      else some m

/-- A PTP message as a frame of the port over the transport of TIME_SOURCE. -/
def ptpFrame (transport i : Nat) (ent : PortEnt) (m : Bytes) : Bytes :=
  let head := ethHead (ptpMac transport) (portMac i) ent
  if 2 ≤ transport then withFcs (head 0x88F7 ++ m)
  else
    let ipv4 := transport == 1
    let en : PortEnt := { ent with ipv4 := ipv4 }
    let port := if be m 0 1 % 16 < 8 then 319 else 320
    let u (c : Nat) : Bytes := toBE 2 port ++ toBE 2 port ++ toBE 2 (8 + m.length) ++ toBE 2 c ++ m
    let c := 65535 - onesSum (pseudoHead ipv4 en.address (ptpGroup ipv4) 17 (8 + m.length) ++ u 0)
    withFcs (head (if ipv4 then 0x0800 else 0x86DD) ++ ipPacket en (ptpGroup ipv4) 17 64 (u (if c = 0 then 65535 else c)))

/-- A frame with a PTP message (R356, R527, R529, R531): on a port that runs no PTP, or in another form, it is dropped and
counted. -/
def State.rxPtpFrame (s : State) (port : Nat) (f : Bytes) : State :=
  match s.portEnt port with
  | none => s
  | some ent =>
    if !(s.port port).up then s
    else if !fcsOk f then s.countUp (aRytPortDropMac port) 1
    else
      let s1 := s.countUp (aRytPortRxFrames port) 1
      let t := s.timeSource
      match if t.source = 0 ∧ t.port = port then (rxEth ent f).bind (rxPtp t.transport ent) else none with
      | some m => s1.takePtp m
      | none => s1.countUp (aRytPortDropMac port) 1

/-- PTP_MESSAGE (R356), with the instant of its receive stamp (R364). -/
def execPtpMessage (port : Fin 64) (frame : Bytes) (sub : Fin 820) (s : State) : Host.Outcome State Fault Refusal :=
  .next (s.atInstant sub (fun t => t.rxPtpFrame port frame))

/-- The 10 bytes of a timestamp in 1/256 ns, its fraction left out. -/
def ptpStamp (t : Nat) : Bytes := toBE 6 (t / 256 / 1000000000) ++ toBE 4 (t / 256 % 1000000000)

/-- The header of a PTP message (log entry 52). -/
def State.ptpHead (s : State) (ty len flags corr seq ctl : Nat) (interval : Int) : Bytes :=
  toBE 1 ty ++ [0x12] ++ toBE 2 len ++ toBE 1 s.timeSource.domain ++ [0] ++ toBE 2 flags ++ toBE 8 corr ++ zeros 4 ++
    toBE 10 ownClock.sender ++ toBE 2 seq ++ toBE 1 ctl ++ toBE 1 (unsgn 8 interval)

/-- A PTP message leaves on the PTP port. -/
def State.sendPtp (s : State) (b : Bytes) : State :=
  let t := s.timeSource
  match s.portEnt t.port with
  | some ent => s.sendFrame t.port (ptpFrame t.transport t.port ent b)
  | none => s

/-- What the port sends (R356): 0 Announce, 1 Sync, 2 Follow_Up, 3 Delay_Req, 4 Delay_Resp, where the state of the port
has that message to send. -/
def State.ptpSend (s : State) (kind : Nat) : State :=
  let t := s.timeSource
  let now := s.stamp256
  if t.source ≠ 0 ∨ !(s.port t.port).up then s
    else match kind with
    | 0 =>
      if s.ftMaster then
        let q := s.ft.seqAnnounce
        (s.modFt (fun f => { f with seqAnnounce := (q + 1) % 65536 })).sendPtp
          (s.ptpHead 11 64 0x0008 0 q 5 1 ++ ptpStamp now ++ toBE 2 37 ++ [0] ++ toBE 1 ownClock.priority1 ++ toBE 1 ownClock.clockClass ++
            toBE 1 ownClock.accuracy ++ toBE 2 ownClock.variance ++ toBE 1 ownClock.priority2 ++ toBE 8 ownClock.gmId ++ toBE 2 0 ++ [0xA0])
      else s
    | 1 =>
      if s.ftMaster then
        let q := s.ft.seqSync
        let s1 := s.modFt (fun f => { f with seqSync := (q + 1) % 65536, followDue := if t.twoStep then some (q, now) else none })
        if t.twoStep then s1.sendPtp (s.ptpHead 0 44 0x0200 0 q 0 t.logSync ++ zeros 10)
        else s1.sendPtp (s.ptpHead 0 44 0 (now % 256 * 256) q 0 t.logSync ++ ptpStamp now)
      else s
    | 2 =>
      match s.ft.followDue with
      | some (q, at_) =>
        (s.modFt (fun f => { f with followDue := none })).sendPtp (s.ptpHead 8 44 0 (at_ % 256 * 256) q 2 t.logSync ++ ptpStamp at_)
      | none => s
    | 3 =>
      if s.ft.gm.isSome && !s.ftMaster then
        let q := s.ft.seqDelay
        (s.modFt (fun f => { f with seqDelay := (q + 1) % 65536, delayWait := some (q, (now : Int)) })).sendPtp
          (s.ptpHead 1 44 0 0 q 1 127 ++ zeros 10)
      else s
    | _ =>
      match s.ft.delayDue with
      | (who, q, at_, c) :: rest =>
        (s.modFt (fun f => { f with delayDue := rest })).sendPtp
          (s.ptpHead 9 54 0 (unsgn 64 (c * 256 - (at_ % 256 * 256 : Nat))) q 3 t.logDelayReq ++ ptpStamp at_ ++ toBE 10 who)
      | [] => s

/-- PTP_SEND (R356), with the instant of its send stamp (R364). -/
def execPtpSend (kind : Fin 5) (sub : Fin 820) (s : State) : Host.Outcome State Fault Refusal :=
  .next (s.atInstant sub (fun t => t.ptpSend kind))

end Sys2Proof.Machine
end

