-- ==== Sys2Proof/Machine/RegOps.lean ====
section
/-!
DEFINITION. Machine/RegOps.lean: RWL registers: who owns one and whom it affects (02_charters R76 to R80 and
the ownership rules of each chapter), which values are in range, and what an accepted write does.
-/
namespace Sys2Proof.Machine

/-! ### Which accesses are served -/

/-- A register that BAR0 still serves in tamper hold (15 R647): GLOBAL_PART and the SECMBX block for reads,
SECMBX_TAMPER_EVENTS for writes. -/
def heldRead (off : Nat) : Bool := decide (off = aGlobalPart) || decide (off / 0x100000 = 9)

/-- A block that BAR0 serves in recovery mode (18 R710): GLOBAL, SECMBX and MGMT. -/
def recoveryBlock (off : Nat) : Bool := [0, 9, 10].contains (off / 0x100000)

/-- The requester's accesses reach the registers: a function's only while the host port serves it (14 R600). -/
def State.reqUp (s : State) : Req → Bool
  | .fn f => s.portServed && (decide (f = 0) || !s.recoveryMode)
  | _ => true

/-- Tamper hold lets an access through: it refuses JTAG's (15 R647, 20 R752). -/
def State.holdLets (s : State) (req : Req) (served : Bool) : Bool :=
  !s.tamperHold || (served && decide (req ≠ .jtag))

/-- A write of the register at `off` is served (15 R647, 18 R710). -/
def State.writeServed (s : State) (req : Req) (off : Nat) : Bool :=
  s.reqUp req && s.holdLets req (decide (off = aSecmbxTamperEvents)) && (!s.recoveryMode || recoveryBlock off)

/-- A read of the register at `off` is served (15 R647, 18 R710). -/
def State.readServed (s : State) (req : Req) (off : Nat) : Bool :=
  s.reqUp req && s.holdLets req (heldRead off) && (!s.recoveryMode || recoveryBlock off)

/-! ### Ownership -/

/-- The partitions that the device charter defines. -/
def State.partIds (s : State) : List Nat := ((s.dev).map (fun d => d.parts.map (·.id))).getD []

/-- The registers of which partition `p` owns copy `p`: 05 R244, 06 R318, 07 R348, 09 R408, 11 R484, 12 R522,
13 R569, 14 R604. -/
def partRegs : List Nat :=
  [aSchedPartCtrl 0, aSchedPartMoveCtrl 0, aFolioPartCtrl 0, aFolioPartBiasLo 0, aFolioPartBiasHi 0,
   aTallyRetPartCtrl 0, aTallyRecPartCtrl 0, aPolyPartCtrl 0, aRytPartRetx 0, aHostPartDma 0]

/-- A register of a core block, by the offset of its first copy. -/
def isCoreReg (base : Nat) : Bool := decide (aCoreId 0 0 ≤ base) && decide (base ≤ aCoreSpillsHi 0 0)

/-- A register of a stream, by the offset of its first copy. -/
def isStreamReg (base : Nat) : Bool := decide (aClusStreamCtrl 0 0 ≤ base) && decide (base ≤ aClusStreamPos 0 0)

/-- The owner of an RWL register, and the partitions that one of partition 0 affects: `v` is the value
written, which names the partition for which a closed stream opens. -/
def State.rwlOwner (s : State) (r : RegRow) (ix : List Nat) (v : Nat) : Nat × List Nat :=
  let i := ix.headD 0
  let j := ix.getD 1 0
  if partRegs.contains r.base then (i, [])
  else if r.base = aTallyWinCtrl 0 then (if (s.win i).st = .free then (0, []) else ((s.win i).part, []))
  else if r.base = aTallyHmpCfg 0 then
    match (s.hmp i).win with
    | some w => ((s.win w).part, [])
    | none => (0, [])
  else if r.base = aRytPortCc 0 then (0, s.partIds.filter (fun p => s.mayUsePort p i))
  else if isCoreReg r.base then
    match s.partOfCore (s.core (9 * i + j)).logical with
    | some p => (p, [])
    | none => (0, [])
  else if isStreamReg r.base then
    (if (s.stream i j).enable then ((s.stream i j).part, [])
     else (0, if r.base = aClusStreamCtrl 0 0 ∧ bit v 31 then [bits v 27 24] else []))
  else (0, s.partIds)

/-- An offset names an RWL register that partition `p` owns (R81). -/
def State.rwlOwned (s : State) (p off : Nat) : Bool :=
  match regAt off with
  | some (r, ix) => decide (r.rwl ≠ 0) && decide ((s.rwlOwner r ix 0).1 = p)
  | none => false

/-- R77: the requester may write an RWL register of partition `p`. -/
def State.rwlMay (s : State) (req : Req) (p : Nat) : Bool :=
  reqIsPf req || (match req with
    | .fn f => decide (s.funcOfPart p = some f.val)
    | _ => false)

/-- R78: the register is locked against every writer. -/
def State.rwlLocked (s : State) (o : Nat × List Nat) : Bool := s.partTrusted o.1 || o.2.any s.partTrusted

/-! ### Ranges -/

/-- A response of a tamper source in SECMBX_TAMPER_CFG. -/
def tamperField (v i : Nat) : Nat := v / 4 ^ i % 4

/-- A field lies outside its range. -/
def outside (lo hi x : Nat) : Bool := decide (x < lo) || decide (hi < x)

/-- Why a write of an RWL register is discarded, where it is: R144, R196, R246, R319, R321, R349, R379, R409,
R447, R486, R570, R573, R606, R653, R778 and the field tables. -/
def State.rwlBad (s : State) (r : RegRow) (ix : List Nat) (v : Nat) : Option Nat :=
  let i := ix.headD 0
  let mal (bad : Bool) : Option Nat := if bad then some stMalformed else none
  if r.base = aSchedPartCtrl 0 then mal (outside 1 1000 (bits v 9 0))
  else if r.base = aSchedPartMoveCtrl 0 then mal (outside 1 16 (bits v 20 16) || outside 10 60000 (bits v 15 0))
  else if r.base = aFolioCfg then
    mal (decide (bits v 31 24 = 0) || decide (bits v 23 20 = 0) || decide (bits v 19 16 = 0) || decide (bits v 15 8 = 0))
  else if r.base = aTallyHmpCfg 0 then
    let modular := match (s.hmp i).win with
      | some w => decide ((s.win w).geo.elem ≤ 3)
      | none => true
    mal (outside 1 64 (bits v 6 0) || (!modular && decide (bits v 6 0 < 64)))
  else if r.base = aTallyWinCtrl 0 then
    mal (decide ((s.win i).st = .free) || outside 1 32767 (bits v 31 17) || outside 10 100000 (bits v 16 0))
  else if r.base = aTallyRecPartCtrl 0 then mal (outside 1 64 (bits v 6 0))
  else if r.base = aRytPortCc 0 then mal (outside 100 65535 (bits v 31 16) || outside 1 65535 (bits v 15 0))
  else if r.base = aRytPartRetx 0 then mal (outside 1 65535 (bits v 31 16) || outside 0 6 (bits v 2 0))
  else if r.base = aHostPartDma 0 then mal (outside 1 8 (bits v 3 0))
  else if r.base = aFtimeHold then mal (outside 1 4095 (bits v 31 20) || outside 100 1000000 (bits v 19 0))
  else if r.base = aPwrThrottle then
    mal (outside 1000 1800 (bits v 26 16) || outside 25 255 (bits v 15 8) || outside 85 100 (bits v 7 0))
  else if r.base = aRngCfg then mal (decide (bits v 2 0 = 0))
  else if r.base = aMgmtWdtCfg then mal (outside 100 10000 (bits v 15 0))
  else if r.base = aSecmbxTamperCfg then
    let old := s.regN aSecmbxTamperCfg
    if (List.range 5).any (fun k => tamperField v k == 3) then some stMalformed
    else if s.tamperSweep && (!bit v 31 || (List.range 5).any (fun k => decide (tamperField v k < tamperField old k))) then
      some stNotPermitted
    else none
  else if r.base = aCoreScratchSplit 0 0 then
    mal (decide (bits v 23 16 + bits v 15 8 + bits v 7 0 ≠ 64) || decide (bits v 23 16 < 4))
  else if r.base = aCoreAccPolicy 0 0 then mal (outside 10 16 (bits v 20 16) || outside 8 20 (bits v 12 8))
  else if r.base = aClusStreamCtrl 0 0 then
    mal (bit v 31 && (outside 1 255 (bits v 15 8) || outside 1 64 (bits v 6 0)))
  else none

/-! ### The effect of an accepted write -/

/-- A physical core runs no operation (03 R140). -/
def State.coreIdle (s : State) (i : Nat) : Bool :=
  let l := (s.core i).logical
  !(s.ops.any (fun o => decide (o.stage = .running) && o.core == l && decide (l ≠ 0xFF)))

/-- The physical cores of partition `p`. -/
def State.physCores (s : State) (p : Nat) : List Nat :=
  (List.range 72).filter (fun i => decide ((s.core i).logical ≠ 0xFF) && (s.coreMask p).testBit (s.core i).logical)

/-- CORE_SR_SEED of every core of a partition (04 R173, R174). -/
def State.setSeed (s : State) (p v : Nat) : State :=
  (s.physCores p).foldl (fun t i => t.setPair (aCoreSrSeedLo (i / 9) (i % 9)) v) s

/-- The low half that a write of _HI takes with it (00_scope R21, R22), and the state without it. -/
def State.takeLo (s : State) (lo : Nat) (stored : W32) : W32 × State :=
  ((Tab.look (fun _ => none) s.pendLo lo).getD stored, { s with pendLo := Tab.store (fun _ => none) s.pendLo lo none })

/-- A write of a stream register (06 R321, R322): writing ENABLE = 1 starts the walk. -/
def State.putStream (s : State) (r : RegRow) (c i : Nat) (v : W32) : State :=
  let x := s.stream c i
  let n := v.toNat
  if r.base = aClusStreamCtrl 0 0 then
    s.setStream c i { x with
      enable := bit n 31, release := bit n 30, wrap := bit n 29, part := bits n 27 24, wclass := bits n 23 20
      w := bits n 15 8, ahead := bits n 6 0
      charter := x.charter && bit n 31
      pos := if bit n 31 then 0 else x.pos
      blocks := if bit n 31 then [] else x.blocks
      blk := if bit n 31 then 0 else x.blk }
  else if r.base = aClusStreamBaseHi 0 0 then
    let lo := s.takeLo (aClusStreamBaseLo c i) (BitVec.ofNat 32 x.base)
    lo.2.setStream c i { x with base := n * 2 ^ 32 + lo.1.toNat / 65536 * 65536 }
  else if r.base = aClusStreamStride 0 0 then s.setStream c i { x with stride := n }
  else if r.base = aClusStreamCount 0 0 then s.setStream c i { x with count := n }
  else s

/-- PPS_OUT as OUT_EN lets it (08 R366). -/
def State.ppsGate (s : State) : State :=
  if s.ft.ppsOut && !(s.reg aFtimePps).getLsbD 31 then
    (s.modFt (fun f => { f with ppsOut := false })).emit (.pin "PPS_OUT" false)
  else s

/-- The RWL fields of the register at `off` take `v`. The halves of a pair take effect at _HI. -/
def State.putRwl (s : State) (off : Nat) (r : RegRow) (ix : List Nat) (v : W32) : State :=
  let i := ix.headD 0
  let j := ix.getD 1 0
  let mask := BitVec.ofNat 32 r.rwl
  let new := (s.reg off &&& ~~~mask) ||| (v &&& mask)
  if isStreamReg r.base then s.putStream r i j (v &&& mask)
  else if r.base = aCoreScratchSplit 0 0 then
    (if s.coreIdle (9 * i + j) then (s.setReg off new).modCore (9 * i + j) (fun c => { c with splitHeld := none })
     else s.modCore (9 * i + j) (fun c => { c with splitHeld := some new }))
  else if r.base = aCoreSrSeedHi 0 0 then
    let lo := s.takeLo (off - 4) (s.reg (off - 4))
    let n := v.toNat * 2 ^ 32 + lo.1.toNat
    match s.partOfCore (s.core (9 * i + j)).logical with
    | some p => lo.2.setSeed p n
    | none => lo.2.setPair (off - 4) n
  else if r.half = .hi then
    let lo := s.takeLo (off - 4) (s.reg (off - 4))
    (lo.2.setReg (off - 4) lo.1).setReg off new
  else if r.base = aFtimeHold then (s.setReg off new).ftHold
  else if r.base = aFtimePps then (s.setReg off new).ppsGate
  else if r.base = aTallyRetPartCtrl 0 then (s.setReg off new).refreshHold
  else s.setReg off new

/-- The EXPERT flags that a write sets (R79). -/
def State.markExpert (s : State) (o : Nat × List Nat) : State :=
  (o.1 :: o.2).foldl (fun t p => t.modPart p (fun x => { x with expert := true })) s

/-- A write to an RWL register (00_scope R13, R14, 02 R72, R77 to R79): the lock, the range, the hold of a
pause, and the effect. `off` is the offset in the PF's BAR0. -/
def State.rwlWrite (s : State) (req : Req) (off : Nat) (v : W32) : State :=
  match regAt off with
  | none => s
  | some (r, ix) =>
    let o := s.rwlOwner r ix v.toNat
    if r.rwl = 0 then s
    else if !s.rwlMay req o.1 || s.rwlLocked o then s.regErrOf (some o.1) stNotPermitted req off
    else if r.half = .lo then
      { s with pendLo := Tab.store (fun _ => none) s.pendLo off (some (v &&& BitVec.ofNat 32 r.rwl)) }
    else match s.rwlBad r ix v.toNat with
      | some st => s.regErrOf (some o.1) st req off
      | none =>
        if (s.part o.1).paused then
          let lo := if r.half = .hi then Tab.look (fun _ => none) s.pendLo (off - 4) else none
          let s1 : State := if r.half = .hi then { s with pendLo := Tab.store (fun _ => none) s.pendLo (off - 4) none } else s
          s1.modPart o.1 (fun x => { x with heldRwl := x.heldRwl ++ [(off, v, lo)] })
        else (s.putRwl off r ix v).markExpert o

/-- The writes held in a pause are applied after the charter's values (02 R72), each _HI with the _LO value that was
pending when it was written (00_scope R22). -/
def State.applyHeldRwl (s : State) (p : Nat) : State :=
  ((s.part p).heldRwl).foldl (fun t e =>
    match regAt e.1 with
    | some (r, ix) =>
      let t1 : State := if r.half = .hi then { t with pendLo := Tab.store (fun _ => none) t.pendLo (e.1 - 4) e.2.2 } else t
      (t1.putRwl e.1 r ix e.2.1).markExpert (t1.rwlOwner r ix e.2.1.toNat)
    | none => t) (s.modPart p (fun x => { x with heldRwl := [] }))

/-! ### What a job charter load does to RWL registers -/

/-- The registers that R64 leaves alone: those that a device charter sets, CORE_SR_SEED and FOLIO_PART_BIAS. -/
def rwlKept : List Nat :=
  [aFtimeHold, aFtimePps, aSecmbxTamperCfg, aCoreSrSeedLo 0 0, aCoreSrSeedHi 0 0, aFolioPartBiasLo 0, aFolioPartBiasHi 0]

/-- Every RWL register of partition `p` returns to its reset value (R64, R677). -/
def State.resetRwl (s : State) (p : Nat) (kept : List Nat) : State :=
  let s1 := (s.physCores p).foldl (fun t i => t.modCore i (fun c => { c with splitHeld := none })) s
  let s2 := s.regs.foldl (fun t e =>
    match regAt e.1 with
    | some (r, ix) =>
      if r.rwl ≠ 0 ∧ (s.rwlOwner r ix 0).1 = p ∧ !kept.contains r.base then
        let mask := BitVec.ofNat 32 r.rwl
        t.setReg e.1 ((e.2 &&& ~~~mask) ||| (BitVec.ofNat 32 r.reset &&& mask))
      else t
    | none => t) s1
  s2.modFolio (fun f => { f with streams := f.streams.filter (fun e => !(if e.2.enable then e.2.part == p else p == 0)) })

/-- One entry of EXPERT_OVERRIDES (R81, R82): applied past the lock; a value out of range is discarded as a
write of it would be (log entry 66). -/
def State.override (s : State) (p : Nat) (off v : Nat) : State :=
  match regAt off with
  | none => s
  | some (r, ix) =>
    let w := BitVec.ofNat 32 v
    if r.half = .lo then
      { s with pendLo := Tab.store (fun _ => none) s.pendLo off (some (w &&& BitVec.ofNat 32 r.rwl)) }
    else match s.rwlBad r ix v with
      | some st => s.addErr st 0x01 0 (some p) 0xFF (toLE 4 off)
      | none => (s.putRwl off r ix w).markExpert (s.rwlOwner r ix v)

end Sys2Proof.Machine
end

