-- ==== Sys2Proof/Machine/Debug.lean ====
section
/-!
DEFINITION. Machine/Debug.lean: the test multiplexer, the profiling counters and their snapshots, and the JTAG
instruction register (20_debug R737 to R755).
-/
namespace Sys2Proof.Machine

/-! ### The test multiplexer (R739 to R742) -/

/-- The least DIV of a unit of the multiplexer (R740). -/
def leastDiv (unit : Nat) : Nat :=
  if unit ≤ 79 then 9 else if unit ≤ 82 then 6 else if unit ≤ 84 then 9 else if unit = 85 then 1
  else if unit ≤ 88 then 6 else 1

/-- DBG_MUX_CTRL holds a value: its use is declared (R754), and both pins are low while ENABLE is 0 (R739). -/
def State.setMux (s : State) (v : W32) : State :=
  let s1 := (s.setReg aDbgMuxCtrl (v &&& 0x8FFF00FF)).markSince
  if (s.reg aDbgMuxCtrl).getLsbD 31 && !v.getLsbD 31 then (s1.emit (.pin "DBG_MUX" false)).emit (.pin "DBG_CLK" false) else s1

/-- A write of DBG_MUX_CTRL (R742). -/
def State.muxWrite (s : State) (req : Req) (v : W32) : State :=
  if v.getLsbD 31 ∧ bits v.toNat 7 0 < leastDiv (bits v.toNat 27 21) then s.regErr stMalformed req aDbgMuxCtrl
  else s.setMux v

/-! ### Profiling counters (R743 to R747) -/

/-- Every profiling counter is 0 (R745). -/
def State.profZero (s : State) : State :=
  let lo := aDbgProfCntLo 0 0
  { s with regs := Tab.without (fun a => decide (lo ≤ a) && decide (a < lo + 0x4000)) s.regs }

/-- PROF_CLEAR (R745). -/
def execProfClear (req : Req) (s : State) : Host.Outcome State Fault Refusal :=
  .next (if reqIsPf req && s.writeServed req aDbgProfCtrl then s.profZero else s)

/-- The value of counter `c` of cluster `k` in partition `p`'s snapshot (R746). -/
def State.snapCount (s : State) (mask p k c : Nat) : Nat :=
  let sel := s.regN (aDbgProfSel k c)
  if mask.testBit (c / 8) && !bit sel 27 && decide (bits sel 31 28 = p) then s.pair (aDbgProfCntLo k c) else 0

/-- The bytes of a snapshot. -/
def State.snapshot (s : State) (mask p : Nat) : Bytes :=
  (List.range 2048).flatMap (fun i => toLE 8 (s.snapCount mask p (i / 256) (i % 256)))

/-- The last folio of a partition's address space (R746). -/
def snapVa : Nat := 0xFFFFFFFFF0000

/-- A snapshot written through the folio unit (R747): the accesses of an operation without a tag. -/
def State.writeSnapshot (s : State) (mask p : Nat) : State :=
  match s.prepare { part := p, tag := 4096 } [] [(snapVa, 16384)] 0 noWhole with
  | .ok t => t.writeVa p 4096 (snapVa) (s.snapshot mask p)
  | .wait t => t
  | .fail t st => t.addErr st 0x06 0 (some p) 0xFF []

/-- The partitions that receive a snapshot: those with a job charter, not in a pause or a removal (R755). -/
def State.snapParts (s : State) : List Nat :=
  s.partIds.filter (fun p => decide (p ≠ 0) && (s.part p).job.isSome && !(s.part p).paused && !((s.removal.map (·.part)) == some p))

/-- COUNTER_SNAPSHOT (R746): at the next whole multiple of SNAP_MS (log entry 152); none where it is 0. -/
def execCounterSnapshot (s : State) : Host.Outcome State Fault Refusal :=
  let pol := ((s.dev).map (·.dbg)).getD {}
  let n := usCycles (1000 * pol.snapMs)
  .next (if pol.snapMs = 0 ∨ !s.partsRun then s
    else
      let s1 := s.advanceToCycle ((s.cycles / n + 1) * n)
      s1.snapParts.foldl (fun t p => t.writeSnapshot pol.profMask p) s1)

/-! ### JTAG (R752, R753) -/

/-- An instruction as the life-cycle state decodes it: the factory test instructions, 5 and above, act as BYPASS
outside BLANK and FACTORY (R752; log entry 68). -/
def State.jtagDecode (s : State) (ins : Nat) : Nat :=
  if ins ≤ 4 ∨ s.sbox.lc = .blank ∨ s.sbox.lc = .factory then ins else 0

/-- The instruction register takes an instruction; an open session is declared (R753). -/
def State.setJtag (s : State) (ins : Nat) : State :=
  let t : State := { s with jtagIns := ins }
  t.markSince

/-- JTAG_INSTRUCTION (R752, R753): IDCODE shifts out the identification code. -/
def execJtagInstruction (ins : Byte) (s : State) : Host.Outcome State Fault Refusal :=
  let i := s.jtagDecode ins.toNat
  .next (if i = 1 then (s.setJtag i).emit (.tdo 0xB7400D6B) else s.setJtag i)

/-- JTAG_TAP_RESET (R753): the instruction after a TAP reset is IDCODE. -/
def execJtagTapReset (s : State) : Host.Outcome State Fault Refusal := .next (s.setJtag 1)

end Sys2Proof.Machine
end

