-- ==== Sys2Proof/Machine/PolyRing.lean ====
section
/-!
DEFINITION. Machine/PolyRing.lean: arithmetic of the polynomial engines on limbs (12_polynomial R487 to R489,
R501): transforms, automorphisms, base conversion, rescaling and the hybrid key switch. A limb is the
list of its N coefficients.
-/
namespace Sys2Proof.Machine

/-- A limb of a polynomial. -/
abbrev Limb := List Nat

/-- Elementwise operations modulo `q`. -/
def limbAdd (q : Nat) (a b : Limb) : Limb := List.zipWith (fun x y => (x + y) % q) a b
def limbSub (q : Nat) (a b : Limb) : Limb := List.zipWith (fun x y => subMod x y q) a b
def limbMul (q : Nat) (a b : Limb) : Limb := List.zipWith (fun x y => x * y % q) a b

/-- Miller–Rabin of an odd `n` with base `a` (R495): `d` odd with n - 1 = d * 2^r. -/
def mrSquares (n : Nat) : Nat → Nat → Bool
  | 0, _ => false
  | r + 1, x => decide (x = n - 1) || mrSquares n r (x * x % n)

/-- The odd part of a number and the power of two taken out. -/
def oddPart : Nat → Nat → Nat → Nat × Nat
  | 0, d, r => (d, r)
  | f + 1, d, r => if d % 2 = 0 ∧ d ≠ 0 then oddPart f (d / 2) (r + 1) else (d, r)

/-- One base of the test. -/
def mrBase (n a : Nat) : Bool :=
  if a % n = 0 then true
  else
    let dr := oddPart 64 (n - 1) 0
    let x := powMod a dr.1 n
    decide (x = 1) || mrSquares n dr.2 x

/-- Deterministic Miller–Rabin with the twelve bases of R495. -/
def isPrime (n : Nat) : Bool := decide (1 < n) && [2, 3, 5, 7, 11, 13, 17, 19, 23, 29, 31, 37].all (mrBase n)

/-- `v` is log2 of `q` rounded up to a multiple of 1/256 (R495). -/
def isLog2Up (q v : Nat) : Bool := decide (q ^ 256 ≤ 2 ^ v) && (decide (v = 0) || decide (2 ^ (v - 1) < q ^ 256))

/-- A primitive 2N-th root of unity modulo `q`, N = 2^n: the first power g^((q-1)/2N) with N-th power -1. -/
def rootOf (q n : Nat) : Nat :=
  match (List.range 512).find? (fun g => decide (powMod (powMod (g + 2) ((q - 1) / 2 ^ (n + 1)) q) (2 ^ n) q = q - 1)) with
  | some g => powMod (g + 2) ((q - 1) / 2 ^ (n + 1)) q
  | none => 1

/-- The point at which element `i` of a limb in the evaluation domain holds the value: an odd power of a
primitive root; which one the manual does not say (log entry 54). -/
def nttPoint (q n i : Nat) : Nat := powMod (rootOf q n) (2 * (Config.nttOrder q n i % 2 ^ n) + 1) q

/-- The value of a polynomial at a point (Horner). -/
def evalAt (q x : Nat) (a : Limb) : Nat := a.foldr (fun c v => (c + x * v) % q) 0

/-- A limb to the evaluation domain. -/
def ntt (q n : Nat) (a : Limb) : Limb := (List.range (2 ^ n)).map (fun i => evalAt q (nttPoint q n i) a)

/-- A limb to the coefficient domain. -/
def intt (q n : Nat) (a : Limb) : Limb :=
  let inv := invMod (2 ^ n % q) q
  (List.range (2 ^ n)).map (fun k =>
    (List.range (2 ^ n)).foldl (fun t i => (t + a.getD i 0 * powMod (invMod (nttPoint q n i) q) k q) % q) 0 * inv % q)

/-- The automorphism X → X^g on coefficients. -/
def automorph (q n g : Nat) (a : Limb) : Limb :=
  let m := 2 ^ n
  (List.range m).map (fun k =>
    match (List.range m).find? (fun i => i * g % (2 * m) % m == k) with
    | some i => if i * g % (2 * m) < m then a.getD i 0 % q else subMod 0 (a.getD i 0) q
    | none => 0)

/-- The product of some primes. -/
def primeProd (qs : List Nat) : Nat := qs.foldl (· * ·) 1

/-- The number below the product of `qs` with the residues given (CRT). -/
def crt (qs rs : List Nat) : Nat :=
  let m := primeProd qs
  (List.zipWith (fun q r => m / q * (r * invMod (m / q % q) q % q)) qs rs).foldl (· + ·) 0 % m

/-- What base conversion takes a coefficient for: the number below the product, and a multiple of the
product that the manual leaves open (log entry 55). -/
def liftOf (qs rs : List Nat) : Int := (crt qs rs : Int) + (primeProd qs : Int) * Config.liftExcess qs rs

/-- Limbs over the primes `qs`, coefficient domain, converted to the prime `q`. -/
def baseConvert (qs : List Nat) (n : Nat) (ls : List Limb) (q : Nat) : Limb :=
  (List.range (2 ^ n)).map (fun k => (liftOf qs (ls.map (fun l => l.getD k 0)) % (q : Int)).toNat)

/-- A limb in the coefficient domain, whichever it is in. -/
def toCoeff (eval : Bool) (q n : Nat) (a : Limb) : Limb := if eval then intt q n a else a

/-- A limb in the domain wanted, from the coefficient domain. -/
def fromCoeff (eval : Bool) (q n : Nat) (a : Limb) : Limb := if eval then ntt q n a else a

/-- Division by the last prime with rounding (R501): limbs over `qs` and then `ql`. -/
def rescaleLimbs (eval : Bool) (qs : List Nat) (ql n : Nat) (ls : List Limb) (last : Limb) : List Limb :=
  let h := ql / 2
  let r := (toCoeff eval ql n last).map (fun x => (x + h) % ql)
  List.zipWith (fun q l =>
    let c := toCoeff eval q n l
    fromCoeff eval q n (List.zipWith (fun x y => subMod (x + h) y q * invMod (ql % q) q % q) c r)) qs ls

/-- The hybrid key switch of a polynomial (R501): `qs` are the data primes in use, `ps` the special primes,
`alpha` the limbs of a digit; `key d j l` is limb `l` of polynomial `j` of digit `d`, over the data primes of
the whole chain and then the special ones, of which `full` are data primes. The answer holds the limbs
of the two polynomials. -/
def keySwitch (eval : Bool) (qs ps : List Nat) (n alpha full : Nat) (key : Nat → Nat → Nat → Limb) (c : List Limb) :
    List Limb × List Limb :=
  let coeff := List.zipWith (fun q l => toCoeff eval q n l) qs c
  let digits := (List.range (ceilDiv qs.length (max alpha 1))).map (fun d =>
    ((qs.drop (d * alpha)).take alpha, (coeff.drop (d * alpha)).take alpha))
  let acc (j q l : Nat) : Limb :=
    (List.range digits.length).foldl (fun t d =>
      let g := digits.getD d ([], [])
      limbAdd q t (limbMul q (ntt q n (baseConvert g.1 n g.2 q)) (key d j l))) (List.replicate (2 ^ n) 0)
  let pp := primeProd ps
  let lower (j : Nat) : List Limb :=
    let sp := (List.range ps.length).map (fun k => intt (ps.getD k 1) n (acc j (ps.getD k 1) (full + k)))
    (List.range qs.length).map (fun i =>
      let q := qs.getD i 1
      let x := intt q n (acc j q i)
      fromCoeff eval q n (List.zipWith (fun a b => subMod a b q * invMod (pp % q) q % q) x (baseConvert ps n sp q)))
  (lower 0, lower 1)

end Sys2Proof.Machine
end

