-- ==== Sys2Proof/Machine/Poly.lean ====
section
/-!
DEFINITION. Machine/Poly.lean: the operations of the polynomial engines (12_polynomial R487 to R521).
-/
namespace Sys2Proof.Machine

/-! ### Slots and policy (R492, R496, R513) -/

/-- Parameter slot `i`. -/
def State.pslot (s : State) (i : Nat) : Option PolySlot := Tab.look (fun _ => none) s.poly i

/-- A parameter slot replaced. -/
def State.setPolySlot (s : State) (i : Nat) (x : Option PolySlot) : State :=
  { s with poly := Tab.store (fun _ => none) s.poly i x }

/-- Every slot of partition `p` freed (R497). -/
def State.freePolySlots (s : State) (p : Nat) : State :=
  { s with poly := s.poly.filter (fun e => match e.2 with | some x => x.part != p | none => false) }

/-- The entry of HE_POLICY for a fingerprint (R492). -/
def State.heEntry (s : State) (p fp : Nat) : Option HeEntry :=
  ((s.job p).bind (·.he)).bind (fun l => l.find? (fun e => e.fingerprint == fp))

/-- The macro of a slot's policy. -/
def State.slotMacro (s : State) (x : PolySlot) : Nat := ((s.heEntry x.part x.fp).map (·.refreshMacro)).getD 0

/-- Every key that a macro lists is bound to the slot (R513). -/
def PolySlot.bound (x : PolySlot) (id : Nat) : Bool :=
  (Config.macroKeys id x.nLog2).all (fun g => x.binds.any (fun b => b.1 == g))

/-- REFRESH_READY (R513). -/
def State.refreshReady (s : State) (x : PolySlot) : Bool := decide (s.slotMacro x ≠ 0) && x.bound (s.slotMacro x)

/-- The key set's POLICY lets a refresh be inserted (R512). -/
def State.autoRefresh (s : State) (x : PolySlot) : Bool :=
  ((s.heEntry x.part x.fp).map (·.autoRefresh)).getD false && !(s.reg (aPolyPartCtrl x.part)).getLsbD 31 && s.refreshReady x

/-- NOISE_CEILING of a slot. -/
def State.noiseCeiling (s : State) (x : PolySlot) : Nat := ((s.heEntry x.part x.fp).map (·.ceiling)).getD 0

/-- Prime `i` of a slot, and its LOG2Q. -/
def PolySlot.prime (x : PolySlot) (i : Nat) : Nat := ((x.primes[i]?).map (·.1)).getD 1
def PolySlot.log2q (x : PolySlot) (i : Nat) : Nat := ((x.primes[i]?).map (·.2)).getD 0
/-- N of a slot. -/
def PolySlot.n (x : PolySlot) : Nat := 2 ^ x.nLog2
/-- Data primes 0 to `level`, and the special primes. -/
def PolySlot.chain (x : PolySlot) (level : Nat) : List Nat := (List.range (level + 1)).map x.prime
def PolySlot.special (x : PolySlot) : List Nat := (List.range x.specials).map (fun k => x.prime (x.limbs + k))

/-! ### The end of an operation (R519, R522) -/

/-- A saturating 16-bit field of a register raised: `hi` picks the upper half. -/
def State.count16 (s : State) (off : Nat) (hi : Bool) : State :=
  let v := s.regN off
  if hi then s.setRegN off (satInc 16 (v / 65536) * 65536 + v % 65536)
  else s.setRegN off (v / 65536 * 65536 + satInc 16 (v % 65536))

/-- An engine has completed `n` more operations, for partition `p` (R522, 20 R743). -/
def State.countEngine (s : State) (e p n : Nat) : State :=
  if e < 8 then (s.setPair (aPolyEngOpsLo e) ((s.pair (aPolyEngOpsLo e) + n) % 2 ^ 64)).prof e p 0x40 n else s

/-- Byte `i` of the limb buffer of engine `e`. -/
def State.limbByte (s : State) (e i : Nat) : Byte := Config.limbByte (Tab.look (fun _ => 0) s.limbBufs e) i

/-- What an operation leaves in the limb buffer of its engine is open (R489). -/
def State.useLimbs (s : State) (e : Nat) : State :=
  if e < 8 then { s with limbBufs := Tab.store (fun _ => 0) s.limbBufs e (s.fresh + 1), fresh := s.fresh + 1 } else s

/-- A polynomial operation ends; without a value of its own INFO is engine cycles. -/
def State.endPoly (s : State) (o : Op) (status flags : Nat) (info : Option Nat) : State :=
  let s1 := (s.countEngine o.unit o.part 1).useLimbs o.unit
  let s2 := if status = stLevelExhausted ∨ status = stNoiseLimit then s1.count16 (aPolyPartCounts o.part) false else s1
  match info with
  | some i => s2.endOp o.part o.tag status flags i
  | none => s2.endOpCycles o.part o.tag status flags

/-- What follows a preparation. -/
def Prep.poly (r : Prep) (o : Op) (work : State → State) : State :=
  match r with
  | .ok t => work t
  | .wait t => t
  | .fail t st => t.endPoly o st 0 none

/-- A fingerprint mismatch counted (R522). -/
def State.countMismatch (s : State) (o : Op) : State := if o.unit < 8 then s.count16 (aPolyEngKeyerr o.unit) false else s

/-- What a key that fails its header or a block counts (R522). -/
def State.countKeyFault (s : State) (o : Op) (st : Nat) : State :=
  if st = stKeyMismatch then s.countMismatch o
  else if st = stKeyCorrupt ∧ o.unit < 8 then s.count16 (aPolyEngKeyerr o.unit) true
  else s

/-- The internal operations that a macro ran on the engines of a partition are counted (R514, R522): how many there are
on each, and the key blocks that they stream (20 R743), lie in the library and are open (log entries 57 and 181). -/
def State.ranInside (s : State) (p : Nat) : Nat × State :=
  ((s.clustersOf p).filter (fun e => !s.polyFailed.testBit e)).foldl (fun a e =>
    let r := a.2.free
    ((a.1 + r.1.toNat) % 2 ^ 32, (r.2.countEngine e p r.1.toNat).profOpen e p 0x41)) (0, s)

/-- Step 2 of R507: HE_POLICY, the slot and the engine; the status where it fails (R492, R503, R520). -/
def State.polyAccess (s : State) (o : Op) (needSlot : Bool) : Except Nat PolySlot :=
  if ((s.job o.part).bind (·.he)).isNone then .error stNotPermitted
  else if !(s.clustersOf o.part).contains o.unit then
    .error (if o.unit = 0xFF ∧ !(s.clustersOf o.part).isEmpty then stUncorrectable else stNotPermitted)
  else if !needSlot then .ok {}
  else match s.pslot (polySlot o.desc) with
    | some x => if x.part = o.part then .ok x else .error stNotPermitted
    | none => .error stNotPermitted

/-! ### Ciphertext descriptors (R498 to R500) -/

/-- A ciphertext descriptor. -/
structure Ct where
  fp : Nat := 0
  data : Nat := 0
  nLog2 : Nat := 0
  level : Nat := 0
  polys : Nat := 2
  valid : Bool := false
  eval : Bool := false
  scale : Nat := 0
  noise : Nat := 0
  mag : Nat := 0
  clean : Bool := true
deriving DecidableEq, Repr, Inhabited

/-- A descriptor read from its 64 bytes; `clean` says that its reserved bits are 0, POLYS is legal and DATA is
aligned. -/
def readCt (b : Bytes) : Ct :=
  let fl := le b 0x13 1
  { fp := le b 0 8, data := le b 8 8, nLog2 := le b 0x10 1, level := le b 0x11 1, polys := le b 0x12 1, valid := bit fl 0,
    eval := bit fl 1, scale := le b 0x14 2, noise := le b 0x16 2, mag := le b 0x18 2,
    clean := decide (fl < 4) && allZero (slice b 0x1A 38) && (decide (le b 0x12 1 = 2) || decide (le b 0x12 1 = 3)) &&
      decide (le b 8 8 % 65536 = 0) }

/-- The 64 bytes of a descriptor. -/
def Ct.bytes (c : Ct) : Bytes :=
  toLE 8 c.fp ++ toLE 8 c.data ++ toLE 1 c.nLog2 ++ toLE 1 c.level ++ toLE 1 c.polys ++ toLE 1 (b2n c.valid + 2 * b2n c.eval) ++
    toLE 2 c.scale ++ toLE 2 c.noise ++ toLE 2 c.mag ++ zeros 38

/-- The range of limb `i` of a ciphertext, of its first `polys` polynomials (R499). -/
def ctRange (data n polys i : Nat) : VRange := (data + 24 * i * n, 8 * n * polys)

/-- A limb of `n` words at an address, reduced by its prime. -/
def State.readLimb (s : State) (p addr n q : Nat) : Limb := (chunks 8 (s.readVa p addr (8 * n))).map (fun w => leNat w % q)

/-- The bytes of a limb. -/
def limbBytes (l : Limb) : Bytes := l.flatMap (toLE 8)

/-- Limb `i` of polynomial `j` of a ciphertext. -/
def State.ctLimb (s : State) (p : Nat) (x : PolySlot) (c : Ct) (j i : Nat) : Limb :=
  s.readLimb p (c.data + (3 * i + j) * x.n * 8) x.n (x.prime i)

/-- `n` open values, and the state that has drawn them (log entry 8). -/
def State.freeMany (s : State) (n : Nat) : List Nat × State :=
  ((List.range n).map (fun i => (Config.freeValue (s.fresh + i)).toNat), { s with fresh := s.fresh + n })

/-- The VALID bit of a descriptor in memory cleared (R510, R515). -/
def State.clearValid (s : State) (o : Op) (dst : Nat) : State :=
  let b := s.readVa o.part dst 64
  s.writeVa o.part o.tag dst (b.set 0x13 (byteAt b 0x13 &&& 0xFE))

/-! ### Evaluation keys (R508 to R511) -/

/-- The blocks of a key of a slot (R508). -/
def PolySlot.keyBlocks (x : PolySlot) : Nat := ceilDiv (x.digits * 2 * (x.limbs + x.specials) * x.n) 511

/-- The check of a key header (R509): the status of its failure. `galois` is the element that the operation
needs, where it needs one. -/
def keyHeadFault (x : PolySlot) (galois : Option Nat) (b : Bytes) : Option Nat :=
  let g := le b 0x10 4
  if le b 8 8 ≠ x.fp then some stKeyMismatch
  else if b.take 4 ≠ [0x47, 0x4B, 0x45, 0x4B] ∨ le b 4 4 ≠ x.keyBlocks ∨ le b 0x14 1 ≠ x.nLog2 ∨
      le b 0x15 1 ≠ x.limbs + x.specials ∨ le b 0x16 1 ≠ x.digits ∨ le b 0x17 1 ≠ 0 ∨
      le b 0x18 4 ≠ (crc32c (b.take 0x18)).toNat ∨ !allZero (slice b 0x1C 36) ∨
      (g ≠ 0 ∧ (g % 2 = 0 ∨ 2 * x.n ≤ g)) ∨ (galois.getD g ≠ g) then some stMalformed
  else none

/-- The first block of a key stream whose index or CRC is wrong (R510). -/
def State.badBlock (s : State) (p addr blocks : Nat) : Option Nat :=
  (List.range blocks).find? (fun k =>
    let b := s.readVa p (addr + 64 + 4096 * k) 4096
    decide (le b 4088 4 ≠ k) || decide (le b 4092 4 ≠ (crc32c (b.take 4092)).toNat))

/-- Key word `w` of a stream. -/
def State.keyWord (s : State) (p addr w : Nat) : Nat := leNat (s.readVa p (addr + 64 + 4096 * (w / 511) + 8 * (w % 511)) 8)

/-- Limb `l` of polynomial `j` of digit `d` of a key. -/
def State.keyLimb (s : State) (p addr : Nat) (x : PolySlot) (d j l : Nat) : Limb :=
  (List.range x.n).map (fun k => s.keyWord p addr (((2 * d + j) * (x.limbs + x.specials) + l) * x.n + k) % x.prime l)

/-- A key failed its CRC (R510): whether destination data had been written by then the manual leaves open;
where it had, VALID is cleared and the data is open (log entry 59). -/
def State.keyCorrupt (s : State) (o : Op) (block : Nat) (dst : Nat) (ranges : List VRange) : State :=
  let r := (s.countKeyFault o stKeyCorrupt).free
  let s1 := if r.1.getLsbD 0 then
      (ranges.foldl (fun t v =>
        let f := t.freeMany v.2
        f.2.writeVa o.part o.tag v.1 (f.1.map (BitVec.ofNat 8))) r.2).clearValid o dst
    else r.2
  s1.endPoly o stKeyCorrupt 0 (some (block % 2 ^ 24))

/-! ### Work frames (R490) -/

/-- Work frames taken from the folio cache and released again with the operation: it waits where they
cannot be had. -/
def State.borrow (p c : Nat) : Nat → List Nat → State → Prep
  | 0, got, s => .ok (got.foldl (fun t f => t.setHUse f .free) s)
  | n + 1, got, s =>
    match s.takeHoard p c with
    | (t, some f) => State.borrow p c n (f :: got) (t.setHUse f (.folio p (2 ^ 36 - 1)))
    | (t, none) => .wait (got.foldl (fun u f => u.setHUse f .free) t)

/-- Frames that a key switch needs beyond the limb buffer: the raised digits and the accumulators. -/
def PolySlot.workFrames (x : PolySlot) : Nat :=
  let bytes := (x.digits + 2) * (x.limbs + x.specials) * x.n * 8
  if bytes ≤ 2 ^ 24 then 0 else ceilDiv bytes 65536

/-! ### The ciphertext operations (R501 to R507, R512) -/

/-- The estimates of a result (R505), before they saturate. -/
structure Est where
  level : Int := 0
  scale : Int := 0
  noise : Int := 0
  mag : Int := 0
  polys : Nat := 2
  eval : Bool := false

/-- An 8.8 value saturated. -/
def sat88 (v : Int) : Nat := (max 0 (min 65535 v)).toNat

/-- What an operation reads, checks and computes: whether SRC1 is a descriptor or plaintext limbs, whether it
switches keys and by which Galois element, what it requires of its sources, its estimates, and the limbs of
each polynomial of the result. -/
structure PolyRule where
  two : Bool := false
  plain : Bool := false
  galois : Option Nat := none
  fits : Ct → Ct → Bool
  est : PolySlot → Ct → Ct → Est
  work : PolySlot → Ct → (Nat → Nat → Limb) → (Nat → Nat → Limb) → (Nat → Nat → Nat → Limb) → List (List Limb)

/-- Step 1 of R507 on the body. -/
def polyBodyOk (d : Bytes) (r : PolyRule) : Bool :=
  decide (polySrc0 d % 64 = 0) && decide (polyDst d % 64 = 0) && decide (bits (le d 0x3C 1) 7 6 = 0) &&
  (decide (polyEngine d < 8) || decide (polyEngine d = 0xFF)) &&
  (if r.two then decide (polySrc1 d % 64 = 0) else r.plain || decide (polySrc1 d = 0)) &&
  (r.galois.isSome || decide (polyKey d = 0)) &&
  decide (polyGalois d = (if dOpcode d = 0x0516 then polyGalois d % 2 ^ 18 else 0)) &&
  (decide (dOpcode d ≠ 0x0516) || decide (polyGalois d % 2 = 1)) &&
  rangeOk (polySrc0 d, 64) && rangeOk (polyDst d, 64) && rangeOk (polySrc1 d, 64) && rangeOk (polyKey d, 64)

/-- A result that fails step 6 or 7 of R507. -/
def State.estFault (s : State) (x : PolySlot) (e : Est) : Option Nat :=
  if e.level < 0 then some stLevelExhausted
  else if s.noiseCeiling x < sat88 e.noise then some stNoiseLimit
  else none

/-- A source after a refresh (R505). -/
def Ct.refreshed (c : Ct) (x : PolySlot) : Ct := { c with level := x.refreshLevel, noise := x.refreshNoise }

/-- The keys of a macro checked as each is read (R509 to R511): the status of the first failure, with its
block. The keys' folios are prepared first. -/
def State.macroKeyFault (s : State) (x : PolySlot) (id : Nat) : Option (Nat × Nat) :=
  (Config.macroKeys id x.nLog2).findSome? (fun g =>
    match x.binds.find? (fun b => b.1 == g) with
    | none => some (stNotPermitted, 0)
    | some (_, a) =>
      if !rangeOk (a, 64 + 4096 * x.keyBlocks) then some (stMalformed, 0)
      else match keyHeadFault x (some g) (s.readVa x.part a 64) with
      | some st => some (st, 0)
      | none => (s.badBlock x.part a x.keyBlocks).map (fun k => (stKeyCorrupt, k)))

/-- The ranges of the keys that a macro lists. -/
def PolySlot.macroRanges (x : PolySlot) (id : Nat) : List VRange :=
  (Config.macroKeys id x.nLog2).filterMap (fun g =>
    (x.binds.find? (fun b => b.1 == g)).map (fun b => (b.2, 64 + 4096 * x.keyBlocks)))

/-- The limbs of a ciphertext whose coefficients are open: `polys` polynomials of limbs 0 to `level` (R488; log
entry 57). -/
def State.openLimbs (s : State) (x : PolySlot) (polys level : Nat) : List (List Limb) × State :=
  let f := s.freeMany (polys * (level + 1) * x.n)
  ((List.range polys).map (fun j => (List.range (level + 1)).map (fun i =>
    ((f.1.drop ((j * (level + 1) + i) * x.n)).take x.n).map (· % x.prime i))), f.2)

/-- The result written: its limbs and then its descriptor with VALID (R500). -/
def State.writeCt (s : State) (o : Op) (x : PolySlot) (data : Nat) (e : Est) (ls : List (List Limb)) : State :=
  let c : Ct :=
    { fp := x.fp, data := data, nLog2 := x.nLog2, level := e.level.toNat, polys := e.polys, valid := true, eval := e.eval,
      scale := sat88 e.scale, noise := sat88 e.noise, mag := sat88 e.mag }
  let s1 := (List.range ls.length).foldl (fun t j =>
    (List.range (e.level.toNat + 1)).foldl (fun u i =>
      u.writeVa o.part o.tag (data + (3 * i + j) * x.n * 8) (limbBytes ((ls.getD j []).getD i []))) t) s
  s1.writeVa o.part o.tag (polyDst o.desc) c.bytes

/-- The ranges of the limbs of a source ciphertext. -/
def Ct.ranges (c : Ct) (n : Nat) : List VRange := (List.range (c.level + 1)).map (ctRange c.data n c.polys)

/-- The ranges of the plaintext limbs at SRC1, one for each limb of the source. -/
def ptRanges (d : Bytes) (n level : Nat) : List VRange := (List.range (level + 1)).map (fun i => (polySrc1 d + i * n * 8, 8 * n))

/-- The ranges that an operation reads beyond its descriptors (R781): the limbs of its sources, plaintext limbs and a key
stream. -/
def PolyRule.ranges (r : PolyRule) (d : Bytes) (x : PolySlot) (a b : Ct) : List VRange :=
  a.ranges x.n ++ (if r.two then b.ranges x.n else []) ++ (if r.plain then ptRanges d x.n a.level else []) ++
  (match r.galois with | some _ => [(polyKey d, 64 + 4096 * x.keyBlocks)] | none => [])

/-- Work frames that the copy of a refreshed source takes (R512, R490). -/
def PolySlot.copyFrames (x : PolySlot) : Nat := ceilDiv (24 * x.limbs * x.n) 65536

/-- The last part of a ciphertext operation: operands, key and work frames are prepared, and the result is
computed and written. `fresh` says that the sources are refreshed copies (R512). -/
def State.runPoly (s : State) (o : Op) (r : PolyRule) (x : PolySlot) (a b : Ct) (data : Nat) (fresh : Bool) : State :=
  let d := o.desc
  let e := r.est x a b
  let dst := (List.range (e.level.toNat + 1)).map (ctRange data x.n e.polys)
  ((s.prepare o (r.ranges d x a b) dst 0 noWhole).andThen
    (State.borrow o.part o.cluster ((if r.galois.isSome then x.workFrames else 0) +
      (if fresh then (if r.two then 2 else 1) * x.copyFrames else 0)) [])).poly o (fun t =>
      match (match r.galois with | some _ => t.badBlock o.part (polyKey d) x.keyBlocks | none => none) with
      | some k => (t.prof o.unit o.part 0x41 (k + 1)).keyCorrupt o k (polyDst d) dst
      | none =>
        let t := if r.galois.isSome then t.prof o.unit o.part 0x41 x.keyBlocks else t
        let fa := if fresh then t.openLimbs x a.polys a.level else ([], t)
        let fb := if fresh ∧ r.two then fa.2.openLimbs x b.polys b.level else ([], fa.2)
        let la (j i : Nat) : Limb := if fresh then (fa.1.getD j []).getD i [] else t.ctLimb o.part x a j i
        let lb (j i : Nat) : Limb :=
          if r.plain then t.readLimb o.part (polySrc1 d + i * x.n * 8) x.n (x.prime i)
          else if fresh then (fb.1.getD j []).getD i [] else t.ctLimb o.part x b j i
        let u := fb.2.writeCt o x data e (r.work x a la lb (t.keyLimb o.part (polyKey d) x))
        let n := if r.two then 2 else 1
        let w := if fresh then (List.range n).foldl (fun v _ => v.count16 (aPolyPartCounts o.part) true) u else u
        w.endPoly o stDone (if fresh then flRefreshed else 0) none)

/-- Steps 6 and 7 of R507, with the refresh of R512. -/
def State.judgePoly (s : State) (o : Op) (r : PolyRule) (x : PolySlot) (a b : Ct) (data : Nat) : State :=
  match s.estFault x (r.est x a b) with
  | none => s.runPoly o r x a b data false
  | some st =>
    if !s.autoRefresh x then s.endPoly o st 0 none
    else
      let id := s.slotMacro x
      (s.prepare o (x.macroRanges id) [] 0 noWhole).poly o (fun t =>
        match t.macroKeyFault x id with
        | some (st1, k) => ((t.countKeyFault o st1).ranInside o.part).2.endPoly o st1 0 (if st1 = stKeyCorrupt then some k else none)
        | none =>
          let t := (t.ranInside o.part).2
          let a1 := a.refreshed x
          let b1 := b.refreshed x
          match t.estFault x (r.est x a1 b1) with
          | some st2 =>
            let n := if r.two then 2 else 1
            ((List.range n).foldl (fun v _ => v.count16 (aPolyPartCounts o.part) true) t).endPoly o st2 flRefreshed none
          | none => t.runPoly o r x a1 b1 data true)

/-- A ciphertext operation (R507). The slot's N_LOG2 and its levels are compared after the fingerprint (log
entry 60), and so is a key switch without special primes (log entry 178). -/
def State.ctOp (s : State) (o : Op) (r : PolyRule) : State :=
  let d := o.desc
  if !polyBodyOk d r then s.endPoly o stMalformed 0 none
  else (s.prepare o ([(polySrc0 d, 64), (polyDst d, 64)] ++ (if r.two then [(polySrc1 d, 64)] else [])) [(polyDst d, 64)] 0 noWhole).poly o (fun t =>
    let a := readCt (t.readVa o.part (polySrc0 d) 64)
    let b := if r.two then readCt (t.readVa o.part (polySrc1 d) 64) else a
    let data := le (t.readVa o.part (polyDst d) 64) 8 8
    if !a.clean || !b.clean || decide (data % 65536 ≠ 0) || !r.fits a b then t.endPoly o stMalformed 0 none
    else match t.polyAccess o true with
      | .error st => t.endPoly o st 0 none
      | .ok x =>
        if !a.valid || !b.valid then t.endPoly o stKeyCorrupt 0 (some (2 ^ 31))
        else if a.fp ≠ x.fp ∨ b.fp ≠ x.fp then (t.countMismatch o).endPoly o stKeyMismatch 0 none
        else if a.nLog2 ≠ x.nLog2 ∨ b.nLog2 ≠ x.nLog2 ∨ x.limbs ≤ a.level ∨ x.limbs ≤ b.level ∨
            !rangeOk (data, 24 * x.limbs * x.n) ∨ !(r.ranges d x a b).all rangeOk then t.endPoly o stMalformed 0 none
        else match r.galois with
          | none => t.judgePoly o r x a b data
          | some g =>
            if x.specials = 0 ∨ 2 * x.n ≤ g then t.endPoly o stMalformed 0 none
            else (t.prepare o [(polyKey d, 64)] [] 0 noWhole).poly o (fun u =>
              match keyHeadFault x (some g) (u.readVa o.part (polyKey d) 64) with
              | some st => (u.countKeyFault o st).endPoly o st 0 none
              | none => u.judgePoly o r x a b data))

/-- One polynomial after another, limb by limb, up to a level. -/
def overLimbs (level polys : Nat) (g : Nat → Nat → Limb) : List (List Limb) :=
  (List.range polys).map (fun j => (List.range (level + 1)).map (g j))

/-- Sources of one level, size and domain (R506). -/
def sameShape (a b : Ct) : Bool := a.level == b.level && a.nLog2 == b.nLog2 && a.eval == b.eval

/-- "+1" of R505. -/
def oneBit : Int := 256

/-- CT_ADD and CT_SUB (R505, R506). -/
def addRule (op : Nat → Limb → Limb → Limb) : PolyRule where
  two := true
  fits := fun a b => sameShape a b && a.scale == b.scale && a.polys == b.polys
  est := fun _ a b =>
    { level := a.level, scale := a.scale, noise := (max a.noise b.noise : Nat) + oneBit, mag := (max a.mag b.mag : Nat) + oneBit,
      polys := a.polys, eval := a.eval }
  work := fun x a la lb _ => overLimbs a.level a.polys (fun j i => op (x.prime i) (la j i) (lb j i))

/-- PT_ADD. -/
def ptAddRule (ptBits : Nat) : PolyRule where
  plain := true
  fits := fun _ _ => true
  est := fun _ a _ =>
    { level := a.level, scale := a.scale, noise := (a.noise : Int) + oneBit, mag := (max a.mag (256 * ptBits) : Nat) + oneBit,
      polys := a.polys, eval := a.eval }
  work := fun x a la lb _ => overLimbs a.level a.polys (fun j i => if j = 0 then limbAdd (x.prime i) (la 0 i) (lb 0 i) else la j i)

/-- PT_MUL. -/
def ptMulRule (ptBits ptScale : Nat) : PolyRule where
  plain := true
  fits := fun a _ => a.eval
  est := fun x a _ =>
    { level := a.level, scale := (a.scale + ptScale : Nat), noise := (a.noise + 256 * ptBits + x.expand : Nat),
      mag := (a.mag + 256 * ptBits + x.expand : Nat), polys := a.polys, eval := a.eval }
  work := fun x a la lb _ => overLimbs a.level a.polys (fun j i => limbMul (x.prime i) (la j i) (lb 0 i))

/-- CT_MUL: the tensor product of two 2-polynomial ciphertexts. -/
def ctMulRule : PolyRule where
  two := true
  fits := fun a b => sameShape a b && a.eval && a.polys == 2 && b.polys == 2
  est := fun x a b =>
    { level := a.level, scale := (a.scale + b.scale : Nat), noise := (max (a.noise + b.mag) (b.noise + a.mag) + x.expand : Nat) + oneBit,
      mag := (a.mag + b.mag + x.expand : Nat), polys := 3, eval := true }
  work := fun x a la lb _ => overLimbs a.level 3 (fun j i =>
    let q := x.prime i
    match j with
    | 0 => limbMul q (la 0 i) (lb 0 i)
    | 1 => limbAdd q (limbMul q (la 0 i) (lb 1 i)) (limbMul q (la 1 i) (lb 0 i))
    | _ => limbMul q (la 1 i) (lb 1 i))

/-- The estimates of a key switch. -/
def switchEst (x : PolySlot) (a : Ct) : Est :=
  { level := a.level, scale := a.scale, noise := (max a.noise x.ksAdd : Nat) + oneBit, mag := (max a.mag x.ksAdd : Nat) + oneBit,
    polys := 2, eval := a.eval }

/-- A key switch of a polynomial given by its limbs, in a ciphertext's domain. -/
def switchLimbs (x : PolySlot) (a : Ct) (key : Nat → Nat → Nat → Limb) (c : List Limb) : List Limb × List Limb :=
  keySwitch a.eval (x.chain a.level) x.special x.nLog2 (ceilDiv x.limbs (max x.digits 1)) x.limbs key c

/-- RELIN. -/
def relinRule : PolyRule where
  galois := some 0
  fits := fun a _ => a.polys == 3
  est := fun x a _ => switchEst x a
  work := fun x a la _ key =>
    let k := switchLimbs x a key ((List.range (a.level + 1)).map (la 2))
    overLimbs a.level 2 (fun j i => limbAdd (x.prime i) (la j i) ((if j = 0 then k.1 else k.2).getD i []))

/-- ROTATE: the automorphism and then a key switch. -/
def rotateRule (g : Nat) : PolyRule where
  galois := some g
  fits := fun a _ => a.polys == 2
  est := fun x a _ => switchEst x a
  work := fun x a la _ key =>
    let turn (j i : Nat) : Limb :=
      let q := x.prime i
      fromCoeff a.eval q x.nLog2 (automorph q x.nLog2 g (toCoeff a.eval q x.nLog2 (la j i)))
    let k := switchLimbs x a key ((List.range (a.level + 1)).map (turn 1))
    overLimbs a.level 2 (fun j i => if j = 0 then limbAdd (x.prime i) (turn 0 i) (k.1.getD i []) else k.2.getD i [])

/-- RESCALE. -/
def rescaleRule : PolyRule where
  fits := fun _ _ => true
  est := fun x a _ =>
    let l : Int := x.log2q a.level
    { level := (a.level : Int) - 1, scale := a.scale - l, noise := max (a.noise - l) (x.rsFloor : Int) + oneBit, mag := a.mag - l,
      polys := a.polys, eval := a.eval }
  work := fun x a la _ _ =>
    (List.range a.polys).map (fun j =>
      rescaleLimbs a.eval (x.chain (a.level - 1)) (x.prime a.level) x.nLog2 ((List.range a.level).map (la j)) (la j a.level))

/-- MOD_DROP. -/
def modDropRule : PolyRule where
  fits := fun _ _ => true
  est := fun _ a _ => { level := (a.level : Int) - 1, scale := a.scale, noise := a.noise, mag := a.mag, polys := a.polys, eval := a.eval }
  work := fun _ a la _ _ => overLimbs (a.level - 1) a.polys la

/-- NTT and INTT; a source in the domain wanted keeps its limbs. -/
def nttRule (fwd : Bool) : PolyRule where
  fits := fun _ _ => true
  est := fun _ a _ => { level := a.level, scale := a.scale, noise := a.noise, mag := a.mag, polys := a.polys, eval := fwd }
  work := fun x a la _ _ => overLimbs a.level a.polys (fun j i =>
    if a.eval = fwd then la j i
    else if fwd then ntt (x.prime i) x.nLog2 (la j i) else intt (x.prime i) x.nLog2 (la j i))

/-- LIMB_MULADD (R501): raw limb arrays; DST names a descriptor that gives DATA and LEVEL (log entry 56). -/
def State.limbMulAdd (s : State) (o : Op) : State :=
  let d := o.desc
  if polyDst d % 64 ≠ 0 ∨ bits (le d 0x3C 1) 7 6 ≠ 0 ∨ (8 ≤ polyEngine d ∧ polyEngine d ≠ 0xFF) ∨ polyGalois d ≠ 0 ∨
      !rangeOk (polyDst d, 64) then s.endPoly o stMalformed 0 none
  else (s.prepare o [(polyDst d, 64)] [] 0 noWhole).poly o (fun t =>
    let b := t.readVa o.part (polyDst d) 64
    let level := le b 0x11 1
    match t.polyAccess o true with
    | .error st => t.endPoly o st 0 none
    | .ok x =>
      let rg (a : Nat) : List VRange := (List.range (level + 1)).map (fun i => (a + i * x.n * 8, 8 * x.n))
      let all := rg (polySrc0 d) ++ rg (polySrc1 d) ++ rg (polyKey d) ++ rg (le b 8 8)
      if x.limbs ≤ level ∨ !all.all rangeOk then t.endPoly o stMalformed 0 none
      else (t.prepare o (rg (polySrc0 d) ++ rg (polySrc1 d) ++ rg (polyKey d)) (rg (le b 8 8)) 0 noWhole).poly o (fun u =>
        let lim (a i : Nat) : Limb := u.readLimb o.part (a + i * x.n * 8) x.n (x.prime i)
        let out := (List.range (level + 1)).map (fun i =>
          limbAdd (x.prime i) (limbMul (x.prime i) (lim (polySrc0 d) i) (lim (polySrc1 d) i)) (lim (polyKey d) i))
        ((List.range (level + 1)).foldl (fun v i =>
          v.writeVa o.part o.tag (le b 8 8 + i * x.n * 8) (limbBytes (out.getD i []))) u).endPoly o stDone 0 none))

/-! ### Parameter slots and keys (R493 to R497, R509) -/

/-- A parameter block read (R493); none where a field of its head breaks its range. -/
def readParams (p : Nat) (b : Bytes) : Option PolySlot :=
  let l := le b 5 1
  let k := le b 6 1
  let dg := le b 7 1
  let head := b.take 32
  if head.take 4 ≠ [0x47, 0x4B, 0x50, 0x42] ∨ le b 4 1 < 12 ∨ 17 < le b 4 1 ∨ l = 0 ∨ 64 < l ∨ 16 < k ∨ dg = 0 ∨ l < dg ∨
      (0 < k ∧ k < ceilDiv l dg) ∨ l ≤ le b 8 1 ∨ 2 < le b 9 1 ∨ !allZero (slice head 0x12 14) then none
  else some
    { part := p, nLog2 := le b 4 1, limbs := l, specials := k, digits := dg, refreshLevel := le b 8 1, scheme := le b 9 1,
      expand := le b 10 2, ksAdd := le b 12 2, rsFloor := le b 14 2, refreshNoise := le b 16 2,
      primes := (List.range (l + k)).map (fun i => (le b (0x20 + 16 * i) 8, le b (0x28 + 16 * i) 2)) }

/-- Entry `i` of PRIMES fails a check of R495. -/
def primeBad (x : PolySlot) (b : Bytes) (i : Nat) : Bool :=
  let q := x.prime i
  decide (q < 2 ^ 20) || decide (2 ^ 60 ≤ q) || decide (q % (2 * x.n) ≠ 1) || !isPrime q ||
    ((x.primes.take i).any (fun e => e.1 == q)) || !isLog2Up q (x.log2q i) || !allZero (slice b (0x2A + 16 * i) 6)

/-- The slot takes the parameters (R494 to R496). -/
def State.loadParams (s : State) (o : Op) (b pub : Bytes) : State :=
  match readParams o.part b with
  | none => s.endPoly o stMalformed 0 (some 0)
  | some x0 =>
    let x := { x0 with fp := le (sha256 (b ++ pub)) 0 8 }
    let mine := s.poly.filter (fun e => match e.2 with | some y => y.part == o.part | none => false)
    if (s.heEntry o.part x.fp).isNone then s.endPoly o stNotPermitted 0 none
    else match mine.find? (fun e => match e.2 with | some y => y.fp == x.fp | none => false) with
      | some e => s.endPoly o stDone 0 (some e.1)
      | none =>
        match (List.range (x.limbs + x.specials)).find? (primeBad x b) with
        | some i => s.endPoly o stMalformed 0 (some (0x20 + 16 * i))
        | none =>
          match (List.range 64).find? (fun i => (s.pslot i).isNone) with
          | some i => if 16 ≤ mine.length then s.endPoly o stNotPermitted 0 none
              else (s.setPolySlot i (some x)).endPoly o stDone 0 (some i)
          | none => s.endPoly o stNotPermitted 0 none

/-- PARAM_LOAD; its SLOT names nothing (log entry 178). -/
def State.paramLoadOp (s : State) (o : Op) : State :=
  let d := o.desc
  let n := paramPubLen d
  if paramAddr d % 64 ≠ 0 ∨ n = 0 ∨ 2 ^ 32 < n ∨ !rangeOk (paramAddr d, 32) ∨ !rangeOk (paramPub d, n) ∨ !allZero (slice d 0x30 12) ∨
      bits (le d 0x3C 1) 7 6 ≠ 0 ∨ (8 ≤ polyEngine d ∧ polyEngine d ≠ 0xFF) then s.endPoly o stMalformed 0 (some 0)
  else match s.polyAccess o false with
    | .error st => s.endPoly o st 0 none
    | .ok _ =>
      (s.prepare o [(paramAddr d, 32)] [] 0 noWhole).poly o (fun t =>
        let head := t.readVa o.part (paramAddr d) 32
        let len := 32 + 16 * (min (le head 5 1) 64 + min (le head 6 1) 16)
        if !rangeOk (paramAddr d, len) then t.endPoly o stMalformed 0 (some 0)
        else (t.prepare o [(paramAddr d, len), (paramPub d, n)] [] 0 noWhole).poly o (fun u =>
          u.loadParams o (u.readVa o.part (paramAddr d) len) (u.readVa o.part (paramPub d) n)))

/-- An operation admitted before `o` that names its slot has not completed (R497). -/
def State.slotUsed (s : State) (o : Op) : Bool :=
  (s.ops.takeWhile (fun q => !(q.part == o.part && q.tag == o.tag))).any (fun q =>
    q.part == o.part && isPolyOp (dOpcode q.desc) && decide (dOpcode q.desc ≠ 0x0500) && decide (q.stage ≠ .recording) &&
      polySlot q.desc == polySlot o.desc)

/-- PARAM_DROP. -/
def State.paramDropOp (s : State) (o : Op) : State :=
  let d := o.desc
  if !allZero (slice d 0x18 36) ∨ bits (le d 0x3C 1) 7 6 ≠ 0 ∨ (8 ≤ polyEngine d ∧ polyEngine d ≠ 0xFF) then
    s.endPoly o stMalformed 0 none
  else match s.polyAccess o true with
    | .error st => s.endPoly o st 0 none
    | .ok _ => if s.slotUsed o then s else (s.setPolySlot (polySlot d) none).endPoly o stDone 0 none

/-- KEY_BIND. -/
def State.keyBindOp (s : State) (o : Op) : State :=
  let d := o.desc
  if polySrc0 d ≠ 0 ∨ polySrc1 d ≠ 0 ∨ polyDst d ≠ 0 ∨ polyGalois d ≠ 0 ∨ bits (le d 0x3C 1) 7 6 ≠ 0 ∨
      (8 ≤ polyEngine d ∧ polyEngine d ≠ 0xFF) ∨ !rangeOk (polyKey d, 64) then s.endPoly o stMalformed 0 none
  else match s.polyAccess o true with
    | .error st => s.endPoly o st 0 none
    | .ok x =>
      (s.prepare o [(polyKey d, 64)] [] 0 noWhole).poly o (fun t =>
        let b := t.readVa o.part (polyKey d) 64
        match keyHeadFault x none b with
        | some st => (t.countKeyFault o st).endPoly o st 0 none
        | none =>
          let g := le b 0x10 4
          let rest := x.binds.filter (fun e => e.1 != g)
          if 256 ≤ rest.length then t.endPoly o stNotPermitted 0 none
          else (t.setPolySlot (polySlot d) (some { x with binds := rest ++ [(g, polyKey d)] })).endPoly o stDone 0 none)

/-! ### Macros (R514 to R518) -/

/-- The macro ids of the library (R516). -/
def macroIds : List Nat := [0x0001, 0x0002, 0x0010, 0x0020]

/-- A macro ends after an internal operation failed (R515): INFO is the number of internal operations that ran (R514), or
the failing block of a key (R510, R511). -/
def State.macroFails (s : State) (o : Op) (status : Nat) (block : Option Nat) : State :=
  let r := (s.countKeyFault o status).ranInside o.part
  (r.2.clearValid o (polyDst o.desc)).endPoly o status 0 (some (block.getD r.1))

/-- The end of a macro that ran: what it computes lies in the library, so the coefficients, and the
estimates of the macros other than a refresh, are open (log entry 57). -/
def State.macroDone (s : State) (o : Op) (x : PolySlot) (a : Ct) (data id : Nat) : State :=
  let f := s.freeMany 4
  let refresh := decide (id ≤ 2)
  let e : Est :=
    if refresh then { level := x.refreshLevel, scale := a.scale, noise := x.refreshNoise, mag := a.mag, polys := a.polys, eval := a.eval }
    else { level := ((f.1.getD 0 0 % (a.level + 1) : Nat) : Int), scale := ((f.1.getD 1 0 % 65536 : Nat) : Int),
           noise := ((f.1.getD 2 0 % 65536 : Nat) : Int), mag := ((f.1.getD 3 0 % 65536 : Nat) : Int), polys := 2, eval := a.eval }
  let dst := (List.range (e.level.toNat + 1)).map (ctRange data x.n e.polys)
  (f.2.prepare o ((List.range (a.level + 1)).map (ctRange a.data x.n a.polys)) dst 0 noWhole).poly o (fun t =>
    match t.estFault x e with
    | some st => t.macroFails o st none
    | none =>
      let l := t.openLimbs x e.polys e.level.toNat
      let n := (l.2.writeCt o x data e l.1).ranInside o.part
      n.2.endPoly o stDone 0 (some n.1))

/-- TRIPLE_RING with its random words (R518): R goes to the address in KEY as one row of N words of the
width in PT_BITS (log entry 58). -/
def State.tripleRun (s : State) (o : Op) (x : PolySlot) (a : Ct) (data : Nat) (rnd : Bytes) : State :=
  (s.prepare o [] [(polyKey o.desc, rnd.length)] 0 noWhole).poly o (fun t =>
    (t.writeVa o.part o.tag (polyKey o.desc) rnd).macroDone o x a data 0x20)

/-- Bytes of the mask R. -/
def tripleBytes (x : PolySlot) (d : Bytes) : Nat := x.n * polyPtBits d / 8

/-- MACRO. In a pause and in a phase switch no further internal operation is issued, but one in flight, `going`,
completes (R514, 02 R71, 05 R227). -/
def State.macroRun (s : State) (o : Op) (going : Bool) : State :=
  let d := o.desc
  let id := polyGalois d
  let triple := decide (id = 0x20)
  let x := s.part o.part
  if !going ∧ (x.paused ∨ x.ph = .draining ∨ x.ph = .boundary ∨ x.ph = .moving) then s
  else if polyEngine d ≠ 0xFF ∨ !macroIds.contains id ∨ polySrc0 d % 64 ≠ 0 ∨ polyDst d % 64 ≠ 0 ∨ bits (le d 0x3C 1) 7 6 ≠ 0 ∨
      !rangeOk (polySrc0 d, 64) ∨ !rangeOk (polyDst d, 64) ∨ (triple ∧ polyPtBits d ≠ 16 ∧ polyPtBits d ≠ 32 ∧ polyPtBits d ≠ 64) then
    s.endPoly o stMalformed 0 none
  else (s.prepare o [(polySrc0 d, 64), (polyDst d, 64)] [(polyDst d, 64)] 0 noWhole).poly o (fun t =>
    let a := readCt (t.readVa o.part (polySrc0 d) 64)
    let data := le (t.readVa o.part (polyDst d) 64) 8 8
    if !a.clean || decide (data % 65536 ≠ 0) then t.endPoly o stMalformed 0 none
    else match t.polyAccess o true with
      | .error st => t.endPoly o st 0 none
      | .ok x =>
        if !a.valid then t.endPoly o stKeyCorrupt 0 (some (2 ^ 31))
        else if a.fp ≠ x.fp then (t.countMismatch o).endPoly o stKeyMismatch 0 none
        else if a.nLog2 ≠ x.nLog2 ∨ x.limbs ≤ a.level ∨ !rangeOk (data, 24 * x.limbs * x.n) ∨ !(a.ranges x.n).all rangeOk ∨
            (triple ∧ !rangeOk (polyKey d, tripleBytes x d)) then t.endPoly o stMalformed 0 none
        else (t.prepare o (x.macroRanges id) [] 0 noWhole).poly o (fun u =>
          match u.macroKeyFault x id with
          | some (st, k) => u.macroFails o st (if st = stKeyCorrupt then some k else none)
          | none =>
            if !triple then u.macroDone o x a data id
            else if u.rngFailed then u.endPoly o stEntropyFailed 0 none
            else if u.rngServes then
              let r := u.draw (tripleBytes x d)
              r.2.tripleRun o x a data r.1
            else if u.rng.waiting.contains (.poly o.unit o.part o.tag) then u
            else u.rngWait (.poly o.unit o.part o.tag)))

/-! ### Commands -/

/-- PARAM_LOAD (R496). -/
def execParamLoad (p : Fin 16) (tag : Fin 4096) (s : State) : Host.Outcome State Fault Refusal :=
  .next (s.runOp p tag 0x0500 s.paramLoadOp)

/-- PARAM_DROP (R497). -/
def execParamDrop (p : Fin 16) (tag : Fin 4096) (s : State) : Host.Outcome State Fault Refusal :=
  .next (s.runOp p tag 0x0501 s.paramDropOp)

/-- KEY_BIND (R509). -/
def execKeyBind (p : Fin 16) (tag : Fin 4096) (s : State) : Host.Outcome State Fault Refusal :=
  .next (s.runOp p tag 0x0502 s.keyBindOp)

/-- CT_ADD (R505). -/
def execCtAdd (p : Fin 16) (tag : Fin 4096) (s : State) : Host.Outcome State Fault Refusal :=
  .next (s.runOp p tag 0x0510 (fun o => s.ctOp o (addRule limbAdd)))

/-- CT_SUB (R505). -/
def execCtSub (p : Fin 16) (tag : Fin 4096) (s : State) : Host.Outcome State Fault Refusal :=
  .next (s.runOp p tag 0x0511 (fun o => s.ctOp o (addRule limbSub)))

/-- PT_ADD (R505). -/
def execPtAdd (p : Fin 16) (tag : Fin 4096) (s : State) : Host.Outcome State Fault Refusal :=
  .next (s.runOp p tag 0x0512 (fun o => s.ctOp o (ptAddRule (polyPtBits o.desc))))

/-- PT_MUL (R505). -/
def execPtMul (p : Fin 16) (tag : Fin 4096) (s : State) : Host.Outcome State Fault Refusal :=
  .next (s.runOp p tag 0x0513 (fun o => s.ctOp o (ptMulRule (polyPtBits o.desc) (polyPtScale o.desc))))

/-- CT_MUL (R505). -/
def execCtMul (p : Fin 16) (tag : Fin 4096) (s : State) : Host.Outcome State Fault Refusal :=
  .next (s.runOp p tag 0x0514 (fun o => s.ctOp o ctMulRule))

/-- RELIN (R501). -/
def execRelin (p : Fin 16) (tag : Fin 4096) (s : State) : Host.Outcome State Fault Refusal :=
  .next (s.runOp p tag 0x0515 (fun o => s.ctOp o relinRule))

/-- ROTATE (R501). -/
def execRotate (p : Fin 16) (tag : Fin 4096) (s : State) : Host.Outcome State Fault Refusal :=
  .next (s.runOp p tag 0x0516 (fun o => s.ctOp o (rotateRule (polyGalois o.desc))))

/-- RESCALE (R505). -/
def execRescale (p : Fin 16) (tag : Fin 4096) (s : State) : Host.Outcome State Fault Refusal :=
  .next (s.runOp p tag 0x0517 (fun o => s.ctOp o rescaleRule))

/-- MOD_DROP (R505). -/
def execModDrop (p : Fin 16) (tag : Fin 4096) (s : State) : Host.Outcome State Fault Refusal :=
  .next (s.runOp p tag 0x0518 (fun o => s.ctOp o modDropRule))

/-- NTT (R501). -/
def execNtt (p : Fin 16) (tag : Fin 4096) (s : State) : Host.Outcome State Fault Refusal :=
  .next (s.runOp p tag 0x0520 (fun o => s.ctOp o (nttRule true)))

/-- INTT (R501). -/
def execIntt (p : Fin 16) (tag : Fin 4096) (s : State) : Host.Outcome State Fault Refusal :=
  .next (s.runOp p tag 0x0521 (fun o => s.ctOp o (nttRule false)))

/-- LIMB_MULADD (R501). -/
def execLimbMuladd (p : Fin 16) (tag : Fin 4096) (s : State) : Host.Outcome State Fault Refusal :=
  .next (s.runOp p tag 0x0530 s.limbMulAdd)

/-- MACRO (R514). -/
def execMacroOp (p : Fin 16) (tag : Fin 4096) (s : State) : Host.Outcome State Fault Refusal :=
  .next (s.runOp p tag 0x0540 (fun o => s.macroRun o (s.macroBusy o)))

/-- POLY_ENGINE_FAIL (R520): the operations of the engine are placed again; without an engine left they end. -/
def execPolyEngineFail (e : Fin 8) (s : State) : Host.Outcome State Fault Refusal :=
  .next (if s.polyFailed.testBit e then s
    else
      let s1 : State := { s with polyFailed := s.polyFailed ||| 2 ^ e.val }
      (s.ops.filter (fun o => isPolyOp (dOpcode o.desc) && o.unit == e.val && (decide (o.stage = .waiting) || decide (o.stage = .running)))).foldl
        (fun t o =>
          let u := t.polyUnit o.part o.desc
          if (t.clustersOf o.part).contains u then
            let h := (t.sharedHolder o.part o.desc).getD o.holder
            t.modOp o.part o.tag (fun y => { y with unit := u, holder := h, stage := .waiting })
          else t.modOp o.part o.tag (fun y => { y with unit := 0xFF }) |>.endPoly { o with unit := 0xFF } stUncorrectable 0 none) s1)

end Sys2Proof.Machine
end

