-- ==== Sys2Proof/Machine/Charter.lean ====
section
/-!
DEFINITION. Machine/Charter.lean: loading charters (02_charters R57 to R82) and removing tenants (17_tenants
R672 to R680).
-/
namespace Sys2Proof.Machine

/-! ### The settings area (18 R711) -/

/-- The active settings area: the valid one with the higher SEQ under the rule of 15 R637; true is area B. -/
def State.activeSettings (s : State) : Option (Bool × Settings) :=
  match s.mgmt.setA, s.mgmt.setB with
  | some a, some b => if (b.seq + 2 ^ 32 - a.seq) % 2 ^ 32 - 1 < 2 ^ 31 - 1 ∧ b.seq ≠ a.seq then some (true, b) else some (false, a)
  | some a, none => some (false, a)
  | none, some b => some (true, b)
  | none, none => none

/-- The state with the management domain changed. -/
def State.modMgmt (s : State) (g : MgmtSt → MgmtSt) : State := { s with mgmt := g s.mgmt }

/-- The firmware keeps the image of the device charter in the active settings area (00_scope R17); without a
valid area it makes area A (log entry 69). Settings are not written during TRIAL (18 R708) or on defaults (18
R712). -/
def State.saveCharter (s : State) (img : Bytes) : State :=
  if s.mgmt.upd = .trial ∨ s.mgmt.defaults then s
  else match s.activeSettings with
  | some (true, x) => s.modMgmt (fun m => { m with setB := some { x with charter := some img } })
  | some (false, x) => s.modMgmt (fun m => { m with setA := some { x with charter := some img } })
  | none => s.modMgmt (fun m => { m with
      setA := some { schema := ((m.bundle).map (·.schemaMax)).getD 0, seq := 0, charter := some img } })

/-! ### The end of a load -/

/-- A load has ended (R71, R74): the load registers, the ledger entry of a failed one, and EVENT
0 (14 R584). -/
def State.loadReport (s : State) (f code : Nat) (mute : Bool) (part : Option Nat) (status : Nat) (e : LoadErr) : State :=
  let rc := loadReasonCode e.1
  let s1 := (s.setRegN aCharterLoadStatus (rc * 2 ^ 24 + status)).setRegN aCharterLoadAt e.2
  let s2 := if status = stDone then s1 else s1.addErr status 0x02 rc part code (toLE 4 e.2)
  if mute then s2 else s2.sendMsix f (s2.eventVector 0)

/-- The target partition of a load, where it is a job charter's. -/
def Load.target (l : Load) : Option Nat := match l.charter with
  | .job _ => some l.part
  | .device _ => none

/-- The load in hand ends with the status and reason given, and with it the pause (R70, R72): the RWL writes held in
the pause of a load that is abandoned are applied too (log entry 123). -/
def State.endLoad (s : State) (status : Nat) (r : LoadReason) : State :=
  match s.load with
  | none => s
  | some l =>
    let s1 : State := { s with load := none }
    let s2 := match l.paused with
      | some (p, _) => (s1.applyHeldRwl p).modPart p (fun x => { x with paused := false })
      | none => s1
    ((s2.loadReport l.func l.code l.mute l.target status (r, 0)).openLateAll).idleSync

/-! ### Checks (R57 to R61, R67) -/

/-- The function that a requester loads for: the MP and JTAG load as the PF (log entry 65). -/
def reqFunc : Req → Nat
  | .fn f => f.val
  | _ => 0

/-- A window of partition `p` is OPEN, GRACE or RECOVERING. -/
def State.windowActive (s : State) (p : Nat) : Bool := (s.winsOf p).any (fun w => (s.win w).st.active)

/-- The refusals of a job charter load before the image is read (R57, R59, 17 R677). -/
def State.jobRefusal (s : State) (f : Nat) (p : Option Nat) : Option LoadReason :=
  if s.dev.isNone then some .noDeviceCharter
  else if f = 0 ∧ p ≠ some 0 then some .wrongFunction
  else match p with
    | none => some .noPartition
    | some p =>
      if (s.partRec p).isNone then some .noPartition
      else if s.windowActive p then some .windowActive
      else if (s.func ((s.funcOfPart p).getD 0)).tdi = .locked ∨ (s.func ((s.funcOfPart p).getD 0)).tdi = .error then some .tdiLocked
      else if !s.hasPartKeys p && s.rngFailed then some .noPartition
      else none

/-- Capacity of a device charter (step 7 of R60; R53, R55, 11 R451): the SCRATCH minimum, the Hoard regions, and
the LPDDR5X shares, each at the record whose demand exceeds it. -/
def State.deviceCapacity (s : State) (img : Bytes) (rs : List RecAt) (c : DevCharter) : Option LoadErr :=
  let h := (offsOf rs 0x0104).headD 0
  let x := c.split
  let avail := 131072 - s.retiredFrames.length
  let fixed := x.scratch + x.tallyAcc + x.retention
  let folio := (c.parts.map (·.folioFrames)).sum
  let gib := 16 * s.stackGib * (128 - popCount 128 s.folio.chRetired) / 128
  let po := offsOf rs 0x0101
  firstBad
    ((List.range po.length).map (fun i =>
      (decide ((((po.take (i + 1)).map (readPart img)).map (·.lpddrGib)).sum ≤ gib), (.capacity, po.getD i 0))) ++
    [(decide (4096 ≤ x.scratch) && decide (fixed ≤ avail) && decide (x.folioMin ≤ avail - fixed) && decide (folio ≤ avail - fixed),
      (.capacity, h))])

/-- What the device still keeps of a degraded partition's shares (R67; log entry 62): its part of what is
left. -/
def State.keptShare (s : State) (p : Nat) : Nat × Nat :=
  let ps := ((s.dev).map (·.parts)).getD []
  let folioOthers := ((ps.filter (fun r => r.id != p)).map (·.folioFrames)).sum
  let gibOthers := ((ps.filter (fun r => r.id != p)).map (·.lpddrGib)).sum
  let cache := ((List.range 8).map s.cacheFrames).sum
  let gib := 16 * s.stackGib * (128 - popCount 128 s.folio.chRetired) / 128
  (cache - folioOthers, gib - gibOthers)

/-- A reload takes resources from a partition that holds a job charter, or changes the record of a trusted one,
or changes RETENTION while a submission is open (R67). -/
def State.inUse (s : State) (old new : DevCharter) : Bool :=
  old.parts.any (fun a =>
    let p := a.id
    let b := new.parts.find? (fun r => r.id == p)
    let kept := s.keptShare p
    let x := s.part p
    let takes := match b with
      | none => true
      | some b => decide (a.coreMask &&& b.coreMask ≠ a.coreMask) ||
          (decide (b.folioFrames < a.folioFrames) && !(x.hoardDeg && decide (kept.1 ≤ b.folioFrames))) ||
          (decide (b.lpddrGib < a.lpddrGib) && !(x.lpddrDeg && decide (kept.2 ≤ b.lpddrGib)))
    (x.job.isSome && takes) || (s.partTrusted p && decide (b ≠ some a))) ||
  (decide (old.split.retention ≠ new.split.retention) && !s.tally.subs.isEmpty)

/-- The beat slots of a partition. -/
def beatSlots (c : DevCharter) (p : Nat) : Option (Nat × Nat × Nat × List BeatEnt) :=
  c.beats.map (fun b => (b.log2, b.guard, b.cycle, b.entries.filter (fun e => e.part == p)))

/-- The partitions that a device charter reload affects, ascending (R66). A change of PORT_PLAN changes the lane
groups of every partition that has lanes; partitions added or removed run nothing (log entry 70). -/
def affectedBy (old new : DevCharter) : List Nat :=
  let all := decide (old.split ≠ new.split) || decide (old.time ≠ new.time) || decide (old.tamper ≠ new.tamper)
  (List.range 16).filter (fun p =>
    match old.parts.find? (fun r => r.id == p), new.parts.find? (fun r => r.id == p) with
    | some a, some b => all || decide (a ≠ b) || (decide (old.plan ≠ new.plan) && decide (b.portMask ≠ 0)) ||
        decide ((beatSlots old p).map (·.2.2.2) ≠ (beatSlots new p).map (·.2.2.2)) ||
        (decide (beatSlots old p ≠ beatSlots new p) && decide (((beatSlots new p).map (·.2.2.2)).getD [] ≠ []))
    | _, _ => false)

/-- The checks of R60 on a device charter image, and R67. -/
def State.checkDevice (s : State) (img : Bytes) (len : Nat) : Except LoadErr DevCharter :=
  match checkHeader img len 0 false with
  | some e => .error e
  | none =>
    match checkSignature img (zeros 32) false with
    | some e => .error e
    | none =>
      match checkRecords img false with
      | .error e => .error e
      | .ok rs =>
        let c := readDevice img rs
        match deviceRanges img rs, s.deviceCapacity img rs c with
        | some e, _ => .error e
        | none, some e => .error e
        | none, none => if (s.dev.map (fun d => s.inUse d c)).getD false then .error (.resourceInUse, 0) else .ok c

/-- The job ids of the charters of other partitions (13 R557). -/
def State.usedJobs (s : State) (p : Nat) : List Nat :=
  ((List.range 16).filter (· != p)).filterMap (fun q => (s.job q).map (·.key.jobId))

/-- The frames that the PIN classes of a map would pin on rank `r` (R328): a nested entry's PIN stands for its own
folios (R327). -/
def PhaseMap.pinnedOn (m : PhaseMap) (r : Nat) : Nat :=
  let part (e c : ClassEnt) : Nat :=
    e.ownedBelow ((c.base - e.base + c.len) / 65536) r - e.ownedBelow ((c.base - e.base) / 65536) r
  (m.classes.map (fun c =>
    match m.classes.find? (fun e => decide (e ≠ c) && insideOf c e) with
    | some e => if c.pin then part e c else 0
    | none =>
      if c.pin then
        c.ownedBelow (c.len / 65536) r -
          ((m.classes.filter (fun d => decide (d ≠ c) && insideOf d c)).map (part c)).sum
      else 0)).sum

/-- Capacity of a job charter (step 7 of R60; 07 R328, 19 R725): the pins of each phase on the rank that has the most,
and MIN_CORES, each at its record (log entry 120). -/
def State.jobCapacity (s : State) (img : Bytes) (rs : List RecAt) (p : Nat) (c : JobCharter) : Option LoadErr :=
  let frames := ((s.partRec p).map (·.folioFrames)).getD 0
  firstBad
    (c.phases.map (fun m =>
      ((List.range m.packages).all (fun r => decide (m.pinnedOn r ≤ frames)),
        (.capacity, ((offsOf rs 0x0201).find? (fun o => le img (o + 4) 1 == m.phase)).getD 0))) ++
    [(decide (c.minCores ≤ (s.enabledCores p).length), (.capacity, (offsOf rs 0x0205).headD 0))])

/-- The checks of R60 on a job charter image for partition `p`, and R61. -/
def State.checkJob (s : State) (img : Bytes) (len p : Nat) : Except LoadErr JobCharter :=
  let r := (s.partRec p).getD {}
  match checkHeader img len p true with
  | some e => .error e
  | none =>
    match checkSignature img r.pin true with
    | some e => .error e
    | none =>
      match checkRecords img true with
      | .error e => .error e
      | .ok rs =>
        match jobRanges img rs (popCount 64 r.coreMask) (s.usedJobs p) (s.rwlOwned p) with
        | some e => .error e
        | none =>
          let c := readJob img rs
          match s.jobCapacity img rs p c with
          | some e => .error e
          | none => if s.partTrusted p && !c.signed then .error (.unsignedTrusted, 0) else .ok c

/-! ### Starting a load -/

/-- The image that the load registers name (R47, R73): one longer than R47 allows is not read. -/
def State.loadImage (s : State) : Bytes × Nat :=
  let n := s.regN aCharterLoadLen % 2 ^ 23
  let a := s.pair aCharterLoadAddrLo / 8 * 8
  (if n ≤ 4194440 then Mem.read s.hostMem a n else [], n)

/-- A load that is refused (R59, R74); LOAD_BUSY leaves the load registers alone (R72, R74). -/
def State.refuseLoad (s : State) (req : Req) (part : Option Nat) (e : LoadErr) : State :=
  if e.1 = .loadBusy then s.addErr stNotPermitted 0x02 (loadReasonCode .loadBusy) part (reqCode req) (zeros 4)
  else s.loadReport (reqFunc req) (reqCode req) false part (loadReasonStatus e.1) e

/-- A load has passed its checks and is BUSY (R71). -/
def State.startLoad (s : State) (req : Req) (c : Charter) (part : Nat) (img : Bytes) (wait : Bool) (pauses : List Nat) : State :=
  { s.setRegN aCharterLoadStatus (putBits (s.regN aCharterLoadStatus) 31 31 1) with
    load := some { charter := c, part := part, image := img, code := reqCode req, func := reqFunc req,
                   needsKeys := wait, affects := pauses, toPause := pauses } }

/-- A device charter is checked, and its load starts or is refused. -/
def State.loadDevice (s : State) (req : Req) (img : Bytes) (len : Nat) : State :=
  match s.checkDevice img len with
  | .error e => s.refuseLoad req none e
  | .ok c => s.startLoad req (.device c) 0 img false ((s.dev.map (fun d => affectedBy d c)).getD [])

/-- The image reads of a load are made as the PF's requests, or the function's (14 R596, R599). -/
def State.mayRead (s : State) (req : Req) : Bool := (s.func (reqFunc req)).bme

/-- A device charter load: the refusals of R59, then the image, whose host DMA reads need Bus Master Enable (log
entry 71). -/
def State.loadDev (s : State) (req : Req) : State :=
  if s.load.isSome then s.refuseLoad req none (.loadBusy, 0)
  else if reqFunc req ≠ 0 then s.refuseLoad req none (.wrongFunction, 0)
  else if !s.mayRead req then s
  else
    let im := s.loadImage
    s.loadDevice req im.1 im.2

/-- DEVICE_CHARTER_LOAD (R57, R59, R60). -/
def execDeviceCharterLoad (req : Req) (s : State) : Host.Outcome State Fault Refusal :=
  .next (if s.writeServed req aCharterLoadCtrl then s.loadDev req else s)

/-- JOB_CHARTER_LOAD (R57 to R61): through a tenant view the function's own partition is the target, and
PARTITION is not looked at. -/
def State.loadJob (s : State) (req : Req) (part : Nat) : State :=
  let f := reqFunc req
  let p := if f = 0 then some part else s.partOfFunc f
  if s.load.isSome then s.refuseLoad req p (.loadBusy, 0)
  else match s.jobRefusal f p with
    | some r => s.refuseLoad req p (r, 0)
    | none =>
      let q := p.getD 0
      let im := s.loadImage
      if !s.mayRead req then s
      else match s.checkJob im.1 im.2 q with
      | .error e => s.refuseLoad req p e
      | .ok c => s.startLoad req (.job c) q im.1 (!s.hasPartKeys q || decide ((s.removal.map (·.part)) = some q)) [q]

/-- JOB_CHARTER_LOAD. -/
def execJobCharterLoad (req : Req) (p : Fin 16) (s : State) : Host.Outcome State Fault Refusal :=
  .next (if s.writeServed req aCharterLoadCtrl then s.loadJob req p else s)

/-! ### The pause (R68 to R72) -/

/-- A partition that is switching phase is paused once the switch has reached OPEN or STOPPED (R68, 05 R243). -/
def State.mayPause (s : State) (p : Nat) : Bool :=
  let x := s.part p
  decide (x.ph = .opn) || decide (x.ph = .stopped) || decide (x.ph = .noJob)

/-- A load that waits for the keys of its partition, or for the end of its removal, goes on (17 R677). -/
def State.keysCome (s : State) (l : Load) : Bool :=
  !l.needsKeys || (s.hasPartKeys l.part && decide ((s.removal.map (·.part)) ≠ some l.part))

/-- CHARTER_PAUSE (R68, R70): the next affected partition of the load, in ascending order. -/
def execCharterPause (p : Fin 16) (s : State) : Host.Outcome State Fault Refusal :=
  .next (match s.load with
    | none => s
    | some l =>
      if l.paused.isNone && decide (l.toPause.head? = some p.val) && s.mayPause p && s.keysCome l then
        let s1 := s.modPart p (fun x => { x with paused := true })
        let s2 : State := { s1 with load := some { l with
          toPause := l.toPause.drop 1, paused := some (p.val, s.cycles), needsKeys := false } }
        s2.idleSync
      else s)

/-- PAUSE_CUTOFF (R71): 8 ms into the pause. -/
def execPauseCutoff (p : Fin 16) (s : State) : Host.Outcome State Fault Refusal :=
  .next (match s.load.bind (·.paused) with
    | none => s
    | some (q, c) =>
      if q ≠ p.val then s
      else
        let s1 := s.advanceToCycle (c + usCycles 8000)
        let s2 := s1.settleGroups (fun r => r.part == q)
        ((s2.cutOps q).foldl (fun t o => t.cancelOp q o.tag stCancelled) s2).substituteIdle q)

/-! ### Applying a device charter -/

/-- Frames of the Hoard whose bytes or use the model lists. -/
def State.listedFrames (s : State) : List Nat :=
  ((s.folio.hoard.map (fun e : Nat × Byte => e.1 / 65536)) ++ (s.folio.hUse.map (fun e : Nat × HUse => e.1))).eraseDups

/-- A folio's copy leaves a frame that is no longer of the folio cache: it moves to a free frame, or home. -/
def State.leaveFrame (s : State) (p v f : Nat) : State :=
  if (s.spareFrame (colOf f)).isSome then s.evacuate p v f
  else match s.startWriteback p v [] with
    | some t =>
      match t.moveOf p v with
      | some m => (t.commitMove m).dropCopy p v
      | none => t
    | none => s.evacuate p v f

/-- HOARD_SPLIT applied (R53, R55, R71): frames that change region are queued for zeroing. -/
def State.applySplit (s : State) (old : HoardSplit) : State :=
  if old = s.split then s
  else
    let before : State := { s with dev := s.dev.map (fun d => { d with split := old }) }
    let fs : List Nat := s.listedFrames
    let s1 := s.modFolio (fun f => { f with splitRetired := s.retiredFrames, regionSwap := [] })
    let s2 : State := if old.retention = s.split.retention then s1 else s1.modTally (fun t => { t with wptr := 0, ringSwap := [] })
    let s3 := fs.foldl (fun t f =>
      if before.regionOf f = t.regionOf f then t
      else match t.hUse f with
        | .folio p v => ((t.leaveFrame p v f).setHUse f .free).scrubHoard [f]
        | .free => t.scrubHoard [f]
        | _ => t) s2
    s3.modTally (fun t => { t with ringOwner := t.ringOwner.filter (fun e => decide (s3.regionOf (e.1 / 1024) = .retention)) })

/-- The lanes that have failed, as the port mode `mode` had them on its ports. -/
def State.failedLanes (s : State) (mode : Nat) : List Nat :=
  let n := modeLanes mode
  (List.range 64).filter (fun l => (s.port (l / n)).failed.testBit (l % n))

/-- PORT_PLAN applied (13 R524, R531): the lanes take their places in the new mode, and every enabled port
trains. -/
def State.applyPorts (s : State) (old : Option PortPlan) : State :=
  if old = some s.plan then s
  else
    let bad := s.failedLanes ((old.map (·.mode)).getD s.plan.mode)
    let n := modeLanes s.plan.mode
    (List.range (modePorts s.plan.mode)).foldl (fun t i =>
      let mask := (bad.filter (fun l => l / n == i)).foldl (fun m l => m ||| 2 ^ (l % n)) 0
      let t1 := t.modPort i (fun q => { q with failed := mask, control := [], zero := [], nextMac := none, turn := 0 })
      if (t1.portEnt i).isSome then t1.train i
      else t1.modPort i (fun q => { q with up := false, retraining := false, lanes := 0 }))
      { s with ports := s.ports.filter (fun e => decide (e.1 < modePorts s.plan.mode)) }

/-- FTIME_HOLD and FTIME_PPS from TIME_SOURCE (08 R377). -/
def State.applyTime (s : State) (old : Option TimeSource) : State :=
  let t := s.timeSource
  let s1 := (s.setRegN aFtimeHold (t.rate * 2 ^ 20 + t.limit)).ftHold
  let s2 := s1.setRegN aFtimePps (2 ^ 31 + t.ppsDelay % 2 ^ 24)
  let s3 := if old.isSome ∧ old ≠ some t then s2.ftClear else s2
  if old = some t then s3 else s3.modFt (fun f => { f with lastAnnounce := s.cycles })

/-- SECMBX_TAMPER_CFG from TAMPER_MODE, copied to MRAM (15 R645, R653). -/
def State.applyTamper (s : State) : State :=
  let m := ((s.dev).bind (·.tamper)).getD {}
  let v := b2n m.sweep * 2 ^ 31 + ((List.range 5).map (fun i => m.responses.getD i 0 * 4 ^ i)).sum
  (s.setRegN aSecmbxTamperCfg v).modSbox (fun b => { b with mramTamper := some v })

/-- A partition that the charter no longer defines, and which holds no job, loses its keys and state. -/
def State.dropPart (s : State) (p : Nat) : State :=
  (s.destroyPart p).setPart p { expert := (s.part p).expert, since := (s.part p).since, sinceFt := (s.part p).sinceFt }

/-- HOARD and LPDDR degradation ends where the shares can be kept again (19 R727). -/
def State.endDegraded (s : State) : State :=
  ((List.range 16).foldl (fun t p => t.modPart p (fun x => { x with hoardDeg := false, lpddrDeg := false })) s).flagHoard.flagLpddr

/-- A device charter applied as a whole (R64, R71, R75, R80). -/
def State.applyDevice (s : State) (c : DevCharter) (img : Bytes) : State :=
  let old := s.dev
  let gone := s.partIds.filter (fun p => !(c.parts.any (fun r => r.id == p)))
  let s1 := gone.foldl State.dropPart s
  let s2 : State := { s1 with dev := some c }
  let s3 := (s2.partIds.filter (fun p => !s2.hasPartKeys p)).foldl State.drawPartKeys s2
  let s4 := s3.applySplit ((old.map (·.split)).getD s3.split)
  let s4a := if old.isNone then s4.modFolio (fun f => { f with splitRetired := s4.retiredFrames, regionSwap := [] }) else s4
  let s5 := ((s4a.applyPorts (old.map (·.plan))).applyTime (old.map (·.time))).applyTamper
  let s6 := s5.setMux (BitVec.ofNat 32 (putBits (s5.regN aDbgMuxCtrl) 31 31 (b2n c.dbg.muxEn)))
  let s7 := if (old.bind (·.beats)) = c.beats then s6 else s6.modFt (fun f => { f with beatFrom := s6.nextBeat })
  (s7.endDegraded.modPart 0 (fun x => { x with expert := false })).saveCharter img

/-! ### Applying a job charter -/

/-- What becomes of the links when the job id changes, or of a removed tenant's (R65, 13 R562, 15 R626). -/
def State.endAdmission (s : State) (p : Nat) : State :=
  (((s.orphan (jobRootSlot p)).dropLinks p).dropReplies p).modPart p (fun x => { x with adm := {}, rank := none, heldPulls := [] })

/-- The peer transfers of a partition, which the end of its admission stops. -/
def State.peerMoves (s : State) (p : Nat) : List Move :=
  s.folio.moves.filter (fun m => m.part == p && (decide (m.kind = .pull) || decide ((s.leaf p m.vfn).cls = .peer)))

/-- A job charter applied to partition `p` (R64, R65, R80): the windows, contexts, streams and parameter slots of
the previous job go, the RWL registers return to reset, and the job starts in phase 0. -/
def State.applyJob (s : State) (p : Nat) (c : JobCharter) : State :=
  let old := s.job p
  let s := s.forgetTags p
  let changed := decide ((old.map (·.key.jobId)) ≠ some c.key.jobId)
  let s1 := if old.isSome ∧ changed then
      ((s.peerMoves p).foldl (fun t m => (t.abandonMove m).failTags p m.tags stKeyRetired) s).endAdmission p
    else s
  let s2 := s1.resetRwl p rwlKept
  let s3 := (s2.winsOf p).foldl (fun t w => t.freeWindow w) s2
  let s4 := ((s3.closeStreams p).freePolySlots p).clearPhasePins p
  let s5 : State := { s4 with cores := s4.cores.map (fun e => (e.1, { e.2 with
    ctxs := e.2.ctxs.filter (fun y => match y.2 with | some x => x.part != p | none => false) })) }
  let s6 := s5.setSeed p (le c.hash 0 8)
  let s7 := s6.modPart p (fun x => { x with
    job := some c, ph := .opn, target := 0, phase := 0, switch := none, plan := {}, lastOk := [], expert := false
    since := 0, sinceFt := s6.ftNs, adm := if changed then {} else x.adm })
  let s8 := (s7.modPart p (fun x => { x with since := s7.nowBits })).openPhase p 0
  let s9 := c.overrides.foldl (fun t e => t.override p e.1 e.2) s8
  s9.modPart p (fun x => { x with expert := x.expert || !c.overrides.isEmpty })

/-! ### The end of a pause -/

/-- A device charter whose PARTITION records of the partitions given are still those in force. -/
def DevCharter.keeping (c : DevCharter) (old : Option DevCharter) (ps : List Nat) : DevCharter :=
  { c with parts := c.parts.map (fun r =>
      if ps.contains r.id then (old.bind (fun d => d.parts.find? (fun x => x.id == r.id))).getD r else r) }

/-- The charter's values are written. The first pause of a device charter reload writes all of it but the PARTITION
records of the partitions still to be paused, and the pause of each of these writes its own (R71; log entry 124). -/
def State.applyLoad (s : State) (l : Load) (p : Option Nat) : State :=
  match l.charter with
  | .job c => if l.applied then s else s.applyJob l.part c
  | .device c =>
    if !l.applied then s.applyDevice (c.keeping s.dev l.toPause) l.image
    else match p.bind (fun q => c.parts.find? (fun x => x.id == q)) with
      | some r => ({ s with dev := s.dev.map (fun d => { d with
          parts := d.parts.map (fun x => if x.id = r.id then r else x) }) } : State).endDegraded
      | none => s

/-- The pause of partition `p` ends, which is a phase boundary: the writes held in it, substitution, and admission
(R71, R72). -/
def State.resume (s : State) (p : Nat) : State :=
  (((s.applyHeldRwl p).substitute p).modPart p (fun x => { x with paused := false })).idleSync

/-- No operation of partition `p` is left that its pause waits for. -/
def State.pauseDrained (s : State) (p : Nat) : Bool := (s.cutOps p).isEmpty

/-- CHARTER_APPLY (R64, R69, R71): the values are written, admission resumes, and after the last pause the load
is DONE. -/
def State.charterApply (s : State) : State :=
  match s.load with
  | none => s
  | some l =>
    match l.paused with
    | some (p, _) =>
      if !s.pauseDrained p then s
      else
        let s1 := (s.applyLoad l (some p)).resume p
        let s2 : State := { s1 with load := some { l with paused := none, applied := true } }
        if l.toPause.isEmpty then s2.endLoad stDone .none else s2
    | none =>
      if l.toPause.isEmpty then
        let s1 := s.applyLoad l none
        let s2 : State := { s1 with load := some { l with applied := true } }
        s2.endLoad stDone .none
      else s

/-! ### Tenant removal (17 R672 to R679) -/

/-- Operations that have started moving data: host DMA and folio operations that run (R675). -/
def Op.moves (o : Op) : Bool :=
  decide (o.stage = .running) && (decide (dOpcode o.desc / 256 = 6) || decide (dOpcode o.desc / 256 = 3))

/-- A count of the last removal, saturating. -/
def State.setCount (s : State) (off n : Nat) : State := s.setRegN off (min n (2 ^ 32 - 1))

/-- Every operation of the partition ends: those that had started moving data with KEY_RETIRED, the others with
CANCELLED (R675). -/
def State.removeOps (s : State) (p : Nat) : State :=
  let l := s.cancellable p
  let started := l.filter Op.moves
  let others := l.filter (fun o => !o.moves)
  let s1 := others.foldl (fun t o => t.cancelOp p o.tag stCancelled) s
  let s2 := started.foldl (fun t o => t.cancelOp p o.tag stKeyRetired) s1
  (s2.setCount aCharterRemoveOps others.length).setCount aCharterRemoveDma started.length

/-- The transfers of the partition stop, writing nothing further. -/
def State.stopMoves (s : State) (p : Nat) : State :=
  (s.folio.moves.filter (fun m => m.part == p)).foldl (fun t m => t.abandonMove m) s

/-- The windows of the partition go to DISCARDED (R675, 10 R422), with the counts of R680, and its bytes in the retention
ring are zeroed (01 R39). `held` segments were in the reorder store (13 R568; log entry 151). -/
def State.removeWindows (s : State) (p held : Nat) : State :=
  let ws := (s.winsOf p).filter (fun w => decide ((s.win w).st = .defined) || (s.win w).st.active)
  let slots := (ws.map (fun w => ((s.slotsOf w).filter (fun y => !y.summed)).length)).sum
  let subs := (s.tally.subs.filter (fun u => ws.contains u.win)).length
  let s1 := (ws.foldl (fun t w => t.discardWindow w) s).ringForget p
  let slots := slots + held
  ((s1.setCount aCharterRemoveSegments slots).setCount aCharterRemoveSubs subs).setCount aCharterRemoveWindows ws.length

/-- The folios of the partition go to SCRUB, and its table frames are queued with them (R675). -/
def State.removeFolios (s : State) (p : Nat) : State :=
  let ls := (s.leavesOf p).filter (fun e => decide (e.2.state ≠ .absent))
  let s1 := ls.foldl (fun t e => t.toScrub p e.1) s
  let tabs := s1.folio.tables.filter (fun e => e.1 / 2 ^ 40 == p)
  let s2 := tabs.foldl (fun t e => (t.setLUse e.2.1 .scrub).modFolio (fun x => { x with
    scrubs := x.scrubs ++ [{ hoard := false, frame := e.2.1, folio := none }] })) s1
  let s3 := s2.modFolio (fun x => { x with tables := x.tables.filter (fun e => e.1 / 2 ^ 40 != p) })
  s3.setCount aCharterRemoveFolios ls.length

/-- A load that waits for the keys of its partition ends: they will not be drawn (17 R677). -/
def State.loadWithoutKeys (s : State) (p : Nat) : State :=
  match s.load with
  | some l =>
    if l.part = p ∧ l.needsKeys then
      let code := loadReasonCode .noPartition
      let s1 : State := { s with load := none }
      let s2 := (s1.setRegN aCharterLoadStatus (code * 2 ^ 24 + stNotPermitted)).setRegN aCharterLoadAt 0
      let s3 := (s2.addErr stNotPermitted 0x02 code (some p) l.code (zeros 4)).openLateAll
      if l.mute then s3 else s3.sendMsix l.func (s3.eventVector 0)
    else s
  | none => s

/-- The removal ends (R675 to R677). -/
def State.finishRemoval (s : State) (r : Removal) (forced : Bool) : State :=
  let p := r.part
  let status := if r.tamper then stTamperAbort else stDone
  let s1 := s.setRegN aCharterRemoveStatus (b2n forced * 2 ^ 30 + p * 2 ^ 24 + status)
  let s2 := (s1.setCount aCharterRemoveTime ((s.cycles - r.since) * 2 / 625)).resetRwl p
    [aFtimeHold, aFtimePps, aSecmbxTamperCfg]
  let s3 : State := { s2 with removal := none }
  let s4 := match s3.funcOfPart p with
    | some f => match (s3.func f).held with
      | some h => (s3.modFunc f (fun x => { x with held := none })).failHeld f h.slot h.desc stNotPermitted false
      | none => s3
    | none => s3
  let s5 := s4.drawPartKeys p
  (if s5.rngFailed then s5.loadWithoutKeys p else s5).raise 0

/-- The pulls that peers' requests hold here are refused, in frames that leave before the streams end (07 R347; log entry
140). -/
def State.refuseHeld (s : State) (p : Nat) : State :=
  (s.part p).heldPulls.foldl (fun t h =>
    if t.admitted p && (t.peer p h.peer).isSome then
      t.sendFirst p h.peer { type := 4, flow := h.flow, body := moveHead h.vfn 2 (t.otherPhase p h.phase) }
    else t) s

/-- The removal of partition `p` accepted now, with what its links were. -/
def State.removalOf (s : State) (p : Nat) : Removal :=
  { part := p, since := s.cycles, jobId := s.jobId p, prk := s.jobPrk p, peers := (s.part p).adm.peers, own := (s.part p).adm.own
    links := s.links.filter (fun e => e.1 / 1024 == p) }

/-- Segments that the streams of the removed partition held for order. -/
def Removal.heldSegs (r : Removal) : Nat := (r.links.map (fun e => (e.2.held.filter (fun h => h.type == 1)).length)).sum

/-- A removal is accepted (R673 to R675). -/
def State.startRemoval (s : State) (p : Nat) : State :=
  let s1 := if s.jobLoadBusy p then s.endLoad stCancelled .abandoned else s
  let f := (s1.funcOfPart p).getD 0
  let sw := (s1.part p).switch
  let s2 : State := { s1.setRegN aCharterRemoveStatus (2 ^ 31 + p * 2 ^ 24) with removal := some (s1.removalOf p) }
  let s3 := match sw with
    | some x => s2.endSwitch p x stCancelled 0
    | none => s2
  let s4 := (s3.removeOps p).setCount aCharterRemoveRecords 0
  let s5 := ((s4.tdiError f stKeyRetired).stopMoves p).refuseHeld p
  let s6 := ((s5.destroyPart p).endAdmission p).removeWindows p (s1.removalOf p).heldSegs
  let s7 := (((s6.freePolySlots p).closeStreams p).removeFolios p).modPart p (fun x => { x with
    job := none, ph := .noJob, switch := none, plan := {}, heldPulls := [], heldRwl := [], target := 0, phase := 0
    keyLive := 0, keyCur := 0 })
  if (s7.opsOf p).isEmpty then s7.finishRemoval (s1.removalOf p) false else s7

/-- Removal requested (R672, R680). -/
def State.removeTenant (s : State) (req : Req) (p : Nat) : State :=
  if p = 0 ∨ (s.partRec p).isNone ∨ s.removal.isSome then s.addErr stNotPermitted 0x02 0 (some p) (reqCode req) (zeros 4)
  else s.startRemoval p

/-- REMOVAL_COMPLETE (R675, R677). -/
def State.removalDone (s : State) : State :=
  match s.removal with
  | none => s
  | some r => if (s.opsOf r.part).isEmpty then s.finishRemoval r false else s

/-- REMOVAL_FORCED (R676): 10 ms after acceptance the entries left are released, their records discarded and
counted. -/
def State.removalForce (s : State) : State :=
  match s.removal with
  | none => s
  | some r =>
    let p := r.part
    let s1 := s.advanceToCycle (r.since + usCycles 10000)
    let mine := s1.ops.filter (fun o => o.part == p)
    if mine.isEmpty then s1.finishRemoval r false
    else
      let s2 : State := { s1 with
        ops := s1.ops.filter (fun o => o.part != p)
        recs := s1.recs.filter (fun x => !(x.part == p && x.hasEntry)) }
      (s2.setCount aCharterRemoveRecords mine.length).finishRemoval r true

end Sys2Proof.Machine
end

