-- ==== Sys2Proof/Machine/Compute.lean ====
section
/-!
DEFINITION. Machine/Compute.lean: the matrix engine with its accumulation contexts and split reductions
(03_matrix R84 to R140, 04_accumulation R146 to R193).
-/
namespace Sys2Proof.Machine

/-! ### Operands in tenant memory and in core scratch (R91 to R93, R136) -/

/-- `n` bytes of an operand of partition `p` at address `a`, for physical core `i`: scratch at its offset, tenant
memory at its virtual address. The staged copy of a tenant operand has a place of its own (log entry 126). -/
def State.operand (s : State) (p i a n : Nat) : Bytes :=
  if isScratch a then Mem.read s.scratch (i * 2 ^ 22 + scratchOff a) n else s.readVa p a n

/-- Bytes of a result written at address `a`. -/
def State.result (s : State) (o : Op) (i a : Nat) (bs : Bytes) : State :=
  if isScratch a then { s with scratch := Mem.write s.scratch (i * 2 ^ 22 + scratchOff a) bs }
  else s.writeVa o.part o.tag a bs

/-- The elements of a row of `k` elements of `w` bits, packed without gaps (R89). -/
def unpack (w k : Nat) (bs : Bytes) : List Nat :=
  let x := leNat bs
  (List.range k).map (fun j => bits x (w * j + w - 1) (w * j))

/-- Elements of `w` bits packed into a row of `pitch` bytes, with 0 in the padding (R92). -/
def pack (w pitch : Nat) (es : List Nat) : Bytes := toLE pitch ((es.reverse).foldl (fun acc e => acc * 2 ^ w + e % 2 ^ w) 0)

/-- A format of residues (R88). -/
def isRing (fmt : Nat) : Bool := decide (0xB ≤ fmt) && decide (fmt ≤ 0xD)

/-- Row `r` of an operand tile of `R` rows of `k` elements (R91); a ring operand in scratch lies in limb
planes (R93). -/
def State.tileRow (s : State) (p i fmt a R k r : Nat) : List Nat :=
  let w := fmtBits fmt
  if isRing fmt && isScratch a then
    let pitch := ceilDiv k 64 * 64
    let planes := (List.range (w / 8)).map (fun l => s.operand p i (a + l * R * pitch + r * pitch) k)
    (List.range k).map (fun j => leNat (planes.map (fun pl => byteAt pl j)))
  else unpack w k (s.operand p i (a + r * pitchBits (k * w)) (ceilDiv (k * w) 8))

/-- Row `r` of the scale plane of an MX operand tile (R91). -/
def State.scaleRow (s : State) (p i fmt a R k r : Nat) : List Nat :=
  (s.operand p i (a + R * pitchBits (k * fmtBits fmt) + r * pitchBits (k / 32 * 8)) (k / 32)).map (·.toNat)

/-- Bytes that an operand tile occupies where it stands. -/
def operandBytes (fmt : Nat) (mx : Bool) (a R k : Nat) : Nat :=
  if isRing fmt && isScratch a then fmtBits fmt / 8 * R * (ceilDiv k 64 * 64) else tileBytes fmt mx R k

/-- STAGE and VEC of the core's split, in bytes (R86). -/
def State.stageBytes (s : State) (i : Nat) : Nat := bits (s.regN (aCoreScratchSplit (i / 9) (i % 9))) 7 0 * 65536
def State.vecBytes (s : State) (i : Nat) : Nat := bits (s.regN (aCoreScratchSplit (i / 9) (i % 9))) 15 8 * 65536

/-- Bytes that the transfer engine puts into the staging region of core `i`: operands brought from tenant memory and
output tiles that await write-back (R86, R93, R109). Where they go in the region is an open value; what reaches its end
goes on at its start, and what is longer than the region leaves its last part (log entry 126). -/
def State.stage (s : State) (i : Nat) (bs : Bytes) : State :=
  let n := s.stageBytes i
  if n = 0 then s
  else
    let r := s.free
    let at_ := r.1.toNat % (n / 64) * 64
    let kept := bs.drop (bs.length - n)
    { r.2 with scratch := Mem.write (Mem.write r.2.scratch (i * 2 ^ 22 + at_) (kept.take (n - at_))) (i * 2 ^ 22) (kept.drop (n - at_)) }

/-- The same for what stands in tenant memory at address `a`; what is given by scratch offset is used in place. -/
def State.stageIf (s : State) (i a : Nat) (bs : Bytes) : State := if isScratch a then s else s.stage i bs

/-- An output tile at address `a`: staged where it goes to tenant memory, and written (R92, R109). -/
def State.resultTile (s : State) (o : Op) (i a : Nat) (bs : Bytes) : State := (s.stageIf i a bs).result o i a bs

/-! ### Context slots (R86, 04 R148) -/

/-- Where the word of element (`r`, `q`) lies in slot `x` of core `i`: rows of 128 words (log entry 127). -/
def State.ctxWordAt (s : State) (i x r q : Nat) : Nat :=
  i * 2 ^ 22 + s.stageBytes i + s.vecBytes i + x * 131072 + 8 * (128 * r + q)

/-- The slot words of a tile of `m` rows of `n` elements. -/
def State.ctxWords (s : State) (i x m n : Nat) : List W64 :=
  (List.range m).flatMap (fun r => (List.range n).map (fun q => BitVec.ofNat 64 (leNat (Mem.read s.scratch (s.ctxWordAt i x r q) 8))))

/-- Slot words written. -/
def State.putCtxWords (s : State) (i x n : Nat) (ws : List W64) : State :=
  let row (t : Tab Byte) (e : List W64 × Nat) : Tab Byte := Mem.write t (s.ctxWordAt i x e.2 0) ((e.1.map (fun w => toLE 8 w.toNat)).flatten)
  { s with scratch := ((chunks n ws).zipIdx).foldl row s.scratch }

/-! ### Errors of core scratch (R85, R140) -/

/-- Corrected errors counted in CORE_ECC (R85). -/
def State.scratchCorrected (s : State) (i n : Nat) : State :=
  s.modCore i (fun c => { c with corr := min 0xFFFF (c.corr + n) })

/-- An uncorrectable error is the core's third within one second (19 R720). -/
def State.scratchThird (s : State) (i : Nat) : Bool :=
  match (s.core i).scratchErrs with
  | [_, b] => decide (s.cycles ≤ b + 312500000)
  | _ => false

/-- An uncorrectable error of a line (R85): counted, with an entry that names core and line, and the operation that
read the word fails; the third within one second fails the core instead (19 R720, R721; log entry 128). -/
def State.scratchDouble (s : State) (i line : Nat) (fail : State → State) : State :=
  let s1 := s.modCore i (fun c => { c with uncorr := satInc 8 c.uncorr, scratchErrs := (s.cycles :: c.scratchErrs).take 2 })
  if s.scratchThird i then s1.failCore i 3 line
  else fail (s1.addErr stUncorrectable 0x03 0 (s.partOfCore (s.core i).logical) 0xFF
    (toLE 1 (i / 9) ++ toLE 1 (i % 9) ++ toLE 1 3 ++ zeros 1 ++ toLE 4 line))

/-- The work of an operation with the scratch errors that it meets (R140): `part` writes the lines of its output that
are written before an error in the drain. -/
def State.withErr (s : State) (i : Nat) (err : ScratchErr) (work : State → State) (part : Nat → State → State)
    (fail : State → State) : State :=
  match err with
  | .clean => work s
  | .corrected n => work (s.scratchCorrected i n)
  | .double line => s.scratchDouble i line fail
  | .drain line w => (part w s).scratchDouble i line fail

/-- An address of an operand of `n` bytes is well formed (R136, R137, R781). -/
def State.addrOk (s : State) (i a n : Nat) : Bool :=
  if isScratch a then
    let f := scratchOff a
    let st := s.stageBytes i
    decide (f % 64 = 0) && (decide (f + n ≤ st) || (decide (st ≤ f) && decide (f + n ≤ st + s.vecBytes i)))
  else decide (a % 64 = 0) && rangeOk (a, n)

/-- CORE_NUM_POLICY of the core. -/
def State.numPolicy (s : State) (i : Nat) : Nat := s.regN (aCoreNumPolicy (i / 9) (i % 9))

/-- A scratch offset is used without SCRATCH_DIRECT (R137). -/
def State.scratchDenied (s : State) (i : Nat) (as : List Nat) : Bool := !bit (s.numPolicy i) 3 && as.any isScratch

/-- FORCE_FTZ and FORCE_RNE acting on the fields of a descriptor. -/
def State.effFtz (s : State) (i : Nat) (f : Bool) : Bool := f || bit (s.numPolicy i) 2
def State.effSr (s : State) (i : Nat) (f : Bool) : Bool := f && !bit (s.numPolicy i) 1
def State.effRound (s : State) (i r : Nat) : Nat := if r = 2 ∧ bit (s.numPolicy i) 1 then 0 else r

/-! ### The combinations of R126 -/

/-- An A and B format pair, a mode, a D format and SR that R126 allows. -/
def mmaCombo (a b mode d : Nat) (sr : Bool) : Bool :=
  if a ≤ 6 ∧ b ≤ 6 then decide (mode = 0) && [0x9, 0x5, 0x6, 0x3, 0x4].contains d
  else if (a = 7 ∨ a = 8) ∧ (b = 7 ∨ b = 8) then
    !sr && decide (d = 0xA) && (decide (mode = 1) || decide (mode = 2) ||
      (decide (a = 8) && decide (b = 8) && decide (4 ≤ mode) && decide (mode ≤ 6)))
  else if a = b ∧ (a = 0xB ∨ a = 0xC) then !sr && decide (mode = 2) && decide (d = a)
  else if a = 0xD ∧ b = 0xD then !sr && decide (mode = 3) && decide (d = 0xD)
  else false

/-- The fields of an MMA body are well formed (R124 to R126, R98). -/
def mmaFieldsOk (d : Bytes) : Bool :=
  decide (mmaFmt d < 2 ^ 14) && decide (mmaCtrl d < 2 ^ 10) && decide (le d 0x3C 4 < 16) &&
  decide (mmaM d ≤ 128) && decide (mmaN d ≤ 128) && decide (mmaRound d ≠ 3) &&
  mmaCombo (mmaAFmt d) (mmaBFmt d) (mmaMode d) (mmaDFmt d) (mmaSr d) &&
  (!mmaMxA d || decide (mmaAFmt d ≤ 4)) && (!mmaMxB d || decide (mmaBFmt d ≤ 4))

/-! ### Additions of one element (R94 to R97, R113, R127, R146) -/

/-- An element of a float operand as a value. -/
def elemFl (fmt : Nat) (ftz : Bool) (x : Nat) : Fl :=
  match floatFmt fmt with
  | some f => flInput f ftz x
  | none => .fin (decide (sgn 8 x < 0)) (sgn 8 x).natAbs 0

/-- An element of an integer operand. -/
def elemInt (fmt x : Nat) : Int := sgn (fmtBits fmt) x

/-- Products summed in one addition (R146). -/
def perAddition (d : Bytes) : Nat :=
  if mmaMxA d ∨ mmaMxB d then 32
  else if (mmaAFmt d = 0 ∧ mmaBFmt d = 0) ∨ (mmaAFmt d = 7 ∧ mmaBFmt d = 7) then 2
  else 1

/-- The exponent that a block's scales add, or none where a scale is NaN (R90, R96). -/
def blockScale (ea eb : Option Nat) : Option Int :=
  let one (e : Option Nat) : Option Int := match e with
    | none => some 0
    | some 0xFF => none
    | some n => some ((n : Int) - 127)
  match one ea, one eb with
  | some x, some y => some (x + y)
  | _, _ => none

/-- A row of an operand with its scales. -/
structure OpRow where
  es : List Nat := []
  scales : Option (List Nat) := none

/-- The values added into one element of a float tile, in order; an infinite one comes from infinite products. -/
def floatAdds (d : Bytes) (ftz : Bool) (a b : OpRow) : List Fl :=
  let ps := List.zipWith (fun x y => flMul (elemFl (mmaAFmt d) ftz x) (elemFl (mmaBFmt d) ftz y)) a.es b.es
  let groups := (chunks (perAddition d) ps).map flSum
  if mmaMxA d ∨ mmaMxB d then
    (List.zip (List.range groups.length) groups).map (fun g =>
      match blockScale (a.scales.map (fun l => l.getD g.1 0)) (b.scales.map (fun l => l.getD g.1 0)) with
      | some k => flScale k g.2
      | none => .nan)
  else groups

/-- The products of one element of an integer tile. -/
def intProducts (d : Bytes) (a b : OpRow) : List Int :=
  List.zipWith (fun x y => elemInt (mmaAFmt d) x * elemInt (mmaBFmt d) y) a.es b.es

/-- The limb products of two ring words of `l` limbs, as R113 adds them. -/
def ringProduct (l x y : Nat) : Nat :=
  ((List.range l).map (fun i => ((List.range (l - i)).map (fun j =>
    bits x (8 * i + 7) (8 * i) * bits y (8 * j + 7) (8 * j) * 2 ^ (8 * (i + j)))).foldl (· + ·) 0)).foldl (· + ·) 0

/-! ### Running sums and folds (R153 to R168) -/

/-- An integer clamped to `[lo, hi]`, and whether the clamp changed it. -/
def clampI (lo hi x : Int) : Int × Bool := if x < lo then (lo, true) else if hi < x then (hi, true) else (x, false)

/-- A 32-bit clamp (R154). -/
def clamp32 (x : Int) : Int × Bool := clampI (-(2 ^ 31)) (2 ^ 31 - 1) x

/-- The initial value of a slot word (R153). -/
def slotInit (mode : Nat) : W64 :=
  if mode = 0 then BitVec.ofNat 64 (2 ^ 63) else if mode = 4 then 0xFFFFFFFF else 0

/-- The fold of a slot word (R153): the sum, and whether it clamped. `off` is SPILL_OFF. -/
def slotFold (mode : Nat) (off : Bool) (slot sum : W64) : W64 × Bool :=
  match mode with
  | 0 => (BitVec.ofNat 64 (flRound fp64 .rne (flAdd (flDecode fp64 slot.toNat) (flDecode fp64 sum.toNat))), false)
  | 1 =>
    let r := if off then clamp32 (slot.toInt + sum.toInt) else clampI (-(2 ^ 63 - 1)) (2 ^ 63 - 1) (slot.toInt + sum.toInt)
    (BitVec.ofInt 64 r.1, r.2)
  | 2 => (BitVec.ofNat 64 ((slot.toNat + sum.toNat) % 2 ^ 32), false)
  | 3 => (slot + sum, false)
  | 4 => (slot &&& sum, false)
  | 5 => (slot ||| sum, false)
  | _ => (slot ^^^ sum, false)

/-- One float addition (R161 to R163). -/
def floatAdd (sr : Bool) (u : Nat) (run x : Fl) : Fl :=
  flDecode fp32 (flRound fp32 (if sr then .sr u else .rne) (flAdd run x))

/-- A float running sum as a slot word. -/
def flWord (x : Fl) : W64 := BitVec.ofNat 64 (flRound fp64 .rne x)

/-- The float reduction of one element: the additions from index `t` on, with a fold after every `spill`
of them and at the end (R161, R165 to R167). -/
def floatRun (sr : Bool) (draw : Nat → Nat) (spill : Nat) : List Fl → Nat → Fl → W64 → W64
  | [], _, run, slot => (slotFold 0 false slot (flWord run)).1
  | x :: xs, t, run, slot =>
    let r := floatAdd sr (draw t) run x
    if (t + 1) % spill = 0 ∧ !xs.isEmpty then
      floatRun sr draw spill xs (t + 1) (.fin true 0 0) (slotFold 0 false slot (flWord r)).1
    else floatRun sr draw spill xs (t + 1) r slot

/-- The float reduction of one element with the special values of R97: infinite products of one sign give an infinity
of that sign whatever the finite ones sum to, those of both signs a NaN. -/
def floatElement (sr : Bool) (draw : Nat → Nat) (spill : Nat) (xs : List Fl) (slot : W64) : W64 :=
  let sum : Option Fl :=
    if xs.any (fun x => x == .nan) || (xs.any (fun x => x == .inf false) && xs.any (fun x => x == .inf true)) then some .nan
    else if xs.any (fun x => x == .inf false) then some (.inf false)
    else if xs.any (fun x => x == .inf true) then some (.inf true)
    else none
  match sum with
  | some x => (slotFold 0 false slot (flWord x)).1
  | none => floatRun sr draw spill xs 0 (.fin true 0 0) slot

/-- The saturating reduction of one element; `spill` 0 means no spill (R154 to R159). -/
def satRun (off : Bool) (spill q : Nat) : List Int → Nat → Int → W64 × Bool → W64 × Bool
  | [], _, run, acc =>
    let f := slotFold 1 off acc.1 (BitVec.ofInt 64 run)
    (f.1, acc.2 || f.2)
  | x :: xs, t, run, acc =>
    let r := clamp32 (run + x)
    if !off ∧ (t + 1) * q % spill = 0 ∧ !xs.isEmpty then
      let f := slotFold 1 off acc.1 (BitVec.ofInt 64 r.1)
      satRun off spill q xs (t + 1) 0 (f.1, acc.2 || r.2 || f.2)
    else satRun off spill q xs (t + 1) r.1 (acc.1, acc.2 || r.2)

/-- What the settings of an operation's core make of it. -/
structure MmaEnv where
  ftz : Bool
  sr : Bool
  seed : Nat

/-- One element of an MMA: its slot word after the operation, and whether anything clamped (R153). -/
def mmaElement (d : Bytes) (e : MmaEnv) (c : Ctx) (i j : Nat) (a b : OpRow) (slot : W64) : W64 × Bool :=
  match mmaMode d with
  | 0 =>
    (floatElement e.sr (fun t => philox e.seed (i * 128 + j) (mmaSegment d) (t / 8) 0 (t % 8)) (2 ^ c.fpLog2)
      (floatAdds d e.ftz a b) slot, false)
  | 1 =>
    let q := perAddition d
    let adds := (chunks q (intProducts d a b)).map (fun l => l.foldl (· + ·) 0)
    satRun c.spillOff (2 ^ c.intLog2) q adds 0 0 (slot, false)
  | 2 =>
    let sum : Nat := if isRing (mmaAFmt d)
      then (List.zipWith (ringProduct (fmtBits (mmaAFmt d) / 8)) a.es b.es).foldl (· + ·) 0 % 2 ^ 32
      else unsgn 32 ((intProducts d a b).foldl (· + ·) 0)
    slotFold 2 false slot (BitVec.ofNat 64 sum)
  | 3 => slotFold 3 false slot (BitVec.ofNat 64 ((List.zipWith (ringProduct 8) a.es b.es).foldl (· + ·) 0))
  | m =>
    let ps := List.zipWith (fun x y => BitVec.ofNat 64 (x &&& y)) a.es b.es
    let start : W64 := slotInit m
    slotFold m false slot (ps.foldl (fun r x => (slotFold m false r x).1) start)

/-- Additions of one element in an operation, and the folds that follow from them (R165 to R167). -/
def mmaFolds (d : Bytes) (c : Ctx) : Nat :=
  match mmaMode d with
  | 0 => ceilDiv (mmaK d / perAddition d) (2 ^ c.fpLog2)
  | 1 => if c.spillOff then 1 else ceilDiv (mmaK d) (2 ^ c.intLog2)
  | _ => 1

/-- Products of one element in an operation (R146, R147): a limb product each in ring mode. -/
def mmaProducts (d : Bytes) : Nat :=
  if isRing (mmaAFmt d) then let l := fmtBits (mmaAFmt d) / 8; l * (l + 1) / 2 * mmaK d else mmaK d

/-- The product counter after `n` more products (R179). All additions of a reduction carry the same power
of two of products, so one of them lands on 2^32 itself when the total reaches it. -/
def Ctx.countProducts (c : Ctx) (n : Nat) : Ctx :=
  let t := c.count + n
  { c with
    count := t % 2 ^ 32
    carry := c.carry || decide (2 ^ 32 ≤ t)
    lapsed := c.lapsed || (c.carry && decide (0 < n)) || decide (2 ^ 32 < t) }

/-- The A rows and the B rows of a tile operation. -/
def State.mmaRows (s : State) (p i : Nat) (d : Bytes) : List OpRow × List OpRow :=
  let k := mmaK d
  let row (fmt a R : Nat) (mx : Bool) (r : Nat) : OpRow :=
    { es := s.tileRow p i fmt a R k r, scales := if mx then some (s.scaleRow p i fmt a R k r) else none }
  ((List.range (mmaM d)).map (row (mmaAFmt d) (mmaA d) (mmaM d) (mmaMxA d)),
   (List.range (mmaN d)).map (row (mmaBFmt d) (mmaB d) (mmaN d) (mmaMxB d)))

/-- A context with its slot words at hand. -/
structure Acc where
  ctx : Ctx
  words : List W64

/-- One tile operation folded into a context (R152). -/
def State.mmaStep (s : State) (p i : Nat) (d : Bytes) (seed : Nat) (x : Acc) : Acc :=
  let c := x.ctx
  let e : MmaEnv := { ftz := s.effFtz i (mmaFtz d), sr := s.effSr i (mmaSr d), seed := seed }
  let ab := s.mmaRows p i d
  let rows := List.zip (List.range ab.1.length) ab.1
  let cols := List.zip (List.range ab.2.length) ab.2
  let cells := rows.flatMap (fun r => cols.map (fun q => (r, q)))
  let res := List.zipWith (fun cell w => mmaElement d e c cell.1.1 cell.2.1 cell.1.2 cell.2.2 w) cells x.words
  { ctx := { c.countProducts (mmaProducts d) with
      sat := c.sat || (decide (mmaMode d = 1) && res.any (·.2))
      nseg := (c.nseg + mmaFolds d c) % 2 ^ 32
      chain := c.chain ++ [(d, seed)] }
    words := res.map (·.1) }

/-- The context that a SINGLE or FIRST opens on core `i` (R150, R151). -/
def State.openCtx (s : State) (i : Nat) (o : Op) : Ctx :=
  let pol := s.regN (aCoreAccPolicy (i / 9) (i % 9))
  let d := o.desc
  { part := o.part, mode := mmaMode d, fmt := mmaFmt d, m := mmaM d, n := mmaN d, sr := mmaSr d,
    round := mmaRound d, satFinite := mmaSat d, ftz := mmaFtz d, fpLog2 := bits pol 12 8,
    intLog2 := bits pol 20 16, spillOff := bit pol 24, seed := o.seed }

/-- A context whose slot words have their initial values (R153). -/
def Ctx.fresh (c : Ctx) : Acc := { ctx := c, words := List.replicate (c.m * c.n) (slotInit c.mode) }

/-- An open context rebuilt by its chain so far, in chain order (R133). -/
def State.rebuild (s : State) (p i : Nat) (c : Ctx) : Acc :=
  let c0 : Ctx := { c with
    sat := false
    count := 0
    carry := false
    lapsed := false
    nseg := 0
    chain := []
    stale := false }
  c.chain.foldl (fun x e => s.mmaStep p i e.1 e.2 x) c0.fresh

/-- An open context in slot `n` of core `i`, its words as they stand there or rebuilt. -/
def State.accOf (s : State) (p i n : Nat) (c : Ctx) : Acc :=
  if c.stale then s.rebuild p i c else { ctx := c, words := s.ctxWords i n c.m c.n }

/-- The folds that a rebuilding performs. -/
def Ctx.rebuildFolds (c : Ctx) : Nat := if c.stale then (c.chain.map (fun e => mmaFolds e.1 c)).foldl (· + ·) 0 else 0

/-- The ranges that a rebuilding reads. -/
def Ctx.rebuildReads (c : Ctx) : List VRange :=
  if c.stale then c.chain.flatMap (fun e => namedReads e.1) else []

/-- CORE_SPILLS of core `i` counts `n` folds (R198). -/
def State.countFolds (s : State) (p i n : Nat) : State :=
  let a := aCoreSpillsLo (i / 9) (i % 9)
  (s.setPair a ((s.pair a + n) % 2 ^ 64)).prof (i / 9) p 0x03 n

/-! ### The final conversion (R98 to R101, R153) -/

/-- One element of D from its slot word: its bits and whether a clamp changed it. -/
def convertWord (mode dfmt round : Nat) (sat ftz : Bool) (u : Nat) (w : W64) : Nat × Bool :=
  match mode with
  | 0 =>
    match floatFmt dfmt with
    | some f => (flConvert f round sat ftz u (flDecode fp32 (flRound fp32 .rne (flDecode fp64 w.toNat))), false)
    | none => (0, false)
  | 1 => let r := clamp32 w.toInt; (unsgn 32 r.1, r.2)
  | _ => (w.toNat % 2 ^ fmtBits dfmt, false)

/-- The bytes of a D tile and whether anything clamped (R92). -/
def convertTile (mode dfmt round : Nat) (sat ftz : Bool) (seed segment m n : Nat) (ws : List W64) : Bytes × Bool :=
  let cells := (List.range m).flatMap (fun i => (List.range n).map (fun j => (i, j)))
  let es := List.zipWith (fun c w => convertWord mode dfmt round sat ftz
    (philox seed (c.1 * 128 + c.2) segment 0 1 0) w) cells ws
  let w := fmtBits dfmt
  let rows := (chunks n (es.map (·.1))).map (pack w (pitchBits (n * w)))
  (rows.flatten, es.any (·.2))

/-! ### MMA -/

/-- Slots of the core's split (R148). -/
def State.ctxSlots (s : State) (i : Nat) : Nat := bits (s.regN (aCoreScratchSplit (i / 9) (i % 9))) 23 16 / 2

/-- The fields of an operation agree with those of its context (R129). -/
def ctxAgrees (c : Ctx) (d : Bytes) : Bool :=
  decide (c.m = mmaM d) && decide (c.n = mmaN d) && decide (c.fmt = mmaFmt d) && decide (c.mode = mmaMode d) &&
  decide (c.sr = mmaSr d) && decide (c.round = mmaRound d) && decide (c.satFinite = mmaSat d) && decide (c.ftz = mmaFtz d)

/-- The context of partition `p` that is open in slot `n` of logical core `l`. -/
def State.openCtxOf (s : State) (p l n : Nat) : Option Ctx := (s.ctxOf l n).filter (fun c => c.part == p)

/-- An operation continues an open context: a MIDDLE, a LAST or an ACC_EXPORT. -/
def continues (d : Bytes) : Bool := isChainOp d && decide (mmaChain d ≠ 1 ∨ dOpcode d = 0x0101)

/-- An operation of the same chain was admitted before `o` and has not run yet: it is the one admitted just before, or
one later than it is, and `o` cannot name it and run (R131, R217). -/
def State.overtaken (s : State) (o : Op) : Bool :=
  (s.ops.takeWhile (fun q => !(q.part == o.part && q.tag == o.tag))).any (fun q =>
    q.part == o.part && q.core == o.core && continues q.desc && (contCtx q.desc == contCtx o.desc) &&
    (decide (q.stage = .waiting) || decide (q.stage = .running)))

/-- A case of R131, which leaves the context unchanged. -/
def State.chainMalformed (s : State) (o : Op) : Bool :=
  let n := bits (le o.desc 0x3C 4) 3 0
  match s.openCtxOf o.part o.core n with
  | none => decide (dOpcode o.desc = 0x0101) || decide (2 ≤ mmaChain o.desc)
  | some c =>
    if dOpcode o.desc = 0x0101 then !(dDeps o.desc).contains c.lastTag || s.overtaken o
    else if mmaChain o.desc ≤ 1 then true
    else !ctxAgrees c o.desc || !(dDeps o.desc).contains c.lastTag || s.overtaken o

/-- The flags of an MMA (R139, R180). -/
def mmaFlags (mode chain : Nat) (sat lapsed : Bool) : Nat :=
  (if mode = 1 ∧ sat then flSat else 0) + (if mode = 0 ∧ (chain = 0 ∨ chain = 3) ∧ lapsed then flLapsed else 0)

/-- The flags that the open context of an operation gives its completion (R139, R180, 04 R190). -/
def State.ctxFlags (s : State) (o : Op) : Nat :=
  match s.openCtxOf o.part o.core (bits (le o.desc 0x3C 4) 3 0) with
  | some c => if isChainOp o.desc then mmaFlags c.mode (if dOpcode o.desc = 0x0101 then 3 else mmaChain o.desc) c.sat c.lapsed else 0
  | none => 0

/-- An operation of a chain that fails after R131 has passed closes its context (R132). Its flags are the context's. -/
def State.failChain (s : State) (o : Op) (i status : Nat) : State :=
  let n := bits (le o.desc 0x3C 4) 3 0
  let t := s.endOpCycles o.part o.tag status (s.ctxFlags o)
  if isChainOp o.desc && (s.openCtxOf o.part o.core n).isSome then t.setCtx i n none else t

/-- The statuses of an MMA before it runs (R138): NOT_PERMITTED before MALFORMED, as R26 orders them. D_ADDR of a
FIRST or a MIDDLE is held to the same rules although it writes no D (log entry 145). -/
def State.mmaRefusal (s : State) (o : Op) (i : Nat) : Option Nat :=
  let d := o.desc
  let fieldsOk := mmaFieldsOk d && decide (mmaCtx d < s.ctxSlots i)
  if s.scratchDenied i [mmaA d, mmaB d, mmaD d] then some stNotPermitted
  else if !(fieldsOk && s.addrOk i (mmaA d) (operandBytes (mmaAFmt d) (mmaMxA d) (mmaA d) (mmaM d) (mmaK d)) &&
      s.addrOk i (mmaB d) (operandBytes (mmaBFmt d) (mmaMxB d) (mmaB d) (mmaN d) (mmaK d)) &&
      s.addrOk i (mmaD d) (mmaDBytes d)) then some stMalformed
  else none

/-! ### The operand registers (R107, R114, R115) -/

/-- K-steps of a chunk for operands of a format (R107). -/
def chunkSteps (fmt : Nat) : Nat := if fmt = 0 ∨ fmt = 7 then 512 else if fmt = 5 ∨ fmt = 6 then 128 else 256

/-- The operand rows of each pass: one pass, or in ring mode one for each pair of limbs, by ascending `i + j` and then
ascending `i` (R114, R115). -/
def mmaPasses (fmt : Nat) (a b : List OpRow) : List (List OpRow × List OpRow) :=
  if isRing fmt then
    let limb (n : Nat) (rows : List OpRow) : List OpRow := rows.map (fun r => { es := r.es.map (fun x => bits x (8 * n + 7) (8 * n)) })
    (List.range (fmtBits fmt / 8)).flatMap (fun sum => (List.range (sum + 1)).map (fun i => (limb i a, limb (sum - i) b)))
  else [(a, b)]

/-- The banks after an operation: its chunks fill them in turn, beginning with bank 0 (R107 to R109). -/
def mmaBanks (d : Bytes) (a b : List OpRow) (old : OpBank × OpBank) : OpBank × OpBank :=
  let n := min (chunkSteps (mmaAFmt d)) (chunkSteps (mmaBFmt d))
  let es (q : Nat) (rows : List OpRow) : List (List Nat) := rows.map (fun r => (r.es.drop (q * n)).take n)
  let sc (q : Nat) (rows : List OpRow) : List (List Nat) := rows.filterMap (fun r => r.scales.map (fun l => (l.drop (q * n / 32)).take (n / 32)))
  let banks : List OpBank := (mmaPasses (mmaAFmt d) a b).flatMap (fun x => (List.range (ceilDiv (mmaK d) n)).map (fun q =>
    { a := es q x.1, b := es q x.2, aScales := sc q x.1, bScales := sc q x.2 }))
  banks.foldl (fun (t : OpBank × OpBank × Bool) x => if t.2.2 then (t.1, x, false) else (x, t.2.1, true)) (old.1, old.2, false) |>
    (fun t => (t.1, t.2.1))

/-- An operand tile as the transfer engine stages it: rows at the pitch of R91 with the scale plane after them, a ring
operand in limb planes (R93). -/
def stagedTile (fmt k : Nat) (rows : List OpRow) : Bytes :=
  let w := fmtBits fmt
  if isRing fmt then
    ((List.range (w / 8)).map (fun l => (rows.map (fun r =>
      fit (ceilDiv k 64 * 64) (r.es.map (fun x => BitVec.ofNat 8 (x / 256 ^ l))))).flatten)).flatten
  else (rows.map (fun r => pack w (pitchBits (k * w)) r.es)).flatten ++
    (rows.map (fun r => ((r.scales).map (pack 8 (pitchBits (k / 32 * 8)))).getD [])).flatten

/-- What a tile operation leaves in staging, in the operand registers and in the shadow registers of its core. -/
def State.mmaTrace (s : State) (p i : Nat) (d : Bytes) (words : List W64) : State :=
  let ab := s.mmaRows p i d
  let t := (s.stageIf i (mmaA d) (stagedTile (mmaAFmt d) (mmaK d) ab.1)).stageIf i (mmaB d) (stagedTile (mmaBFmt d) (mmaK d) ab.2)
  t.modCore i (fun c =>
    let bk := mmaBanks d ab.1 ab.2 (c.bank0, c.bank1)
    { c with bank0 := bk.1, bank1 := bk.2, shadow := words })

/-- The context before an MMA runs on core `i`: the open one, or that of a SINGLE or FIRST. -/
def State.mmaBefore (s : State) (o : Op) (i : Nat) : Acc :=
  match s.openCtxOf o.part o.core (mmaCtx o.desc) with
  | some c => s.accOf o.part i (mmaCtx o.desc) c
  | none => (s.openCtx i o).fresh

/-- The context after it. -/
def State.mmaAfter (s : State) (o : Op) (i : Nat) : Acc := s.mmaStep o.part i o.desc o.seed (s.mmaBefore o i)

/-- The D tile of a SINGLE or LAST, and whether its conversion clamped. -/
def State.mmaTile (s : State) (o : Op) (i : Nat) : Bytes × Bool :=
  let d := o.desc
  let x := s.mmaAfter o i
  convertTile x.ctx.mode (mmaDFmt d) (s.effRound i (mmaRound d)) (mmaSat d) (s.effFtz i (mmaFtz d)) o.seed
    (mmaSegment d) x.ctx.m x.ctx.n x.words

/-- The work of an MMA on core `i`, its operands at hand (R128, R152). -/
def State.mmaWork (o : Op) (i : Nat) (s : State) : State :=
  let d := o.desc
  let n := mmaCtx d
  let ch := mmaChain d
  let x := s.mmaAfter o i
  let c := x.ctx
  let folds := (((s.openCtxOf o.part o.core n).map Ctx.rebuildFolds).getD 0) + mmaFolds d (s.mmaBefore o i).ctx
  let s1 := ((s.mmaTrace o.part i d x.words).countFolds o.part i folds).putCtxWords i n c.n x.words
  if ch = 0 ∨ ch = 3 then
    let r := s.mmaTile o i
    let s2 := if ch = 3 then s1.setCtx i n (some c) else s1
    (s2.resultTile o i (mmaD d) r.1).endOpCycles o.part o.tag stDone (mmaFlags c.mode ch (c.sat || r.2) c.lapsed)
  else (s1.setCtx i n (some c)).endOpCycles o.part o.tag stDone (mmaFlags c.mode ch c.sat c.lapsed)

/-- The first lines of D, written before an error in the drain (R140). -/
def State.mmaPart (o : Op) (i w : Nat) (s : State) : State :=
  if mmaWritesD o.desc then s.result o i (mmaD o.desc) ((s.mmaTile o i).1.take (64 * w)) else s

/-- What follows a preparation for an operation of a chain. -/
def Prep.finishChain (r : Prep) (o : Op) (i : Nat) (work : State → State) : State :=
  match r with
  | .ok t => work t
  | .wait t => t
  | .fail t st => t.failChain o i st

/-- MMA on its physical core. A case of R131 is judged first, since it leaves the context unchanged (log entry 129). -/
def State.mmaOn (s : State) (o : Op) (i : Nat) (err : ScratchErr) : State :=
  if s.chainMalformed o then s.endOpCycles o.part o.tag stMalformed 0
  else match s.mmaRefusal o i with
  | some st => s.failChain o i st
  | none =>
    let more := ((s.openCtxOf o.part o.core (mmaCtx o.desc)).map Ctx.rebuildReads).getD []
    (s.prepare o (more ++ namedReads o.desc) (namedWrites o.desc) 0 noWhole).finishChain o i (fun t =>
      t.withErr i err (State.mmaWork o i) (State.mmaPart o i) (fun u => u.failChain o i stUncorrectable))

/-- The physical core of a core operation that runs. -/
def State.onCore (s : State) (o : Op) (body : Nat → State) : State :=
  match s.physOf o.core with
  | some i => body i
  | none => s

/-- MMA (R124). -/
def execMma (p : Fin 16) (tag : Fin 4096) (err : ScratchErr) (s : State) : Host.Outcome State Fault Refusal :=
  .next (s.runOp p tag 0x0100 (fun o => s.onCore o (fun i => s.mmaOn o i err)))

/-! ### ACC_EXPORT (R183, R184, R190) -/

/-- The header of a partial record (R184). -/
def partialHeader (c : Ctx) : Bytes :=
  toLE 1 c.mode ++ toLE 1 (c.m - 1) ++ toLE 1 (c.n - 1) ++
  toLE 1 (b2n c.sat + 2 * b2n c.lapsed + 4 * b2n c.carry + 8 * b2n c.sr + 16 * b2n c.spillOff) ++
  toLE 2 (putBits c.fmt 11 8 0) ++ zeros 2 ++ toLE 4 c.count ++ toLE 4 c.nseg ++ toLE 8 c.seed ++ zeros 40

/-- A partial record (R184). -/
def partialRecord (x : Acc) : Bytes :=
  partialHeader x.ctx ++ ((chunks x.ctx.n x.words).map (fun r => pack 64 (pitchBits (64 * x.ctx.n)) (r.map (·.toNat)))).flatten

/-- The work of an ACC_EXPORT. -/
def State.exportWork (o : Op) (i : Nat) (s : State) : State :=
  let d := o.desc
  let n := bits (le d 0x3C 4) 3 0
  match s.openCtxOf o.part o.core n with
  | none => s
  | some c0 =>
    let x := s.accOf o.part i n c0
    let c := x.ctx
    let t := ((s.countFolds o.part i c0.rebuildFolds).putCtxWords i n c.n x.words).setCtx i n (some { c with chain := c.chain ++ [(d, o.seed)] })
    (t.result o i (expAddr d) (partialRecord x)).endOpCycles o.part o.tag stDone
      ((if c.mode = 1 ∧ c.sat then flSat else 0) + (if c.mode = 0 ∧ c.lapsed then flLapsed else 0))

/-- The first lines of a partial record, written before an error (R140). -/
def State.exportPart (o : Op) (i w : Nat) (s : State) : State :=
  let n := bits (le o.desc 0x3C 4) 3 0
  match s.openCtxOf o.part o.core n with
  | none => s
  | some c => s.result o i (expAddr o.desc) ((partialRecord (s.accOf o.part i n c)).take (64 * w))

/-- ACC_EXPORT on its physical core. A context beyond the slots of the split in force has no slot (log entry 127). -/
def State.exportOn (s : State) (o : Op) (i : Nat) (err : ScratchErr) : State :=
  let d := o.desc
  let a := expAddr d
  match s.openCtxOf o.part o.core (bits (le d 0x3C 4) 3 0) with
  | none => s.endOpCycles o.part o.tag stMalformed 0
  | some c =>
    if s.chainMalformed o then s.endOpCycles o.part o.tag stMalformed (s.ctxFlags o)
    else if s.scratchDenied i [a] then s.failChain o i stNotPermitted
    else if !(allZero (slice d 0x20 28) && decide (le d 0x3C 4 < s.ctxSlots i) && decide (le d 0x3C 4 < 16) && s.addrOk i a (partialBytes c.m c.n)) then
      s.failChain o i stMalformed
    else
      (s.prepare o c.rebuildReads (tenantOnly [(a, partialBytes c.m c.n)]) 0 noWhole).finishChain o i (fun t =>
        t.withErr i err (State.exportWork o i) (State.exportPart o i) (fun u => u.failChain o i stUncorrectable))

/-- ACC_EXPORT (R183). -/
def execAccExport (p : Fin 16) (tag : Fin 4096) (err : ScratchErr) (s : State) : Host.Outcome State Fault Refusal :=
  .next (s.runOp p tag 0x0101 (fun o => s.onCore o (fun i => s.exportOn o i err)))

/-! ### ACC_SETTLE (R185 to R189) -/

/-- The reserved and zero fields of an ACC_SETTLE body, PARTS_LOG2, ROUND and P_STRIDE (R185, R98). -/
def settleFieldsOk (d : Bytes) : Bool :=
  decide (1 ≤ setLog2 d) && decide (setLog2 d ≤ 3) && decide (le d 0x2D 1 = 0) && decide (setCtrl d < 2 ^ 14) &&
  decide (setCtrl d % 64 = 0) && decide (setRound d ≠ 3) && decide (setStride d % 64 = 0) &&
  decide (fmtBits (setDFmt d) ≠ 0) && allZero (slice d 0x34 12)

/-- The fields of a partial record's header in which the records may not differ (R186). -/
def headerKey (h : Bytes) : Bytes :=
  h.take 3 ++ [BitVec.ofNat 8 (putBits (le h 3 1) 2 0 0)] ++ slice h 4 4 ++ slice h 0x10 48

/-- The headers agree with one another and with the D format (R185, R186). -/
def settleOk (d : Bytes) (hs : List Bytes) : Bool :=
  match hs with
  | [] => false
  | h :: rest =>
    let fmt := le h 4 2
    let m := le h 1 1 + 1
    let n := le h 2 1 + 1
    rest.all (fun x => headerKey x == headerKey h) && decide (m ≤ 128) && decide (n ≤ 128) &&
    decide (partialBytes m n ≤ setStride d) &&
    mmaCombo (bits fmt 3 0) (bits fmt 7 4) (le h 0 1) (setDFmt d) (bit (le h 3 1) 3)

/-- The slot words of a record's body. -/
def State.recordWords (s : State) (p i a m n : Nat) : List W64 :=
  (List.range m).flatMap (fun r => (unpack 64 n (s.operand p i (a + 64 + r * pitchBits (64 * n)) (8 * n))).map (BitVec.ofNat 64))

/-- Parts folded into a first one, word by word, with the clamps (R187). -/
def settleFold (mode : Nat) (a b : List W64 × Bool) : List W64 × Bool :=
  let r := List.zipWith (slotFold mode false) a.1 b.1
  (r.map (·.1), a.2 || b.2 || (decide (mode = 1) && r.any (·.2)))

/-- The combined slot words of the records whose headers are given, and whether a part or a fold clamped (R187). -/
def State.settleSum (s : State) (o : Op) (i : Nat) (hs : List Bytes) : List W64 × Bool :=
  let d := o.desc
  let h := hs.headD []
  let m := le h 1 1 + 1
  let n := le h 2 1 + 1
  let parts := (List.zip (List.range hs.length) hs).map (fun x =>
    (s.recordWords o.part i (setBase d + x.1 * setStride d) m n, bit (le x.2 3 1) 0))
  match parts with
  | [] => ([], false)
  | x :: xs => xs.foldl (settleFold (le h 0 1)) x

/-- Its D tile, and whether the conversion clamped. -/
def State.settleTile (s : State) (o : Op) (i : Nat) (hs : List Bytes) : Bytes × Bool :=
  let d := o.desc
  let h := hs.headD []
  convertTile (le h 0 1) (setDFmt d) (s.effRound i (setRound d)) (setSat d) (s.effFtz i (setFtz d)) o.seed
    (setSegment d) (le h 1 1 + 1) (le h 2 1 + 1) (s.settleSum o i hs).1

/-- The combination of the records whose headers are given. -/
def State.settleWork (o : Op) (i : Nat) (hs : List Bytes) (s : State) : State :=
  let d := o.desc
  let mode := le (hs.headD []) 0 1
  let total := (hs.map (fun x => le x 8 4 + 2 ^ 32 * b2n (bit (le x 3 1) 2))).foldl (· + ·) 0
  let lapsed := hs.any (fun x => bit (le x 3 1) 1) || decide (2 ^ 32 < total)
  let r := s.settleTile o i hs
  let recs := (List.range hs.length).map (fun k => s.operand o.part i (setBase d + k * setStride d)
    (partialBytes (le (hs.headD []) 1 1 + 1) (le (hs.headD []) 2 1 + 1)))
  (((s.stageIf i (setBase d) recs.flatten).countFolds o.part i hs.length).resultTile o i (setD d) r.1).endOpCycles o.part o.tag stDone
    ((if mode = 1 ∧ ((s.settleSum o i hs).2 || r.2) then flSat else 0) + (if mode = 0 ∧ lapsed then flLapsed else 0))

/-- ACC_SETTLE once the headers of its records can be read. -/
def State.settleRead (o : Op) (i : Nat) (err : ScratchErr) (s : State) : State :=
  let d := o.desc
  let hs := (List.range (setParts d)).map (fun k => s.operand o.part i (setBase d + k * setStride d) 64)
  let m := le (hs.headD []) 1 1 + 1
  let n := le (hs.headD []) 2 1 + 1
  let dBytes := tileBytes (setDFmt d) false m n
  if !(settleOk d hs && s.addrOk i (setBase d) ((setParts d - 1) * setStride d + partialBytes m n) &&
      s.addrOk i (setD d) dBytes) then s.endOpCycles o.part o.tag stMalformed 0
  else
    let reads := tenantOnly ((List.range (setParts d)).map (fun k => (setBase d + k * setStride d, partialBytes m n)))
    (s.prepare o reads (tenantOnly [(setD d, dBytes)]) 0 noWhole).finish o (fun t =>
      t.withErr i err (State.settleWork o i hs)
        (fun w u => u.result o i (setD d) ((u.settleTile o i hs).1.take (64 * w)))
        (fun u => u.endOpCycles o.part o.tag stUncorrectable 0))

/-- ACC_SETTLE on the core that the scheduler chose (R188). -/
def State.settleOn (s : State) (o : Op) (i : Nat) (err : ScratchErr) : State :=
  let d := o.desc
  if s.scratchDenied i [setBase d, setD d] then s.endOpCycles o.part o.tag stNotPermitted 0
  else if !(settleFieldsOk d && s.addrOk i (setBase d) ((setParts d - 1) * setStride d + 64) && decide (setD d % 64 = 0)) then
    s.endOpCycles o.part o.tag stMalformed 0
  else (s.prepare o (namedReads d) [] 0 noWhole).finish o (State.settleRead o i err)

/-- ACC_SETTLE (R187). -/
def execAccSettle (p : Fin 16) (tag : Fin 4096) (err : ScratchErr) (s : State) : Host.Outcome State Fault Refusal :=
  .next (s.runOp p tag 0x0102 (fun o => s.onCore o (fun i => s.settleOn o i err)))

end Sys2Proof.Machine
end

