-- ==== Sys2Proof/Machine/Spdm.lean ====
section
/-!
DEFINITION. Machine/Spdm.lean: DOE, SPDM and MCTP (14_host R591 to R594, 17_tenants R686). The manual names
the DMTF standards and does not restate them; the layouts are those of DSP0274 1.3, DSP0277, DSP0236 and
the PCI Express TDISP and IDE_KM messages (log entry 64).
-/
namespace Sys2Proof.Machine

/-! ### DOE (R591) -/

/-- DOE_DISCOVERY: protocol 0 is DOE Discovery, 1 CMA/SPDM, 2 Secured CMA/SPDM. -/
def doeEntry (i : Nat) : Bytes :=
  if i < 3 then toLE 2 0x0001 ++ toLE 1 i ++ toLE 1 (if i = 2 then 0 else i + 1) else toLE 2 0xFFFF ++ zeros 2

/-- DOE_DISCOVERY (R591). -/
def execDoeDiscovery (f : Fin 64) (index : Byte) (s : State) : Host.Outcome State Fault Refusal :=
  .next (if s.configRetry then s else s.emit (.doe f (doeEntry index.toNat)))

/-! ### Responses and errors -/

/-- The head of an SPDM 1.3 message. -/
def spdmHead (code p1 p2 : Nat) : Bytes := toLE 1 0x13 ++ toLE 1 code ++ toLE 1 p1 ++ toLE 1 p2

/-- An SPDM ERROR. -/
def spdmError (code : Nat) : Bytes := spdmHead 0x7F code 0

def seInvalid : Nat := 0x01
def seSession : Nat := 0x02
def seUnexpected : Nat := 0x04
def seUnspecified : Nat := 0x05
def seDecrypt : Nat := 0x06
def seUnsupported : Nat := 0x07
def seVersion : Nat := 0x41

/-- A response of connection `f` as it leaves: from the DOE instance of function `f`, or for 64 over MCTP on PCI Express and
for 65 on I3C (R591, R593). -/
def spdmOut (f : Nat) (b : Bytes) : Out := if f < 64 then .doe f b else .mctp (decide (f = 65)) (5 :: b)

/-- A response of connection `f`. -/
def State.spdmSend (s : State) (f : Nat) (b : Bytes) : State := s.emit (spdmOut f b)

/-- A request of the code given is answered: not while configuration requests are retried; with an ERROR in
tamper hold (R687) or where its version is another; else by `body`, which gives the response. -/
def State.spdm (s : State) (f : Nat) (msg : Bytes) (code version : Nat) (body : State → Bytes × State) : State :=
  if s.configRetry ∨ le msg 1 1 ≠ code then s
  else if s.tamperHold then s.spdmSend f (spdmError seUnspecified)
  else if le msg 0 1 ≠ version then s.spdmSend f (spdmError seVersion)
  else
    let r := body s
    r.2.spdmSend f r.1

/-- A response that needs the alias key: before it exists there is none to sign with (17 R687). -/
def State.withAlias (s : State) (body : Nat → Bytes × State) : Bytes × State :=
  match s.sbox.alias_ with
  | some d => body d
  | none => (spdmError seUnspecified, s)

/-- A request out of order. -/
def unexpected (s : State) : Bytes × State := (spdmError seUnexpected, s)

/-! ### The connection (R592) -/

/-- GET_VERSION (R592): it begins the connection anew. -/
def State.spdmVersion (s : State) (f : Nat) (msg : Bytes) : Bytes × State :=
  let r := toLE 1 0x10 ++ [(0x04 : Byte), 0, 0, 0, 1] ++ toLE 2 0x1300
  (r, s.modFunc f (fun x => { x with conn := 1, vca := msg.take 4 ++ r, msgB := [], msgL := [], sessions := [] }))

/-- The capability flags: CERT, CHAL, MEAS with signature, ENCRYPT, MAC, KEY_EX, HBEAT and KEY_UPD. -/
def spdmFlags : Nat := 2 + 4 + 0x10 + 0x40 + 0x80 + 0x200 + 0x2000 + 0x4000

/-- GET_CAPABILITIES (R592). -/
def State.spdmCapabilities (s : State) (f : Nat) (msg : Bytes) : Bytes × State :=
  if (s.func f).conn ≠ 1 then unexpected s
  else if msg.length < 20 then (spdmError seInvalid, s)
  else
    let r := spdmHead 0x61 0 0 ++ [0, BitVec.ofNat 8 Config.spdmTime.toNat, 0, 0] ++ toLE 4 spdmFlags ++
      toLE 4 Config.spdmTransfer.toNat ++ toLE 4 Config.spdmMessage.toNat
    (r, s.modFunc f (fun x => { x with conn := 2, vca := x.vca ++ msg ++ r }))

/-- What the requester offers for one algorithm type, with fuel for the structures. -/
def offered (ty : Nat) : Nat → Bytes → Nat
  | 0, _ => 0
  | n + 1, b =>
    if le b 0 1 = ty then le b 2 2 else offered ty n (b.drop (4 + 4 * (le b 1 1 % 16)))

/-- NEGOTIATE_ALGORITHMS (R592): ECDSA P-256, SHA-256, DHE secp256r1 and AES-256-GCM. -/
def State.spdmAlgorithms (s : State) (f : Nat) (msg : Bytes) : Bytes × State :=
  if (s.func f).conn ≠ 2 then unexpected s
  else if msg.length < 32 then (spdmError seInvalid, s)
  else
    let n := le msg 2 1
    let alg := msg.drop (32 + 4 * (le msg 28 1 + le msg 29 1))
    let pick (ty bitOf : Nat) : Nat := offered ty n alg &&& bitOf
    let asym := le msg 8 4 &&& 0x10
    let hash := le msg 12 4 &&& 1
    let one (ty v : Nat) : Bytes := toLE 1 ty ++ toLE 1 0x20 ++ toLE 2 v
    let structs := one 2 (pick 2 8) ++ one 3 (pick 3 2) ++ one 5 (pick 5 1)
    let r := spdmHead 0x63 3 0 ++ toLE 2 (36 + structs.length) ++ toLE 1 (le msg 6 1 % 2) ++ toLE 1 (le msg 7 1 &&& 2) ++
      toLE 4 2 ++ toLE 4 asym ++ toLE 4 hash ++ zeros 16 ++ structs
    (r, s.modFunc f (fun x => { x with conn := if asym = 0 ∨ hash = 0 then 2 else 3, vca := x.vca ++ msg ++ r }))

/-! ### Certificates (R592) -/

/-- Certificate slot 0: from the Lotil root to the identity key and on to the alias key. -/
def State.spdmChain (s : State) : Bytes :=
  let cs := Config.rootCert ++ s.certs
  toLE 2 (36 + cs.length) ++ zeros 2 ++ sha256 Config.rootCert ++ cs

/-- GET_DIGESTS (R592). -/
def State.spdmDigests (s : State) (f : Nat) (msg : Bytes) : Bytes × State :=
  if (s.func f).conn < 3 then unexpected s
  else
    let r := spdmHead 0x01 1 1 ++ sha256 s.spdmChain
    (r, s.modFunc f (fun x => { x with msgB := x.msgB ++ msg ++ r }))

/-- GET_CERTIFICATE (R592). -/
def State.spdmCertificate (s : State) (f : Nat) (msg : Bytes) : Bytes × State :=
  let off := le msg 4 2
  let chain := s.spdmChain
  if (s.func f).conn < 3 then unexpected s
  else if le msg 2 1 % 16 ≠ 0 ∨ chain.length ≤ off then (spdmError seInvalid, s)
  else
    let part := slice chain off (le msg 6 2)
    let r := spdmHead 0x02 0 0 ++ toLE 2 part.length ++ toLE 2 (chain.length - off - part.length) ++ part
    (r, s.modFunc f (fun x => { x with msgB := x.msgB ++ msg ++ r }))

/-! ### Signed responses -/

/-- The signature of the alias key over a transcript, in the context given. -/
def spdmSign (key : Nat) (context : String) (transcript : Bytes) : Bytes :=
  let c := ascii context
  let head := ascii "dmtf-spdm-v1.3.*dmtf-spdm-v1.3.*dmtf-spdm-v1.3.*dmtf-spdm-v1.3.*"
  ecdsaSign key (sha256 (head ++ zeros (36 - c.length) ++ c ++ sha256 transcript))

/-- The partition that a connection answers for: that of the function, and over MCTP partition 0 (R592, R593). -/
def State.measuredPart (s : State) (f : Nat) : Nat := if f < 64 then (s.partOfFunc f).getD 16 else 0

/-- The DMTF value type of a block (R686). -/
def blockType (d : Nat) : Nat := if d = 0 then 0 else if d ≤ 5 then 1 else if d ≤ 7 then 3 else 0x82

/-- Block `d` as a measurement block of index `d + 1` (R686). -/
def State.measurement (s : State) (p d : Nat) : Bytes :=
  let v := s.block p d
  toLE 1 (d + 1) ++ toLE 1 1 ++ toLE 2 (3 + v.length) ++ toLE 1 (blockType d) ++ toLE 2 v.length ++ v

/-- The measurement summary hash of a request: of all blocks for 0xFF, of blocks 0 to 5 for 1. -/
def State.summary (s : State) (f kind : Nat) : Bytes :=
  let p := s.measuredPart f
  if kind = 0xFF then sha256 ((List.range 11).flatMap (s.measurement p))
  else if kind = 1 then sha256 ((List.range 6).flatMap (s.measurement p))
  else []

/-- CHALLENGE (R592): it never waits for random numbers; its nonce is open (log entry 64). -/
def State.spdmChallenge (s : State) (f : Nat) (msg : Bytes) : Bytes × State :=
  if (s.func f).conn < 3 then unexpected s
  else if le msg 2 1 % 16 ≠ 0 ∨ msg.length < 44 then (spdmError seInvalid, s)
  else s.withAlias (fun key =>
    let n := State.freeBytes 4 s
    let r := spdmHead 0x03 0 1 ++ sha256 s.spdmChain ++ n.1 ++ s.summary f (le msg 3 1) ++ toLE 2 0 ++ slice msg 36 8
    let t := (s.func f).vca ++ (s.func f).msgB ++ msg ++ r
    (r ++ spdmSign key "responder-challenge_auth signing" t,
     n.2.modFunc f (fun x => { x with msgB := [], msgL := [] })))

/-- GET_MEASUREMENTS (R592, R686). -/
def State.spdmMeasurements (s : State) (f : Nat) (msg : Bytes) : Bytes × State :=
  let wantSig := le msg 2 1 % 2 = 1
  let op := le msg 3 1
  let p := s.measuredPart f
  let ds := if op = 0 then [] else if op = 0xFF then List.range 11 else [op - 1]
  let context := slice msg (if wantSig then 37 else 4) 8
  if (s.func f).conn < 3 then unexpected s
  else if (11 < op ∧ op ≠ 0xFF) ∨ msg.length < (if wantSig then 45 else 12) then (spdmError seInvalid, s)
  else s.withAlias (fun key =>
    let n := State.freeBytes 4 s
    let rec_ := ds.flatMap (s.measurement p)
    let r := spdmHead 0x60 (if op = 0 then 11 else 0) 0 ++ toLE 1 ds.length ++ toLE 3 rec_.length ++ rec_ ++ n.1 ++ toLE 2 0 ++
      context
    let l := (s.func f).msgL ++ msg ++ r
    if wantSig then
      (r ++ spdmSign key "responder-measurements signing" ((s.func f).vca ++ l), n.2.modFunc f (fun x => { x with msgL := [] }))
    else (r, n.2.modFunc f (fun x => { x with msgL := l })))

/-! ### Sessions (R592, 16 R663) -/

/-- The label block of the SPDM key schedule. -/
def spdmLabel (n : Nat) (label : String) (context : Bytes) : Bytes := toLE 2 n ++ ascii "spdm1.3 " ++ ascii label ++ context

/-- The finished key of a direction of the handshake. -/
def finishedKey (secret : Bytes) (dir : String) (th : Bytes) : Bytes :=
  hkdfExpand (hkdfExpand secret (spdmLabel 32 dir th) 32) (spdmLabel 32 "finished" []) 32

/-- The response to KEY_EXCHANGE with 64 random bytes: 32 for the ephemeral key and 32 of random data. -/
def State.kexReply (s : State) (f : Nat) (msg rnd : Bytes) : Bytes × State :=
  s.withAlias (fun key =>
    let d := beNat (rnd.take 32) % (p256N - 1) + 1
    match ecdh d (slice msg 40 64) with
    | none => (spdmError seInvalid, s)
    | some z =>
      let x := s.func f
      let rsp := 1 + ((x.sessions.map (fun y => y.id / 65536)).foldl max 0)
      let opaqueData : Bytes := [1, 0, 0, 0, 0, 0, 4, 0, 1, 0, 0, 0x12]
      let head := spdmHead 0x64 0 0 ++ toLE 2 rsp ++ [0, 0] ++ slice rnd 32 32 ++ p256Public d ++ s.summary f (le msg 2 1) ++
        toLE 2 opaqueData.length ++ opaqueData
      let th0 := x.vca ++ sha256 s.spdmChain ++ msg ++ head
      let th1 := th0 ++ spdmSign key "responder-key_exchange_rsp signing" th0
      let secret := hkdfExtract (zeros 32) z
      let verify := hmac (finishedKey secret "rsp hs data" (sha256 th1)) (sha256 th1)
      let sess : SpdmSession :=
        { id := le msg 4 2 + 65536 * rsp, transcript := th1 ++ verify, handshakeSecret := secret, finished := sha256 th1 }
      (th1.drop (th0.length - head.length) ++ verify, s.modFunc f (fun y => { y with sessions := y.sessions ++ [sess] })))

/-- KEY_EXCHANGE (R592, 16 R663): it waits for the generator, and fails with it. -/
def State.keyExchange (s : State) (f : Nat) (msg : Bytes) : State :=
  if s.configRetry ∨ le msg 1 1 ≠ 0xE4 then s
  else if s.tamperHold then s.spdmSend f (spdmError seUnspecified)
  else if le msg 0 1 ≠ 0x13 then s.spdmSend f (spdmError seVersion)
  else if (s.func f).conn < 3 then s.spdmSend f (spdmError seUnexpected)
  else if le msg 3 1 % 16 ≠ 0 ∨ msg.length < 106 then s.spdmSend f (spdmError seInvalid)
  else if s.rngFailed then s.spdmSend f (spdmError seUnspecified)
  else if s.rngServes then
    let r := s.draw 64
    let q := r.2.kexReply f msg r.1
    q.2.spdmSend f q.1
  else s.rngWait (.sec (.keyExchange f msg))

/-- A request within a session; `hs` says whether the handshake phase takes it. -/
def State.inSession (s : State) (f sess : Nat) (hs : Bool) (body : SpdmSession → Bytes × State) : Bytes × State :=
  match (s.func f).sessions.find? (fun x => x.id == sess) with
  | none => (spdmError seSession, s)
  | some x => if x.established = hs then unexpected s else body x

/-- A session changed. -/
def State.modSession (s : State) (f sess : Nat) (g : SpdmSession → SpdmSession) : State :=
  s.modFunc f (fun x => { x with sessions := x.sessions.map (fun y => if y.id = sess then g y else y) })

/-- A session ended. -/
def State.dropSession (s : State) (f sess : Nat) : State :=
  s.modFunc f (fun x => { x with sessions := x.sessions.filter (fun y => decide (y.id ≠ sess)) })

/-- FINISH (R592). -/
def State.spdmFinish (s : State) (f sess : Nat) (msg : Bytes) : Bytes × State :=
  s.inSession f sess true (fun x =>
    let th := sha256 (x.transcript ++ msg.take 4)
    if slice msg 4 32 ≠ hmac (finishedKey x.handshakeSecret "req hs data" x.finished) th then
      (spdmError seDecrypt, s.dropSession f sess)
    else
      let r := spdmHead 0x65 0 0
      let t2 := x.transcript ++ msg.take 36 ++ r
      let master := hkdfExtract (hkdfExpand x.handshakeSecret (spdmLabel 32 "derived" []) 32) (zeros 32)
      (r, s.modSession f sess (fun y => { y with established := true, dataSecret := master, transcript := t2, finished := sha256 t2 })))

/-- HEARTBEAT (R592). -/
def State.spdmHeartbeat (s : State) (f sess : Nat) : Bytes × State := s.inSession f sess false (fun _ => (spdmHead 0x68 0 0, s))

/-- KEY_UPDATE (R592): 1 the requester's key, 2 both keys, 3 a check of the new key. -/
def State.spdmKeyUpdate (s : State) (f sess : Nat) (msg : Bytes) : Bytes × State :=
  s.inSession f sess false (fun _ =>
    let op := le msg 2 1
    if op = 0 ∨ 3 < op then (spdmError seInvalid, s)
    else
      (spdmHead 0x69 op (le msg 3 1), s.modSession f sess (fun y => { y with
        reqGen := y.reqGen + b2n (decide (op < 3)), rspGen := y.rspGen + b2n (decide (op = 2)) })))

/-- END_SESSION (R592). -/
def State.spdmEndSession (s : State) (f sess : Nat) : Bytes × State :=
  s.inSession f sess false (fun _ => (spdmHead 0x6C 0 0, s.dropSession f sess))

/-! ### TDISP and IDE_KM (R585, R588, R591) -/

/-- A TDISP response about the interface named in the request. -/
def tdispHead (code : Nat) (req : Bytes) : Bytes := [(0x10 : Byte)] ++ toLE 1 code ++ zeros 2 ++ slice req 4 12

/-- A TDISP ERROR. -/
def tdispError (code : Nat) (req : Bytes) : Bytes := tdispHead 0x7F req ++ toLE 4 code ++ zeros 4

/-- A TDISP request: what answers it, and the state after (R588). -/
def State.tdisp (s : State) (b : Bytes) : Bytes × State :=
  let f := le b 4 2 % 256
  let bad : Bytes × State := (tdispError 0x04 b, s)
  if le b 0 1 ≠ 0x10 then (tdispError 0x41 b, s)
  else if f = 0 ∨ 63 < f then (tdispError 0x101 b, s)
  else match le b 1 1 with
    | 0x81 => (tdispHead 0x01 b ++ [1, 0x10], s)
    | 0x83 =>
      let r := s.tdiLock f
      if r.1 then
        let n := State.freeBytes 4 r.2
        (tdispHead 0x03 b ++ n.1, n.2.modFunc f (fun x => { x with nonce := n.1 }))
      else bad
    | 0x85 => (tdispHead 0x05 b ++ toLE 1 (tdiCode (s.func f).tdi), s)
    | 0x86 =>
      if slice b 16 32 ≠ (s.func f).nonce then (tdispError 0x102 b, s)
      else
        let r := s.tdiStart f
        if r.1 then (tdispHead 0x06 b, r.2) else bad
    | 0x87 =>
      let r := s.tdiStop f
      if r.1 then (tdispHead 0x07 b, r.2) else bad
    | _ => (tdispError 0x07 b, s)

/-- An IDE_KM request: KEY_PROG, K_SET_GO and K_SET_STOP of a selective stream. -/
def State.ideKmMsg (s : State) (b : Bytes) : Bytes × State :=
  let i := le b 3 1 % 64
  match le b 0 1 with
  | 0x02 => ([(0x03 : Byte)] ++ slice b 1 6 ++ [0], { s with ideKeys := Tab.store (fun _ => 0) s.ideKeys i (leNat (slice b 7 32)) })
  | 0x04 => ([(0x06 : Byte)] ++ slice b 1 6, s.setIde i true)
  | 0x05 => ([(0x06 : Byte)] ++ slice b 1 6, s.setIde i false)
  | _ => ([], s)

/-- VENDOR_DEFINED_REQUEST (R592): IDE_KM and TDISP, on the PF's instance only (R591). -/
def State.spdmVendor (s : State) (f sess : Nat) (msg : Bytes) : Bytes × State :=
  s.inSession f sess false (fun _ =>
    let b := slice msg 11 (le msg 9 2)
    if f ≠ 0 ∨ le msg 4 2 ≠ 3 ∨ le msg 6 1 ≠ 2 ∨ le msg 7 2 ≠ 1 ∨ 1 < le b 0 1 then (spdmError seUnsupported, s)
    else
      let r := if le b 0 1 = 1 then s.tdisp (b.drop 1) else s.ideKmMsg (b.drop 1)
      (spdmHead 0x7E 0 0 ++ toLE 2 3 ++ [2] ++ toLE 2 1 ++ toLE 2 (1 + r.1.length) ++ b.take 1 ++ r.1, r.2))

/-! ### Commands -/

/-- GET_VERSION (R592). -/
def execGetVersion (f : Fin 66) (msg : Bytes) (s : State) : Host.Outcome State Fault Refusal :=
  .next (s.spdm f msg 0x84 0x10 (fun t => t.spdmVersion f msg))

/-- GET_CAPABILITIES (R592). -/
def execGetCapabilities (f : Fin 66) (msg : Bytes) (s : State) : Host.Outcome State Fault Refusal :=
  .next (s.spdm f msg 0xE1 0x13 (fun t => t.spdmCapabilities f msg))

/-- NEGOTIATE_ALGORITHMS (R592). -/
def execNegotiateAlgorithms (f : Fin 66) (msg : Bytes) (s : State) : Host.Outcome State Fault Refusal :=
  .next (s.spdm f msg 0xE3 0x13 (fun t => t.spdmAlgorithms f msg))

/-- GET_DIGESTS (R592). -/
def execGetDigests (f : Fin 66) (msg : Bytes) (s : State) : Host.Outcome State Fault Refusal :=
  .next (s.spdm f msg 0x81 0x13 (fun t => t.spdmDigests f msg))

/-- GET_CERTIFICATE (R592). -/
def execGetCertificate (f : Fin 66) (msg : Bytes) (s : State) : Host.Outcome State Fault Refusal :=
  .next (s.spdm f msg 0x82 0x13 (fun t => t.spdmCertificate f msg))

/-- CHALLENGE (R592). -/
def execChallenge (f : Fin 66) (msg : Bytes) (s : State) : Host.Outcome State Fault Refusal :=
  .next (s.spdm f msg 0x83 0x13 (fun t => t.spdmChallenge f msg))

/-- GET_MEASUREMENTS (R686). -/
def execGetMeasurements (f : Fin 66) (msg : Bytes) (s : State) : Host.Outcome State Fault Refusal :=
  .next (s.spdm f msg 0xE0 0x13 (fun t => t.spdmMeasurements f msg))

/-- KEY_EXCHANGE (16 R663). -/
def execKeyExchange (f : Fin 66) (msg : Bytes) (s : State) : Host.Outcome State Fault Refusal := .next (s.keyExchange f msg)

/-- FINISH (R592). -/
def execFinish (f : Fin 64) (sess : W32) (msg : Bytes) (s : State) : Host.Outcome State Fault Refusal :=
  .next (s.spdm f msg 0xE5 0x13 (fun t => t.spdmFinish f sess.toNat msg))

/-- HEARTBEAT (R592). -/
def execHeartbeat (f : Fin 64) (sess : W32) (msg : Bytes) (s : State) : Host.Outcome State Fault Refusal :=
  .next (s.spdm f msg 0xE8 0x13 (fun t => t.spdmHeartbeat f sess.toNat))

/-- KEY_UPDATE (R592). -/
def execKeyUpdate (f : Fin 64) (sess : W32) (msg : Bytes) (s : State) : Host.Outcome State Fault Refusal :=
  .next (s.spdm f msg 0xE9 0x13 (fun t => t.spdmKeyUpdate f sess.toNat msg))

/-- END_SESSION (R592). -/
def execEndSession (f : Fin 64) (sess : W32) (msg : Bytes) (s : State) : Host.Outcome State Fault Refusal :=
  .next (s.spdm f msg 0xEC 0x13 (fun t => t.spdmEndSession f sess.toNat))

/-- VENDOR_DEFINED_REQUEST (R592). -/
def execVendorDefinedRequest (f : Fin 64) (sess : W32) (msg : Bytes) (s : State) : Host.Outcome State Fault Refusal :=
  .next (s.spdm f msg 0xFE 0x13 (fun t => t.spdmVendor f sess.toNat msg))

/-! ### MCTP (R593, R594) -/

/-- The data of an MCTP control response after its completion code, and the state after: Set and Get Endpoint ID,
Get Version Support and Get Message Type Support. -/
def State.mctpAnswer (s : State) (port cmd : Nat) (b : Bytes) : Bytes × State :=
  let eid := Tab.look (fun _ => 0) s.eids port
  match cmd with
  | 1 =>
    let e := le b 1 1
    ([0, 0] ++ toLE 1 e ++ [0], { s with eids := Tab.store (fun _ => 0) s.eids port e })
  | 2 => ([0] ++ toLE 1 eid ++ [0, 0], s)
  | 4 => ([0, 1, 0xF1, 0xF3, 0xF1, 0x00], s)
  | 5 => ([0, 3, 0x00, 0x05, 0x7E], s)
  | _ => ([5], s)

/-- MCTP_CONTROL (R593): a request of message type 0; any other type is discarded. -/
def execMctpControl (i3c : Bool) (msg : Bytes) (s : State) : Host.Outcome State Fault Refusal :=
  let rq := le msg 1 1
  .next (if le msg 0 1 ≠ 0 ∨ rq < 128 ∨ msg.length < 3 then s
    else
      let r := s.mctpAnswer (b2n i3c) (le msg 2 1) (msg.drop 3)
      r.2.emit (.mctp i3c ([0] ++ toLE 1 (rq % 128) ++ slice msg 2 1 ++ r.1)))

/-- TOD (R594): the vendor and the command are those of the time of day; there is no response. -/
def execTod (msg : Bytes) (s : State) : Host.Outcome State Fault Refusal :=
  .next (if msg.length = 12 ∧ be msg 0 2 = 0x1D9F ∧ le msg 2 1 = 1 then s.takeTod (be msg 4 6) (le msg 3 1) else s)

end Sys2Proof.Machine
end

