-- ==== Sys2Proof/Machine/RngServe.lean ====
section
/-!
DEFINITION. Machine/RngServe.lean: serving and failing the callers of the random number generator (16_random
R660 to R668).
-/
namespace Sys2Proof.Machine

/-- A waiting caller receives ENTROPY_FAILED, and nothing else changes (R661, R663, R665). -/
def State.failCaller (s : State) : Caller → State
  | .sec (.partKeys p) => s.loadWithoutKeys p
  | .sec (.admitReply p port src udp _) =>
    (s.modAdm p (fun a => { a with reason := adEntropy })).refuseHello port src udp adEntropy
  | .sec (.keyExchange f _) => s.spdmSend f (spdmError seUnspecified)
  | .mbx m => s.mbxStatus m stEntropyFailed
  | .poly _ p tag =>
    match s.findOp p tag with
    | some o => s.endPoly o stEntropyFailed 0 none
    | none => s

/-- The generator stops: every waiting call fails (R661). -/
def State.rngStops (s : State) : State :=
  let ws := s.rng.waiting
  let s1 := s.modRng (fun r => { r with st := .failed, waiting := [] })
  (ws.foldl State.failCaller s1).addErr stEntropyFailed 0x0C 0 none 0xFF [0, 0, 0xFF]

/-- RNG_SEEDED (R660, R661): the known-answer test, and the DRBG instantiated from the full pool. -/
def execRngSeeded (katOk : Bool) (s : State) : Host.Outcome State Fault Refusal :=
  .next (if s.rng.st ≠ .seeding then s
    else if !katOk then s.rngStops
    else
      let s1 := s.advanceToCycle s.rng.poolFull
      s1.modRng (fun r => { r.instantiate s1.cycles with st := .ready, fails := 0 }))

/-- HEALTH_TEST_FAILURE (R661): two tests that fail on one sample are one failure (R668). -/
def execHealthTestFailure (rct apt : Bool) (s : State) : Host.Outcome State Fault Refusal :=
  let s1 := s.modRng (fun r => { r with
    rct := if rct then satInc 16 r.rct else r.rct, apt := if apt then satInc 16 r.apt else r.apt })
  let n := s.rng.fails + 1
  .next (if s.rng.st = .failed ∨ (!rct && !apt) then s
    else if n < s.regN aRngCfg % 8 then (s1.modRng (fun r => { r with fails := n })).rngRestart
    else (s1.modRng (fun r => { r with fails := min 7 n })).rngStops)

/-- A mailbox command goes on with its random numbers. -/
def State.resumeMbx (s : State) (m : Mbx) : State :=
  let s1 := s.setMbx m { s.mbx m with waitRng := false }
  let x := s1.mbx m
  if x.opcode = 3 then s1.keyWrapRun m x
  else if x.opcode = 9 then s1.memRotateRun m x
  else s1

/-- A call served (R664). -/
def State.serveCaller (s : State) : Caller → State
  | .sec (.partKeys p) =>
    let r := s.draw 96
    r.2.makePartKeys p r.1
  | .sec (.admitReply p port src udp hello) =>
    let r := s.draw 72
    r.2.helloReply p port src udp hello r.1
  | .sec (.keyExchange f msg) => s.keyExchange f msg
  | .mbx m => s.resumeMbx m
  | .poly _ p tag =>
    match s.findOp p tag with
    | some o => s.macroRun o true
    | none => s

/-- GENERATE_CALL (R664): the call that has waited longest. A call that it makes itself comes behind those that wait. -/
def execGenerateCall (s : State) : Host.Outcome State Fault Refusal :=
  .next (match s.rng.waiting with
    | [] => s
    | c :: cs => if s.rngReady then 
        ((s.modRng (fun r => { r with waiting := [] })).serveCaller c).modRng (fun r => { r with waiting := cs ++ r.waiting })
      else s)

end Sys2Proof.Machine
end

