-- ==== Sys2Proof/Machine/Tamper.lean ====
section
/-!
DEFINITION. Machine/Tamper.lean: tamper alarms and their responses (15_strongbox R633 to R651, R782).
-/
namespace Sys2Proof.Machine

/-! ### The tamper ledger (R651) -/

/-- The STATE code of an entry: 0 until START_DONE, then the power state. -/
def State.tamperState (s : State) : Nat :=
  if s.power = .doze then 3 else if !s.startDone then 0 else if s.power = .idle then 2 else 1

/-- One more entry of the tamper ledger; a 65th overwrites the oldest. -/
def State.addTamper (s : State) (source response : Nat) : State :=
  let e : TamperEntry :=
    { seq := s.sbox.tamperCount, source := source, state := s.tamperState, response := response,
      sweep := s.tamperSweep, ftNs := s.evFt }
  s.modSbox (fun b => { b with
    tamperLog := (if 64 ≤ b.tamperLog.length then b.tamperLog.drop 1 else b.tamperLog) ++ [e]
    tamperCount := min (b.tamperCount + 1) (2 ^ 32 - 1) })

/-! ### Key operations in progress (R648, R782) -/

/-- A waiting call of the generator that belongs to a key operation ends (16 R668). -/
def State.abortCaller (s : State) : Caller → State
  | .sec (.keyExchange f _) => s.spdmSend f (spdmError seUnspecified)
  | .poly _ p tag =>
    match s.findOp p tag with
    | some o => s.endPoly o stTamperAbort 0 none
    | none => s
  | _ => s

/-- A caller that a tamper alarm ends; the keys of a new partition are still drawn. -/
def Caller.aborts : Caller → Bool
  | .sec (.partKeys _) => false
  | _ => true

/-- The mailbox command in progress ends, its outputs cleared. -/
def State.abortMbx (s : State) (m : Mbx) : State := if (s.mbx m).busy then s.mbxStatus m stTamperAbort else s

/-- Recovery groups in progress (11 R483): one that waits for its window to be SUMMED uses no key yet. -/
def State.recovering (s : State) : List Op :=
  s.ops.filter (fun o => decide (o.stage = .running) && (decide (dOpcode o.desc = 0x0410) || decide (dOpcode o.desc = 0x0411)) &&
    decide ((s.win (winHandle o.desc)).phase = .accepting))

/-- Seal checks in progress: the operation that waits for one ends, and the submission stays open without a seal (log
entry 136). -/
def State.abortSeals (s : State) : State :=
  (s.tally.subs.filter (fun u => u.sealBytes.isSome && u.aborted.isNone)).foldl (fun t u =>
    (t.endHost u stTamperAbort).modSub u.win u.contributor u.subId (fun z => { z with sealBytes := none, host := none })) s

/-- The operations that wait on a transfer: those that it lists, and folio operations that stand at its folio. -/
def State.moveWaiters (s : State) (m : Move) : List Nat :=
  m.tags ++ (s.ops.filter (fun o => o.part == m.part && decide (o.stage = .running) && countsFolios (dOpcode o.desc) &&
    decide (0x0302 ≤ dOpcode o.desc) && decide (folAddr o.desc / 65536 + o.progress = m.vfn) && o.holdsFolio m.vfn)).map (·.tag)

/-- Every key operation in progress is aborted. -/
def State.abortKeyUse (s : State) : State :=
  let s1 := (s.abortMbx .mp).abortMbx .pf
  let ws := s1.rng.waiting.filter Caller.aborts
  let s2 := ws.foldl State.abortCaller (s1.modRng (fun r => r.leave Caller.aborts))
  let s3 := (s2.keyMoves none).foldl (fun t m => (t.abandonMove m).failTags m.part (s.moveWaiters m) stTamperAbort) s2
  let s4 := s3.abortSeals.recovering.foldl (fun t o => t.endOpCycles o.part o.tag stTamperAbort 0) s3.abortSeals
  let s5 := (s4.abandonGroups (fun _ => true)).endLoad stTamperAbort .abandoned
  { s5 with removal := s5.removal.map (fun r => { r with tamper := true }) }

/-! ### Responses (R636, R646, R648) -/

/-- Keys destroyed by a DESTROY response (R636): ORPHAN closes the root gate and orphans every volatile slot;
SWEEP zeroises every slot, the CDIs and the private keys, under the mark SWEEP_PENDING. -/
def State.destroyKeys (s : State) : State :=
  let slots := s.validSlots
  if s.tamperSweep then
    (slots.foldl (fun t i => t.sweepSlot i) s).modSbox (fun b => { b with
      cdis := [], identity := none, alias_ := none, sweepPending := true })
  else (((slots.filter (fun i => decide (i < 512))).foldl (fun t i => t.orphan i) s).modSbox (fun b => { b with gateClosed := true }))

/-- The package enters tamper hold (R647). -/
def State.enterHold (s : State) : State := { s with tamperHold := true }

/-- The event of an alarm: in DOZE it waits for the host port (R649). -/
def State.tamperEvent (s : State) (src : Nat) : State :=
  if s.power = .doze then
    { s.setRegN aSecmbxTamperEvents (s.regN aSecmbxTamperEvents ||| 2 ^ src) with
      power := .waking, pwr := { s.pwr with wakeEvent := true }, out := s.out ++ [.pin "WAKE_N" false] }
  else s.setEvents aSecmbxTamperEvents (2 ^ src) 4

/-- The response to an alarm while the package runs (R646, R648, R652). -/
def State.respond (s : State) (src response : Nat) : State :=
  let s1 := (s.abortKeyUse).addTamper src response
  let s2 := if response = 2 then s1.destroyKeys.dropDeadLinks else s1
  let s3 := if response = 0 then s2 else s2.enterHold
  s3.tamperEvent src

/-- The response to an alarm at start-up, before any derivation (R649). -/
def State.respondStart (s : State) (src response : Nat) : State :=
  let s1 := (s.addTamper src response).enterHold
  let sweep := s.sbox.fuseSweep || bit (s.sbox.mramTamper.getD 0) 31
  let s2 := if sweep then s1.modSbox (fun b => { b with mram := [], slots := Tab.without (fun i => decide (512 ≤ i)) b.slots })
    else s1
  s2.tamperEvent src

/-- An alarm of a source latches (R644 to R649): with power removed nothing detects; an alarm of a source that is
already latched is none. -/
def State.alarm (s : State) (src : Nat) : State :=
  let r := tamperField (s.regN aSecmbxTamperCfg) src
  if s.power = .off ∨ s.sbox.alarms.testBit src then s
  else
    let s1 := s.modSbox (fun b => { b with alarms := b.alarms ||| 2 ^ src })
    if s.pwr.bootDue then s1.respondStart src r else s1.respond src r

/-- STRONGBOX_SELF_CHECK_FAILURE (19 R729): tamper hold, with an entry of source PIN. -/
def execStrongboxSelfCheckFailure (s : State) : Host.Outcome State Fault Refusal :=
  .next (if s.power = .off then s else (s.addTamper 4 1).enterHold)

/-- ALARM_CONDITION_ENDS (R644): SECMBX_TAMPER.ACTIVE of the source. -/
def execAlarmConditionEnds (src : Fin 5) (s : State) : Host.Outcome State Fault Refusal :=
  .next (s.modSbox (fun b => { b with alarms := if b.alarms.testBit src then b.alarms - 2 ^ src.val else b.alarms }))

end Sys2Proof.Machine
end

