-- ==== Sys2Proof/Machine/Reset.lean ====
section
/-!
DEFINITION. Machine/Reset.lean: resets: the state that a cold reset, a PERST_N and a restart of the management
domain leave (00_scope R15 to R18, 18_firmware R703, R709).
-/
namespace Sys2Proof.Machine

/-! ### Registers over a warm reset (R16) -/

/-- Registers that count from cold reset, by the offset of their first copy: R145, R198, R246, R730, the counters
of 09, 12 and 13 (log entry 72). -/
def sinceCold : List Nat :=
  [aGlobalErrCount, aCoreOpsLo 0 0, aCoreOpsHi 0 0, aCoreSpillsLo 0 0, aCoreSpillsHi 0 0, aSchedPartReplays 0,
   aTallyRetHolds, aPolyEngOpsLo 0, aPolyEngOpsHi 0, aRytPortRxFrames 0, aRytPortTxFrames 0, aRytPortFecCorr 0,
   aRytPortFecUncorr 0, aRytPortDropMac 0, aRytPortDropStranger 0, aRytPortDropAuth 0, aRytPortDropKeygen 0,
   aRytPortDropReorder 0, aRytPartRetrans 0, aRytPartFails 0, aRytPartRekeys 0]

/-- A register that a warm reset leaves alone: RWS, and the counts from cold reset. -/
def warmKept (off : Nat) : Bool :=
  match regAt off with
  | some (r, _) => decide (r.rws ≠ 0) || decide (r.base = aMgmtUpdStatus) || sinceCold.contains r.base
  | none => false

/-- The registers after a warm reset: those kept, and LOST of the error ledger, whose NEW is clear (R730). -/
def State.warmRegs (s : State) : Tab W32 :=
  Tab.store regReset (s.regs.filter (fun e => warmKept e.1)) aGlobalErrStatus
    (BitVec.ofNat 32 (s.regN aGlobalErrStatus % 65536))

/-! ### What outlives power, and what outlives PERST_N -/

/-- Cores as the spare map has them (06 R261, 19 R722). -/
def State.mappedCores (s : State) : Tab Core :=
  s.cores.foldl (fun t e => Tab.store coreInit t e.1
    { logical := e.2.logical, fenced := e.2.fenced, lastLogical := e.2.lastLogical }) []

/-- Physical defects of the memories, which the spare map records, with nothing stored. -/
def FolioSt.defects (f : FolioSt) : FolioSt :=
  { hUse := f.hUse.filter (fun e => decide (e.2 = .retired)), lUse := f.lUse.filter (fun e => decide (e.2 = .retired))
    spares := f.spares, repaired := f.repaired, chRetired := f.chRetired }

/-- LPDDR5X frames whose bytes or use the model lists. -/
def State.listedLpddr (s : State) : List Nat :=
  ((s.folio.lpddr.map (fun e : Nat × Byte => e.1 / 65536)) ++ (s.folio.lUse.map (fun e : Nat × LUse => e.1))).eraseDups

/-- The memories after a PERST_N (R17): tables discarded, and every frame that held something queued for zeroing. -/
def State.memoryAfterPerst (s : State) : FolioSt :=
  let d := s.folio.defects
  let hs := s.listedFrames.filter (fun f => decide (s.hUse f ≠ .retired))
  let ls := s.listedLpddr.filter (fun f => decide (s.lUse f ≠ .retired))
  { d with
    hoard := s.folio.hoard, lpddr := s.folio.lpddr
    hUse := hs.foldl (fun t f => Tab.store (fun _ => .free) t f .scrub) d.hUse
    lUse := ls.foldl (fun t f => Tab.store (fun _ => .free) t f .scrub) d.lUse
    scrubs := hs.map (fun f => { hoard := true, frame := f, folio := none }) ++
      ls.map (fun f => { hoard := false, frame := f, folio := none })
    poison := s.folio.poison, rowCe := s.folio.rowCe, peak := s.folio.peak, splitRetired := s.folio.splitRetired }

/-- The Strongbox with its volatile parts lost (15 R640): fuses, MRAM, the sources that alarm and the persistent
slots stay. -/
def Sbox.powered (b : Sbox) : Sbox :=
  { lc := b.lc, fuseSweep := b.fuseSweep, uds := b.uds, slots := Tab.without (fun i => decide (i < 512)) b.slots
    mram := b.mram, alarms := b.alarms, mramTamper := b.mramTamper, sweepPending := b.sweepPending
    tamperLog := b.tamperLog, tamperCount := b.tamperCount }

/-- Federation time over a PERST_N (R17): the accumulator and the rate word run on, LOCKED becomes HOLDOVER, and
the estimate carries on. -/
def State.ftOverPerst (s : State) : FtSt :=
  let f := s.ft
  { acc := f.acc, rate := f.rate, ever := f.ever, stepped := f.stepped
    lock := if f.lock = .locked then .holdover else f.lock
    estBase := s.estErr
    growing := f.growing || !(f.hist.isEmpty && !f.stepped && decide (f.lock ≠ .locked))
    lossAt := s.cycles }

/-- The management domain's own state over a reset that ends its run: a STAGE in hand is cut short (18 R697), and
a trial falls back at the next start (R706, R715). -/
def MgmtSt.stopped (m : MgmtSt) : MgmtSt :=
  { m with
    bundle := none, onTrial := false, defaults := false, waiting := false, loaded := false, wdt := [], stageEng := none
    upd := if m.upd = .staging then .idle else m.upd }

/-! ### Undefined contents of a slot (18 R697) -/

/-- The byte offset of a slot in the flash die (R688). -/
def slotBase (slot : Nat) : Nat := slot * 0x20000000

/-- A slot whose contents the manual leaves undefined. -/
def State.spoilSlot (s : State) (slot n : Nat) : State :=
  let bs : Bytes := (List.range n).map (fun i => (Config.freeValue (s.fresh + i)).truncate 8)
  { s with
    fresh := s.fresh + n
    mgmt := { s.mgmt with flash := Mem.write s.mgmt.flash (slotBase slot) bs } }

/-- The slot that is not ACTIVE_SLOT; in recovery mode, slot A (R695, R710). -/
def State.inactiveSlot (s : State) : Nat := if s.recoveryMode then 0 else 1 - s.mgmt.active

/-- An OP of MGMT_UPD_CTRL in hand is cut short: of a STAGE the inactive slot's contents are undefined (R697), and
the STATUS that the OP ends with is not stated (log entry 78). -/
def State.cutStage (s : State) : State :=
  let s1 := if s.mgmt.upd = .staging then s.spoilSlot s.inactiveSlot s.mgmt.stageLen else s
  let v := s1.regN aMgmtUpdStatus
  if bit v 31 then
    let r := s1.free
    r.2.setRegN aMgmtUpdStatus (bits v 30 24 * 2 ^ 24 + r.1.toNat % 24)
  else s1

/-! ### PERST_N and the package reset (R16, R17, 15 R608) -/

/-- What a partition keeps over a PERST_N: SINCE of block 8, which only a cold reset or a job charter clears (17
R684). -/
def State.partsOverPerst (s : State) : Tab PartSt :=
  s.parts.foldl (fun t e => Tab.store (fun _ => {}) t e.1 { since := e.2.since, sinceFt := e.2.sinceFt }) []

/-- The package after a warm reset that ends every tenancy (R16, R17). The boot ROM is due. -/
def State.warmReset (s0 : State) : State :=
  let s := s0.cutStage
  { pending := s.pending, stackGib := s.stackGib, cycles := s.cycles
    ft := s.ftOverPerst
    power := if s.power = .off then .off else .active
    pwr := { s.pwr with bootDue := true, wakeEvent := false }
    mgmt := { s.mgmt.stopped with
      upd := if s.mgmt.upd = .staging then .idle
        else if s.mgmt.upd = .trial ∨ s.mgmt.upd = .checking then .fallback else s.mgmt.upd
      cause := if s.mgmt.upd = .fallback then s.mgmt.cause else 0x0A
      recSeq := if s.mgmt.upd = .trial ∨ s.mgmt.upd = .checking then s.mgmt.nextSeq else s.mgmt.recSeq }
    tamperHold := s.tamperHold
    regs := s.warmRegs
    parts := s.partsOverPerst
    cores := s.mappedCores, retired := s.retired, sliceFailed := s.sliceFailed, polyFailed := s.polyFailed
    folio := s.memoryAfterPerst
    sbox := s.sbox.powered
    rng := { s.rng.restart s.cycles with fails := 0, waiting := [], test := false, testSeed := 1 }
    errs := s.errs
    jtagIns := s.jtagIns
    hostMem := s.hostMem, out := s.out, fresh := s.fresh }

/-- PERST_N_ASSERT (R16, R17). -/
def execPerstNAssert (s : State) : Host.Outcome State Fault Refusal :=
  .next (if s.pwr.perst then s
    else
      let t := if s.power = .off then s else s.warmReset
      { t with pwr := { t.pwr with perst := true } })

/-- PERST_N_DEASSERT (21 R761): the boot ROM may start once PWR_GOOD is high too. `recoveryN` is the level of
RECOVERY_N, which is sampled here (18 R710). -/
def execPerstNDeassert (recoveryN : Bool) (s : State) : Host.Outcome State Fault Refusal :=
  .next (if s.pwr.perst then { s with pwr := { s.pwr with perst := false, recoveryLow := !recoveryN } } else s)

/-! ### Power lost (R15, 21 R762, R764, R772) -/

/-- The package without power, and as a cold reset then finds it: fuses, MRAM, flash and the spare map stay. A
trial or a check in hand is left in the boot record (18 R715). -/
def State.powerLost (s0 : State) : State :=
  let s := s0.cutStage
  { pending := s.pending, stackGib := s.stackGib
    power := .off
    pwr := { vinMv := s.pwr.vinMv, vinHigh := s.pwr.vinHigh, good := false, perst := s.pwr.perst
             recoveryLow := s.pwr.recoveryLow, tripped := s.pwr.tripped, trips := s.pwr.trips }
    mgmt := s.mgmt.stopped
    cores := s.mappedCores, retired := s.retired, sliceFailed := s.sliceFailed, polyFailed := s.polyFailed
    folio := s.folio.defects
    sbox := s.sbox.powered
    rng := { starts := s.rng.starts + 1 }
    hostMem := s.hostMem, out := s.out ++ [.pin "PWR_GOOD" false], fresh := s.fresh }

/-! ### Restart of the management domain (R18, 18 R702, R703) -/

/-- A window's registers describe it, but for its events, and survive with it in a state that survives. -/
def State.windowReg (s : State) (off : Nat) : Bool :=
  match regAt off with
  | some (r, ix) =>
    let w := ix.headD 0
    decide (r.w1c = 0) && (decide (off / 0x1000 = 0x401) || decide (off / 0x1000 = 0x402)) &&
      (decide ((s.win w).st = .defined) || (s.win w).st.terminal)
  | none => false

/-- CORE_SCRATCH_SPLIT of a core that runs an operation, which keeps its value until the core is idle (03 R144). -/
def State.splitInUse (s : State) (off : Nat) : Bool :=
  match regAt off with
  | some (r, ix) => decide (r.base = aCoreScratchSplit 0 0) && !s.coreIdle (9 * ix.headD 0 + ix.getD 1 0)
  | none => false

/-- The value that the RWL registers of cores, windows and hampers take back before the overrides: those of a
window's template, and CORE_SR_SEED and BIAS of each job (R64, R703). -/
def State.rewriteRwl (s : State) : State :=
  let s1 := (List.range 64).foldl (fun t w =>
    let x := t.win w
    if x.st = .free then t
    else
      let t1 := t.setRegN (aTallyWinCtrl w) (x.geo.graceUs * 2 ^ 17 + x.geo.idleUs)
      x.hampers.foldl (fun u h => u.setRegN (aTallyHmpCfg h) (if x.geo.elem ≤ 3 then x.geo.threshold else 64)) t1) s
  let s2 := (List.range 72).foldl (fun t i =>
    if s.coreIdle i then t.modCore i (fun c => { c with splitHeld := none })
    else t.modCore i (fun c => { c with splitHeld := some (regReset (aCoreScratchSplit (i / 9) (i % 9))) })) s1
  (List.range 16).foldl (fun t p =>
    match t.job p, t.phaseMap p with
    | some j, some m => j.overrides.foldl (fun u e => u.override p e.1 e.2)
        ((t.setSeed p (le j.hash 0 8)).setPair (aFolioPartBiasLo p) m.bias)
    | _, _ => t) s2

/-- The charters in force are applied again, as no load (R703): the EXPERT flags are kept, and direct writes at
expert level are lost. -/
def State.reapply (s : State) : State :=
  let s1 := match s.dev with
    | some d =>
      let a := (s.applyTime (some d.time)).applyTamper
      a.setMux (BitVec.ofNat 32 (putBits 0xFF 31 31 (b2n d.dbg.muxEn)))
    | none => s.setRegN aSecmbxTamperCfg (s.sbox.mramTamper.getD 0x26A)
  let s2 := s1.rewriteRwl
  (List.range 16).foldl (fun t p => t.modPart p (fun x => { x with expert := (s.part p).expert, heldRwl := [] })) s2

/-- Streams that a charter opened keep their registers; the others return to reset with theirs. -/
def State.dropStreams (s : State) : State :=
  s.modFolio (fun f => { f with streams := f.streams.filter (fun e => e.2.charter) })

/-- Slots with ORIGIN LAYERED are zeroised (15 R617). -/
def State.dropLayered (s : State) : State :=
  (s.validSlots.filter (fun i => atOrigin (s.slot i).attr == 2)).foldl (fun t i => t.zeroiseSlot i) s

/-- The management domain restarts (R18, 18 R702, R703): the registers return to reset but for those of R16 and
those that describe what survives, and the boot ROM is due. A charter load in hand is abandoned (log entry 73). -/
def State.restartMgmt (s0 : State) : State :=
  let s := s0.cutStage.endLoad stCancelled .abandoned
  let kept := s.warmRegs.foldl (fun t e => Tab.store regReset t e.1 e.2)
    (s.regs.filter (fun e => s.windowReg e.1 || s.splitInUse e.1 ||
      (decide (e.1 = aCharterRemoveStatus) && s.removal.isSome)))
  let s1 : State := { s with
    regs := kept, latches := [], pendLo := [], msix := [], pba := [], msixHeld := [], rings := []
    funcs := s.funcs.map (fun e => (e.1, { e.2 with enable := false, fetchPtr := 0, discards := 0 }))
    ports := s.ports.map (fun e => (e.1, { e.2 with strangers := [], strMs := 0, strCount := 0 }))
    startDone := false, restarting := true, configReady := false
    pwr := { s.pwr with bootDue := true }
    mgmt := { s.mgmt.stopped with wdt := s.mgmt.wdt }
    cores := s.cores.foldl (fun t e => Tab.store coreInit t e.1 { e.2 with corr := 0, uncorr := 0 }) []
    folio := { s.folio with eccCorr := 0, eccUncorr := 0, lpddrCorr := 0 }
    rng := { s.rng.leave (fun c => match c with
      | .sec (.partKeys _) => false
      | .poly _ _ _ => false
      | _ => true) with test := false, testSeed := 1 } }
  let s2 := s1.modSbox (fun b => { b with pf := {}, mp := {}, cdis := [], blocks := [], identity := none, alias_ := none })
  s2.dropLayered.dropStreams.reapply

/-- Windows in OPEN, GRACE and RECOVERING go to DISCARDED (R18, 18 R709). -/
def State.discardActive (s : State) : State :=
  ((List.range 64).filter (fun w => (s.win w).st.active)).foldl (fun t w => t.discardWindow w) s

/-- A fallback (18 R706, R709): every operation in flight is cancelled, the windows that run are discarded, and
the management domain restarts on the old slot. -/
def State.fallBack (s : State) (cause : Nat) : State :=
  let s1 := (List.range 16).foldl (fun t p => (t.cancelPart p stCancelled).1) s
  let s2 := s1.discardActive
  ({ s2 with mgmt := { s2.mgmt with upd := .fallback, cause := cause, recSeq := s2.mgmt.nextSeq } } : State).restartMgmt

end Sys2Proof.Machine
end

