-- ==== Sys2Proof/Machine/Mgmt.lean ====
section
/-!
DEFINITION. Machine/Mgmt.lean: firmware images, boot, staging, activation, trial and fallback (18_firmware R688
to R716).
-/
namespace Sys2Proof.Machine

/-! ### Images (R690 to R694) -/

/-- An entry of a component table. -/
structure FwComp where
  kind : Nat := 0
  off : Nat := 0
  len : Nat := 0
  iv : Bytes := []
  tag : Bytes := []
  digest : Bytes := []
deriving DecidableEq, Repr, Inhabited

/-- What the header of an image says. -/
structure FwImage where
  legacy : Bool := false
  svn : Nat := 0
  version : Nat := 0
  schemaMin : Nat := 0
  schemaMax : Nat := 0
  serial : Nat := 0
  length : Nat := 0
  comps : List FwComp := []
  header : Bytes := []
deriving DecidableEq, Repr, Inhabited

/-- The entries of a native header (R691). -/
def nativeComps (h : Bytes) : List FwComp :=
  (List.range 6).map (fun i =>
    let o := 0xA0 + 80 * i
    { kind := le h o 1, off := le h (o + 4) 4, len := le h (o + 8) 4, iv := slice h (o + 16) 12, tag := slice h (o + 28) 16
      digest := slice h (o + 44) 32 })

/-- The entries of an envelope's header (R694). -/
def legacyComps (h : Bytes) : List FwComp :=
  (List.range 6).map (fun i =>
    let o := 0x20 + 48 * i
    { kind := le h o 1, off := le h (o + 4) 4, len := le h (o + 8) 4, digest := slice h (o + 16) 32 })

/-- The longest image (R691). -/
def maxImage : Nat := 536870912

/-- The component table is in order: each KIND once, each component aligned and inside the image. -/
def compsOk (cs : List FwComp) (n : Nat) : Bool :=
  (List.range 6).all (fun k => decide ((cs.filter (fun c => c.kind == k + 1)).length = 1)) &&
  cs.all (fun c => decide (c.off % 4096 = 0) && decide (4096 ≤ c.off) && decide (c.off + c.len ≤ n))

/-- The header of an image read from its first 768 bytes, where it has the form of one (step 1 of R698). -/
def readImage (b : Bytes) : Option FwImage :=
  if b.take 4 = ascii "GKFW" then
    let h := b.take 768
    let cs := nativeComps h
    let n := le h 0x14 4
    if le h 6 2 = 0x7400 ∧ le h 8 2 = 1 ∧ le h 0x18 1 = 6 ∧ n ≤ maxImage ∧ compsOk cs n then
      some { svn := le h 4 1, version := le h 0xC 4, schemaMin := le h 0x10 2, schemaMax := le h 0x12 2, length := n,
             comps := cs, header := h }
    else none
  else if b.take 4 = ascii "GK5E" then
    let h := b.take 448
    let cs := legacyComps h
    if le h 6 2 = 0x7400 ∧ le h 0x18 1 = 6 ∧ compsOk cs maxImage then
      some { legacy := true, svn := le h 4 1, version := le h 0x10 4, schemaMin := le h 0x14 2, schemaMax := le h 0x16 2
             serial := le h 8 8, length := maxImage, comps := cs, header := h }
    else none
  else none

/-- A native header with FORM read as 0, and for the signature with KEYBLOCK read as zero too (R691, R693). -/
def formZero (h : Bytes) : Bytes := h.take 5 ++ [0] ++ h.drop 6
def keyZero (h : Bytes) : Bytes := (formZero h).take 0x20 ++ zeros 128 ++ h.drop 0xA0

/-- SIGNER and SIGNATURE (R693, R694). -/
def FwImage.signed (x : FwImage) : Bool :=
  let o := if x.legacy then 0x140 else 0x280
  let key := slice x.header o 64
  decide (sha256 key = toBE 32 Config.lotilFirmwareDigest.toNat) &&
  ecdsaOk key (slice x.header (o + 64) 64) (if x.legacy then x.header.take 0x140 else (keyZero x.header).take 0x2C0)

/-- The FW_DECRYPT key of an image type (15 R615): LAYERED at DEPTH 0; there is none without a root. -/
def State.fwKey (s : State) (type : Nat) : Option Bytes :=
  s.root.map (fun r => kdf108 (hmac r (toBE 32 Config.romDigest.toNat)) (ascii "GK7 fw " ++ toLE 2 type) (kdfContext 0 0 2 0) 32)

/-- The content key of a native image whose key block is STORED (R692). -/
def State.openKeyBlock (s : State) (h : Bytes) : Option Bytes :=
  if le h 5 1 = 1 then
    (s.fwKey (le h 8 2)).bind (fun k => gcmOpen k (slice h 0x20 12) [] (slice h 0x2C 32) (slice h 0x4C 16))
  else none

/-- Bytes of a slot of the flash die. -/
def State.slotRead (s : State) (slot off n : Nat) : Bytes := Mem.read s.mgmt.flash (slotBase slot + off) n

/-- The plaintext of a component as it lies in a slot; none where its tag fails (R691). -/
def State.plain (s : State) (slot : Nat) (x : FwImage) (cek : Bytes) (c : FwComp) : Option Bytes :=
  let b := s.slotRead slot c.off c.len
  if x.legacy then some b else gcmOpen cek c.iv ((formZero x.header).take 0x20) b c.tag

/-- The components of a checked image in the order of their KINDs, plaintext, or the REASON of its rejection (R698). -/
def State.checkSlot (s : State) (slot : Nat) : Except Nat (FwImage × List Bytes) :=
  match readImage (s.slotRead slot 0 768) with
  | none => .error 1
  | some x =>
    if x.legacy && s.mgmt.legacyBlown then .error 2
    else if x.legacy && decide (x.serial ≠ 0) && decide (x.serial ≠ Config.serial.toNat) then .error 3
    else if x.svn < s.mgmt.counter then .error 4
    else if !x.signed then .error 5
    else
      match (if x.legacy then some [] else s.openKeyBlock x.header) with
      | none => .error 6
      | some cek =>
        let cs := (List.range 6).filterMap (fun k => x.comps.find? (fun c => c.kind == k + 1))
        let ps := cs.map (s.plain slot x cek)
        if ps.any Option.isNone then .error 7
        else
          let bs := ps.map (fun p => p.getD [])
          if (cs.zip bs).all (fun e => decide (sha256 e.2 = e.1.digest)) then .ok (x, bs) else .error 8

/-- D_0 to D_5 of an image (R690). -/
def imageDigests (bs : List Bytes) : List Bytes :=
  let k (i : Nat) : Bytes := bs.getD (i - 1) []
  [toBE 32 Config.romDigest.toNat, sha256 (k 1), sha256 (k 2 ++ k 3), sha256 (k 4), sha256 (k 5), sha256 (k 6)]

/-! ### The update ledger and MGMT_UPD_STATUS (R714, R716) -/

/-- One more entry, which names the image in a slot (log entry 74). A ring of 262,144. -/
def State.addUpd (s : State) (event slot status reason : Nat) : State :=
  let b := s.slotRead slot 0 768
  let x := readImage b
  let e : UpdEntry :=
    { seq := s.mgmt.ledgerCount, event := event, slot := slot, svn := (x.map (·.svn)).getD 0, reason := reason
      ftNs := s.ftNs, version := (x.map (·.version)).getD 0, status := status
      digest := sha256 ((x.map (·.header)).getD b) }
  s.modMgmt (fun m => { m with
    ledger := (if 262144 ≤ m.ledger.length then m.ledger.drop 1 else m.ledger) ++ [e]
    ledgerCount := m.ledgerCount + 1 })

/-- The 64 bytes of an entry. -/
def UpdEntry.bytes (e : UpdEntry) : Bytes :=
  let b := toLE 4 e.seq ++ toLE 1 e.event ++ toLE 1 e.slot ++ toLE 1 e.svn ++ toLE 1 e.reason ++ toLE 8 e.ftNs ++
    toLE 4 e.version ++ toLE 2 e.status ++ zeros 2 ++ fit 32 e.digest ++ zeros 4
  b ++ toLE 4 (crc32c b).toNat

/-- MGMT_UPD_STATUS after an OP has ended with a status. -/
def State.updEnd (s : State) (status : Nat) : State :=
  s.setRegN aMgmtUpdStatus (bits (s.regN aMgmtUpdStatus) 30 24 * 2 ^ 24 + status)

/-- An OP refused: its status shows, and an OP that still runs stays BUSY. -/
def State.updRefuse (s : State) (status : Nat) : State :=
  s.setRegN aMgmtUpdStatus (bits (s.regN aMgmtUpdStatus) 31 24 * 2 ^ 24 + status)

/-- MGMT_UPD_STATUS.BUSY set. -/
def State.updBusy (s : State) : State := s.setRegN aMgmtUpdStatus (putBits (s.regN aMgmtUpdStatus) 31 31 1)

/-- The update state changed. -/
def State.setUpd (s : State) (u : Upd) : State := s.modMgmt (fun m => { m with upd := u })

/-! ### Boot (R698 to R700) -/

/-- Measurement blocks and the chain of compound identifiers (15 R613), and the two private keys that follow from
them (15 R618, R619). -/
def State.measure (s : State) (ds : List Bytes) : State :=
  let cs := match s.root with
    | some r => cdiChain r ds
    | none => []
  s.modSbox (fun b => { b with
    blocks := ds, cdis := cs
    identity := if b.lc = .blank then none else some s.identityScalar
    alias_ := (cs[5]?).map aliasScalar })

/-- The boot stops before any key is derived: the package is in tamper hold (15 R647, R649). -/
def State.bootStops (s : State) : State :=
  { s.enterHold with restarting := false, configReady := true }

/-- Recovery mode (R710): the ROM-resident image runs, measured as block 1. A fallback that ends here is over. -/
def State.enterRecovery (s : State) (reason : Nat) : State :=
  let s0 := if s.mgmt.upd = .fallback then s.addUpd s.mgmt.cause (s.mgmt.trialSlot.getD 0) 0 0 else s
  let s1 := (s0.measure [toBE 32 Config.romDigest.toNat, toBE 32 Config.recoveryDigest.toNat]).addUpd 0x0D s0.mgmt.active 0 reason
  { s1 with
    recoveryMode := true, restarting := false, configReady := true, startDone := false
    mgmt := { s1.mgmt with
      upd := if s1.mgmt.upd = .staged then .staged else .idle
      trialSlot := none, recSeq := s1.mgmt.nextSeq, recFallback := false, bundle := none, onTrial := false, loaded := false }
    out := s1.out ++ [.drs] }

/-- An accepted image is loaded and measured (R700). -/
def State.loadBundle (s : State) (slot : Nat) (x : FwImage) (bs : List Bytes) : State :=
  let s1 := s.measure (imageDigests bs)
  { s1 with
    recoveryMode := false
    mgmt := { s1.mgmt with
      loaded := true
      bundle := some { slot := slot, svn := x.svn, version := x.version, schemaMin := x.schemaMin, schemaMax := x.schemaMax
                       digest := sha256 x.header } } }

/-- ACTIVE_SLOT is checked and loaded; without one, or where it is rejected, recovery mode (R699). A trial that
recovery mode activated has recovery mode as its fallback (R710). -/
def State.bootActive (s : State) : State :=
  if !s.mgmt.record || s.mgmt.recFallback then s.enterRecovery 0
  else match s.checkSlot s.mgmt.active with
    | .ok (x, bs) => s.loadBundle s.mgmt.active x bs
    | .error r => s.enterRecovery r

/-- The slot is picked and checked (R698, R699). -/
def State.bootSlot (s : State) : State :=
  match s.mgmt.upd, s.mgmt.trialSlot with
  | .checking, some t =>
    match s.checkSlot t with
    | .ok (x, bs) => s.loadBundle t x bs
    | .error r =>
      let s1 := s.addUpd 0x04 t stImageRejected r
      let s2 := (s1.setRegN aMgmtUpdStatus (r * 2 ^ 24 + stImageRejected)).modMgmt (fun m =>
        { m with upd := .idle, trialSlot := none, recSeq := m.nextSeq })
      s2.bootActive
  | _, _ => s.bootActive

/-- A start that finds a confirmed SVN above the counter completes the advance (R707). -/
def State.completeAdvance (s : State) : State :=
  if s.mgmt.counter < min 64 s.mgmt.confirmed then
    (s.modMgmt (fun m => { m with counter := min 64 m.confirmed })).addUpd 0x0E s.mgmt.active 0 0
  else s

/-- A start that is no restart of the management domain finds a trial or a check that did not end: it falls back
(R706, R715, 21 R776). -/
def State.noTrial (s : State) : State :=
  if !s.restarting ∧ (s.mgmt.upd = .trial ∨ s.mgmt.upd = .checking) then
    s.modMgmt (fun m => { m with upd := .fallback, cause := 0x0A, recSeq := m.nextSeq })
  else s

/-- The boot after the tamper check: the slots of MRAM are read, the built-in self-tests fence the cores of a mask,
and the images are loaded. -/
def State.boot (s : State) (bistFail : Nat) : State :=
  let s1 : State := { s with tamperHold := false }
  let s2 := s1.modSbox (fun b => { b with gateClosed := false })
  let s3 := (List.range 64).foldl (fun t i => t.setSlot (512 + i) (t.shadow (512 + i))) s2
  let s4 := (setBits 72 bistFail).foldl (fun t i => t.failCore i 0 0) s3
  let s5 := s4.noTrial.completeAdvance
  if s5.pwr.recoveryLow && !s5.restarting then s5.enterRecovery 0 else s5.bootSlot

/-- The tamper check of a start (15 R611, R647, R649, R650). -/
def State.bootTamper (s : State) (bistFail : Nat) : State :=
  if s.sbox.sweepPending then
    (s.modSbox (fun b => { b with
      mram := [], slots := Tab.without (fun i => decide (512 ≤ i)) b.slots, sweepPending := false })).bootStops
  else if s.sbox.lc = .scrapped then s.bootStops
  else if s.sbox.alarms % 32 ≠ 0 then
    ((setBits 5 s.sbox.alarms).foldl (fun t i => t.respondStart i (tamperField (t.regN aSecmbxTamperCfg) i)) s).bootStops
  else if s.restarting && s.tamperHold then s.bootStops
  else s.boot bistFail

/-- BOOT_ROM_START (R698; 21 R761): once PWR_GOOD is high and PERST_N deasserted. Until a device charter is loaded
the tamper configuration is that of MRAM (15 R645). -/
def execBootRomStart (bistFail : Nat) (s : State) : Host.Outcome State Fault Refusal :=
  .next (if !s.pwr.bootDue || !s.pwr.good || s.pwr.perst || decide (s.power = .off) then s
    else
      let s1 : State := { s with pwr := { s.pwr with bootDue := false } }
      let s2 := if s1.dev.isNone then s1.setRegN aSecmbxTamperCfg (s1.sbox.mramTamper.getD 0x26A) else s1
      s2.bootTamper bistFail)

/-- The device charter that the settings hold is loaded where none is in force (00_scope R17). -/
def State.reloadCharter (s : State) : State :=
  if s.dev.isSome ∨ s.mgmt.defaults then s
  else match (s.activeSettings).bind (fun x => x.2.charter) with
    | some img => s.loadDevice .mp img img.length
    | none => s

/-- What a start of the management domain ends (R705, R706): a trial begins, or a fallback is over. EVENT 6 is raised
at the end of either pause (log entry 75). -/
def State.endPause (s : State) : State :=
  match s.mgmt.upd with
  | .checking =>
    let t := s.mgmt.trialSlot.getD 0
    let s1 := s.modMgmt (fun m => { m with upd := .trial, onTrial := true, trialFrom := s.cycles, recSeq := m.nextSeq })
    (((s1.addUpd 0x03 t 0 0).addUpd 0x05 t 0 0).updEnd stDone).raise 6
  | .fallback =>
    let t := s.mgmt.trialSlot.getD s.mgmt.active
    let s1 := s.addUpd s.mgmt.cause t 0 0
    (s1.modMgmt (fun m => { m with upd := .idle, trialSlot := none, recSeq := m.nextSeq })).raise 6
  | _ => s

/-- The schema of the active settings area lies outside what the firmware reads (R712). -/
def State.schemaBad (s : State) : Bool :=
  match s.activeSettings, s.mgmt.bundle with
  | some x, some b => decide (x.2.schema < b.schemaMin) || decide (b.schemaMax < x.2.schema)
  | _, _ => false

/-- START_COMPLETE (15 R617, R700): blocks 1 to 5 are measured. -/
def execStartComplete (s : State) : Host.Outcome State Fault Refusal :=
  .next (if !s.mgmt.loaded || s.tamperHold then s
    else
      let s1 : State := { s with
        startDone := true, restarting := false, configReady := true
        mgmt := { s.mgmt with loaded := false, defaults := s.schemaBad }
        out := s.out ++ [.drs] }
      let s2 := s1.endPause
      let s3 := if s2.mgmt.defaults then s2.addUpd 0x0B ((s2.mgmt.bundle.map (·.slot)).getD 0) stSettingsUnreadable 0 else s2
      (s3.reloadCharter.openLateAll).idleSync)

/-- MP_WATCHDOG_RESET (R18, R706, 19 R729): a restart on the running slot, a fallback during a trial or while its
image starts (log entry 76), and recovery mode after more than three within 60 s. -/
def execMpWatchdogReset (s : State) : Host.Outcome State Fault Refusal :=
  .next (if s.power = .off ∨ s.recoveryMode ∨ !(s.startDone || s.mgmt.loaded) then s
    else if s.mgmt.upd = .trial ∨ s.mgmt.upd = .checking then s.fallBack 0x08
    else
      let l := (s.cycles :: s.mgmt.wdt).take 4
      let s1 := (s.modMgmt (fun m => { m with wdt := l })).discardActive.restartMgmt
      if l.length = 4 ∧ s.cycles ≤ l.getD 3 0 + 60 * 312500000 then
        ({ s1 with pwr := { s1.pwr with bootDue := false } } : State).enterRecovery 0
      else s1)

/-! ### Staging (R695 to R697) -/

/-- The requester may STAGE: the PF, or the recovery image in recovery mode (R695), as which JTAG counts (20 R752). -/
def State.mayStage (s : State) : Req → Bool
  | .fn f => decide (f.val = 0)
  | _ => s.recoveryMode

/-- The image that MGMT_UPD_ADDR and MGMT_UPD_LEN name. -/
def State.updAddr (s : State) : Nat := s.pair aMgmtUpdAddrLo / 4096 * 4096
def State.updLen (s : State) : Nat := s.regN aMgmtUpdLen

/-- STAGE requested. An envelope is refused where LEGACY_INTAKE is blown (R696). -/
def State.startStage (s : State) (req : Req) : State :=
  let n := s.updLen
  if s.mgmt.upd ≠ .idle ∨ !s.mayStage req then s.updRefuse stNotPermitted
  else if n % 4096 ≠ 0 ∨ n < 4096 ∨ maxImage < n then s.updRefuse stMalformed
  else if s.mgmt.legacyBlown ∧ Mem.read s.hostMem s.updAddr 4 = ascii "GK5E" then s.updRefuse stNotPermitted
  else
    let slot := s.inactiveSlot
    (s.modMgmt (fun m => { m with
      upd := .staging, stageAddr := s.updAddr, stageLen := n, stageEng := s.dmaIdle
      flash := Tab.without (fun a => decide (slotBase slot ≤ a) && decide (a < slotBase slot + maxImage)) m.flash })).updBusy

/-- The key block of a TRANSIT image in FORM STORED (R692, R696): zeros where the tag fails; the nonce is open (log
entry 77). -/
def State.transcribe (s : State) (b : Bytes) : Bytes × State :=
  let blk := slice b 0x20 128
  let cek := (ecdh s.identityScalar (blk.take 64)).bind (fun x =>
    let k := hkdf [] x (ascii "GK7 fwkb" ++ toLE 8 Config.serial.toNat) 44
    gcmOpen (k.take 32) (k.drop 32) [] (slice blk 64 32) (slice blk 96 16))
  match cek, s.fwKey (le b 8 2) with
  | some c, some key =>
    let r := State.freeBytes 2 s
    let nonce := r.1.take 12
    let e := gcmSeal key nonce [] c
    (b.take 5 ++ [1] ++ slice b 6 26 ++ fit 128 (nonce ++ e.1 ++ e.2) ++ b.drop 0xA0, r.2)
  | _, _ => (b.take 5 ++ [1] ++ slice b 6 26 ++ zeros 128 ++ b.drop 0xA0, s)

/-- STAGE_COMPLETE (R696, R697): `readOk` says that the host answered every read. It takes an engine of host DMA, where none
was idle before (14 R596). The status of a STAGE cut short is not stated (log entry 78). -/
def execStageComplete (readOk : Bool) (s0 : State) : Host.Outcome State Fault Refusal :=
  .next (if s0.mgmt.upd ≠ .staging ∨ (s0.mgmt.stageEng.isNone ∧ s0.dmaIdle.isNone) then s0
    else
      let s := s0.modMgmt (fun m => { m with stageEng := none })
      let slot := s.inactiveSlot
      if readOk && (s.func 0).bme then
        let b := Mem.read s.hostMem s.mgmt.stageAddr s.mgmt.stageLen
        let r := if b.take 4 = ascii "GKFW" ∧ le b 5 1 = 0 then s.transcribe b else (b, s)
        let s1 := r.2.modMgmt (fun m => { m with
          upd := .staged, recSeq := m.nextSeq, flash := Mem.write m.flash (slotBase slot) r.1 })
        (s1.addUpd 0x01 slot 0 0).updEnd stDone
      else
        let r := (s.cutStage.setUpd .idle).free
        r.2.updEnd (r.1.toNat % 24))

/-- DISCARD requested (R697). -/
def State.discardStage (s : State) : State :=
  if s.mgmt.upd = .staged then
    ((s.addUpd 0x02 s.inactiveSlot 0 0).modMgmt (fun m => { m with upd := .idle, recSeq := m.nextSeq })).updEnd stDone
  else s.updRefuse stNotPermitted

/-! ### ACTIVATE (R701, R702) -/

/-- Every partition is quiesced (R701). -/
def State.quiesced (s : State) : Bool := s.ops.isEmpty && (List.range 64).all (fun w => !(s.win w).st.active)

/-- A charter load or a removal is BUSY. -/
def State.loadsBusy (s : State) : Bool := s.load.isSome || s.removal.isSome

/-- ACTIVATE requested: it waits while a load or a removal is BUSY, and goes on when that ends (02 R72, 18 R701). -/
def State.activate (s : State) : State :=
  if s.loadsBusy then (s.modMgmt (fun m => { m with waiting := true })).updBusy
  else
    let s0 := s.modMgmt (fun m => { m with waiting := false })
    if s0.mgmt.upd ≠ .staged ∨ !s0.quiesced then
      (if s.mgmt.upd = .staging then s0.updRefuse stNotPermitted else s0.updEnd stNotPermitted)
    else
      let slot := s0.inactiveSlot
      let s1 := (s0.modMgmt (fun m => { m with
        upd := .checking, trialSlot := some slot, trialS := bits (s.regN aMgmtUpdCfg) 11 0
        recFallback := s.recoveryMode, recSeq := m.nextSeq })).updEnd stDone
      s1.restartMgmt.updBusy

/-- An ACTIVATE that waited goes on once no load and no removal is BUSY. -/
def State.goOn (s : State) : State := if s.mgmt.waiting && !s.loadsBusy then s.activate else s

/-- CHARTER_APPLY (02 R64, R69, R71). -/
def execCharterApply (s : State) : Host.Outcome State Fault Refusal := .next s.charterApply.goOn

/-- CHARTER_REMOVE (17 R672, R680): from the PF and the MP. -/
def execCharterRemove (req : Req) (p : Fin 16) (s : State) : Host.Outcome State Fault Refusal :=
  .next (if reqIsPf req && s.writeServed req aCharterRemoveCtrl then (s.removeTenant req p).goOn else s)

/-- REMOVAL_COMPLETE (17 R675, R677). -/
def execRemovalComplete (s : State) : Host.Outcome State Fault Refusal := .next s.removalDone.goOn

/-- REMOVAL_FORCED (17 R676). -/
def execRemovalForced (s : State) : Host.Outcome State Fault Refusal := .next s.removalForce.goOn

/-- TAMPER_ALARM (15 R644): a load that it abandons lets a waiting ACTIVATE go on. -/
def execTamperAlarm (src : Fin 5) (s : State) : Host.Outcome State Fault Refusal := .next (s.alarm src).goOn

/-! ### LEDGER_READ (R714) -/

/-- The newest entries copied to host memory, in ascending order of SEQ (log entry 80). -/
def State.readLedger (s : State) (count : Nat) : State :=
  if count = 0 then s.updRefuse stMalformed
  else
    let l := s.mgmt.ledger
    let es := l.drop (l.length - count)
    let t : State := { s with hostMem := Mem.write s.hostMem s.updAddr (es.flatMap UpdEntry.bytes) }
    if s.mgmt.upd = .staging ∨ s.mgmt.waiting then t.updRefuse stDone else t.updEnd stDone

/-- A write of MGMT_UPD_CTRL (R716): GO starts OP. UPDATE commands other than LEDGER_READ are refused during TRIAL
(R708); a STAGE and a LEDGER_READ move data as the PF's requests (14 R599; log entry 71). -/
def State.updWrite (s : State) (req : Req) (v : W32) : State :=
  let t := s.setReg aMgmtUpdCtrl (v &&& 0xFFF0)
  let op := bits v.toNat 7 4
  if !v.getLsbD 0 then t
  else if op = 0 ∨ 4 < op then t.updRefuse stMalformed
  else if op ≠ 4 ∧ s.mgmt.upd = .trial then t.updRefuse stNotPermitted
  else if op = 1 then t.startStage req
  else if op = 2 then t.discardStage
  else if op = 3 then t.activate
  else if (s.func 0).bme ∨ bits v.toNat 15 8 = 0 then t.readLedger (bits v.toNat 15 8)
  else t

/-- An OP of MGMT_UPD_CTRL commanded through the registers: from the PF, the MP and JTAG. -/
def State.updCommand (s : State) (req : Req) (op count : Nat) : State :=
  if reqIsPf req && s.writeServed req aMgmtUpdCtrl then s.updWrite req (BitVec.ofNat 32 (count * 256 + op * 16 + 1)) else s

/-- STAGE (R695). -/
def execStage (req : Req) (s : State) : Host.Outcome State Fault Refusal := .next (s.updCommand req 1 0)

/-- UPDATE_DISCARD (R697). -/
def execUpdateDiscard (req : Req) (s : State) : Host.Outcome State Fault Refusal := .next (s.updCommand req 2 0)

/-- ACTIVATE (R701, R702). -/
def execActivate (req : Req) (s : State) : Host.Outcome State Fault Refusal := .next (s.updCommand req 3 0)

/-- UPDATE_LEDGER_READ (R714, R716). -/
def execUpdateLedgerRead (req : Req) (count : Byte) (s : State) : Host.Outcome State Fault Refusal :=
  .next (s.updCommand req 4 count.toNat)

/-! ### Trial, confirmation and fallback (R706 to R713) -/

/-- The migrated settings go into the other area (R713), with the device charter that they hold. -/
def State.migrate (s : State) : State :=
  match s.activeSettings, s.mgmt.bundle with
  | some (area, x), some b =>
    if b.schemaMax = x.schema then s
    else
      let y : Settings := { schema := b.schemaMax, seq := (x.seq + 1) % 2 ^ 32, charter := x.charter }
      (s.modMgmt (fun m => if area then { m with setA := some y } else { m with setB := some y })).addUpd 0x0C b.slot 0 0
  | _, _ => s

/-- HEALTH_CONFIRM (R706, R707, R712, R713): firmware on defaults issues none. The boot record is written before the
fuses are blown; where power is lost between the two, the next start completes the advance (R715; log entry 153). -/
def execHealthConfirm (lost : Option (BitVec 16)) (s : State) : Host.Outcome State Fault Refusal :=
  .next (match s.mgmt.upd, s.mgmt.trialSlot with
    | .trial, some t =>
      if s.mgmt.defaults then s
      else
        let svn := (s.mgmt.bundle.map (·.svn)).getD 0
        let s1 := s.modMgmt (fun m => { m with
          upd := .idle, record := true, active := t, trialSlot := none, onTrial := false, recFallback := false
          confirmed := svn, recSeq := m.nextSeq })
        match lost with
        | some mv => { s1.powerLost with pwr := { s1.powerLost.pwr with vinMv := mv.toNat, vinHigh := false, tripped := false } }
        | none =>
          ((s1.modMgmt (fun m => { m with counter := max m.counter (min 64 svn) })).addUpd 0x06 t 0 0).migrate
    | _, _ => s)

/-- REJECT_SELF (R706, R715): refused where no trial runs. -/
def execRejectSelf (s : State) : Host.Outcome State Fault Refusal :=
  .next (if s.mgmt.upd = .trial then s.fallBack 0x09 else s)

/-- FALLBACK_TIMEOUT (R706): TRIAL_S after START_DONE. -/
def execFallbackTimeout (s : State) : Host.Outcome State Fault Refusal :=
  .next (if s.mgmt.upd = .trial then
      (s.advanceToCycle (s.mgmt.trialFrom + s.mgmt.trialS * 312500000)).fallBack 0x07
    else s)

end Sys2Proof.Machine
end

