-- ==== Sys2Proof/Machine/LifeCycle.lean ====
section
/-!
DEFINITION. Machine/LifeCycle.lean: the life-cycle transitions (15_strongbox R607 to R611).
-/
namespace Sys2Proof.Machine

/-- Every slot zeroised, with both MRAM banks of the persistent ones (R608). -/
def State.zeroiseAll (s : State) : State :=
  ((List.range 0x240).filter (fun i => decide (s.slot i ≠ {}))).foldl (fun t i => t.zeroiseSlot i) s

/-- A token has its 80 bytes and carries the magic and a signature under the Lotil service key (R609). -/
def tokenSigned (t : Bytes) : Bool :=
  decide (t.length = 80) && decide (slice t 0 4 = ascii "GKLC") && ecdsaOk (toBE 64 Config.lotilServiceKey.toNat) (slice t 16 64) (t.take 16)

/-- A token is for this unit and this target (R609). -/
def tokenFits (t : Bytes) (target : Nat) : Bool :=
  decide (le t 4 1 = target) && decide (le t 8 8 = Config.serial.toNat)

/-- The transition asked for exists for this requester and now (R608); the result says whether it needs a
token. -/
def State.lcMay (s : State) (m : Mbx) (target : Nat) : Option Bool :=
  match s.sbox.lc, target with
  | .factory, 2 => some true
  | .service, 3 => if m = .pf ∧ !(List.range 16).any s.hasJob then some true else none
  | .factory, 4 => if m = .pf then some false else none
  | .service, 4 => if m = .pf then some false else none
  | .returned, 4 => if m = .pf then some false else none
  | _, _ => none

/-- The life-cycle state of a code of SECMBX_LC. -/
def lcOf : Nat → Lc
  | 0 => .blank
  | 1 => .factory
  | 2 => .service
  | 3 => .returned
  | _ => .scrapped

/-- A transition: every slot zeroised, the fuses programmed, and the package reset (R608). -/
def State.lcGo (s : State) (target : Nat) : State := ((s.zeroiseAll).modSbox (fun b => { b with lc := lcOf target })).warmReset

/-- LC_ADVANCE: the transition and its token (R608, R609); a reserved TARGET is MALFORMED (R627). Bits of SECMBX_CMD that it does not use are no reserved
fields (log entry 82). -/
def State.lcAdvanceRun (s : State) (m : Mbx) (x : Mailbox) : State :=
  let target := bits x.cmd 16 14
  if 5 ≤ target then s.mbxStatus m stMalformed
  else match s.lcMay m target with
    | none => s.mbxStatus m stNotPermitted
    | some false => s.lcGo target
    | some true =>
      if !tokenSigned (x.data.take x.len) then s.mbxStatus m stAuthFailed
      else if !tokenFits x.data target then s.mbxStatus m stNotPermitted
      else s.lcGo target

/-- LC_ADVANCE (R608, R609). -/
def execLcAdvance (m : Mbx) (s : State) : Host.Outcome State Fault Refusal := .next (s.runMbx m 10 (s.lcAdvanceRun m))

/-- The words of the identity public key as the factory flow shifts them out (log entry 68). -/
def State.identityWords (s : State) (d : Nat) : State :=
  (chunks 4 (p256Public d)).foldl (fun t w => t.emit (.tdo (BitVec.ofNat 32 (leNat w)))) s

/-- FACTORY_TRANSITION (R608, R618, 16 R658): the factory flow of a BLANK part fuses one conditioned block of the full
pool, which is refilled after it, derives the identity key and reads its public key out. It waits for a generator that is
not READY (log entry 150). -/
def execFactoryTransition (s : State) : Host.Outcome State Fault Refusal :=
  .next (if s.sbox.lc = .blank ∧ s.rngReady then
      let s0 := s.advanceToCycle s.rng.poolFull
      let uds : BitVec 256 := BitVec.ofNat 256 (beNat (s0.rng.pool.take 32))
      let s1 := (s0.modRng (fun r => { r with poolAt := s0.cycles })).modSbox (fun b => { b with lc := .factory, uds := some uds })
      let d := s1.identityScalar
      (s1.modSbox (fun b => { b with identity := some d })).identityWords d
    else s)

end Sys2Proof.Machine
end

