-- ==== Sys2Proof/Machine/Power.lean ====
section
/-!
DEFINITION. Machine/Power.lean: the supply, the power states and the throttle (21_power R756 to R779).
-/
namespace Sys2Proof.Machine

/-- The state with the supply and the pins changed. -/
def State.modPwr (s : State) (g : PwrSt → PwrSt) : State := { s with pwr := g s.pwr }

/-- PWR_EVENTS bits set (R779). -/
def State.pwrEvents (s : State) (mask : Nat) : State := s.setEvents aPwrEvents mask 5

/-- PWR_EVENTS bits. -/
def evThrottleOn : Nat := 1
def evThrottleOff : Nat := 2
def evVinHigh : Nat := 4
def evWoke : Nat := 8

/-! ### VIN (R756, R760, R762) -/

/-- VIN stands above 60 V (R756): above 64 V it is an alarm of source SUPPLY too (15 R644). -/
def State.vinOver (s : State) (mv : Nat) : State :=
  let s1 := (s.modPwr (fun p => { p with vinHigh := true })).pwrEvents evVinHigh
  if 64000 < mv then s1.alarm 1 else s1

/-- VIN_RISE (R760, R764): from OFF, where no trip holds the package off (R772), PWR_GOOD rises: a cold reset. -/
def execVinRise (mv : BitVec 16) (s : State) : Host.Outcome State Fault Refusal :=
  let v := mv.toNat
  .next (if s.power ≠ .off ∨ s.pwr.tripped ∨ v < 40000 then s
    else
      let s1 : State := { s with
        power := .active
        pwr := { s.pwr with vinMv := v, good := true, bootDue := true }
        out := s.out ++ [.pin "PWR_GOOD" true] }
      if 60000 < v then s1.vinOver v else s1)

/-- VIN_FALL (R762, R764): below 40 V the package is OFF, and a trip no longer holds it there (R772). -/
def execVinFall (mv : BitVec 16) (s : State) : Host.Outcome State Fault Refusal :=
  let v := mv.toNat
  .next (if 40000 ≤ v then s
    else
      let s1 := if s.power = .off then s else s.powerLost
      s1.modPwr (fun p => { p with vinMv := v, vinHigh := false, tripped := false }))

/-- VIN_HIGH (R756): above 60 V. -/
def execVinHigh (mv : BitVec 16) (s : State) : Host.Outcome State Fault Refusal :=
  let v := mv.toNat
  .next (if s.power = .off ∨ v ≤ 60000 then s else (s.modPwr (fun p => { p with vinMv := v })).vinOver v)

/-- VIN_HIGH_CLEARED (R756): back from 40 V to 60 V. -/
def execVinHighCleared (mv : BitVec 16) (s : State) : Host.Outcome State Fault Refusal :=
  let v := mv.toNat
  .next (if s.power = .off ∨ v < 40000 ∨ 60000 < v then s else s.modPwr (fun p => { p with vinMv := v, vinHigh := false }))

/-! ### Power states (R764 to R767) -/

/-- Some hamper holds a slot. -/
def State.slotsHeld (s : State) : Bool := (List.range 64).any (fun h => decide (0 < (s.hmp h).depth))

/-- ENTER_IDLE (R764): the 100 µs have passed. -/
def execEnterIdle (s : State) : Host.Outcome State Fault Refusal :=
  .next (if s.power = .active && s.quiesced && !s.slotsHeld then { s with power := .idle } else s)

/-- An update operation is BUSY (R765). -/
def State.updateBusy (s : State) : Bool := bit (s.regN aMgmtUpdStatus) 31

/-- DOZE is entered (R764, R766): open contexts close, core scratch is lost, ports go down and the time source
with them. -/
def State.enterDoze (s : State) : State :=
  let s1 : State := { s with
    power := .doze, scratch := []
    cores := s.cores.foldl (fun t e => Tab.store coreInit t e.1 { e.2 with ctxs := [], closeHeld := 0 }) [] }
  let s2 := ((s1.ports.map (·.1)).filter (fun i => (s1.port i).up)).foldl (fun t i => t.setEvents (aRytPortEvents i) 2 2) s1
  let s3 : State := { s2 with ports := s2.ports.map (fun e => (e.1, { e.2 with up := false, retraining := false })) }
  s3.ftLose

/-- DOZE requested (R765). -/
def State.doze (s : State) (req : Req) : State :=
  if !s.quiesced || s.loadsBusy || s.updateBusy then s.regErr stNotPermitted req aPwrCtrl
  else if s.power = .active ∨ s.power = .idle then s.enterDoze else s

/-- DOZE (R765): a write of PWR_CTRL from the PF or the MP. -/
def execDoze (req : Req) (s : State) : Host.Outcome State Fault Refusal :=
  .next (if reqIsPf req && s.writeServed req aPwrCtrl then s.doze req else s)

/-- DOZE_WAKE (R764): the link leaves L1.2, which ends WAKE_N of a tamper wake. -/
def execDozeWake (s : State) : Host.Outcome State Fault Refusal :=
  .next (match s.power with
    | .doze => { s with power := .waking }
    | .waking => if s.pwr.wakeEvent then s.emit (.pin "WAKE_N" true) else s
    | _ => s)

/-- WAKING_DONE (R764, R766; 15 R649): the enabled ports retrain, WOKE is set, the event of a tamper wake is raised,
and windows held in DOZE act. -/
def execWakingDone (s : State) : Host.Outcome State Fault Refusal :=
  .next (if s.power ≠ .waking then s
    else
      let s1 : State := { s with power := .active, pwr := { s.pwr with wakeEvent := false } }
      let s2 := ((List.range 64).filter (fun i => (s1.portEnt i).isSome)).foldl (fun t i => t.train i) s1
      let s3 := s2.pwrEvents evWoke
      let s4 := if s.pwr.wakeEvent then s3.raise 4 else s3
      (s4.openLateAll).idleSync)

/-! ### Thermal control (R768 to R772) -/

/-- TJ_THROTTLE, LIMIT_W and HYST_W. -/
def State.tjLimit (s : State) : Nat := bits (s.regN aPwrThrottle) 7 0
def State.limitW (s : State) : Nat := bits (s.regN aPwrThrottle) 26 16
def State.hystW (s : State) : Nat := bits (s.regN aPwrThrottle) 15 8

/-- THERM_ALERT_N is asserted (R771, R772). -/
def State.thermAlert (s : State) : Bool :=
  decide (0 < s.pwr.steps) || decide ((s.tjLimit : Int) ≤ sgn 8 s.pwr.tj) || s.pwr.tripped

/-- THERM_ALERT_N follows from one state to the next. -/
def State.alertFrom (old s : State) : State :=
  if old.thermAlert = s.thermAlert then s else s.emit (.pin "THERM_ALERT_N" (!s.thermAlert))

/-- One evaluation of the controller (R769 to R771). A step up comes at most once per 10 ms (log entry 81). -/
def State.throttle (s : State) : State :=
  let hot := decide ((s.tjLimit : Int) ≤ sgn 8 s.pwr.tj)
  let n := s.pwr.steps
  if hot || decide (s.limitW < s.pwr.inputW) then
    (if n = 8 then s
     else
       let t := s.modPwr (fun p => { p with steps := n + 1 })
       if n = 0 then t.pwrEvents evThrottleOn else t)
  else if n ≠ 0 ∧ sgn 8 s.pwr.tj ≤ (s.tjLimit : Int) - 3 ∧ s.pwr.inputW + s.hystW ≤ s.limitW ∧ s.pwr.upAt + 3125000 ≤ s.cycles then
    let t := s.modPwr (fun p => { p with steps := n - 1, upAt := s.cycles })
    if n = 1 then t.pwrEvents evThrottleOff else t
  else s

/-- The cycle since which Tj has been at or above TJ_THROTTLE at 1.65 GHz (R772). -/
def State.hotClock (s : State) : State :=
  if s.pwr.steps = 8 ∧ (s.tjLimit : Int) ≤ sgn 8 s.pwr.tj then
    s.modPwr (fun p => { p with hotFrom := some (p.hotFrom.getD s.cycles) })
  else s.modPwr (fun p => { p with hotFrom := none })

/-- THROTTLE_STEP (R768 to R771): the evaluation at the next whole ms, of the Tj, the sensor and the input power
given. -/
def execThrottleStep (tj sensor : Byte) (inputW : BitVec 16) (s : State) : Host.Outcome State Fault Refusal :=
  .next (if s.power ≠ .active ∧ s.power ≠ .idle then s
    else
      let s1 := s.advanceToCycle ((s.cycles / 312500 + 1) * 312500)
      let s2 := s1.modPwr (fun p => { p with tj := tj.toNat, sensor := sensor.toNat, inputW := inputW.toNat })
      State.alertFrom s s2.throttle.hotClock)

/-- The package trips (R772): volatile keys and every rail but the always-on domain go, and it stays off until VIN
has fallen below 40 V. -/
def State.trip (s : State) : State :=
  let t := s.powerLost.modPwr (fun p => { p with tripped := true, trips := s.pwr.trips + 1, tj := s.pwr.tj })
  State.alertFrom s t

/-- THERMAL_TRIP (R772): at 115 °C, or after 10 ms at or above TJ_THROTTLE with the clock at 1.65 GHz. -/
def execThermalTrip (tj : Byte) (s : State) : Host.Outcome State Fault Refusal :=
  .next (if s.power = .off then s
    else
      let s1 := s.modPwr (fun p => { p with tj := tj.toNat })
      if 115 ≤ sgn 8 tj.toNat then s1.trip
      else match s.pwr.hotFrom with
        | some c => if (s.tjLimit : Int) ≤ sgn 8 tj.toNat then (s1.advanceToCycle (c + 3125000)).trip else s
        | none => s)

end Sys2Proof.Machine
end

