-- ==== Sys2Proof/Machine/Views.lean ====
section
/-!
DEFINITION. Machine/Views.lean: the values that registers read (the field tables of each chapter). A register that
mirrors other state is computed from it; every other one reads what is stored.
-/
namespace Sys2Proof.Machine

/-- A Boolean field at bit `i`. -/
def atBit (i : Nat) (b : Bool) : Nat := b2n b * 2 ^ i

/-- A map of `n` bits from a predicate. -/
def bitMap (n : Nat) (f : Nat → Bool) : Nat := ((List.range n).map (fun i => atBit i (f i))).sum

/-- A value held at its largest. -/
def capped (n x : Nat) : Nat := min x (2 ^ n - 1)

/-- Half of a 64-bit quantity: _LO or _HI by the register's place in its pair. -/
def halfOf (r : RegRow) (x : Nat) : Nat := if r.half = .hi then x / 2 ^ 32 % 2 ^ 32 else x % 2 ^ 32

/-! ### GLOBAL and CHARTER -/

/-- GLOBAL_PART, GLOBAL_HEALTH and GLOBAL_DEGRADED (00_scope R3, 19 R717, R726). -/
def State.viewGlobal (s : State) (base i : Nat) : Option Nat :=
  if base = aGlobalPart then some (0xB1 * 2 ^ 24 + s.stackGib * 2 ^ 16 + 0x7400)
  else if base = aGlobalHealth then
    some (bitMap 8 (fun c => (s.spareOf c).isSome) * 2 ^ 24 + s.fencedCores.length * 2 ^ 8 +
      ((List.range 72).filter (fun k => decide ((s.core k).logical ≠ 0xFF))).length)
  else if base = aGlobalDegraded 0 then some (s.degradedBits i)
  else none

/-- CHARTER_EXPERT and CHARTER_DEV_HASH (02 R75, R80). -/
def State.viewCharter (s : State) (base i : Nat) : Option Nat :=
  if base = aCharterExpert then some s.expertBits
  else if base = aCharterDevHash 0 then some (le (((s.dev).map (·.hash)).getD (zeros 32)) (4 * i) 4)
  else none

/-! ### Cores and clusters -/

/-- The operation that runs on engine class `cls` of a core: 0 matrix, 1 vector. -/
def State.onEngine (s : State) (cls l : Nat) : Option Op :=
  if l = 0xFF then none else s.ops.find? (fun o => decide (o.stage = .running) && o.queue == (cls, l))

/-- Context `n` of a core. -/
def Core.ctx (x : Core) (n : Nat) : Option Ctx := Tab.look (fun _ => none) x.ctxs n

/-- CORE_ENG_STATUS (03 R141). XFER_BUSY while an operation runs on the core is not stated: the transfer has no
time of its own here (log entry 83). -/
def State.engStatus (s : State) (x : Core) : Nat :=
  let m := s.onEngine 0 x.logical
  let v := s.onEngine 1 x.logical
  atBit 31 m.isSome + atBit 30 v.isSome +
    atBit 29 ((m.isSome || v.isSome) && (Config.freeValue s.fresh).getLsbD 0) +
    ((List.range 16).filter (fun n => (x.ctx n).isSome)).length * 2 ^ 16 + ((m.map (·.tag)).getD 0)

/-- The registers of core `k` of cluster `c`. -/
def State.viewCore (s : State) (base c k : Nat) : Option Nat :=
  let x := s.core (9 * c + k)
  if base = aCoreId 0 0 then
    some ((if x.fenced then 2 else if x.logical = 0xFF then 1 else 0) * 2 ^ 30 +
      (if x.logical = 0xFF then 0 else (s.partOfCore x.logical).getD 0) * 2 ^ 24 + x.logical * 2 ^ 8 + c * 16 + k)
  else if base = aCoreEngStatus 0 0 then some (s.engStatus x)
  else if base = aCoreEcc 0 0 then some (x.corr * 2 ^ 16 + x.uncorr * 2 ^ 8)
  else if base = aCoreCtxStatus 0 0 then
    some (bitMap 16 (fun n => ((x.ctx n).map (·.sat)).getD false) * 2 ^ 16 + bitMap 16 (fun n => (x.ctx n).isSome))
  else none

/-- CLUS_SCHED_STATUS (05 R223). -/
def State.clusStatus (s : State) (c : Nat) : Nat :=
  let os := s.ops.filter (fun o => decide (o.holder / 8 = c))
  atBit 31 (s.spareOf c).isSome + (os.filter (·.waitSub)).length * 2 ^ 10 + os.length

/-- The registers of a stream (06 R307 to R309, R322). -/
def State.viewStream (s : State) (base c i : Nat) : Option Nat :=
  let x := s.stream c i
  if base = aClusStreamCtrl 0 0 then
    some (atBit 31 x.enable + atBit 30 x.release + atBit 29 x.wrap + atBit 28 x.charter + x.part * 2 ^ 24 +
      x.wclass * 2 ^ 20 + x.w * 2 ^ 8 + x.ahead)
  else if base = aClusStreamBaseLo 0 0 then some (x.base % 2 ^ 32)
  else if base = aClusStreamBaseHi 0 0 then some (x.base / 2 ^ 32)
  else if base = aClusStreamStride 0 0 then some x.stride
  else if base = aClusStreamCount 0 0 then some x.count
  else if base = aClusStreamPos 0 0 then some x.pos
  else none

/-- The CLUSTER blocks. -/
def State.viewCluster (s : State) (base i j : Nat) : Option Nat :=
  if base = aClusSchedStatus 0 then some (s.clusStatus i)
  else if isStreamReg base then s.viewStream base i j
  else s.viewCore base i j

/-! ### SCHED -/

/-- The code of SCHED_PART_STATE.STATE. -/
def phCode : PhState → Nat
  | .opn => 0
  | .draining => 1
  | .boundary => 2
  | .moving => 3
  | .stopped => 4
  | .noJob => 5

/-- Partition `p` is outside OPEN and NO_JOB and on its way between phases. -/
def PartSt.switching (x : PartSt) : Bool :=
  decide (x.ph = .draining) || decide (x.ph = .boundary) || decide (x.ph = .moving)

/-- The descriptor that a window's fetcher waits with: the one held, or the one at its fetch pointer. -/
def State.waitingDesc (s : State) (f : Nat) : Option Bytes :=
  match (s.func f).held with
  | some h => some h.desc
  | none =>
    let d := s.slotBytes f (s.func f).fetchPtr
    if dOwner d then some d else none

/-- SCHED_WIN_STATUS.HOLD (R211; log entry 84). -/
def State.holdCode (s : State) (f : Nat) : Nat :=
  match s.waitingDesc f, s.partOfFunc f with
  | some d, some p =>
    let x := s.part p
    if !s.winOn f then 5
    else if x.paused || decide ((s.removal.map (·.part)) = some p) then 4
    else if x.switching then 3
    else if decide (x.ph = .opn) && decide (s.quota p ≤ (s.opsOf p).length) then 1
    else match (s.func f).held, s.placement p d with
      | some _, some (_, holder, _) => if 64 ≤ s.occupied holder then 2 else 0
      | some _, none => 2
      | none, _ => 0
  | some _, none => if s.winOn f then 0 else 5
  | none, _ => 0

/-- The SCHED block. -/
def State.viewSched (s : State) (base i : Nat) : Option Nat :=
  let x := s.part i
  if base = aSchedStatus then
    some (s.ops.length * 2 ^ 16 + bitMap 16 (fun p => decide ((s.part p).ph ≠ .opn) && decide ((s.part p).ph ≠ .noJob)))
  else if base = aSchedPartState 0 then
    some (phCode x.ph * 2 ^ 29 + (if x.switching then x.target else 0) * 2 ^ 24 + x.phase * 2 ^ 20 + (s.opsOf i).length)
  else if base = aSchedPartGroup 0 then
    some (if x.job.isSome then ((s.myRank i).getD 0) * 2 ^ 16 + s.packages i else 0)
  else if base = aSchedWinStatus 0 then
    some (s.holdCode i * 2 ^ 29 + (s.func i).discards * 2 ^ 16 + (s.func i).fetchPtr)
  else none

/-! ### FOLIO -/

/-- The oldest live generation of a partition, counted back from the current one. -/
def PartSt.oldestGen (x : PartSt) : Nat :=
  ([1, 2, 3].map (fun k => (x.keyCur + k) % 4)).find? (fun g => x.keyLive.testBit g) |>.getD x.keyCur

/-- FOLIO_PART_KEYGEN (R297). -/
def State.keygenReg (s : State) (p : Nat) : Nat :=
  let x := s.part p
  capped 26 (if x.keyLive = 0 then 0 else s.genRefs p x.oldestGen) * 2 ^ 6 + x.keyLive * 4 + x.keyCur

/-- FOLIO_PART_MOVE.REMAINING (07 R345, R346). -/
def State.movesLeft (s : State) (p : Nat) : Nat :=
  let pl := (s.part p).plan
  pl.columns.length + pl.pulls.length + pl.flying.length + pl.behind.length + pl.handoffs.length +
    ((s.planMovesOpen p).filter (fun m => decide (m.kind = .column))).length

/-- The FOLIO block. -/
def State.viewFolio (s : State) (base i : Nat) : Option Nat :=
  if base = aFolioHoardStatus then some (min 131071 ((List.range 8).map s.freeCount).sum)
  else if base = aFolioHoardRepair then some (capped 13 s.retiredFrames.length * 2 ^ 19 + s.sparesUsed)
  else if base = aFolioHoardEcc then some (s.folio.eccCorr * 2 ^ 16 + s.folio.eccUncorr * 2 ^ 8)
  else if base = aFolioLpddrStatus then some (popCount 128 s.folio.chRetired * 2 ^ 16 + s.folio.lpddrCorr)
  else if base = aFolioXfer then some (s.folio.peak * 2 ^ 16 + s.folio.moves.length)
  else if base = aFolioPartHoard 0 then some (s.heldFrames i)
  else if base = aFolioPartPin 0 then some (s.pinnedFrames i)
  else if base = aFolioPartLpddr 0 then some (s.lpddrCharge i)
  else if base = aFolioPartKeygen 0 then some (s.keygenReg i)
  else if base = aFolioPartMove 0 then some (capped 32 (s.movesLeft i))
  else none

/-! ### TALLY -/

/-- The code of TALLY_WIN_STATE.STATE. -/
def winCode : WinState → Nat
  | .free => 0
  | .defined => 1
  | .opn => 2
  | .grace => 3
  | .recovering => 4
  | .released => 5
  | .discarded => 6
  | .contaminated => 7
  | .belowThreshold => 8

/-- The code of a bank's state. -/
def bankCode : BankState → Nat
  | .free => 0
  | .filling => 1
  | .consuming => 2

/-- The code of TALLY_REC_STATUS.PHASE. -/
def recCode : RecPhase → Nat
  | .none => 0
  | .summing => 1
  | .accepting => 2
  | .recovered => 3
  | .releasing => 4

/-- The hamper registers (09). -/
def State.viewHamper (s : State) (base i : Nat) : Option Nat :=
  let x := s.hmp i
  if base = aTallyHmpCfg 0 then
    some ((match x.win with
      | some w => (s.win w).part * 2 ^ 28 + 2 ^ 27 + w * 2 ^ 16
      | none => 0) + s.regN (aTallyHmpCfg i) % 128)
  else if base = aTallyHmpStatus 0 then
    some (atBit 31 x.full + atBit 30 (decide (x.visibleCount = 0)) +
      atBit 29 ((x.filling.map (fun b => (x.bank b).ctOpen)).getD false) +
      bankCode x.bank0.st * 2 ^ 26 + bankCode x.bank1.st * 2 ^ 24 + x.visibleCount * 2 ^ 16 + x.freeSlots * 2 ^ 8 + x.depth)
  else none

/-- The window registers (10). -/
def State.viewWin (s : State) (r : RegRow) (i : Nat) : Option Nat :=
  let x := s.win i
  if r.base = aTallyWinState 0 then
    some (winCode x.st * 2 ^ 28 + x.part * 2 ^ 24 + atBit 23 x.summed + atBit 22 x.byCommand + x.geo.template * 2 ^ 16 +
      x.geo.elem * 2 ^ 8 + x.hampers.length * 2 ^ 4)
  else if r.base = aTallyWinOpenLo 0 ∨ r.base = aTallyWinOpenHi 0 then some (halfOf r x.openAt)
  else if r.base = aTallyWinCloseLo 0 ∨ r.base = aTallyWinCloseHi 0 then some (halfOf r x.closeAt)
  else if r.base = aTallyWinIndex 0 then some x.index
  else if r.base = aTallyWinOpensub 0 then
    some (s.tally.subs.filter (fun u => u.win == i && u.aborted.isNone)).length
  else if r.base = aTallyRecStatus 0 then
    some (recCode x.phase * 2 ^ 29 + atBit 28 x.releaseFailed + s.missing i)
  else none

/-- The TALLY block. -/
def State.viewTally (s : State) (r : RegRow) (i : Nat) : Option Nat :=
  if r.base = aTallyStatus then
    some (s.sliceFailed * 2 ^ 24 + ((List.range 64).filter (fun w => decide ((s.win w).st ≠ .free))).length * 2 ^ 8 +
      (64 - s.freeHampers))
  else if r.base = aTallyRetSize then some s.split.retention
  else if r.base = aTallyRetWptr then some s.tally.wptr
  else if r.base = aTallyRetMark then some s.mark
  else if r.base = aTallyRetStatus then some (atBit 31 s.tally.hold + atBit 30 s.tally.holdOpen + s.openSubs)
  else if r.base = aTallyRecPartThreshold 0 then some (s.releaseThreshold i)
  else if r.base = aTallyHmpCfg 0 ∨ r.base = aTallyHmpStatus 0 then s.viewHamper r.base i
  else s.viewWin r i

/-! ### POLY -/

/-- The operation that runs on polynomial engine `e`. -/
def State.onPoly (s : State) (e : Nat) : Option Op :=
  s.ops.find? (fun o => decide (o.stage = .running) && o.queue == (2, e))

/-- The POLY block (12). -/
def State.viewPoly (s : State) (r : RegRow) (i : Nat) : Option Nat :=
  if r.base = aPolyStatus then
    some (s.polyFailed * 2 ^ 24 + bitMap 8 (fun e => (s.onPoly e).isSome) * 2 ^ 16 +
      ((List.range 64).filter (fun k => (s.pslot k).isSome)).length)
  else if r.base = aPolyEngStatus 0 then
    some (match s.onPoly i with
      | some o => 2 ^ 31 + atBit 30 (decide (dOpcode o.desc = 0x0540)) + o.part * 2 ^ 24 + o.tag
      | none => 0)
  else if r.base = aPolySlotState 0 then
    some (match s.pslot i with
      | some x => 2 ^ 31 + atBit 30 (s.refreshReady x) + atBit 29 (((s.heEntry x.part x.fp).map (·.autoRefresh)).getD false) +
          x.part * 2 ^ 24 + x.nLog2 * 2 ^ 16 + x.limbs * 2 ^ 8 + x.specials
      | none => 0)
  else if r.base = aPolySlotFpLo 0 ∨ r.base = aPolySlotFpHi 0 then some (halfOf r (((s.pslot i).map (·.fp)).getD 0))
  else if r.base = aPolySlotCeil 0 then
    some (match s.pslot i with
      | some x => s.slotMacro x * 2 ^ 16 + s.noiseCeiling x
      | none => 0)
  else none

/-! ### FTIME -/

/-- FTIME_OFFSET: signed, held at the ends of the range (08 R378). -/
def offsetReg (x : Int) : Nat := unsgn 32 (max (-(2 : Int) ^ 31) (min x ((2 : Int) ^ 31 - 1)))

/-- The FTIME block (08). -/
def State.viewTime (s : State) (r : RegRow) : Option Nat :=
  if r.base = aFtimeNowLo ∨ r.base = aFtimeNowHi then some (halfOf r s.ftNs)
  else if r.base = aFtimeNowFrac then some s.ftFrac
  else if r.base = aFtimeStatus then
    some ((match s.ft.lock with
      | .unlocked => 0
      | .locked => 1
      | .holdover => 2) * 2 ^ 30 + atBit 29 s.ft.ever + atBit 28 s.ftMaster + capped 24 s.estNs)
  else if r.base = aFtimeOffset then some (offsetReg s.ft.lastOffset)
  else if r.base = aFtimeBeat then
    some (match s.beats with
      | some b => atBit 31 s.beatsActive + b.log2 * 2 ^ 24 + s.beatPos b % 4096
      | none => 0)
  else none

/-! ### RYT -/

/-- The code of a lane count: 0 = 1, 1 = 2, 2 = 4, 3 = 8. -/
def laneCode (n : Nat) : Nat := if n ≤ 1 then 0 else if n ≤ 2 then 1 else if n ≤ 4 then 2 else 3

/-- RYT_PORT_STATUS (13 R566): a port that the mode does not make reads 0. -/
def State.portStatus (s : State) (i : Nat) : Nat :=
  if s.dev.isNone ∨ s.portCount ≤ i then 0
  else
    let q := s.port i
    let full := modeLanes s.plan.mode
    atBit 31 q.up + atBit 30 (q.up && decide (q.lanes < full)) + laneCode q.lanes * 2 ^ 28 + laneCode full * 2 ^ 26 +
      q.failed * 2 ^ 16

/-- The code of RYT_PART_JOB.ADMIT. -/
def admCode : Adm → Nat
  | .none => 0
  | .pending => 1
  | .admitted => 2

/-- The RYT block. -/
def State.viewRyt (s : State) (r : RegRow) (i : Nat) : Option Nat :=
  if r.base = aRytPortStatus 0 then some (s.portStatus i)
  else if r.base = aRytPortMacLo 0 ∨ r.base = aRytPortMacHi 0 then some (halfOf r (leNat (portMac i)))
  else if r.base = aRytPartJob 0 then
    some (admCode (s.part i).adm.st * 2 ^ 30 + (s.part i).adm.reason * 2 ^ 24 + s.jobId i)
  else if r.base = aRytPartPeers 0 then some (s.part i).adm.peers.length
  else none

/-- The 32 bytes of a stranger-ledger entry (13 R572). -/
def Stranger.bytes (x : Stranger) : Bytes :=
  fit 16 x.addr ++ toLE 4 (x.job * 256 + x.reason) ++ toLE 4 x.count ++ toLE 8 x.lastSeen

/-- A word of a port's stranger ledger: the word and the entry it belongs to, where the offset lies in one. -/
def State.strangerWord (s : State) (off : Nat) : Option Nat :=
  let o := off - aRytPortStatus 0
  let i := o / 0x4000
  let e := o % 0x4000 - 0x1000
  if aRytPortStatus 0 ≤ off ∧ i < 64 ∧ 0x1000 ≤ o % 0x4000 ∧ o % 0x4000 < 0x3000 then
    some (match (s.port i).strangers[e / 0x20]? with
      | some x => le x.bytes (e % 0x20) 4
      | none => 0)
  else none

/-! ### HOST -/

/-- Reads that running DMA operations have outstanding: how many is not stated (14 R596; log entry 83). -/
def State.dmaReads (s : State) : Nat :=
  if s.ops.any (fun o => decide (o.stage = .running) && o.queue == (3, 0)) then (Config.freeValue s.fresh).toNat % 8193 else 0

/-- The HOST block. -/
def State.viewHost (s : State) (base i : Nat) : Option Nat :=
  if base = aHostDmaStatus then
    some (bitMap 8 (fun e => decide (s.mgmt.stageEng = some e) || s.ops.any (fun o => decide (o.stage = .running) && o.queue == (3, 0) && o.unit == e)) * 2 ^ 24 +
      s.dmaReads)
  else if base = aHostFnState 0 then
    let x := s.func i
    some ((if i = 0 then 0 else tdiCode x.tdi) * 2 ^ 30 + atBit 29 (s.trusted i) + atBit 28 x.bme +
      ((s.partOfFunc i).getD 0) * 2 ^ 24 + atBit 23 (s.partOfFunc i).isSome + x.stream)
  else none

/-! ### SECMBX and RNG -/

/-- Persistent slots valid, and volatile slots in use. -/
def State.slotCounts (s : State) : Nat × Nat :=
  let vs := s.validSlots
  ((vs.filter (fun i => decide (512 ≤ i))).length, (vs.filter (fun i => decide (i < 512))).length)

/-- SECMBX_LC. -/
def State.lcReg (s : State) : Nat :=
  lcCode s.sbox.lc * 2 ^ 29 + atBit 28 s.sbox.fuseSweep + atBit 27 s.startDone + atBit 26 s.recoveryMode +
    atBit 25 s.tamperHold + s.depth * 2 ^ 22

/-- A mailbox's own registers. -/
def Mailbox.view (x : Mailbox) (r : RegRow) (i : Nat) : Option Nat :=
  if r.base = aSecmbxCmd then some x.cmd
  else if r.base = aSecmbxStatus then some (atBit 31 x.busy + atBit 30 x.waitRng + x.status)
  else if r.base = aSecmbxAttrLo ∨ r.base = aSecmbxAttrHi then some (halfOf r x.attr)
  else if r.base = aSecmbxLen then some x.len
  else if r.base = aSecmbxData 0 then some (if x.busy then 0 else le x.data (4 * i) 4)
  else none

/-- The code of RNG_STATUS.STATE. -/
def rngCode : RngState → Nat
  | .startup => 0
  | .seeding => 1
  | .ready => 2
  | .failed => 3

/-- The SECMBX block, and RNG in it (15, 16). -/
def State.viewSec (s : State) (r : RegRow) (m : Mbx) (i : Nat) : Option Nat :=
  if r.base = aSecmbxLc then some s.lcReg
  else if r.base = aSecmbxSlots then some (s.slotCounts.2 * 2 ^ 16 + s.slotCounts.1)
  else if r.base = aSecmbxTamper then some (s.sbox.alarms % 32 * 2 ^ 27 + atBit 26 s.sbox.sweepPending)
  else if r.base = aSecmbxTamperCount then some s.sbox.tamperCount
  else if r.base = aSecmbxTamperCfg then some (s.regN aSecmbxTamperCfg % 2 ^ 31 + atBit 31 s.tamperSweep)
  else if r.base = aRngStatus then
    some (rngCode s.rng.st * 2 ^ 30 + atBit 29 s.rngReady + capped 3 s.rng.fails * 2 ^ 26 +
      bitMap 11 (fun b => s.rng.waiting.any (fun c => callerBit c == b)))
  else if r.base = aRngHealth then some (s.rng.rct * 2 ^ 16 + s.rng.apt)
  else if r.base = aRngTest then some (atBit 31 s.rng.test + s.rng.testSeed)
  else (s.mbx m).view r i

/-! ### MGMT -/

/-- The code of MGMT_FW_STATUS.STATE. -/
def updCode : Upd → Nat
  | .idle => 0
  | .staging => 1
  | .staged => 2
  | .trial => 3
  | .checking => 4
  | .fallback => 5

/-- Seconds of trial left, a part of a second counting as one (18 R706; log entry 85). -/
def State.trialLeft (s : State) : Nat :=
  if s.mgmt.onTrial then ceilDiv (s.mgmt.trialS * 312500000 - (s.cycles - s.mgmt.trialFrom)) 312500000 else 0

/-- The MGMT block (18). -/
def State.viewMgmt (s : State) (base : Nat) : Option Nat :=
  let m := s.mgmt
  if base = aMgmtFwStatus then
    some (m.active * 2 ^ 31 + ((m.bundle.map (·.slot)).getD 0) * 2 ^ 30 + atBit 29 m.onTrial + atBit 28 s.recoveryMode +
      updCode m.upd * 2 ^ 25 + m.counter * 2 ^ 8 + ((m.bundle.map (·.svn)).getD 0) % 128)
  else if base = aMgmtFwVersion then some ((m.bundle.map (·.version)).getD 0)
  else if base = aMgmtTrialLeft then some (s.trialLeft % 4096)
  else if base = aMgmtLedgerCount then some m.ledgerCount
  else if base = aMgmtSettings then
    some (match s.activeSettings with
      | some (b, x) => atBit 31 b + atBit 30 m.defaults + x.schema
      | none => atBit 30 m.defaults)
  else none

/-! ### DBG and PWR -/

/-- The code of PWR_STATUS.STATE. -/
def powerCode : Power → Nat
  | .idle => 1
  | .doze => 2
  | .waking => 3
  | _ => 0

/-- The PWR block (21). -/
def State.viewPwr (s : State) (base : Nat) : Option Nat :=
  let x := s.pwr
  if base = aPwrStatus then
    some (powerCode s.power * 2 ^ 30 + atBit 29 (decide (0 < x.steps)) + atBit 28 x.vinHigh + x.steps * 2 ^ 24 + x.vinMv % 65536)
  else if base = aPwrInput then some (x.inputW % 65536)
  else if base = aPwrTemp then some (x.tj % 256 * 2 ^ 24 + x.sensor % 256 * 2 ^ 8)
  else if base = aPwrTrips then some (capped 32 x.trips)
  else none

/-- The level of ALERT_N (21_power, the pin table): low while PWR_EVENTS, SECMBX_TAMPER_EVENTS or
GLOBAL_ERR_STATUS.NEW is non-zero. -/
def State.alertN (s : State) : Bool :=
  !(decide (s.regN aPwrEvents ≠ 0) || decide (s.regN aSecmbxTamperEvents ≠ 0) || bit (s.regN aGlobalErrStatus) 31)

/-! ### The value of a register -/

/-- The mailbox that a requester reaches at the SECMBX offsets (15 R627). -/
def reqMbx : Req → Mbx
  | .mp => .mp
  | _ => .pf

/-- A register computed from other state. -/
def State.view (s : State) (m : Mbx) (r : RegRow) (i j : Nat) : Option Nat :=
  match r.base / 0x100000 with
  | 0 => s.viewGlobal r.base i
  | 1 => s.viewCharter r.base i
  | 2 => s.viewSched r.base i
  | 3 => s.viewFolio r.base i
  | 4 => s.viewTally r i
  | 5 => s.viewPoly r i
  | 6 => s.viewTime r
  | 7 => s.viewRyt r i
  | 8 => s.viewHost r.base i
  | 9 => s.viewSec r m i
  | 10 => s.viewMgmt r.base
  | 11 => if r.base = aDbgPtbStatus then some s.perturbNow else none
  | 12 => s.viewPwr r.base
  | 16 => s.viewCluster r.base i j
  | _ => none

/-- The value of the register at a PF offset; 0 where none lies (R11). -/
def State.regValue (s : State) (m : Mbx) (off : Nat) : W32 :=
  match regAt off with
  | some (r, ix) =>
    match s.view m r (ix.headD 0) (ix.getD 1 0) with
    | some v => BitVec.ofNat 32 v
    | none => s.reg off
  | none => BitVec.ofNat 32 ((s.strangerWord off).getD 0)

/-! ### The test multiplexer (20 R739 to R741) -/

/-- Where the registers of a unit of the multiplexer begin; the reserved units have none (R740). -/
def muxBase (unit : Nat) : Option Nat :=
  if unit ≤ 71 then some (aCoreId (unit / 9) (unit % 9))
  else if unit ≤ 79 then some (0x1000000 + 0x100000 * (unit - 72))
  else [0, 0x200000, 0x300000, 0x400000, 0x500000, 0x600000, 0x800000, 0xA00000, 0xC00000][unit - 80]?

/-- The live value of a group (R740, R741): half of a register, read without latching, or in FACTORY the raw samples of
the noise source. -/
def State.muxGroup (s : State) (group : Nat) : BitVec 16 :=
  let h := group % 32
  if group / 32 = 127 then
    (if s.sbox.lc = .factory then BitVec.ofNat 16 (bitMap 16 (fun i => (s.rng.samples ((s.cycles - s.rng.startAt) / 4 + i) 1).getD 0 false)) else 0)
  else match muxBase (group / 32) with
    | some b => BitVec.ofNat 16 ((s.regValue .pf (b + 4 * (h / 2))).toNat / 2 ^ (16 * (h % 2)))
    | none => 0

/-- What DBG_MUX carries (R739): the group that DBG_MUX_CTRL selects, and 0 while ENABLE is 0. -/
def State.muxPins (s : State) : BitVec 16 :=
  let v := s.reg aDbgMuxCtrl
  if v.getLsbD 31 then s.muxGroup (bits v.toNat 27 16) else 0

end Sys2Proof.Machine
end

