-- ==== Sys2Proof/Machine/Regs.lean ====
section
/-!
DEFINITION. Machine/Regs.lean: access to registers through BAR0, through a tenant view and through JTAG
(00_scope R10 to R23, 14_host R578 to R582, 20_debug R752).
-/
namespace Sys2Proof.Machine

/-! ### What an offset names -/

/-- What an access reaches. -/
inductive Target where
  /-- The register at a PF offset. -/
  | reg (off : Nat)
  /-- A dword of a function's MSI-X table, or of its pending bits. -/
  | msix (f i : Nat)
  | pba (f i : Nat)
  /-- A reserved offset: it reads 0. -/
  | nothing
  /-- A register of no object of the partition (R580), by its PF offset (log entry 114). -/
  | foreign (off : Nat)
deriving DecidableEq, Repr

/-- An offset of the PF's BAR0. -/
def pfTarget (off : Nat) : Target :=
  if 0x808000 ≤ off ∧ off < 0x809000 then .msix 0 ((off - 0x808000) / 4)
  else if 0x809000 ≤ off ∧ off < 0x809020 then .pba 0 ((off - 0x809000) / 4)
  else if (regAt off).isSome then .reg off
  else if 0x700000 ≤ off ∧ off < 0x800000 then .reg off
  else .nothing

/-- An offset in a run of `n` objects of `size` bytes from `lo`: the object and the place in it. -/
def inRun (off lo size n : Nat) : Option (Nat × Nat) :=
  if lo ≤ off ∧ off < lo + size * n then some ((off - lo) / size, (off - lo) % size) else none

/-- The register at `base + o`, where one lies there. -/
def regOr (off : Nat) : Target := if (regAt off).isSome then .reg off else .nothing

/-- A register of an object that the partition holds or not (R580). -/
def owned (mine : Bool) (off : Nat) : Target := if mine then regOr off else .foreign off

/-- The parts of a tenant view that serve partition `p` of function `f` (R579). -/
def State.tenantTarget (s : State) (f p off : Nat) : Target :=
  let at_ (lo n pf : Nat) : Option Target := if lo ≤ off ∧ off < lo + n then some (regOr (pf + (off - lo))) else none
  let run (lo size n : Nat) (g : Nat → Nat → Target) : Option Target := (inRun off lo size n).map (fun e => g e.1 e.2)
  (([ at_ 0x1000 0x1C 0x100000,
      at_ 0x2000 0x200 (0x201000 + 0x200 * f),
      at_ 0x2400 0x20 (0x200100 + 0x20 * p),
      at_ 0x3000 0x20 (0x300100 + 0x20 * p),
      at_ 0x4000 0x10 0x600000,
      at_ 0x401C 4 0x60001C,
      at_ 0x5000 0x20 (0x502000 + 0x20 * p),
      run 0x6000 0x20 64 (fun i o => owned (((s.pslot i).map (·.part)) == some p) (0x501000 + 0x20 * i + o)),
      run 0x8000 0x40 64 (fun i o => owned (s.ownsWin p i) (0x401000 + 0x40 * i + o)),
      run 0x9000 0x40 64 (fun i o => owned (s.ownsWin p i) (0x402000 + 0x40 * i + o)),
      at_ 0xA000 0x20 (0x40C100 + 0x20 * p),
      at_ 0xA020 0x20 (0x403000 + 0x20 * p),
      run 0xA800 0x20 64 (fun i o => owned (((s.hmp i).win.map (fun w => s.ownsWin p w)).getD false) (0x408000 + 0x20 * i + o)),
      at_ 0xB000 0x20 (0x703000 + 0x4000 * p),
      at_ 0xC000 0x10 (0x801000 + 0x10 * f),
      at_ 0xC020 4 (0x802000 + 0x20 * p),
      run 0x10000 0x100 64 (fun l o =>
        let at_ := (s.physOf l).map (fun i => 0x1010000 + 0x100000 * (i / 9) + 0x10000 * (i % 9) + o)
        if 0x40 ≤ o then .nothing
        else if !(s.coreMask p).testBit l then .foreign (at_.getD 0)
        else (at_.map regOr).getD .nothing)
    ] : List (Option Target)).findSome? id).getD .nothing

/-- What an offset of a VF's BAR0 reaches (R578, R579). -/
def State.vfTarget (s : State) (f off : Nat) : Target :=
  if off = 0 then .reg aGlobalPart
  else if 0xE000 ≤ off ∧ off < 0xF000 then .msix f ((off - 0xE000) / 4)
  else if 0xF000 ≤ off ∧ off < 0xF020 then .pba f ((off - 0xF000) / 4)
  else match s.partOfFunc f with
    | some p => s.tenantTarget f p off
    | none => .nothing

/-- What a requester's access reaches: the MP and JTAG have the PF's registers (20 R752; log entry 50). -/
def State.target (s : State) (req : Req) (off : Nat) : Target :=
  let f := reqFunc req
  if f = 0 then pfTarget off else s.vfTarget f off

/-! ### Reads -/

/-- A dword of a function's pending bits. -/
def State.pbaWord (s : State) (f i : Nat) : W32 :=
  BitVec.ofNat 32 (bitMap 32 (fun b => Tab.look (fun _ => false) s.pba (256 * f + 32 * i + b)))

/-- Where a requester's latch of a _HI register is kept (R20). -/
def latchKey (req : Req) (hi : Nat) : Nat := reqCode req * 2 ^ 32 + hi

/-- A latch loaded. -/
def State.setLatch (s : State) (req : Req) (hi : Nat) (v : W32) : State :=
  { s with latches := Tab.store (fun _ => 0) s.latches (latchKey req hi) v }

/-- What a requester's latch of a _HI register holds. -/
def State.latch (s : State) (req : Req) (hi : Nat) : W32 := Tab.look (fun _ => 0) s.latches (latchKey req hi)

/-- The register at a PF offset read by a requester (R19, R20, 08 R378): _LO latches, _HI and FRAC answer what was
latched. -/
def State.readReg (s : State) (req : Req) (off : Nat) : W32 × State :=
  let m := reqMbx req
  let v := s.regValue m off
  match regAt off with
  | some (r, _) =>
    if r.half = .lo then
      let s1 := s.setLatch req (off + 4) (s.regValue m (off + 4))
      (v, if off = aFtimeNowLo then s1.setLatch req aFtimeNowFrac (s.regValue m aFtimeNowFrac) else s1)
    else if r.half = .hi ∨ off = aFtimeNowFrac then (s.latch req off, s)
    else if r.base = aCoreEngStatus 0 0 ∨ r.base = aHostDmaStatus then (v, { s with fresh := s.fresh + 1 })
    else (v, s)
  | none =>
    -- LAST_SEEN of a stranger-ledger entry is a pair (13 R572)
    if 0x700000 ≤ off ∧ off < 0x800000 ∧ off % 0x20 = 0x18 then
      (v, s.setLatch req (off + 4) (s.regValue m (off + 4)))
    else if 0x700000 ≤ off ∧ off < 0x800000 ∧ off % 0x20 = 0x1C ∧ (s.strangerWord off).isSome then (s.latch req off, s)
    else (v, s)

/-- A read of `size` bytes through BAR0 or JTAG: R10, R578 to R580, and what the state of the package lets through (14
R600, 15 R647, 18 R710). -/
def State.readBar (s : State) (req : Req) (off size : Nat) : W32 × State :=
  if !s.reqUp req || decide (off % 4 ≠ 0) || decide (size ≠ 4) then (BitVec.allOnes 32, s)
  else if !s.readServed req off then (0, s)
  else match s.target req off with
    | .reg o => s.readReg req o
    | .msix f i => (Tab.look msixInit s.msix (1024 * f + i), s)
    | .pba f i => (s.pbaWord f i, s)
    | .nothing => (0, s)
    | .foreign _ => (0, s)

/-- A read of a function's BAR2, whose offset `o` is given as 2^32 + `o`: slot contents, without side effects (14 R577,
R600). -/
def State.readWindow (s : State) (f o size : Nat) : Bytes :=
  if s.portServed then Mem.read s.slots (65536 * f + o) (min size (65536 - o)) else List.replicate size 0xFF

/-- PAIR_LO_READ (R19): the read of a register; every other register, and BAR2, is read the same way (log entry 86). -/
def execPairLoRead (req : Req) (off size : Nat) (s : State) : Host.Outcome State Fault Refusal :=
  .next (match req, decide (2 ^ 32 ≤ off) with
    | .fn f, true => if off < 2 ^ 32 + 65536 then s.emit (.barData (s.readWindow f (off - 2 ^ 32) size)) else s
    | _, _ =>
      let x := s.readBar req off size
      x.2.emit (.readData req off x.1))

/-! ### Writes -/

/-- An MSI-X table entry is written; one that is unmasked sends the message that was pending (14 R582; log entry
12). -/
def State.msixWrite (s : State) (f i : Nat) (v : W32) : State :=
  let ctl := decide (i % 4 = 3)
  let s1 : State := { s with msix := Tab.store msixInit s.msix (1024 * f + i) (if ctl then v &&& 1 else v) }
  let k := 256 * f + i / 4
  if ctl && !v.getLsbD 0 && Tab.look (fun _ => false) s.pba k then
    ({ s1 with pba := Tab.store (fun _ => false) s1.pba k false } : State).sendMsix f (i / 4)
  else s1

/-- The stored register at `off` takes the bits that the access code lets it take. -/
def State.putRw (s : State) (r : RegRow) (off : Nat) (v : W32) : State :=
  let mask := BitVec.ofNat 32 (r.rw ||| r.rws)
  s.setReg off ((s.reg off &&& ~~~mask) ||| (v &&& mask))

/-- A write of a pair with access code RW: _LO is held pending, and _HI takes both (R21, R22). -/
def State.putPair (s : State) (r : RegRow) (off : Nat) (v : W32) : State :=
  if r.half = .lo then { s with pendLo := Tab.store (fun _ => none) s.pendLo off (some (v &&& BitVec.ofNat 32 r.rw)) }
  else
    let lo := s.takeLo (off - 4) (s.reg (off - 4))
    (lo.2.setReg (off - 4) lo.1).putRw r off v

/-- CHARTER_LOAD_CTRL: the fields, and GO (02 R57, R59, R73): a function's view is the same register (14 R581), and
PARTITION and KIND are ignored there. Kind 0 is a device charter; 2 and 3 are refused. -/
def State.loadCtrl (s : State) (req : Req) (v : W32) : State :=
  let n := v.toNat
  let s1 := s.setReg aCharterLoadCtrl (v &&& 0xFC)
  if !v.getLsbD 0 then s1
  else if reqFunc req ≠ 0 then s1.loadJob req 0
  else if s1.load.isSome then s1.refuseLoad req none (.loadBusy, 0)
  else if 2 ≤ bits n 3 2 then s1.refuseLoad req none (.badHeader, 0)
  else if bits n 3 2 = 1 then s1.loadJob req (bits n 7 4)
  else s1.loadDev req

/-- CHARTER_REMOVE_CTRL (17 R672, R680). -/
def State.removeCtrl (s : State) (req : Req) (v : W32) : State :=
  let s1 := s.setReg aCharterRemoveCtrl (v &&& 0xF0)
  if v.getLsbD 0 then (s1.removeTenant req (bits v.toNat 7 4)).goOn else s1

/-- SCHED_WIN_CTRL: CANCEL_ALL, RESET and ENABLE (05 R203, R233). -/
def State.winCtrl (s : State) (f : Nat) (v : W32) : State :=
  let s1 := if v.getLsbD 2 then s.cancelFunc f else s
  let s2 := if v.getLsbD 1 then s1.winClear f else s1
  s2.winSet f (v.getLsbD 0)

/-- A ring register other than CQ_CFG and CQ_HEAD (05 R247, R248). -/
def State.ringWrite1 (s : State) (req : Req) (f : Nat) (r : RegRow) (off : Nat) (v : W32) : State :=
  if s.ringMay f then (if r.rw = 0 then s else s.putPair r off v) else s.regErrOf (s.partOfFunc f) stNotPermitted req off

/-- A mailbox register (15 R627, R628): GO starts the command, and one of a reserved opcode ends MALFORMED. A write
while a command runs is discarded (log entry 87). -/
def State.mbxWrite (s : State) (m : Mbx) (r : RegRow) (i : Nat) (v : W32) : State :=
  let x := s.mbx m
  let n := v.toNat
  if x.busy then s
  else if r.base = aSecmbxCmd then
    let c := n / 16 * 16
    let s1 := s.setMbx m { x with cmd := c, busy := v.getLsbD 0 }
    if !v.getLsbD 0 then s1
    else if mbxOpcodes.contains (bits n 31 24) then s1
    else s1.mbxStatus m stMalformed
  else if r.base = aSecmbxLen then s.setMbx m { x with len := n % 512 }
  else if r.base = aSecmbxData 0 then
    s.setMbx m { x with data := x.data.take (4 * i) ++ toLE 4 n ++ x.data.drop (4 * i + 4) }
  else s

/-- SECMBX_ATTR under R21. -/
def State.attrWrite (s : State) (m : Mbx) (r : RegRow) (off : Nat) (v : W32) : State :=
  let x := s.mbx m
  let key := (if m = .mp then off + 2 ^ 31 else off) - (if r.half = .hi then 4 else 0)
  if x.busy then s
  else if r.half = .lo then { s with pendLo := Tab.store (fun _ => none) s.pendLo key (some v) }
  else
    let lo := s.takeLo key (BitVec.ofNat 32 x.attr)
    lo.2.setMbx m { x with attr := v.toNat * 2 ^ 32 + lo.1.toNat }

/-- The OFFSET that the stamps of this cycle take is kept before a change of it (20 R751). -/
def State.keepOffset (s : State) : State :=
  if s.ft.offsetAt = some s.cycles then s
  else { s with ft := { s.ft with offsetAt := some s.cycles, offsetOld := s.regN aDbgPtbStamp } }

/-- A perturbation control (20 R748, R750): a use of it is declared, and marks what is in flight. -/
def State.ptbWrite (s : State) (req : Req) (r : RegRow) (off : Nat) (v : W32) : State :=
  if r.base = aDbgPtbCredit ∧ outside 1 4096 (bits v.toNat 12 0) then s.regErr stMalformed req off
  else
    let s0 := if r.base = aDbgPtbStamp then s.keepOffset else s
    let s1 := if r.half = .single then s0.putRw r off v else s0.putPair r off v
    let s2 := s1.markSince
    if s2.perturbNow ≠ 0 then s2.markPerturbed else s2

/-- DBG_PROF_CTRL: RUN, and CLEAR (20 R745). -/
def State.profCtrl (s : State) (v : W32) : State :=
  let s1 := (s.setReg aDbgProfCtrl (v &&& 0x80000000)).markSince
  if v.getLsbD 0 then s1.profZero else s1

/-- The 32 bytes of an error-ledger entry (19 R731). -/
def ErrEntry.bytes (e : ErrEntry) : Bytes :=
  toLE 4 e.seq ++ toLE 2 e.status ++ toLE 1 e.source ++ toLE 1 e.reason ++ toLE 8 e.ftNs ++
    toLE 1 ((e.part.map (fun p => 0x80 + p)).getD 0) ++ toLE 1 e.func ++ zeros 2 ++ e.detail

/-- A write of GLOBAL_ERR_INDEX latches the entry that it selects (19 R736). -/
def State.errIndex (s : State) (v : W32) : State :=
  let bs := ((s.errs.find? (fun e => decide (e.seq = v.toNat))).map ErrEntry.bytes).getD (zeros 32)
  (List.range 8).foldl (fun t i => t.setRegN (aGlobalErrData i) (le bs (4 * i) 4)) (s.setReg aGlobalErrIndex v)

/-- CORE_CTX_CLOSE (04 R193): a context that an operation uses closes when that operation completes. -/
def State.ctxClose (s : State) (i : Nat) (mask : Nat) : State :=
  (setBits 16 mask).foldl (fun t n =>
    match (t.core i).ctx n with
    | none =>
      -- a FIRST that runs opens it at its end
      if t.ops.any (fun o => decide (o.stage = .running) && o.core == (t.core i).logical && dOpcode o.desc == 0x0100 &&
          decide (mmaChain o.desc = 1) && decide (bits (le o.desc 0x3C 4) 3 0 = n)) then
        t.modCore i (fun x => { x with closeHeld := x.closeHeld ||| 2 ^ n })
      else t
    | some c =>
      let l := (t.core i).logical
      let tags := t.chainTags c.part n t.ops.length [c.lastTag]
      if t.ops.any (fun o => decide (o.stage = .running) && o.core == l && o.part == c.part && isChainOp o.desc &&
          decide (bits (le o.desc 0x3C 4) 3 0 = n) && tags.contains o.tag) then
        t.modCore i (fun x => { x with closeHeld := x.closeHeld ||| 2 ^ n })
      else t.setCtx i n none) s

/-- CORE_ECC.CLEAR (03 R85). -/
def State.coreEcc (s : State) (i : Nat) : State := s.modCore i (fun c => { c with corr := 0, uncorr := 0 })

/-- Bits written 1 to a W1C register are cleared (R13). -/
def State.clearBits (s : State) (r : RegRow) (off : Nat) (v : W32) : State :=
  s.setReg off (s.reg off &&& ~~~(v &&& BitVec.ofNat 32 r.w1c))

/-- A register of the DBG block. -/
def isDbg (off : Nat) : Bool := decide (off / 0x100000 = aDbgMuxCtrl / 0x100000)

/-- A write in the cycle of the events just before it: in a W1C register the bits that hardware sets in this cycle
win over their clearing (R23; log entry 121), and in a DBG register the value that JTAG has written stays (20 R755). -/
def State.sameCycle (s : State) (req : Req) (off : Nat) (v : W32) : W32 :=
  match s.target req off with
  | .reg o => (match regAt o with
    | some (r, _) =>
      if r.w1c ≠ 0 then v &&& ~~~(s.hwSetNow o)
      else if isDbg o ∧ s.hwSetNow o ≠ 0 then s.reg o
      else v
    | none => v)
  | _ => v

/-- JTAG has written a register of the DBG block in this cycle (20 R755). -/
def State.jtagWrote (s : State) (off : Nat) : State :=
  let now := if s.hwSet.at_ = s.cycles then s.hwSet.bits else []
  if isDbg off then { s with hwSet := { at_ := s.cycles, bits := Tab.store (fun _ => 0) now off (BitVec.allOnes 32) } }
  else s

/-- A write of the register at a PF offset, by its access code and what its field table says (R13). -/
def State.writeReg (s : State) (req : Req) (off : Nat) (v : W32) : State :=
  match regAt off with
  | none => s
  | some (r, ix) =>
    let i := ix.headD 0
    let j := ix.getD 1 0
    let b := r.base
    let m := reqMbx req
    if r.rwl ≠ 0 then s.rwlWrite req off v
    else if r.w1c ≠ 0 then s.clearBits r off v
    else if b = aGlobalErrIndex then s.errIndex v
    else if b = aCharterLoadCtrl then s.loadCtrl req v
    else if b = aCharterRemoveCtrl then s.removeCtrl req v
    else if b = aSchedWinCtrl 0 then s.winCtrl i v
    else if b = aSchedCqCfg 0 0 then s.cqCfg req i j v
    else if b = aSchedCqBaseLo 0 0 ∨ b = aSchedCqBaseHi 0 0 ∨ b = aSchedCqTail 0 0 then s.ringWrite1 req i r off v
    else if b = aFolioHoardEcc then
      (if v.getLsbD 0 then s.modFolio (fun f => { f with eccCorr := 0, eccUncorr := 0 }) else s)
    else if b = aCoreEcc 0 0 then (if v.getLsbD 0 then s.coreEcc (9 * i + j) else s)
    else if b = aCoreCtxClose 0 0 then s.ctxClose (9 * i + j) v.toNat
    else if b = aTallyHmpLevel 0 ∧ 128 < bits v.toNat 7 0 then
      s.regErrOf ((s.hmp i).win.map (fun w => (s.win w).part)) stMalformed req off
    else if b = aRytPortCtrl 0 then (if v.getLsbD 0 then s.retrain req i else s)
    else if b = aSecmbxAttrLo ∨ b = aSecmbxAttrHi then s.attrWrite m r off v
    else if b = aSecmbxCmd ∨ b = aSecmbxLen ∨ b = aSecmbxData 0 then s.mbxWrite m r i v
    else if b = aRngTest then s.rngTest req v
    else if b = aMgmtUpdCtrl then s.updWrite req v
    else if b = aMgmtUpdCfg ∧ outside 30 3600 (bits v.toNat 11 0) then s.regErr stMalformed req off
    else if b = aDbgMuxCtrl then s.muxWrite req v
    else if b = aDbgProfCtrl then s.profCtrl v
    else if aDbgPtbHop01 ≤ b ∧ b ≤ aDbgPtbStamp then s.ptbWrite req r off v
    else if b = aPwrCtrl then (if v.getLsbD 0 then s.doze req else s)
    else if r.half ≠ .single then (if r.rw ≠ 0 then s.putPair r off v else s)
    else if r.rw ||| r.rws ≠ 0 then s.putRw r off v
    else s

/-- A 32-bit write through BAR0 or JTAG; one to the MSI-X table of a locked VF is a write to a locked setting (14 R588). R10, R578 to R580, and what the state of the package lets through. -/
def State.writeBar (s : State) (req : Req) (off size : Nat) (v : W32) : State :=
  if !s.writeServed req off || decide (size ≠ 4) || decide (off % 4 ≠ 0) then s
  else match s.target req off with
    | .reg o => s.writeReg req o v
    | .msix f i => if f ≠ 0 ∧ s.tdiHeld f then s.tdiError f stAuthFailed else s.msixWrite f i v
    | .pba _ _ => s
    | .nothing => s
    | .foreign o => s.regErrOf (s.partOfFunc (reqFunc req)) stNotPermitted req o

/-- REGISTER_WRITE (R13). -/
def execRegisterWrite (req : Req) (off size : Nat) (v : W32) (same : Bool) (s : State) : Host.Outcome State Fault Refusal :=
  .next (s.writeBar req off size (if same then s.sameCycle req off v else v))

/-- RWL_WRITE (R13, R79): `off` lies where the requester reaches the register. -/
def execRwlWrite (req : Req) (off size : Nat) (v : W32) (s : State) : Host.Outcome State Fault Refusal :=
  .next (s.writeBar req off size v)

/-- PAIR_LO_WRITE (R22). -/
def execPairLoWrite (req : Req) (off : Nat) (v : W32) (s : State) : Host.Outcome State Fault Refusal :=
  .next (s.writeBar req off 4 v)

/-- PAIR_HI_WRITE (R21, R22). -/
def execPairHiWrite (req : Req) (off : Nat) (v : W32) (s : State) : Host.Outcome State Fault Refusal :=
  .next (s.writeBar req off 4 v)

/-- ERR_INDEX_WRITE (19 R736). -/
def execErrIndexWrite (req : Req) (v : W32) (s : State) : Host.Outcome State Fault Refusal :=
  .next (if reqIsPf req && s.writeServed req aGlobalErrIndex then s.errIndex v else s)

/-- A write to a register of physical core `k` of cluster `c`: a VF reaches the cores of its partition. -/
def State.mayCore (s : State) (req : Req) (i off : Nat) : Bool :=
  s.writeServed req off && (reqIsPf req || ((s.partOfFunc (reqFunc req)).map (fun p => (s.physCores p).contains i)).getD false)

/-- CTX_CLOSE (04 R193). -/
def execCtxClose (req : Req) (c : Fin 8) (k : Fin 9) (v : W32) (s : State) : Host.Outcome State Fault Refusal :=
  .next (if s.mayCore req (9 * c.val + k.val) (aCoreCtxClose c k) then s.ctxClose (9 * c.val + k.val) v.toNat else s)

/-- SCRATCH_SPLIT_WRITE (03 R144). -/
def execScratchSplitWrite (req : Req) (c : Fin 8) (k : Fin 9) (v : W32) (s : State) : Host.Outcome State Fault Refusal :=
  .next (if s.mayCore req (9 * c.val + k.val) (aCoreScratchSplit c k) then s.rwlWrite req (aCoreScratchSplit c k) v else s)

/-- SCRATCH_SPLIT_APPLY (03 R140, R144): the core is idle. -/
def execScratchSplitApply (c : Fin 8) (k : Fin 9) (s : State) : Host.Outcome State Fault Refusal :=
  let i := 9 * c.val + k.val
  .next (match (s.core i).splitHeld with
    | some v => if s.coreIdle i then (s.setReg (aCoreScratchSplit c k) v).modCore i (fun x => { x with splitHeld := none }) else s
    | none => s)

/-- SR_SEED_WRITE (04 R174, R197): the write of CORE_SR_SEED_HI, with which the pair takes effect. -/
def execSrSeedWrite (req : Req) (c : Fin 8) (k : Fin 9) (hi : W32) (s : State) : Host.Outcome State Fault Refusal :=
  .next (if s.mayCore req (9 * c.val + k.val) (aCoreSrSeedHi c k) then s.rwlWrite req (aCoreSrSeedHi c k) hi else s)

/-- ACC_POLICY_WRITE (04 R196). -/
def execAccPolicyWrite (req : Req) (c : Fin 8) (k : Fin 9) (v : W32) (s : State) : Host.Outcome State Fault Refusal :=
  .next (if s.mayCore req (9 * c.val + k.val) (aCoreAccPolicy c k) then s.rwlWrite req (aCoreAccPolicy c k) v else s)

/-- CORE_ECC_CLEAR (03 R85). -/
def execCoreEccClear (req : Req) (c : Fin 8) (k : Fin 9) (s : State) : Host.Outcome State Fault Refusal :=
  .next (if s.mayCore req (9 * c.val + k.val) (aCoreEcc c k) then s.coreEcc (9 * c.val + k.val) else s)

/-- STREAM_CTRL_WRITE (06 R321): no tenant view maps the stream registers. -/
def execStreamCtrlWrite (req : Req) (c : Fin 8) (st : Fin 16) (v : W32) (s : State) : Host.Outcome State Fault Refusal :=
  .next (if reqIsPf req && s.writeServed req (aClusStreamCtrl c st) then s.rwlWrite req (aClusStreamCtrl c st) v else s)

/-- DBG_MUX_CTRL_WRITE (20 R737, R739, R742): the group is on the pins from then on. -/
def execDbgMuxCtrlWrite (req : Req) (v : W32) (s : State) : Host.Outcome State Fault Refusal :=
  .next (if reqIsPf req && s.writeServed req aDbgMuxCtrl then
      (let t := s.muxWrite req v
       if v.getLsbD 31 ∧ leastDiv (bits v.toNat 27 21) ≤ bits v.toNat 7 0 then t.emit (.mux t.muxPins) else t)
    else s)

/-- FTIME_HOLD_WRITE (08 R379): no tenant view maps FTIME_HOLD. -/
def execFtimeHoldWrite (req : Req) (v : W32) (s : State) : Host.Outcome State Fault Refusal :=
  .next (if reqIsPf req && s.writeServed req aFtimeHold then s.rwlWrite req aFtimeHold v else s)

/-- RNG_TEST_WRITE (16 R666, R667). -/
def execRngTestWrite (req : Req) (v : W32) (s : State) : Host.Outcome State Fault Refusal :=
  .next (if reqIsPf req && s.writeServed req aRngTest then s.rngTest req v else s)

/-! ### JTAG (20 R752) -/

/-- A 32-bit access to the Hoard aperture: offsets from 2^33 up name its bytes (log entry 88). A read declares what
it reaches (R754). -/
def State.dbgAperture (s : State) (a : Nat) : Option W32 → State
  | none =>
    let s1 := s.declareFrame (a / 65536)
    s1.emit (.tdo (BitVec.ofNat 32 (leNat ((List.range 4).map (fun i => s.aperture (a + i))))))
  | some v =>
    if s.hUse (a / 65536) = .retired then s
    else s.modFolio (fun f => { f with hoard := Mem.write f.hoard a (toLE 4 v.toNat) })

/-- DBG_ACCESS (R752): register access as the MP has it, while its instruction is loaded; in tamper hold it reads 0
and writes nothing. -/
def execDbgAccess (off : Nat) (wr : Option W32) (s : State) : Host.Outcome State Fault Refusal :=
  .next (if s.jtagIns ≠ 4 ∨ s.power = .off then s
    else if s.tamperHold then (match wr with
      | none => s.emit (.tdo 0)
      | some _ => s)
    else if 2 ^ 33 ≤ off then
      (if off % 4 = 0 ∧ off < 2 ^ 34 then s.dbgAperture (off - 2 ^ 33) wr else s)
    else match wr with
      | none =>
        let x := s.readBar .jtag off 4
        x.2.emit (.tdo x.1)
      | some v => (s.writeBar .jtag off 4 v).jtagWrote off)

end Sys2Proof.Machine
end

