-- ==== Sys2Proof/Machine/Real.lean ====
section
/-!
DEFINITION. Machine/Real.lean: the functions of 03_matrix R120 that no dyadic number states exactly, worked out in
fixed point to 256 fractional bits, and the FP32 words that an accuracy bound of R120 admits. The errors of the
fixed-point arithmetic are far below 2^-30 of a unit in the last place, by which every bound is widened (log entry 31).
-/
namespace Sys2Proof.Machine

/-- A fixed-point number: an integer multiple of 2^-256. -/
abbrev Fix := Int

/-- 1. -/
def fixOne : Fix := 2 ^ 256
/-- The natural logarithm of 2. -/
def fixLn2 : Fix := 0xb17217f7d1cf79abc9e3b39803f2f6af40f343267298b62d8a0d175b8baafa2b
/-- The reciprocal of the square root of 2π. -/
def fixInvSqrt2Pi : Fix := 0x662114cf50d942343f2cf1402eae38bfd3829f30512706d8c0471b4802639d2e

/-- Product and quotient. -/
def fixMul (x y : Fix) : Fix := x * y / fixOne
def fixDiv (x y : Fix) : Fix := x * fixOne / y

/-- The fixed-point number of a finite value. -/
def fixOf (neg : Bool) (m : Nat) (e : Int) : Fix :=
  let a : Int := if -256 ≤ e then m * 2 ^ (e + 256).toNat else m / 2 ^ (-256 - e).toNat
  if neg then -a else a

/-- The value of a fixed-point number, scaled by `2^k`. -/
def fixFl (x : Fix) (k : Int) : Fl := .fin (decide (x < 0)) x.natAbs (k - 256)

/-- `n` terms of the exponential series from the `k`-th power on. -/
def expTerms : Nat → Nat → Fix → Fix → Fix
  | 0, _, _, _ => 0
  | n + 1, k, x, term => term + expTerms n (k + 1) x (fixMul term x / k)

/-- The exponential of a fixed-point number: a multiple of a power of two. -/
def fixExp (x : Fix) : Fix × Int :=
  let n := x / fixLn2
  (expTerms 64 1 (x - n * fixLn2) fixOne, n)

/-- The same as a fixed-point number, for arguments below 200. -/
def fixExp1 (x : Fix) : Fix :=
  let r := fixExp x
  if 0 ≤ r.2 then r.1 * 2 ^ r.2.toNat else r.1 / 2 ^ (-r.2).toNat

/-- `n` terms of the series of the inverse hyperbolic tangent from the `k`-th power on; `y2` is the square. -/
def atanhTerms : Nat → Nat → Fix → Fix → Fix
  | 0, _, _, _ => 0
  | n + 1, k, y2, term => term / k + atanhTerms n (k + 2) y2 (fixMul term y2)

/-- The natural logarithm of `m * 2^e`, `m` not 0. -/
def fixLn (m : Nat) (e : Int) : Fix :=
  let top := e + bitLen m - 1
  let z := fixOf false m (e - top)
  let y := fixDiv (z - fixOne) (z + fixOne)
  top * fixLn2 + 2 * atanhTerms 96 1 (fixMul y y) y

/-- `n` terms of the series of the normal distribution's integral from term `k` on; `q` is `-x^2/2`. -/
def phiTerms : Nat → Nat → Fix → Fix → Fix
  | 0, _, _, _ => 0
  | n + 1, k, q, term => term / (2 * k + 1) + phiTerms n (k + 1) q (fixMul term q / (k + 1))

/-- The distribution function Φ of the normal distribution: 0 below −9 and 1 above 9. -/
def fixPhi (x : Fix) : Fix :=
  if x < -9 * fixOne then 0
  else if 9 * fixOne < x then fixOne
  else fixOne / 2 + fixMul fixInvSqrt2Pi (phiTerms 256 0 (-(fixMul x x) / 2) x)

/-- The exponential of a value. -/
def flExp : Fl → Fl
  | .nan => .nan
  | .inf s => if s then .fin false 0 0 else .inf false
  | .fin s m e =>
    if magLt 200 0 m e then (if s then .fin false 1 (-400) else .fin false 1 400)
    else let r := fixExp (fixOf s m e); fixFl r.1 r.2

/-- The natural logarithm of a value, as IEEE 754 has it for zeros, negative values and infinities. -/
def flLn : Fl → Fl
  | .nan => .nan
  | .inf s => if s then .nan else .inf false
  | .fin s m e => if m = 0 then .inf true else if s then .nan else fixFl (fixLn m e) 0

/-- 1. -/
def flOne : Fl := .fin false 1 0

/-- The hyperbolic tangent. -/
def flTanh : Fl → Fl
  | .nan => .nan
  | .inf s => .fin s 1 0
  | .fin s m e =>
    if m = 0 then .fin s 0 0
    else if magLt 40 0 m e then .fin s 1 0
    else let t := fixExp1 (2 * fixOf false m e); fixFl ((if s then -1 else 1) * fixDiv (t - fixOne) (t + fixOne)) 0

/-- The logistic function. -/
def flSigmoid : Fl → Fl
  | .nan => .nan
  | .inf s => if s then .fin false 0 0 else flOne
  | .fin s m e =>
    if magLt 100 0 m e then (if s then .fin false 0 0 else flOne)
    else fixFl (fixDiv fixOne (fixOne + fixExp1 (fixOf (!s) m e))) 0

/-- Φ of a value. -/
def flPhi : Fl → Fl
  | .nan => .nan
  | .inf s => if s then .fin false 0 0 else flOne
  | .fin s m e => if magLt 9 0 m e then (if s then .fin false 0 0 else flOne) else fixFl (fixPhi (fixOf s m e)) 0

/-! ### Accuracy bounds -/

/-- The exponent of a unit in the last place of FP32 at a magnitude `m * 2^e`. -/
def ulpExp (m : Nat) (e : Int) : Int := max (-149) (e + bitLen m - 24)

/-- An FP32 word lies within `k` units in the last place of a value, or with `abs24` within 2^-24 of it; an infinity
stands at 2^128 here. -/
def nearTo (x k : Nat) (abs24 : Bool) (neg : Bool) (m : Nat) (e : Int) : Bool :=
  let c : Option Fl := match ofF32 x with
    | .nan => none
    | .inf s => some (.fin s 1 128)
    | y => some y
  match c.map (fun y => flAdd y (.fin (!neg) m e)) with
  | some (.fin _ n d) =>
    !magLt (k * 2 ^ 30 + 1) (ulpExp m e - 30) n d || (abs24 && !magLt 1 (-24) n d)
  | _ => false

/-- A result within a bound of an exact value: the word chosen where the bound admits it, else the value rounded. -/
def pickNear (x k : Nat) (abs24 : Bool) (v : Fl) : Nat :=
  match v with
  | .fin s m e => if nearTo x k abs24 s m e then x else toF32 v
  | _ => toF32 v

end Sys2Proof.Machine
end

