-- ==== Sys2Proof/Machine/Vector.lean ====
section
/-!
DEFINITION. Machine/Vector.lean: the vector engine (03_matrix R102, R103, R117 to R122, R135 to R138).
-/
namespace Sys2Proof.Machine

/-- An FP32 operand with FTZ: a subnormal counts as a zero of its sign (R97, R118). -/
def f32Ftz (ftz : Bool) (x : Nat) : Nat := ftzOut fp32 ftz x

/-- A source element as FP32 bits (R118): exact for every code that a float function accepts. -/
def toF32Elem (fmt : Nat) (ftz : Bool) (x : Nat) : Nat := f32Ftz ftz (flRound fp32 .rne (elemFl fmt false x))

/-- The source codes of float functions (R118), and of integer functions (R119). -/
def vecFloatSrc (c : Nat) : Bool := decide (c ≤ 6) || decide (c = 8) || decide (c = 9)
def vecIntSrc (c : Nat) : Bool := decide (c = 8) || decide (c = 0xA) || decide (c = 0xC)

/-- The integer functions (R120). -/
def vecIsInt (f : Nat) : Bool := decide (0x030 ≤ f) && decide (f ≤ 0x036)

/-- The result of an exact value, in FP32 (R118). Whether it is flushed is judged after ROUND (R99). -/
def f32Of (x : Fl) : Nat := flRound fp32 .rne x

/-- MIN or MAX of two FP32 words. Which of zeros of both signs it gives, and whether a NaN gives a NaN or the other
word, is not stated (log entry 31). -/
def f32Pick (func : Nat) (isMax : Bool) (a b : Nat) : Nat :=
  let first := (Config.vecOpen func (BitVec.ofNat 32 a) (BitVec.ofNat 32 b)).getLsbD 0
  match ofF32 a, ofF32 b with
  | .nan, .nan => canonNan fp32
  | .nan, _ => if first then canonNan fp32 else b
  | _, .nan => if first then canonNan fp32 else a
  | x, y =>
    if a % 2 ^ 31 = 0 ∧ b % 2 ^ 31 = 0 ∧ a ≠ b then (if first then a else b)
    else if flLt x y = isMax then b else a

/-- An elementwise float function on FP32 words (R120). -/
def vecFloat (func : Nat) (imm0 imm1 a b : Nat) : Nat :=
  let near (k : Nat) (abs24 : Bool) (v : Fl) : Nat := pickNear (Config.vecApprox func (BitVec.ofNat 32 a)).toNat k abs24 v
  let x := ofF32 a
  let y := ofF32 b
  match func with
  | 0x001 => f32Of (flAdd x y)
  | 0x002 => f32Of (flAdd x (flNeg y))
  | 0x003 => f32Of (flMul x y)
  | 0x004 => f32Of (flAdd (flMul x y) (ofF32 imm0))
  | 0x005 => f32Of (flAdd (flMul x (ofF32 imm0)) (ofF32 imm1))
  | 0x006 => f32Pick func false a b
  | 0x007 => f32Pick func true a b
  | 0x008 => if x = .nan then canonNan fp32 else a % 2 ^ 31
  | 0x010 => f32Of (flDiv x y)
  | 0x011 => f32Of (flSqrt x)
  | 0x012 => if (flDiv flOne x).isZero then f32Of (flDiv flOne x) else near 1 false (flDiv flOne x)
  | 0x013 => if (flDiv flOne (flSqrt x)).isZero then f32Of (flDiv flOne (flSqrt x)) else near 1 false (flDiv flOne (flSqrt x))
  | 0x020 => near 2 false (flExp x)
  | 0x021 => near 2 false (flLn x)
  | 0x022 => near 4 true (flTanh x)
  | 0x023 => near 4 true (flSigmoid x)
  | 0x024 => if x = .inf true then (Config.vecOpen func (BitVec.ofNat 32 a) 0).toNat else near 4 true (flMul x (flPhi x))
  | 0x025 => if x = .inf true then (Config.vecOpen func (BitVec.ofNat 32 a) 0).toNat else near 4 true (flMul x (flSigmoid x))
  | 0x040 => if x = .nan then canonNan fp32 else a
  | _ => a

/-- An integer function on 32-bit words (R119, R120). -/
def vecInt (func : Nat) (imm0 : Nat) (a b : W32) : W32 :=
  match func with
  | 0x030 => a + b
  | 0x031 => a - b
  | 0x032 => a &&& b
  | 0x033 => a ||| b
  | 0x034 => a ^^^ b
  | 0x035 => a <<< (imm0 % 32)
  | _ => a >>> (imm0 % 32)

/-- A source element of an integer function. -/
def intElem (fmt x : Nat) : W32 := BitVec.ofInt 32 (if fmt = 8 then sgn 8 x else (x : Int))

/-- The sum of two FP32 words; with FTZ a subnormal addend counts as zero. -/
def f32Add (ftz : Bool) (a b : Nat) : Nat := f32Of (flAdd (ofF32 (f32Ftz ftz a)) (ofF32 (f32Ftz ftz b)))

/-- The sum of FP32 words by the fixed pairwise tree of R122. The pairs are neighbours, elements 2i and 2i + 1, at
every level (log entry 33). -/
def pairSum (ftz : Bool) : Nat → List Nat → Nat
  | _, [] => 0
  | _, [x] => x
  | 0, x :: _ => x
  | n + 1, l => pairSum ftz n ((chunks 2 l).map (fun g => match g with
      | [a, b] => f32Add ftz a b
      | _ => g.headD 0))

/-- A sum over a row (R122): groups of 128 by the tree, then the group results in ascending order. -/
def rowSum (ftz : Bool) (l : List Nat) : Nat :=
  match (chunks 128 l).map (pairSum ftz 8) with
  | [] => 0
  | g :: gs => gs.foldl (f32Add ftz) g

/-- A row function's value of one row (R120). -/
def rowValue (func : Nat) (ftz : Bool) (l : List Nat) : Nat :=
  if func = 0x080 then rowSum ftz l
  else match l with
  | [] => 0
  | x :: xs => xs.foldl (f32Pick func (decide (func = 0x081))) x

/-- The mean of a row, in FP32. -/
def rowMean (ftz : Bool) (l : List Nat) : Nat := f32Of (flDiv (ofF32 (rowSum ftz l)) (.fin false l.length 0))

/-- The exact values that the bounds of SOFTMAX, RMSNORM and LAYERNORM are about, with the sums inside formed as R122
says (R120, R122; log entry 33): `xs` is the row and `gs` the gain row. -/
def rowExact (func : Nat) (ftz : Bool) (imm0 imm1 : Nat) (xs gs : List Nat) : List Fl :=
  let fin (a : Nat) : Nat := f32Ftz ftz a
  if func = 0x083 then
    let top := match xs with
      | [] => 0
      | x :: l => l.foldl (fun a b => if flLt (ofF32 a) (ofF32 b) then b else a) x
    let es := xs.map (fun x => flExp (ofF32 (fin (f32Of (flAdd (ofF32 x) (flNeg (ofF32 top)))))))
    let sum := ofF32 (fin (rowSum ftz (es.map f32Of)))
    if xs.any (fun x => ofF32 x == .nan) then xs.map (fun _ => .nan) else es.map (fun e => flDiv e sum)
  else if func = 0x084 then
    let den := flSqrt (flAdd (ofF32 (fin (rowMean ftz (xs.map (fun x => fin (f32Of (flMul (ofF32 x) (ofF32 x)))))))) (ofF32 imm0))
    List.zipWith (fun x g => flMul (flDiv (ofF32 x) den) (ofF32 g)) xs gs
  else
    let mean := ofF32 (fin (rowMean ftz xs))
    let dev := xs.map (fun x => flAdd (ofF32 x) (flNeg mean))
    let var := rowMean ftz (dev.map (fun v => fin (f32Of (flMul (ofF32 (fin (f32Of v))) (ofF32 (fin (f32Of v)))))))
    let den := flSqrt (flAdd (ofF32 (fin var)) (ofF32 imm0))
    List.zipWith (fun v g => flAdd (flMul (flDiv v den) (ofF32 g)) (ofF32 imm1)) dev gs

/-- A row of SOFTMAX, RMSNORM or LAYERNORM: within 4 units in the last place each (R120). -/
def rowApprox (func : Nat) (ftz : Bool) (imm0 imm1 : Nat) (xs gs : List Nat) : List Nat :=
  ((rowExact func ftz imm0 imm1 xs gs).zipIdx).map (fun e =>
    pickNear (Config.vecRow func (xs.map (BitVec.ofNat 32)) (gs.map (BitVec.ofNat 32)) (BitVec.ofNat 32 imm0) (BitVec.ofNat 32 imm1) e.2).toNat
      4 false e.1)

/-- EMAX of an MX code (R102). -/
def mxEmax (code : Nat) : Int := [2, 2, 4, 8, 15].getD code 0

/-- The scale of a block of FP32 words and its elements before the conversion (R102). -/
def mxBlock (code : Nat) (l : List Nat) : Nat × Option Int :=
  let fs := l.map ofF32
  if fs.any (fun x => match x with | .fin _ _ _ => false | _ => true) then (0xFF, none)
  else
    let amax := (l.map (· % 2 ^ 31)).foldl max 0
    if amax = 0 then (0, some (-127))
    else match ofF32 amax with
      | .fin _ m e =>
        let x := (clampI (-127) 127 (e + bitLen m - 1 - mxEmax code)).1
        ((x + 127).toNat, some x)
      | _ => (0xFF, none)

/-- A draw of the generator for element `j` of row `r` (04 R171). -/
def vecDraw (seed : Nat) (d : Bytes) (r j : Nat) : Nat := philox seed j r (bits (vecDst d) 37 6) 2 0

/-- The conversion of an FP32 result to the destination format (R98 to R101). What a float function writes
into an integer format is not stated (log entry 31). -/
def vecConvert (d : Bytes) (round : Nat) (ftz : Bool) (seed r j x : Nat) : Nat :=
  match floatFmt (vecDFmt d) with
  | some f => flConvert f round (vecSat d) ftz (vecDraw seed d r j) (ofF32 x)
  | none => (Config.vecOpen (0x1000 + vecDFmt d) (BitVec.ofNat 32 x) 0).toNat % 2 ^ fmtBits (vecDFmt d)

/-- The elements of row `r` of QUANT_MX, and its scales (R102). -/
def quantRow (d : Bytes) (round : Nat) (ftz : Bool) (seed r : Nat) (l : List Nat) : List Nat × List Nat :=
  let bs := chunks 32 l
  let sc := bs.map (mxBlock (vecDFmt d))
  let es := (List.zip (List.range bs.length) (List.zip bs sc)).flatMap (fun g =>
    (List.zip (List.range g.2.1.length) g.2.1).map (fun e =>
      match g.2.2.2, floatFmt (vecDFmt d) with
      | some x, some f => flConvert f round true ftz (vecDraw seed d r (32 * g.1 + e.1)) (flScale (-x) (ofF32 e.2))
      | _, _ => 0))
  (es, sc.map (·.1))

/-- The FP32 words of row `r` after DEQUANT_MX (R103). An element that is subnormal in its own format counts in full;
FTZ is judged on the result. -/
def dequantRow (d : Bytes) (es scales : List Nat) : List Nat :=
  (List.zip (List.range es.length) es).map (fun e =>
    match blockScale (some (scales.getD (e.1 / 32) 0)) none with
    | none => canonNan fp32
    | some k => f32Of (flScale k (elemFl (vecS0Fmt d) false e.2)))

/-- A VEC body is well formed (R118 to R120, R135). MX_DST may be 0 or 1 of QUANT_MX to an MX format and is 0 of
every other function (log entry 144). -/
def vecFieldsOk (d : Bytes) : Bool :=
  let f := vecFunc d
  decide (le d 0x34 2 < 2 ^ 13) && vecFuncs.contains f && decide (vecRound d ≠ 3) && decide (fmtBits (vecDFmt d) ≠ 0) &&
  (if vecIsInt f then
    vecIntSrc (vecS0Fmt d) && (!vecTwo f || vecIntSrc (vecS1Fmt d)) && (decide (vecDFmt d = 0xA) || decide (vecDFmt d = 0xC))
   else vecFloatSrc (vecS0Fmt d) && (!vecTwo f || vecFloatSrc (vecS1Fmt d))) &&
  (!(decide (f = 0x090) || decide (f = 0x091)) || decide (vecLen d % 32 = 0)) &&
  (decide (f ≠ 0x090) || decide (vecDFmt d ≤ 4)) && (decide (f ≠ 0x091) || decide (vecS0Fmt d ≤ 4)) &&
  (!vecMxDst d || (decide (f = 0x090) && decide (vecDFmt d ≤ 4)))

/-- A row function with one result an element: SOFTMAX, RMSNORM and LAYERNORM (R120). -/
def vecRowWise (f : Nat) : Bool := decide (0x083 ≤ f) && decide (f ≤ 0x085)

/-- What row `r` of a VEC writes: its elements and its scales. A DEQUANT_MX to another format than FP32 rounds its
FP32 results (log entry 144). -/
def vecRowOut (d : Bytes) (round : Nat) (ftz : Bool) (seed r : Nat) (x y scales : List Nat) : List Nat × List Nat :=
  let f := vecFunc d
  if vecIsInt f then
    let ys := if vecTwo f then y else x
    (List.zipWith (fun a b => (vecInt f (vecImm0 d) (intElem (vecS0Fmt d) a) (intElem (vecS1Fmt d) b)).toNat) x ys, [])
  else
    let xs := if f = 0x091 then dequantRow d x scales else x.map (toF32Elem (vecS0Fmt d) ftz)
    let ys := if vecTwo f then y.map (toF32Elem (vecS1Fmt d) ftz) else xs
    if f = 0x090 then quantRow d round ftz seed r xs
    else
      let imm0 := f32Ftz ftz (vecImm0 d)
      let imm1 := f32Ftz ftz (vecImm1 d)
      let res : List Nat :=
        if vecReduces f then [rowValue f ftz xs]
        else if vecRowWise f then rowApprox f ftz imm0 imm1 xs ys
        else List.zipWith (vecFloat f imm0 imm1) xs ys
      ((List.zip (List.range res.length) res).map (fun e => vecConvert d round ftz seed r e.1 e.2), [])

/-- Rows of source 0 with its scales, and of source 1: one gain row where the function has one. -/
def State.vecRowsOf (s : State) (p i : Nat) (d : Bytes) : List OpRow × List OpRow :=
  let f := vecFunc d
  let rows := vecRows d
  let len := vecLen d
  ((List.range rows).map (fun r =>
      { es := s.tileRow p i (vecS0Fmt d) (vecS0 d) rows len r
        scales := if f = 0x091 then some (s.scaleRow p i (vecS0Fmt d) (vecS0 d) rows len r) else none }),
   if vecTwo f then
     let n := if vecGain f then 1 else rows
     (List.range n).map (fun r => { es := s.tileRow p i (vecS1Fmt d) (vecS1 d) n len r })
   else [])

/-- The bytes of a VEC's destination: its rows, and for QUANT_MX the scale plane after them (R135). -/
def State.vecBytesOut (s : State) (o : Op) (i : Nat) : Bytes :=
  let d := o.desc
  let f := vecFunc d
  let xy := s.vecRowsOf o.part i d
  let outs := (xy.1.zipIdx).map (fun e =>
    vecRowOut d (s.effRound i (vecRound d)) (s.effFtz i (vecFtz d)) o.seed e.2 e.1.es
      ((xy.2.getD (if vecGain f then 0 else e.2) {}).es) (e.1.scales.getD []))
  let w := fmtBits (vecDFmt d)
  let n := if vecReduces f then 1 else vecLen d
  let plane := (outs.map (fun x => pack w (pitchBits (n * w)) x.1)).flatten
  let scales := if f = 0x090 then (outs.map (fun x => pack 8 (pitchBits (n / 32 * 8)) x.2)).flatten else []
  plane ++ scales

/-- What the vector register file holds after an operation is not stated (R117; log entry 130). -/
def State.vecRegs (s : State) (i : Nat) : State :=
  let r := s.free
  r.2.modCore i (fun c => { c with vregs := (List.range 4096).foldl (fun t k => Tab.store (fun _ => 0) t k (Config.vecReg s.fresh k)) [] })

/-- The work of a VEC, its operands at hand. -/
def State.vecWork (o : Op) (i : Nat) (s : State) : State :=
  let d := o.desc
  let xy := s.vecRowsOf o.part i d
  let t := (s.stageIf i (vecS0 d) (stagedTile (vecS0Fmt d) (vecLen d) xy.1)).stageIf i (vecS1 d)
    (if vecTwo (vecFunc d) then stagedTile (vecS1Fmt d) (vecLen d) xy.2 else [])
  ((t.vecRegs i).resultTile o i (vecDst d) (s.vecBytesOut o i)).endOpCycles o.part o.tag stDone 0

/-- Bytes of the operands of a VEC where they stand. -/
def vecS0Size (d : Bytes) : Nat := operandBytes (vecS0Fmt d) (decide (vecFunc d = 0x091)) (vecS0 d) (vecRows d) (vecLen d)
def vecS1Size (d : Bytes) : Nat := operandBytes (vecS1Fmt d) false (vecS1 d) (if vecGain (vecFunc d) then 1 else vecRows d) (vecLen d)

/-- VEC on its physical core. -/
def State.vecOn (s : State) (o : Op) (i : Nat) (err : ScratchErr) : State :=
  let d := o.desc
  let two := vecTwo (vecFunc d)
  if s.scratchDenied i ([vecS0 d, vecDst d] ++ (if two then [vecS1 d] else [])) then s.endOpCycles o.part o.tag stNotPermitted 0
  else if !(vecFieldsOk d && s.addrOk i (vecS0 d) (vecS0Size d) && (!two || s.addrOk i (vecS1 d) (vecS1Size d)) &&
      s.addrOk i (vecDst d) (vecDBytes d)) then s.endOpCycles o.part o.tag stMalformed 0
  else (s.prepare o (namedReads d) (namedWrites d) 0 noWhole).finish o (fun t =>
    t.withErr i err (State.vecWork o i) (fun w u => u.result o i (vecDst d) ((u.vecBytesOut o i).take (64 * w)))
      (fun u => u.endOpCycles o.part o.tag stUncorrectable 0))

/-- VEC (R135). -/
def execVec (p : Fin 16) (tag : Fin 4096) (err : ScratchErr) (s : State) : Host.Outcome State Fault Refusal :=
  .next (s.runOp p tag 0x0200 (fun o => s.onCore o (fun i => s.vecOn o i err)))

end Sys2Proof.Machine
end

