-- ==== Sys2Proof/Machine/Dispatch.lean ====
section
/-!
DEFINITION. Machine/Dispatch.lean: what each command does, one arm per constructor of `Instr`.
-/
namespace Sys2Proof.Machine

def exec (i : Instr) (s : State) : Host.Outcome State Fault Refusal :=
  match i with
  | .vinRise mv => Sys2Proof.Machine.execVinRise mv s
  | .vinFall mv => Sys2Proof.Machine.execVinFall mv s
  | .vinHigh mv => Sys2Proof.Machine.execVinHigh mv s
  | .perstNAssert => Sys2Proof.Machine.execPerstNAssert s
  | .perstNDeassert recoveryN => Sys2Proof.Machine.execPerstNDeassert recoveryN s
  | .bootRomStart bistFail => Sys2Proof.Machine.execBootRomStart bistFail s
  | .startComplete => Sys2Proof.Machine.execStartComplete s
  | .mpWatchdogReset => Sys2Proof.Machine.execMpWatchdogReset s
  | .stage req => Sys2Proof.Machine.execStage req s
  | .stageComplete readOk => Sys2Proof.Machine.execStageComplete readOk s
  | .updateDiscard req => Sys2Proof.Machine.execUpdateDiscard req s
  | .activate req => Sys2Proof.Machine.execActivate req s
  | .updateLedgerRead req count => Sys2Proof.Machine.execUpdateLedgerRead req count s
  | .healthConfirm lost => Sys2Proof.Machine.execHealthConfirm lost s
  | .rejectSelf => Sys2Proof.Machine.execRejectSelf s
  | .fallbackTimeout => Sys2Proof.Machine.execFallbackTimeout s
  | .enterIdle => Sys2Proof.Machine.execEnterIdle s
  | .doze req => Sys2Proof.Machine.execDoze req s
  | .dozeWake => Sys2Proof.Machine.execDozeWake s
  | .wakingDone => Sys2Proof.Machine.execWakingDone s
  | .throttleStep tj sensor inputW => Sys2Proof.Machine.execThrottleStep tj sensor inputW s
  | .thermalTrip tj => Sys2Proof.Machine.execThermalTrip tj s
  | .tamperAlarm src => Sys2Proof.Machine.execTamperAlarm src s
  | .sweepMarkCleared => Sys2Proof.Machine.execSweepMarkCleared s
  | .orphanZeroiseDone => Sys2Proof.Machine.execOrphanZeroiseDone s
  | .keyWrite m readBack => Sys2Proof.Machine.execKeyWrite m readBack s
  | .keyDerive m readBack => Sys2Proof.Machine.execKeyDerive m readBack s
  | .keyWrap m => Sys2Proof.Machine.execKeyWrap m s
  | .keyUnwrap m readBack => Sys2Proof.Machine.execKeyUnwrap m readBack s
  | .keyOrphan m => Sys2Proof.Machine.execKeyOrphan m s
  | .keyZeroise m readBack => Sys2Proof.Machine.execKeyZeroise m readBack s
  | .keyInfo m => Sys2Proof.Machine.execKeyInfo m s
  | .sign m => Sys2Proof.Machine.execSign m s
  | .memRotate m => Sys2Proof.Machine.execMemRotate m s
  | .lcAdvance m => Sys2Proof.Machine.execLcAdvance m s
  | .factoryTransition => Sys2Proof.Machine.execFactoryTransition s
  | .tamperRead m => Sys2Proof.Machine.execTamperRead m s
  | .rngStartupDone => Sys2Proof.Machine.execRngStartupDone s
  | .rngSeeded katOk => Sys2Proof.Machine.execRngSeeded katOk s
  | .healthTestFailure rct apt => Sys2Proof.Machine.execHealthTestFailure rct apt s
  | .drbgReseed => Sys2Proof.Machine.execDrbgReseed s
  | .generateCall => Sys2Proof.Machine.execGenerateCall s
  | .rngTestWrite req v => Sys2Proof.Machine.execRngTestWrite req v s
  | .deviceCharterLoad req => Sys2Proof.Machine.execDeviceCharterLoad req s
  | .jobCharterLoad req p => Sys2Proof.Machine.execJobCharterLoad req p s
  | .charterPause p => Sys2Proof.Machine.execCharterPause p s
  | .pauseCutoff p => Sys2Proof.Machine.execPauseCutoff p s
  | .charterApply => Sys2Proof.Machine.execCharterApply s
  | .charterRemove req p => Sys2Proof.Machine.execCharterRemove req p s
  | .removalComplete => Sys2Proof.Machine.execRemovalComplete s
  | .removalForced => Sys2Proof.Machine.execRemovalForced s
  | .rwlWrite req off size v => Sys2Proof.Machine.execRwlWrite req off size v s
  | .registerWrite req off size v same => Sys2Proof.Machine.execRegisterWrite req off size v same s
  | .pairLoRead req off size => Sys2Proof.Machine.execPairLoRead req off size s
  | .pairLoWrite req off v => Sys2Proof.Machine.execPairLoWrite req off v s
  | .pairHiWrite req off v => Sys2Proof.Machine.execPairHiWrite req off v s
  | .errIndexWrite req v => Sys2Proof.Machine.execErrIndexWrite req v s
  | .slotWrite f off data => Sys2Proof.Machine.execSlotWrite f off data s
  | .descriptorFetch f => Sys2Proof.Machine.execDescriptorFetch f s
  | .admitDesc f => Sys2Proof.Machine.execAdmitDesc f s
  | .opDispatch p tag => Sys2Proof.Machine.execOpDispatch p tag s
  | .opComplete p tag => Sys2Proof.Machine.execOpComplete p tag s
  | .recordWrite f r => Sys2Proof.Machine.execRecordWrite f r s
  | .coalTimeout f r => Sys2Proof.Machine.execCoalTimeout f r s
  | .cqHeadWrite f r v => Sys2Proof.Machine.execCqHeadWrite f r v s
  | .cqCfgWrite f r v => Sys2Proof.Machine.execCqCfgWrite f r v s
  | .winEnable f v => Sys2Proof.Machine.execWinEnable f v s
  | .winReset f => Sys2Proof.Machine.execWinReset f s
  | .cancelAll f => Sys2Proof.Machine.execCancelAll f s
  | .cancel f => Sys2Proof.Machine.execCancel f s
  | .phaseSwitch f => Sys2Proof.Machine.execPhaseSwitch f s
  | .drainTimeout p => Sys2Proof.Machine.execDrainTimeout p s
  | .phaseOpen p => Sys2Proof.Machine.execPhaseOpen p s
  | .coreFault c k cause line => Sys2Proof.Machine.execCoreFault c k cause line s
  | .coreHang c k => Sys2Proof.Machine.execCoreHang c k s
  | .mma p tag err => Sys2Proof.Machine.execMma p tag err s
  | .vec p tag err => Sys2Proof.Machine.execVec p tag err s
  | .accExport p tag err => Sys2Proof.Machine.execAccExport p tag err s
  | .accSettle p tag err => Sys2Proof.Machine.execAccSettle p tag err s
  | .ctxClose req c k v => Sys2Proof.Machine.execCtxClose req c k v s
  | .scratchSplitWrite req c k v => Sys2Proof.Machine.execScratchSplitWrite req c k v s
  | .scratchSplitApply c k => Sys2Proof.Machine.execScratchSplitApply c k s
  | .srSeedWrite req c k hi => Sys2Proof.Machine.execSrSeedWrite req c k hi s
  | .accPolicyWrite req c k v => Sys2Proof.Machine.execAccPolicyWrite req c k v s
  | .coreEccClear req c k => Sys2Proof.Machine.execCoreEccClear req c k s
  | .hoardEccClear req => Sys2Proof.Machine.execHoardEccClear req s
  | .copy p tag => Sys2Proof.Machine.execCopy p tag s
  | .fill p tag => Sys2Proof.Machine.execFill p tag s
  | .discard p tag => Sys2Proof.Machine.execDiscard p tag s
  | .streamOpen p tag => Sys2Proof.Machine.execStreamOpen p tag s
  | .streamClose p tag => Sys2Proof.Machine.execStreamClose p tag s
  | .map p tag => Sys2Proof.Machine.execMap p tag s
  | .pin p tag => Sys2Proof.Machine.execPin p tag s
  | .unpin p tag => Sys2Proof.Machine.execUnpin p tag s
  | .place p tag => Sys2Proof.Machine.execPlace p tag s
  | .evict p tag => Sys2Proof.Machine.execEvict p tag s
  | .moveCommit p vfn res => Sys2Proof.Machine.execMoveCommit p vfn res s
  | .lowWaterEviction col => Sys2Proof.Machine.execLowWaterEviction col s
  | .ageTick => Sys2Proof.Machine.execAgeTick s
  | .patrolScrub frame row res by_ => Sys2Proof.Machine.execPatrolScrub frame row res by_ s
  | .channelRetire ch bad => Sys2Proof.Machine.execChannelRetire ch bad s
  | .walkerMove p => Sys2Proof.Machine.execWalkerMove p s
  | .scrubZeroed hoard frame => Sys2Proof.Machine.execScrubZeroed hoard frame s
  | .streamPrefetch c st => Sys2Proof.Machine.execStreamPrefetch c st s
  | .streamCtrlWrite req c st v => Sys2Proof.Machine.execStreamCtrlWrite req c st v s
  | .pullReq port frame => Sys2Proof.Machine.execPullReq port frame s
  | .confirm port frame => Sys2Proof.Machine.execConfirm port frame s
  | .refuse port frame => Sys2Proof.Machine.execRefuse port frame s
  | .moveWaitExpiry p => Sys2Proof.Machine.execMoveWaitExpiry p s
  | .ptpMessage port frame sub => Sys2Proof.Machine.execPtpMessage port frame sub s
  | .ptpSend kind sub => Sys2Proof.Machine.execPtpSend kind sub s
  | .ppsInEdge sub => Sys2Proof.Machine.execPpsInEdge sub s
  | .tod msg => Sys2Proof.Machine.execTod msg s
  | .sourceLost => Sys2Proof.Machine.execSourceLost s
  | .holdoverLimitExceeded => Sys2Proof.Machine.execHoldoverLimitExceeded s
  | .ftimeHoldWrite req v => Sys2Proof.Machine.execFtimeHoldWrite req v s
  | .windowDefine p tag => Sys2Proof.Machine.execWindowDefine p tag s
  | .windowOpen p tag => Sys2Proof.Machine.execWindowOpen p tag s
  | .windowClose p tag => Sys2Proof.Machine.execWindowClose p tag s
  | .windowDiscard p tag => Sys2Proof.Machine.execWindowDiscard p tag s
  | .windowFree p tag => Sys2Proof.Machine.execWindowFree p tag s
  | .tallyIngest p tag hostOk sub => Sys2Proof.Machine.execTallyIngest p tag hostOk sub s
  | .ledgerRead p tag => Sys2Proof.Machine.execLedgerRead p tag s
  | .openAt w => Sys2Proof.Machine.execOpenAt w s
  | .closeAt w => Sys2Proof.Machine.execCloseAt w s
  | .graceEnd w => Sys2Proof.Machine.execGraceEnd w s
  | .idleTimeout w contributor => Sys2Proof.Machine.execIdleTimeout w contributor s
  | .reversalDone w contributor => Sys2Proof.Machine.execReversalDone w contributor s
  | .submit port frame sub => Sys2Proof.Machine.execSubmit port frame sub s
  | .hamperPop h => Sys2Proof.Machine.execHamperPop h s
  | .slotSummed h => Sys2Proof.Machine.execSlotSummed h s
  | .retentionAppend => Sys2Proof.Machine.execRetentionAppend s
  | .commit w contributor => Sys2Proof.Machine.execCommit w contributor s
  | .sliceFail k => Sys2Proof.Machine.execSliceFail k s
  | .recoverSelf p tag go => Sys2Proof.Machine.execRecoverSelf p tag go s
  | .recoverPair p tag go => Sys2Proof.Machine.execRecoverPair p tag go s
  | .recoverFinish p tag => Sys2Proof.Machine.execRecoverFinish p tag s
  | .release p tag => Sys2Proof.Machine.execRelease p tag s
  | .recLedgerRead p tag => Sys2Proof.Machine.execRecLedgerRead p tag s
  | .timedRelease w => Sys2Proof.Machine.execTimedRelease w s
  | .releaseCopyDone w => Sys2Proof.Machine.execReleaseCopyDone w s
  | .paramLoad p tag => Sys2Proof.Machine.execParamLoad p tag s
  | .paramDrop p tag => Sys2Proof.Machine.execParamDrop p tag s
  | .keyBind p tag => Sys2Proof.Machine.execKeyBind p tag s
  | .ctAdd p tag => Sys2Proof.Machine.execCtAdd p tag s
  | .ctSub p tag => Sys2Proof.Machine.execCtSub p tag s
  | .ptAdd p tag => Sys2Proof.Machine.execPtAdd p tag s
  | .ptMul p tag => Sys2Proof.Machine.execPtMul p tag s
  | .ctMul p tag => Sys2Proof.Machine.execCtMul p tag s
  | .relin p tag => Sys2Proof.Machine.execRelin p tag s
  | .rotate p tag => Sys2Proof.Machine.execRotate p tag s
  | .rescale p tag => Sys2Proof.Machine.execRescale p tag s
  | .modDrop p tag => Sys2Proof.Machine.execModDrop p tag s
  | .ntt p tag => Sys2Proof.Machine.execNtt p tag s
  | .intt p tag => Sys2Proof.Machine.execIntt p tag s
  | .limbMuladd p tag => Sys2Proof.Machine.execLimbMuladd p tag s
  | .macroOp p tag => Sys2Proof.Machine.execMacroOp p tag s
  | .polyEngineFail e => Sys2Proof.Machine.execPolyEngineFail e s
  | .ack port frame => Sys2Proof.Machine.execAck port frame s
  | .ackDelayExpiry p peer => Sys2Proof.Machine.execAckDelayExpiry p peer s
  | .fetch port frame => Sys2Proof.Machine.execFetch port frame s
  | .folio port frame => Sys2Proof.Machine.execFolio port frame s
  | .frameTransmit port sub => Sys2Proof.Machine.execFrameTransmit port sub s
  | .rekeyAt p => Sys2Proof.Machine.execRekeyAt p s
  | .keygenRetire p peer => Sys2Proof.Machine.execKeygenRetire p peer s
  | .rtoExpiry p peer => Sys2Proof.Machine.execRtoExpiry p peer s
  | .evidenceReq port frame => Sys2Proof.Machine.execEvidenceReq port frame s
  | .admitHello port frame => Sys2Proof.Machine.execAdmitHello port frame s
  | .admitConfirm port frame => Sys2Proof.Machine.execAdmitConfirm port frame s
  | .admitTimeout p => Sys2Proof.Machine.execAdmitTimeout p s
  | .addressResolution port frame => Sys2Proof.Machine.execAddressResolution port frame s
  | .laneFail lane cause => Sys2Proof.Machine.execLaneFail lane cause s
  | .retrainComplete port => Sys2Proof.Machine.execRetrainComplete port s
  | .retrain req port => Sys2Proof.Machine.execRetrain req port s
  | .configRequest f off wr => Sys2Proof.Machine.execConfigRequest f off wr s
  | .flr f => Sys2Proof.Machine.execFlr f s
  | .lockInterfaceRequest f => Sys2Proof.Machine.execLockInterfaceRequest f s
  | .startInterfaceRequest f => Sys2Proof.Machine.execStartInterfaceRequest f s
  | .stopInterfaceRequest f => Sys2Proof.Machine.execStopInterfaceRequest f s
  | .ideIntegrityFailure f => Sys2Proof.Machine.execIdeIntegrityFailure f s
  | .lockedSettingWrite f => Sys2Proof.Machine.execLockedSettingWrite f s
  | .requestWithoutTBit f => Sys2Proof.Machine.execRequestWithoutTBit f s
  | .ideKm f stream key secure => Sys2Proof.Machine.execIdeKm f stream key secure s
  | .doeDiscovery f index => Sys2Proof.Machine.execDoeDiscovery f index s
  | .getVersion f msg => Sys2Proof.Machine.execGetVersion f msg s
  | .getCapabilities f msg => Sys2Proof.Machine.execGetCapabilities f msg s
  | .negotiateAlgorithms f msg => Sys2Proof.Machine.execNegotiateAlgorithms f msg s
  | .getDigests f msg => Sys2Proof.Machine.execGetDigests f msg s
  | .getCertificate f msg => Sys2Proof.Machine.execGetCertificate f msg s
  | .challenge f msg => Sys2Proof.Machine.execChallenge f msg s
  | .getMeasurements f msg => Sys2Proof.Machine.execGetMeasurements f msg s
  | .keyExchange f msg => Sys2Proof.Machine.execKeyExchange f msg s
  | .finish f sess msg => Sys2Proof.Machine.execFinish f sess msg s
  | .heartbeat f sess msg => Sys2Proof.Machine.execHeartbeat f sess msg s
  | .keyUpdate f sess msg => Sys2Proof.Machine.execKeyUpdate f sess msg s
  | .endSession f sess msg => Sys2Proof.Machine.execEndSession f sess msg s
  | .vendorDefinedRequest f sess msg => Sys2Proof.Machine.execVendorDefinedRequest f sess msg s
  | .mctpControl i3c msg => Sys2Proof.Machine.execMctpControl i3c msg s
  | .dmaIn p tag hostOk => Sys2Proof.Machine.execDmaIn p tag hostOk s
  | .dmaOut p tag hostOk => Sys2Proof.Machine.execDmaOut p tag hostOk s
  | .bmeClear f => Sys2Proof.Machine.execBmeClear f s
  | .bmeSet f => Sys2Proof.Machine.execBmeSet f s
  | .hoardApertureAccess addr len wr => Sys2Proof.Machine.execHoardApertureAccess addr len wr s
  | .dbgMuxCtrlWrite req v => Sys2Proof.Machine.execDbgMuxCtrlWrite req v s
  | .profClear req => Sys2Proof.Machine.execProfClear req s
  | .counterSnapshot => Sys2Proof.Machine.execCounterSnapshot s
  | .jtagInstruction ins => Sys2Proof.Machine.execJtagInstruction ins s
  | .dbgAccess off wr => Sys2Proof.Machine.execDbgAccess off wr s
  | .hostLinkRetrain up flit width speed => Sys2Proof.Machine.execHostLinkRetrain up flit width speed s
  | .ppsOutPulse fall => Sys2Proof.Machine.execPpsOutPulse fall s
  | .strongboxSelfCheckFailure => Sys2Proof.Machine.execStrongboxSelfCheckFailure s
  | .alarmConditionEnds src => Sys2Proof.Machine.execAlarmConditionEnds src s
  | .vinHighCleared mv => Sys2Proof.Machine.execVinHighCleared mv s
  | .jtagTapReset => Sys2Proof.Machine.execJtagTapReset s

end Sys2Proof.Machine
end

