-- ==== Sys2Proof/Safety.lean ====
section
/-!
DEFINITION. Safety.lean: what a safe run is, in the terms that claims use: no step stops, and every state holds its
memories and tables in their one form and its ledgers within their capacities.
-/
namespace Sys2Proof

/-- A step answers a next state: it neither faults nor refuses. -/
def Safe (s : Machine.State) : Prop := ∃ t, Machine.step s = .next t

/-- `n` steps from a state all answer a next state. -/
def SafeFor (n : Nat) (s : Machine.State) : Prop := ∃ t, core.run n s = .next t

namespace Machine

/-- The invariant of every state: the memories and the register file are in canonical form, the error ledger holds
at most 4,096 entries (19 R730) and the tamper ledger at most 64 (15 R651). -/
structure Inv (s : State) : Prop where
  hostMem : Memory.wf s.hostMem = true
  scratch : Memory.wf s.scratch = true
  slots : Memory.wf s.slots = true
  hoard : Memory.wf s.folio.hoard = true
  lpddr : Memory.wf s.folio.lpddr = true
  flash : Memory.wf s.mgmt.flash = true
  regs : Tab.wf regReset s.regs = true
  errs : s.errs.length ≤ 4096
  tamperLog : s.sbox.tamperLog.length ≤ 64

/-- The command answers a next state, of which `P` holds. -/
def Answers (c : Instr) (s : State) (P : State → Prop) : Prop := ∃ t, exec c s = .next t ∧ P t

/-- The operation of partition `p` with a tag has ended with a status, and its record is still to come. -/
def State.EndedWith (t : State) (p tag status : Nat) : Prop :=
  ∃ q, t.findOp p tag = some q ∧ q.stage = .finished ∧ q.status = status

/-- Every byte of the Hoard, of LPDDR5X, of the cores' scratch, of the command windows, of flash and of host memory
reads as before, but for the Hoard addresses that `hoard`, the LPDDR5X addresses that `lpddr`, the scratch addresses
that `scratch`, the window addresses that `slots`, and the host addresses that `host` picks. -/
def SameMemoryBut (s t : State) (hoard lpddr scratch slots host : Nat → Prop) : Prop :=
  (∀ a, ¬hoard a → Mem.get t.folio.hoard a = Mem.get s.folio.hoard a) ∧
  (∀ a, ¬lpddr a → Mem.get t.folio.lpddr a = Mem.get s.folio.lpddr a) ∧
  (∀ a, ¬scratch a → Mem.get t.scratch a = Mem.get s.scratch a) ∧
  (∀ a, ¬slots a → Mem.get t.slots a = Mem.get s.slots a) ∧
  (∀ a, ¬host a → Mem.get t.hostMem a = Mem.get s.hostMem a) ∧
  (∀ a, Mem.get t.mgmt.flash a = Mem.get s.mgmt.flash a)

/-- Nothing is picked. -/
def nowhere : Nat → Prop := fun _ => False

/-- The addresses of a range. -/
def inRange (a n : Nat) : Nat → Prop := fun x => a ≤ x ∧ x < a + n

/-- Every byte of every memory reads as before. -/
def SameMemory (s t : State) : Prop := SameMemoryBut s t nowhere nowhere nowhere nowhere nowhere

/-- Every register but those that `but` picks holds what it held. -/
def SameRegsBut (s t : State) (but : Nat → Prop) : Prop := ∀ a, ¬but a → t.reg a = s.reg a

/-- No accumulator of the window shares a byte with another of it (10 R420). -/
def Window.AccApart (x : Window) : Prop :=
  ∀ e f, e < x.geo.length → f < x.geo.length → e ≠ f → x.accAddr e + accBytes x.geo.elem ≤ x.accAddr f ∨
    x.accAddr f + accBytes x.geo.elem ≤ x.accAddr e

/-- Folio `v` of partition `p` may be read and written by operation `o` where it stands: it is resident with a valid
Hoard copy, is no PEER folio, is not handed off, and no earlier DISCARD of it waits. -/
structure State.FolioHeld (s : State) (o : Op) (p v : Nat) : Prop where
  rank : s.unranked p v = false
  discard : s.discardBefore o v = false
  handoff : s.handedOff p v = false
  resident : (s.leaf p v).state = .resident
  hvalid : (s.leaf p v).hvalid = true
  cls : (s.leaf p v).cls ≠ .peer

/-- Every folio of some ranges is held, in frames of their own. -/
structure State.RangesHeld (s : State) (o : Op) (p : Nat) (rs : List VRange) : Prop where
  held : ∀ r ∈ rs, ∀ v ∈ foliosOf r, s.FolioHeld o p v
  apart : ∀ r ∈ rs, ∀ r' ∈ rs, ∀ v ∈ foliosOf r, ∀ w ∈ foliosOf r', v ≠ w → (s.leaf p v).hframe ≠ (s.leaf p w).hframe

/-- The Hoard addresses of the bytes of some ranges of partition `p`. -/
def State.inRanges (s : State) (p : Nat) (rs : List VRange) : Nat → Prop :=
  fun b => ∃ r ∈ rs, ∃ i, i < r.2 ∧ b = 65536 * (s.leaf p ((r.1 + i) / 65536)).hframe + (r.1 + i) % 65536

/-- The header of a frame that leaves on the stream of partition `p` to peer `i` now (13 R533, R543, R546). -/
def State.headerOf (s : State) (p i gen seq try_ : Nat) (ackFrame : Bool) (m : TxMsg) : Ryt :=
  let l := s.link p i
  let valid := ackFrame || decide (0 < l.accepts)
  { type := m.type, job := s.jobId p, flow := m.flow, peer := (s.part p).adm.own, seq := seq,
    ack := if valid then l.rxNext else 0, sack := if valid then l.sack else 0, keygen := gen % 256, try_ := try_,
    ackValid := valid, more := m.more, credit := if valid then min (l.w / 256) s.creditCap else 0, stamp := s.stamp256 / 256 }

/-- Frame `f` leaves port `e.port` as the frame of message `m` on the stream of partition `p` to peer `e`. -/
def State.IsFrame (s : State) (p : Nat) (e : Peer) (gen seq try_ : Nat) (ackFrame : Bool) (m : TxMsg) (f : Bytes) : Prop :=
  ∃ prk ent mac, s.jobPrk p = some prk ∧ s.portEnt e.port = some ent ∧ (s.port e.port).nextMac = some mac ∧
    f = udpFrame e.port ent mac e.address e.udp
      (sealRyt (trafficKey prk (s.part p).adm.own e.index gen) (s.headerOf p e.index gen seq try_ ackFrame m) m.body)

/-- Frame `f` of message `type` on a port passes the MAC, the addresses and the stranger filter, and is authentic: it
is of partition `p`'s job, from peer `e`, in the generation in force, with header `h` and content `body`; `u` is the
state once the frame is counted. -/
structure State.Arrives (s : State) (port : Nat) (f : Bytes) (type : Nat) (u : State) (p : Nat) (e : Peer) (h : Ryt)
    (body : Bytes) : Prop where
  frame : ∃ r prk, s.rxFrame port f = .ryt u r h ∧ e.address = r.addr ∧ s.jobPrk p = some prk ∧
    openRyt (trafficKey prk e.index (s.part p).adm.own (s.link p e.index).rxGen) h r.body = some body
  type_ : h.type = type
  job : (List.range 16).find? (fun q => s.admitted q && s.jobId q == h.job && decide ((s.part q).adm.known ≤ s.cycles)) = some p
  peer : s.peer p h.peer = some e
  gen : (s.link p e.index).rxGen % 256 = h.keygen
  relay : h.type = 1 → e.role = 1
  package : 2 ≤ h.type → e.role = 0

/-- The frame with header `h` is the next of its stream and a whole message, no frame is held, it acknowledges nothing,
and no ACK frame is due for it. -/
structure State.IsNext (s : State) (p : Nat) (e : Peer) (h : Ryt) : Prop where
  ack : h.ackValid = false
  seq : h.seq = (s.link p e.index).rxNext
  whole : h.more = false
  asm : (s.link p e.index).asm = []
  held : (s.link p e.index).held = []
  few : (s.link p e.index).accepts < 15

/-- Frame `f` of job 0 is a whole message of `type` with content `body`, within the rate; `u` is the state once it is
counted. -/
structure State.ArrivesZero (s : State) (port : Nat) (f : Bytes) (type : Nat) (u : State) (r : RxUdp) (h : Ryt)
    (body : Bytes) : Prop where
  frame : ∃ t, s.rxFrame port f = .ryt t r h ∧ t.zeroRate port = (u, true)
  type_ : h.type = type
  job0 : h.job = 0
  long : 48 ≤ r.body.length
  tag : allZero (r.body.drop (r.body.length - 16)) = true
  whole : h.more = false
  none_ : (u.port port).zero = []
  content : body = slice r.body 32 (r.body.length - 48)

/-- Mailbox `m` runs its command, of opcode `oc`: it is busy and waits for nothing, the MP's mailbox does not come
first, and the package is not in tamper hold (15 R627, R647). -/
structure State.MbxRuns (s : State) (m : Mbx) (oc : Nat) : Prop where
  busy : (s.mbx m).busy = true
  opcode : (s.mbx m).opcode = oc
  noWait : (s.mbx m).waitRng = false
  first : m = .pf → s.sbox.mp.busy = false
  hold : s.tamperHold = false

/-- The command of mailbox `m` has ended with a status and an output; the rest of its buffer is zero (15 R653). -/
def State.MbxEnded (t : State) (m : Mbx) (status : Nat) (out : Bytes) : Prop :=
  (t.mbx m).busy = false ∧ (t.mbx m).status = status ∧ (t.mbx m).len = out.length ∧ (t.mbx m).data = fit 256 out

/-- Every slot of the Strongbox but those that `but` picks holds what it held. -/
def SameSlotsBut (s t : State) (but : Nat → Prop) : Prop := ∀ i, ¬but i → t.slot i = s.slot i

end Machine

end Sys2Proof
end

