-- ==== Sys2Proof/Certificates/Slice0/Obligations.lean ====
section
/-!
DEFINITION. Certificates/Slice0/Obligations.lean: the statements for the provers.
-/

open Sys2Proof Sys2Proof.Machine

/-- For every command and state, a step with the command at the front of the queue is that command on the state with
the rest of the queue. -/
def Obligations.StepRunsFront : Prop :=
  ∀ (c : Instr) (rest : List Instr) (s : State), s.pending = c :: rest →
    step s = exec c { s with pending := rest }

/-- On an empty queue a powered package passes one reference cycle: the accumulator of federation time grows by the rate
word modulo 2^96 (08 R351), and nothing else but the count of cycles changes; a package that is off does not change.
That an idle step is one cycle is the model's choice (log entry 1). -/
def Obligations.IdleStepCountsTime : Prop :=
  ∀ s : State, s.pending = [] →
    (s.power = .off → step s = .next s) ∧
    (s.power ≠ .off → step s = .next
      { s with cycles := s.cycles + 1, ft := { s.ft with acc := (s.ft.acc + s.ft.rate) % 2 ^ 96 } })

/-- At reset the memories and the register file are in canonical form and the ledgers are within their capacities. -/
def Obligations.InvAtReset : Prop := Inv State.reset

/-- From every state whose memories and register file are in canonical form, whose error ledger holds at most 4,096
entries (19 R730) and whose tamper ledger at most 64 (15 R651), a step gives such a state. -/
def Obligations.StepKeepsInv : Prop := ∀ s t : State, Inv s → step s = .next t → Inv t

/-- Whatever command runs, the commands that wait are after it what they were before. The queue is the model's own. -/
def Obligations.CommandsLeaveTheQueue : Prop :=
  ∀ (c : Instr) (s t : State), exec c s = .next t → t.pending = s.pending

/-- In every state each command of the table answers a next state: nothing stops the model. -/
def Obligations.EveryCommandCompletes : Prop := ∀ (c : Instr) (s : State), ∃ t, exec c s = .next t

/-- Whatever command runs, the life-cycle state stays, or it makes a transition of the table of 15 R608; and only
FACTORY_TRANSITION and LC_ADVANCE make one. -/
def Obligations.LifeCycleOneWay : Prop :=
  ∀ (c : Instr) (s t : State), exec c s = .next t →
    t.sbox.lc = s.sbox.lc ∨
    (c = .factoryTransition ∧ s.sbox.lc = .blank ∧ t.sbox.lc = .factory) ∨
    ((∃ m, c = .lcAdvance m) ∧
      ((s.sbox.lc = .factory ∧ t.sbox.lc = .service) ∨ (s.sbox.lc = .service ∧ t.sbox.lc = .returned) ∨
       (s.sbox.lc = .factory ∧ t.sbox.lc = .scrapped) ∨ (s.sbox.lc = .service ∧ t.sbox.lc = .scrapped) ∨
       (s.sbox.lc = .returned ∧ t.sbox.lc = .scrapped)))

/-- Whatever command runs, from whatever state, the anti-rollback counter (18 R696, R707) is at least what it was. -/
def Obligations.AntiRollbackNeverFalls : Prop :=
  ∀ (c : Instr) (s t : State), exec c s = .next t → s.mgmt.counter ≤ t.mgmt.counter

/-- SLOT_WRITE (05 R200 to R202), DESCRIPTOR_FETCH (R203 to R205, R208), WIN_ENABLE (R205) and WIN_RESET (R203). -/
def Obligations.WindowWritesAndFetch : Prop :=
  (∀ (f : Fin 64) (off : Nat) (data : Bytes) (s : State), Inv s →
    s.winServed f = true → off + data.length ≤ 65536 →
    Answers (.slotWrite f off data) s fun t =>
      (∀ i, i < data.length → Mem.get t.slots (winKey f (off + i)) =
        if dOwner (s.slotBytes f ((off + i) / 64)) then Mem.get s.slots (winKey f (off + i)) else data.getD i 0) ∧
      SameMemoryBut s t nowhere nowhere nowhere (inRange (winKey f off) data.length) nowhere ∧
      SameRegsBut s t nowhere ∧
      (∀ n, n = ((List.range 1024).filter (fun k => decide (0 < data.length) && decide (off / 64 ≤ k) &&
          decide (k ≤ (off + data.length - 1) / 64) && dOwner (s.slotBytes f k))).length →
        (t.func f).discards = if n = 0 then (s.func f).discards else min 1023 ((s.func f).discards + n))) ∧
  (∀ (f : Fin 64) (off : Nat) (data : Bytes) (s : State), 65536 < off + data.length →
    exec (.slotWrite f off data) s = .next s) ∧
  (∀ (f : Fin 64) (s : State) (i : Nat) (d : Bytes), Inv s → i = (s.func f).fetchPtr → d = s.slotBytes f i →
    s.partsRun = true → s.fetchNext = some f.val →
    Answers (.descriptorFetch f) s fun t =>
      t.fetchTurn = (f + 1) % 64 ∧ (t.func f).fetchPtr = (i + 1) % 1024 ∧ (t.func f).fetched = (s.func f).fetched + 1 ∧
      Mem.get t.slots (winKey f (64 * i + 3)) = Mem.get s.slots (winKey f (64 * i + 3)) &&& 0x7F ∧
      SameMemoryBut s t nowhere nowhere nowhere (fun a => a = winKey f (64 * i + 3)) nowhere ∧
      SameRegsBut s t nowhere ∧
      match s.admCheck f d with
      | none => (t.func f).held = some { desc := d, slot := i, fetchNo := (s.func f).fetched } ∧ t.recs = s.recs
      | some (st, scores) =>
        (t.func f).held = none ∧
        ((s.func f).discard = false → ∃ r, t.recs = s.recs ++ [r] ∧ r.func = f.val ∧ r.hasEntry = false ∧
          r.bytes = mkRecord (dTag d) 0xFF (dTenant d) (dPhase d) st 0 s.ftNs (slice d 0x14 4) 0 i 0) ∧
        (scores = true → t.lastOk (dTenant d) (dTag d) = false)) ∧
  (∀ (s : State) (i : Nat), i < 64 → s.fetchable ((s.fetchTurn + i) % 64) = true →
    (∀ j, j < i → s.fetchable ((s.fetchTurn + j) % 64) = false) → s.fetchNext = some ((s.fetchTurn + i) % 64)) ∧
  (∀ (f : Fin 64) (s : State), s.fetchNext ≠ some f.val → exec (.descriptorFetch f) s = .next s) ∧
  (∀ (f : Fin 64) (v : W32) (s : State), Inv s → s.regsServed = true → (v.getLsbD 0 = true → s.ringOn f 0 = true) →
    Answers (.winEnable f v) s fun t =>
      t.reg (aSchedWinCtrl f) = BitVec.ofNat 32 (b2n (v.getLsbD 0)) ∧ SameRegsBut s t (fun a => a = aSchedWinCtrl f) ∧
      SameMemory s t ∧ t.funcs = s.funcs) ∧
  (∀ (f : Fin 64) (v : W32) (s : State), v.getLsbD 0 = true → s.ringOn f 0 = false →
    exec (.winEnable f v) s = .next s) ∧
  (∀ (f : Fin 64) (s : State), Inv s → s.regsServed = true → s.winOn f = false →
    Answers (.winReset f) s fun t =>
      (t.func f).fetchPtr = 0 ∧ (t.func f).discards = 0 ∧
      (∀ i, i < 1024 → Mem.get t.slots (winKey f (64 * i + 3)) = Mem.get s.slots (winKey f (64 * i + 3)) &&& 0x7F) ∧
      SameMemoryBut s t nowhere nowhere nowhere (fun a => ∃ i, i < 1024 ∧ a = winKey f (64 * i + 3)) nowhere ∧
      SameRegsBut s t nowhere)

/-- ADMIT (05 R209 to R211, R214, R219), OP_DISPATCH (R217, 14 R596) and OP_COMPLETE (R215, R234). Where LOOKAHEAD is
not 0 (R218), the folios of the operands of the next operations of the core's window are fetched ahead (log entry 131),
which touches no operation. -/
def Obligations.AdmissionAndDispatch : Prop :=
  (∀ (f : Fin 64) (s : State) (h : Held) (core holder unit : Nat),
    (s.func f).held = some h → s.partsRun = true → dOpcode h.desc ≠ 0x0010 → dOpcode h.desc ≠ 0x0011 →
    (isCoreOp (dOpcode h.desc) = true → s.enabledCores (dTenant h.desc) ≠ []) →
    (s.part (dTenant h.desc)).paused = false → (s.part (dTenant h.desc)).ph = .opn →
    (s.opsOf (dTenant h.desc)).length < s.quota (dTenant h.desc) →
    s.placement (dTenant h.desc) h.desc = some (core, holder, unit) → s.occupied holder < 64 →
    s.depFailed (dTenant h.desc) h.desc = false →
    Answers (.admitDesc f) s fun t =>
      t.ops = s.ops ++ [s.newOp (dTenant h.desc) f h core holder unit] ∧ (t.func f).held = none ∧
      ∃ u, t = u.stageAhead (dTenant h.desc) holder ∧ u.folio = s.folio ∧ u.links = s.links ∧
        SameMemory s u ∧ u.recs = s.recs ∧ u.parts = s.parts ∧
        (bits (u.regN (aSchedPartCtrl (dTenant h.desc))) 19 16 = 0 → t = u)) ∧
  (∀ (p : Fin 16) (tag : Fin 4096) (s : State) (o : Op),
    s.findOp p tag = some o → s.partsRun = true → s.ready o = true → s.engineFree o = true → s.earlierReady o = false →
    o.queue ≠ (3, 0) →
    Answers (.opDispatch p tag) s fun t =>
      t.findOp p tag = some { o with stage := .running } ∧
      ((isCoreOp (dOpcode o.desc) = true → bits (s.regN (aSchedPartCtrl p)) 19 16 = 0) →
        t.folio = s.folio ∧ t.links = s.links ∧ SameMemory s t ∧ SameRegsBut s t nowhere) ∧
      (isCoreOp (dOpcode o.desc) = true → ∃ u, t = u.stageAhead p o.holder ∧ u.folio = s.folio ∧ u.links = s.links ∧
        SameMemory s u ∧ SameRegsBut s u nowhere)) ∧
  (∀ (p : Fin 16) (tag : Fin 4096) (s : State) (o : Op) (e : Nat),
    s.findOp p tag = some o → s.partsRun = true → s.ready o = true → s.earlierReady o = false →
    o.queue = (3, 0) → s.dmaIdle = some e → s.dmaMay o = true →
    Answers (.opDispatch p tag) s fun t =>
      t.findOp p tag = some { o with stage := .running, unit := e } ∧ SameMemory s t ∧ SameRegsBut s t nowhere) ∧
  (∀ (p : Fin 16) (tag : Fin 4096) (s : State) (o : Op),
    s.findOp p tag = some o → o.stage = .finished →
    (∀ m ∈ s.folio.moves, m.part = p.val → ∀ h ∈ m.held, h.2.1 ≠ tag.val) → (s.part p).ph ≠ .draining →
    Answers (.opComplete p tag) s fun t =>
      t.lastOk p tag = decide (o.status = stDone) ∧
      ((s.func o.func).discard = false → ∃ r ∈ t.recs, r.part = p.val ∧ r.tag = tag.val ∧ r.hasEntry = true ∧
        r.bytes = mkRecord tag o.core p (dPhase o.desc) o.status o.flags s.ftNs (slice o.desc 0x14 4) o.info o.slot
          o.replays) ∧
      SameMemory s t)

/-- RECORD_WRITE (05 R235 to R237), COAL_TIMEOUT (R239), CQ_HEAD_WRITE (R237) and CQ_CFG_WRITE (R247, R249). -/
def Obligations.CompletionRings : Prop :=
  (∀ (f : Fin 64) (r : Fin 8) (s : State) (x : PendRec), Inv s →
    s.recs.find? (fun y => y.func == f.val && y.ring == r.val) = some x → s.portServed = true → (s.func f).bme = true →
    s.ringRoom f r = true → s.recordWaits x = false → x.bytes.length = 32 →
    Answers (.recordWrite f r) s fun t =>
      Mem.read t.hostMem (s.pair (aSchedCqBaseLo f r) + 32 * s.regN (aSchedCqTail f r)) 32 =
        x.bytes.take 28 ++ toLE 4 (if (s.ring f r).lap then 2 ^ 31 else 0) ∧
      t.regN (aSchedCqTail f r) = (s.regN (aSchedCqTail f r) + 1) % 2 ^ bits (s.regN (aSchedCqCfg f r)) 4 0 ∧
      t.recs = s.recs.erase x ∧
      SameMemoryBut s t nowhere nowhere nowhere nowhere
        (inRange (s.pair (aSchedCqBaseLo f r) + 32 * s.regN (aSchedCqTail f r)) 32)) ∧
  (∀ (f : Fin 64) (r : Fin 8) (s : State) (c : Nat),
    (s.ring f r).firstAt = some c → bits (s.regN (aSchedCqCfg f r)) 15 8 ≠ 0 →
    s.restarting = false → (s.func f).discard = false → (s.func f).bme = true →
    (Tab.look msixInit s.msix (1024 * f + 4 * bits (s.regN (aSchedCqCfg f r)) 31 24 + 3)).getLsbD 0 = false →
    Answers (.coalTimeout f r) s fun t =>
      t.out = s.out ++ [.msix f (bits (s.regN (aSchedCqCfg f r)) 31 24)] ∧
      (t.ring f r).since = 0 ∧ (t.ring f r).firstAt = none ∧
      c + usCycles (bits (s.regN (aSchedCqCfg f r)) 15 8) ≤ t.cycles ∧ SameMemory s t ∧ SameRegsBut s t nowhere) ∧
  (∀ (f : Fin 64) (r : Fin 8) (v : W32) (s : State), Inv s → s.regsServed = true →
    Answers (.cqHeadWrite f r v) s fun t =>
      t.reg (aSchedCqHead f r) = v &&& 0xFFFF ∧ SameRegsBut s t (fun a => a = aSchedCqHead f r) ∧ SameMemory s t) ∧
  (∀ (f : Fin 64) (r : Fin 8) (v : W32) (s : State), Inv s → s.regsServed = true → s.ringMay f = true →
    (bits v.toNat 4 0 = 0 ∨ (6 ≤ bits v.toNat 4 0 ∧ bits v.toNat 4 0 ≤ 16)) →
    Answers (.cqCfgWrite f r v) s fun t =>
      t.reg (aSchedCqCfg f r) = v &&& 0xFFFFFF1F ∧ t.reg (aSchedCqTail f r) = 0 ∧ t.ring f r = {} ∧
      SameRegsBut s t (fun a => a = aSchedCqCfg f r ∨ a = aSchedCqTail f r) ∧ SameMemory s t) ∧
  (∀ (f : Fin 64) (r : Fin 8) (v : W32) (s : State), Inv s → s.regsServed = true → s.ringMay f = true →
    ((1 ≤ bits v.toNat 4 0 ∧ bits v.toNat 4 0 ≤ 5) ∨ 16 < bits v.toNat 4 0) →
    Answers (.cqCfgWrite f r v) s fun t =>
      (∃ e, t.errs.getLast? = some e ∧ e.status = stMalformed ∧ e.func = f.val) ∧
      t.regN aGlobalErrCount = (s.regN aGlobalErrCount + 1) % 2 ^ 32 ∧
      SameRegsBut s t (fun a => a = aGlobalErrCount ∨ a = aGlobalErrStatus) ∧ SameMemory s t)

/-- CANCEL (05 R230 to R232), CANCEL_ALL (R233), PHASE_SWITCH (R227, R229) and DRAIN_TIMEOUT (R227). -/
def Obligations.CancellationAndSwitch : Prop :=
  (∀ (f : Fin 64) (s : State) (h : Held),
    (s.func f).held = some h → dOpcode h.desc = 0x0011 → (s.removal.map (·.part)) ≠ some (dTenant h.desc) →
    cancelOk h.desc = true → (s.part (dTenant h.desc)).ph ≠ .draining →
    (∀ r ∈ s.tally.groups, r.part ≠ dTenant h.desc) →
    Answers (.cancel f) s fun t =>
      (t.func f).held = none ∧ t.lastOk (dTenant h.desc) (dTag h.desc) = true ∧
      ((s.func f).discard = false → ∃ r ∈ t.recs, r.func = f.val ∧ r.hasEntry = false ∧ r.tag = dTag h.desc ∧
        le r.bytes 4 2 = stDone) ∧
      (∀ o, le h.desc 0x1A 1 = 0 → bits (le h.desc 0x18 2) 11 0 ≠ dTag h.desc →
        s.findOp (dTenant h.desc) (bits (le h.desc 0x18 2) 11 0) = some o → o.stage = .waiting ∨ o.stage = .running →
        t.lastOk (dTenant h.desc) (bits (le h.desc 0x18 2) 11 0) = false) ∧
      SameMemory s t) ∧
  (∀ (f : Fin 64) (s : State) (p : Nat),
    s.partsRun = true → s.partOfFunc f = some p → (s.part p).ph ≠ .draining → ((s.opsOf p).map Op.tag).Nodup →
    (∀ r ∈ s.tally.groups, r.part ≠ p) →
    Answers (.cancelAll f) s fun t =>
      (∀ o ∈ s.opsOf p, o.stage = .waiting ∨ o.stage = .running → t.lastOk p o.tag = false) ∧ SameMemory s t) ∧
  (∀ (f : Fin 64) (s : State) (h : Held),
    (s.func f).held = some h → dOpcode h.desc = 0x0010 → (s.part (dTenant h.desc)).ph = .opn →
    (s.part (dTenant h.desc)).paused = false → allZero (slice h.desc 0x18 40) = true →
    (∃ o ∈ s.opsOf (dTenant h.desc), (o.stage = .waiting ∨ o.stage = .running) ∧ s.suspended o = false) →
    Answers (.phaseSwitch f) s fun t =>
      (t.part (dTenant h.desc)).ph = .draining ∧ (t.part (dTenant h.desc)).target = dPhase h.desc ∧
      (t.func f).held = none ∧ t.ops = s.ops ∧ SameMemory s t ∧ SameRegsBut s t nowhere) ∧
  (∀ (p : Fin 16) (s : State) (sw : Switch),
    (s.part p).switch = some sw → (s.part p).ph = .draining → ((s.opsOf p).map Op.tag).Nodup →
    (s.enabledCores p).length < ((s.job p).map (·.minCores)).getD 0 → (∀ r ∈ s.tally.groups, r.part ≠ p.val) →
    Answers (.drainTimeout p) s fun t =>
      (t.part p).ph = .stopped ∧ (t.part p).switch = none ∧ t.lastOk p (dTag sw.desc) = false ∧
      (∀ o ∈ s.opsOf p, o.stage = .waiting ∨ o.stage = .running → s.suspended o = false → t.lastOk p o.tag = false) ∧
      sw.drainAt + 312500 * sw.drainMs ≤ t.cycles)

/-- PHASE_OPEN (07 R339, R344) and MOVE_WAIT_EXPIRY (R344, R345). -/
def Obligations.PhaseBarrier : Prop :=
  (∀ (p : Fin 16) (s : State) (sw : Switch),
    (s.part p).ph = .moving → (s.part p).switch = some sw → (s.part p).plan = {} →
    (∀ m ∈ s.folio.moves, m.part ≠ p.val) →
    Answers (.phaseOpen p) s fun t =>
      (t.part p).ph = .opn ∧ (t.part p).phase = (s.part p).target ∧ (t.part p).switch = none ∧
      t.lastOk p (dTag sw.desc) = true) ∧
  (∀ (p : Fin 16) (s : State) (sw : Switch),
    (s.part p).switch = some sw → (s.part p).ph = .moving →
    Answers (.moveWaitExpiry p) s fun t =>
      (t.part p).ph = .moving ∧ (t.part p).switch = some { sw with waitOver := true } ∧
      sw.moveAt + 312500 * sw.moveMs ≤ t.cycles ∧
      (t.part p).plan.pulls = [] ∧ (t.part p).plan.flying = [] ∧
      (∀ v r, (v, r) ∈ (s.part p).plan.pulls → ∃ r', (v, r') ∈ (t.part p).plan.behind) ∧
      ((s.part p).plan.flying = [] → (∀ v r, (v, r) ∈ (s.part p).plan.pulls → (s.leaf p v).state ≠ .scrub) →
        SameMemory s t))

/-- CORE_FAULT and CORE_HANG (19 R720 to R724). -/
def Obligations.CoreFailure : Prop :=
  ∀ (c : Fin 8) (k : Fin 9) (s : State) (cmd : Instr),
    ((∃ cause line, cmd = .coreFault c k cause line) ∨ cmd = .coreHang c k) →
    (s.core (9 * c + k)).fenced = false → (∀ i, i < 9 → (s.core (9 * c + i)).failedAt ≠ some s.cycles) →
    Answers cmd s fun t =>
      (t.core (9 * c + k)).fenced = true ∧ (t.core (9 * c + k)).logical = 0xFF ∧
      (t.core (9 * c + k)).lastLogical = (s.core (9 * c + k)).logical ∧
      (∃ e ∈ t.errs, e.status = stUncorrectable ∧ e.source = 0x03 ∧ e.seq = s.regN aGlobalErrCount) ∧
      (s.spareOf c = none → (s.core (9 * c + k)).logical ≠ 0xFF →
        t.retired.testBit (s.core (9 * c + k)).logical = true) ∧
      SameMemory s t

/-- COPY and FILL of a range within one resident folio with a Hoard copy (06 R302 to R304, R280). -/
def Obligations.CopyAndFillBytes : Prop :=
  (∀ (p : Fin 16) (tag : Fin 4096) (s : State) (o : Op) (a b n v w : Nat),
    s.runningOp p tag 0x0300 = some o → a = folAddr o.desc → b = folArg o.desc → n = folLen o.desc →
    v = a / 65536 → w = b / 65536 → (a + n - 1) / 65536 = v → (b + n - 1) / 65536 = w →
    folBodyOk o.desc 64 = true → b % 64 = 0 → folKind o.desc = 0 → rangeOk (b, n) = true → (a + n ≤ b ∨ b + n ≤ a) →
    s.unranked p v = false → s.unranked p w = false → s.discardBefore o v = false → s.discardBefore o w = false →
    s.handedOff p w = false → (s.leaf p v).state = .resident → (s.leaf p v).hvalid = true →
    (s.leaf p w).state = .resident → (s.leaf p w).hvalid = true → (s.leaf p w).cls ≠ .peer →
    Answers (.copy p tag) s fun t =>
      (∀ i, i < n → Mem.get t.folio.hoard (65536 * (s.leaf p w).hframe + b % 65536 + i) =
        Mem.get s.folio.hoard (65536 * (s.leaf p v).hframe + a % 65536 + i)) ∧
      SameMemoryBut s t (inRange (65536 * (s.leaf p w).hframe + b % 65536) n) nowhere nowhere nowhere nowhere ∧
      (t.leaf p w).dirty = true ∧ (t.leaf p w).hframe = (s.leaf p w).hframe ∧
      t.EndedWith p tag stDone ∧ (t.findOp p tag).map Op.info = some 1 ∧ SameRegsBut s t nowhere) ∧
  (∀ (p : Fin 16) (tag : Fin 4096) (s : State) (o : Op) (b n w : Nat),
    s.runningOp p tag 0x0301 = some o → b = folAddr o.desc → n = folLen o.desc → w = b / 65536 →
    (b + n - 1) / 65536 = w → folBodyOk o.desc 64 = true → folKind o.desc = 0 →
    s.unranked p w = false → s.discardBefore o w = false → s.handedOff p w = false →
    (s.leaf p w).state = .resident → (s.leaf p w).hvalid = true → (s.leaf p w).cls ≠ .peer →
    Answers (.fill p tag) s fun t =>
      (∀ i, i < n → Mem.get t.folio.hoard (65536 * (s.leaf p w).hframe + b % 65536 + i) =
        BitVec.ofNat 8 (folArg o.desc / 256 ^ (i % 8))) ∧
      SameMemoryBut s t (inRange (65536 * (s.leaf p w).hframe + b % 65536) n) nowhere nowhere nowhere nowhere ∧
      (t.leaf p w).dirty = true ∧ (t.leaf p w).hframe = (s.leaf p w).hframe ∧
      t.EndedWith p tag stDone ∧ (t.findOp p tag).map Op.info = some 1 ∧ SameRegsBut s t nowhere)

/-- DISCARD (06 R306, R279) and MAP (R305) of one folio. -/
def Obligations.DiscardAndMap : Prop :=
  (∀ (p : Fin 16) (tag : Fin 4096) (s : State) (o : Op) (v : Nat),
    s.runningOp p tag 0x0302 = some o → v = folAddr o.desc / 65536 → folBodyOk o.desc 65536 = true →
    folArg o.desc = 0 → folKind o.desc = 0 → folLen o.desc = 65536 → o.progress = 0 →
    s.unranked p v = false → s.discardBefore o v = false → s.earlierHolds o v = false → (s.leaf p v).state ≠ .moving →
    (∀ m ∈ s.folio.moves, m.part = p.val → tag.val ∉ m.waiters) →
    Answers (.discard p tag) s fun t =>
      ((t.leaf p v).state = .absent ∨ (t.leaf p v).state = .scrub) ∧ (∀ off n, t.folioRead p v off n = zeros n) ∧
      ((s.leaf p v).state = .resident → (s.leaf p v).hvalid = true →
        ({ hoard := true, frame := (s.leaf p v).hframe, folio := some (p.val, v) } : ScrubFrame) ∈ t.folio.scrubs) ∧
      t.EndedWith p tag stDone ∧ SameMemory s t ∧ SameRegsBut s t nowhere) ∧
  (∀ (p : Fin 16) (tag : Fin 4096) (s : State) (o : Op) (v : Nat),
    s.runningOp p tag 0x0320 = some o → v = folAddr o.desc / 65536 → folBodyOk o.desc 65536 = true →
    (folKind o.desc = 2 ∨ (folKind o.desc = 3 ∧ folArg o.desc % 65536 = 0)) → folLen o.desc = 65536 → o.progress = 0 →
    s.unranked p v = false → s.discardBefore o v = false →
    s.lpddrCharge p + (s.missingTables p v).length ≤ s.lpddrShare p → s.tableRoom p v false = true →
    (∀ m ∈ s.folio.moves, m.part = p.val → tag.val ∉ m.waiters) →
    Answers (.map p tag) s fun t =>
      ((s.leaf p v).state = .absent → t.leaf p v =
        { cls := if folKind o.desc = 3 then .host else .peer, state := .resident, keygen := (s.part p).keyCur,
          wclass := folWclass o.desc,
          home := if folKind o.desc = 3 then folArg o.desc
            else bits (folArg o.desc) 45 10 * 1024 + bits (folArg o.desc) 9 0 }) ∧
      ((s.leaf p v).state ≠ .absent → t.leaf p v = s.leaf p v) ∧
      t.EndedWith p tag stDone ∧ SameMemory s t ∧ SameRegsBut s t nowhere)

/-- PIN, UNPIN, PLACE and EVICT of one folio (06 R312 to R315). -/
def Obligations.ExpertPlacement : Prop :=
  (∀ (p : Fin 16) (tag : Fin 4096) (s : State) (o : Op) (c : Instr) (oc : Nat),
    ((c = .pin p tag ∧ oc = 0x0330) ∨ (c = .unpin p tag ∧ oc = 0x0331) ∨ (c = .place p tag ∧ oc = 0x0332) ∨
      (c = .evict p tag ∧ oc = 0x0333)) → s.runningOp p tag oc = some o → (s.reg (aFolioPartCtrl p)).getLsbD 31 = false →
    Answers c s fun t => t.EndedWith p tag stNotPermitted ∧ t.folio = s.folio ∧ SameMemory s t ∧ SameRegsBut s t nowhere) ∧
  (∀ (p : Fin 16) (tag : Fin 4096) (s : State) (o : Op) (v : Nat),
    s.runningOp p tag 0x0330 = some o → v = folAddr o.desc / 65536 → (s.reg (aFolioPartCtrl p)).getLsbD 31 = true →
    folPlain o.desc = true → folLen o.desc = 65536 → o.progress = 0 →
    s.unranked p v = false → s.discardBefore o v = false →
    (s.leaf p v).state = .resident → (s.leaf p v).hvalid = true → (s.leaf p v).pin = false →
    (∀ m ∈ s.folio.moves, m.part = p.val → tag.val ∉ m.waiters) →
    Answers (.pin p tag) s fun t =>
      (s.pinnedFrames p + s.pinsDue p < s.folioFrames p →
        t.leaf p v = { s.leaf p v with pin := true } ∧ t.EndedWith p tag stDone) ∧
      (s.folioFrames p ≤ s.pinnedFrames p + s.pinsDue p → t.leaf p v = s.leaf p v ∧ t.EndedWith p tag stNotPermitted) ∧
      SameMemory s t ∧ SameRegsBut s t nowhere) ∧
  (∀ (p : Fin 16) (tag : Fin 4096) (s : State) (o : Op) (v : Nat),
    s.runningOp p tag 0x0331 = some o → v = folAddr o.desc / 65536 → (s.reg (aFolioPartCtrl p)).getLsbD 31 = true →
    folPlain o.desc = true → folLen o.desc = 65536 → o.progress = 0 →
    s.unranked p v = false → s.discardBefore o v = false →
    ((s.leaf p v).state = .resident ∨ (s.leaf p v).state = .moving) →
    (∀ m ∈ s.folio.moves, m.part = p.val → tag.val ∉ m.waiters) →
    Answers (.unpin p tag) s fun t =>
      (t.leaf p v).pin = false ∧ (t.leaf p v).hframe = (s.leaf p v).hframe ∧ t.EndedWith p tag stDone ∧
      SameMemory s t ∧ SameRegsBut s t nowhere) ∧
  (∀ (p : Fin 16) (tag : Fin 4096) (s : State) (o : Op) (v : Nat),
    s.runningOp p tag 0x0332 = some o → v = folAddr o.desc / 65536 → (s.reg (aFolioPartCtrl p)).getLsbD 31 = true →
    folBodyOk o.desc 65536 = true → folLen o.desc = 65536 → folKind o.desc = 0 → o.progress = 0 →
    folArg o.desc < 131072 → s.frameFree .cache (folArg o.desc) = true →
    s.unranked p v = false → s.discardBefore o v = false →
    ((s.leaf p v).pin = true ∨ s.pinnedFrames p + s.pinsDue p < s.folioFrames p) →
    (s.leaf p v).state = .resident → (s.leaf p v).hvalid = true → s.folio.moves.length < 2048 →
    Answers (.place p tag) s fun t =>
      (t.leaf p v).state = .moving ∧ t.hUse (folArg o.desc) = .folio p v ∧
      (∃ m, t.folio.moves = s.folio.moves ++ [m] ∧ m.part = p.val ∧ m.vfn = v ∧ m.kind = .column ∧
        m.dest = folArg o.desc ∧ m.place = true ∧ m.waiters = [tag.val]) ∧
      (∃ q, t.findOp p tag = some q ∧ q.stage = .running) ∧ SameMemory s t ∧ SameRegsBut s t nowhere) ∧
  (∀ (p : Fin 16) (tag : Fin 4096) (s : State) (o : Op) (v : Nat),
    s.runningOp p tag 0x0333 = some o → v = folAddr o.desc / 65536 → (s.reg (aFolioPartCtrl p)).getLsbD 31 = true →
    folPlain o.desc = true → folLen o.desc = 65536 → o.progress = 0 →
    s.unranked p v = false → s.discardBefore o v = false →
    (s.leaf p v).state = .resident → (s.leaf p v).hvalid = true → (s.leaf p v).pin = false →
    (s.leaf p v).dirty = false → (s.leaf p v).cls ≠ .hoard →
    (∀ q ∈ s.ops, q.part = p.val → q.tag ≠ tag.val → q.stage ≠ .recording → q.holdsFolio v = false) →
    (∀ m ∈ s.folio.moves, m.part = p.val → tag.val ∉ m.waiters) →
    Answers (.evict p tag) s fun t =>
      (t.leaf p v).hvalid = false ∧ (t.leaf p v).state = .resident ∧ (t.leaf p v).home = (s.leaf p v).home ∧
      t.hUse (s.leaf p v).hframe = .free ∧ t.EndedWith p tag stDone ∧ SameMemory s t ∧ SameRegsBut s t nowhere)

/-- STREAM_OPEN (06 R307), STREAM_CLOSE (R311), STREAM_CTRL_WRITE (R321) and STREAM_PREFETCH (R308). -/
def Obligations.StreamsOpenCloseAndFetch : Prop :=
  (∀ (p : Fin 16) (tag : Fin 4096) (s : State) (o : Op) (c : Nat),
    s.runningOp p tag 0x0310 = some o → dCore o.desc ≠ 0xFF → c = dCore o.desc / 8 →
    le o.desc 0x18 8 % 65536 = 0 → le o.desc 0x18 8 < 2 ^ 52 → 1 ≤ le o.desc 0x24 4 → 1 ≤ le o.desc 0x28 1 →
    1 ≤ le o.desc 0x29 1 → le o.desc 0x29 1 ≤ 64 → le o.desc 0x2A 1 < 16 → le o.desc 0x2B 1 < 4 →
    allZero (slice o.desc 0x2C 20) = true →
    Answers (.streamOpen p tag) s fun t =>
      (∀ i, i < 16 → (s.stream c i).enable = false → (∀ j, j < i → (s.stream c j).enable = true) →
        t.stream c i =
          { enable := true, release := (le o.desc 0x2B 1).testBit 0, wrap := (le o.desc 0x2B 1).testBit 1, part := p,
            wclass := le o.desc 0x2A 1, w := le o.desc 0x28 1, ahead := le o.desc 0x29 1, base := le o.desc 0x18 8,
            stride := le o.desc 0x20 4, count := le o.desc 0x24 4 } ∧
        t.EndedWith p tag stDone ∧ (t.findOp p tag).map Op.info = some (16 * c + i)) ∧
      ((∀ i, i < 16 → (s.stream c i).enable = true) → t.EndedWith p tag stNotPermitted ∧ t.folio = s.folio) ∧
      SameMemory s t ∧ SameRegsBut s t nowhere) ∧
  (∀ (p : Fin 16) (tag : Fin 4096) (s : State) (o : Op) (n : Nat),
    s.runningOp p tag 0x0311 = some o → n = le o.desc 0x18 1 % 128 →
    ((s.stream (n / 16) (n % 16)).enable = true → (s.stream (n / 16) (n % 16)).part = p.val) →
    Answers (.streamClose p tag) s fun t =>
      (t.stream (n / 16) (n % 16)).enable = false ∧
      (∀ c i, i < 16 → (c ≠ n / 16 ∨ i ≠ n % 16) → t.stream c i = s.stream c i) ∧
      t.EndedWith p tag stDone ∧ SameMemory s t ∧ SameRegsBut s t nowhere) ∧
  (∀ (c : Fin 8) (i : Fin 16) (v : W32) (s : State),
    s.writeServed (.fn 0) (aClusStreamCtrl c i) = true →
    (s.stream c i).enable = true → s.partTrusted (s.stream c i).part = false →
    (s.part (s.stream c i).part).paused = false →
    (v.getLsbD 31 = true → 1 ≤ v.toNat / 256 % 256 ∧ 1 ≤ v.toNat % 128 ∧ v.toNat % 128 ≤ 64) →
    Answers (.streamCtrlWrite (.fn 0) c i v) s fun t =>
      (t.stream c i).enable = v.getLsbD 31 ∧ (t.stream c i).release = v.getLsbD 30 ∧
      (t.stream c i).wrap = v.getLsbD 29 ∧ (t.stream c i).part = v.toNat / 2 ^ 24 % 16 ∧
      (t.stream c i).wclass = v.toNat / 2 ^ 20 % 16 ∧ (t.stream c i).w = v.toNat / 256 % 256 ∧
      (t.stream c i).ahead = v.toNat % 128 ∧ (v.getLsbD 31 = true → (t.stream c i).pos = 0) ∧
      (t.part (s.stream c i).part).expert = true ∧ SameMemory s t ∧ SameRegsBut s t nowhere) ∧
  (∀ (c : Fin 8) (st : Fin 16) (s : State) (x : Stream) (k v f : Nat),
    x = s.stream c st → x.window = [k] → v = x.folio k →
    (s.leaf x.part v).state = .resident → (s.leaf x.part v).hvalid = false → (s.leaf x.part v).cls = .lpddr →
    s.memLive x.part (s.leaf x.part v).keygen = true → s.folio.moves.length < 2048 → s.freeInCol c = some f →
    Answers (.streamPrefetch c st) s fun t =>
      (t.leaf x.part v).state = .moving ∧ (t.leaf x.part v).wclass = (if x.charter then s.wclassFor x.part v x.wclass else x.wclass) ∧ t.hUse f = .folio x.part v ∧
      (∃ m, t.folio.moves = s.folio.moves ++ [m] ∧ m.part = x.part ∧ m.vfn = v ∧ m.kind = .fetch ∧ m.dest = f) ∧
      SameMemory s t ∧ SameRegsBut s t nowhere)

/-- MOVE_COMMIT of a fetch (06 R279, R287), WALKER_MOVE (R299) and SCRUB_ZEROED (17 R678). A fetch deciphers the home
of its folio (R272, R273), and counts in the profiling counters while they run (20 R743; the cluster is log entry 181).
What has waited for a transfer to end or for a frame goes on with the command. -/
def Obligations.FolioTransfers : Prop :=
  (∀ (p : Fin 16) (v : Nat) (s : State) (m : Move), Inv s →
    s.moveOf p v = some m → m.kind = .fetch → m.held = [] → (s.leaf p v).cls = .lpddr →
    s.memLive p (s.leaf p v).keygen = true → s.moveCheck m = stDone → s.moveArrived m = true →
    Answers (.moveCommit p v .ok) s fun t => ∃ u, t = u.leaveChannels.foliosGoOn ∧
      (∀ i, i < 65536 → Mem.get u.folio.hoard (65536 * m.dest + i) =
        (s.homePlain p v (s.leaf p v) 0 65536).getD i 0) ∧
      SameMemoryBut s u (inRange (65536 * m.dest) 65536) nowhere nowhere nowhere nowhere ∧
      (u.leaf p v).state = .resident ∧ (u.leaf p v).hvalid = true ∧ (u.leaf p v).hframe = m.dest ∧
      (u.leaf p v).dirty = false ∧ (u.leaf p v).age = 0 ∧ u.moveOf p v = none ∧
      SameRegsBut s u (fun a => (s.reg aDbgProfCtrl).getLsbD 31 = true ∧ aDbgProfCntLo 0 0 ≤ a ∧ a < aDbgProfCntLo 0 0 + 0x4000)) ∧
  (∀ (p : Fin 16) (s : State) (v : Nat) (l : Leaf) (f : Nat),
    s.walkNext p = some (v, l) → l.cls = .lpddr → s.memLive p (s.part p).keyCur = true →
    s.memLive p l.keygen = true → s.folio.moves.length < 2048 → s.freeLpddr v = some f →
    Answers (.walkerMove p) s fun t =>
      (t.leaf p v).state = .moving ∧ t.lUse f = .folio p v ∧
      (∃ m, t.folio.moves = s.folio.moves ++ [m] ∧ m.part = p.val ∧ m.vfn = v ∧ m.kind = .walk ∧ m.dest = f ∧
        m.gen = (s.part p).keyCur) ∧ SameMemory s t ∧ SameRegsBut s t nowhere) ∧
  (∀ (hoard : Bool) (f : Nat) (s : State) (x : ScrubFrame),
    s.folio.scrubs.find? (fun y => y.hoard == hoard && y.frame == f) = some x →
    Answers (.scrubZeroed hoard f) s fun t => ∃ u, t = u.foliosGoOn ∧
      (hoard = true → (∀ i, i < 65536 → Mem.get u.folio.hoard (65536 * f + i) = 0) ∧
        (s.hUse f = .scrub → u.hUse f = .free) ∧
        SameMemoryBut s u (inRange (65536 * f) 65536) nowhere nowhere nowhere nowhere) ∧
      (hoard = false → (∀ i, i < 65536 → Mem.get u.folio.lpddr (65536 * f + i) = 0) ∧ u.lUse f = .free ∧
        SameMemoryBut s u nowhere (inRange (65536 * f) 65536) nowhere nowhere nowhere) ∧
      (∀ y ∈ u.folio.scrubs, y.hoard = hoard → y.frame ≠ f) ∧ SameRegsBut s u nowhere)

/-- AGE_TICK (06 R287), AGE_TICK_US µs after the last one, and LOW_WATER_EVICTION (R288, R290, R291). -/
def Obligations.AgesAndLowWater : Prop :=
  (∀ s : State, Answers .ageTick s fun t =>
    (∀ p v, t.leaf p v = if (s.leaf p v).hvalid then
        { s.leaf p v with age := if (s.leaf p v).touched then (s.leaf p v).age else min 15 ((s.leaf p v).age + 1),
                          touched := false }
      else s.leaf p v) ∧ s.folio.lastAge + usCycles (bits (s.regN aFolioCfg) 15 8) ≤ t.cycles ∧
    t.folio.lastAge = t.cycles ∧ SameMemory s t ∧ SameRegsBut s t nowhere) ∧
  (∀ (col : Fin 8) (s : State) (q v : Nat),
    s.victim none col = some (q, v) → (s.leaf q v).dirty = false → (s.leaf q v).cls ≠ .hoard →
    (∀ m ∈ s.folio.moves, m.kind ≠ .writeback) → s.freeCount col < (s.regN aFolioCfg) % 256 →
    Answers (.lowWaterEviction col) s fun t =>
      (t.leaf q v).hvalid = false ∧ (t.leaf q v).home = (s.leaf q v).home ∧ SameMemory s t ∧ SameRegsBut s t nowhere)

/-- PATROL_SCRUB (06 R254 to R257), HOARD_ECC_CLEAR (R254), HOARD_APERTURE_ACCESS (R263, R264) and CHANNEL_RETIRE
(R270). -/
def Obligations.HoardAndChannelErrors : Prop :=
  (∀ (f : Fin 131072) (row : Fin 128) (by_ : Option (Fin 16 × Fin 4096)) (s : State),
    exec (.patrolScrub f row .clean by_) s = .next s) ∧
  (∀ (f : Fin 131072) (row : Fin 128) (w : Fin 64) (p : Fin 16) (tag : Fin 4096) (s : State) (o : Op),
    s.hUse f = .free → s.findOp p tag = some o → o.stage = .running →
    Tab.look (fun _ => 0) s.folio.spares (f / 16) < 32 →
    Answers (.patrolScrub f row (.double w) (some (p, tag))) s fun t =>
      t.EndedWith p tag stUncorrectable ∧ t.folio.eccUncorr = min 255 (s.folio.eccUncorr + 1) ∧
      ∃ e, t.errs.getLast? = some e ∧ e.status = stUncorrectable ∧ e.source = 0x04 ∧
        e.detail = toLE 4 f ++ toLE 2 row ++ toLE 1 w ++ zeros 5) ∧
  (∀ (f : Fin 131072) (row : Fin 128) (by_ : Option (Fin 16 × Fin 4096)) (s : State), s.hUse f ≠ .retired →
    s.rowCount (128 * f + row) + 1 < s.regN aFolioCfg / 2 ^ 20 % 16 →
    Answers (.patrolScrub f row .corrected by_) s fun t =>
      t.folio.eccCorr = min 65535 (s.folio.eccCorr + 1) ∧
      t.rowCount (128 * f + row) = s.rowCount (128 * f + row) + 1 ∧ t.folio.spares = s.folio.spares ∧
      SameMemory s t ∧ SameRegsBut s t nowhere) ∧
  (∀ (f : Fin 131072) (row : Fin 128) (by_ : Option (Fin 16 × Fin 4096)) (s : State) (used : Nat), s.hUse f ≠ .retired →
    used = Tab.look (fun _ => 0) s.folio.spares (f / 16) → used < 32 →
    Answers (.patrolScrub f row .verifyFail by_) s fun t =>
      Tab.look (fun _ => 0) t.folio.spares (f / 16) = used + 1 ∧
      Tab.look (fun _ => false) t.folio.repaired (128 * f + row) = true ∧ t.hUse f = s.hUse f ∧
      SameMemory s t ∧ SameRegsBut s t nowhere) ∧
  (∀ s : State, s.regsServed = true → Answers (.hoardEccClear (.fn 0)) s fun t =>
    t.folio.eccCorr = 0 ∧ t.folio.eccUncorr = 0 ∧ SameMemory s t ∧ SameRegsBut s t nowhere) ∧
  (∀ (ch : Fin 128) (bad : List (Fin 16 × Nat)) (s : State), s.folio.chRetired.testBit ch = false →
    Answers (.channelRetire ch bad) s fun t => t.folio.chRetired.testBit ch = true ∧
      (∃ e, t.errs.getLast? = some e ∧ e.source = 0x05 ∧ e.detail = toLE 1 ch ++ zeros 11)) ∧
  (∀ (a : Nat) (b : Bytes) (s : State), s.regsServed = true → b ≠ [] → a + b.length ≤ 2 ^ 33 →
    Answers (.hoardApertureAccess a 0 (some b)) s fun t =>
      (∀ i, i < b.length → Mem.get t.folio.hoard (a + i) =
        if s.hUse ((a + i) / 65536) = .retired then Mem.get s.folio.hoard (a + i) else b.getD i 0) ∧
      SameMemoryBut s t (inRange a b.length) nowhere nowhere nowhere nowhere) ∧
  (∀ (a n : Nat) (s : State), s.regsServed = true → n ≠ 0 → a + n ≤ 2 ^ 33 →
    Answers (.hoardApertureAccess a n none) s fun t => SameMemory s t ∧
      t.out.getLast? = some (.barData ((List.range n).map (fun i =>
        if s.hUse ((a + i) / 65536) = .retired then 0xFF
        else if s.regionOf ((a + i) / 65536) = .scratch then Config.scratchFrame s.fresh (a + i)
        else Mem.get s.folio.hoard (a + i)))))

/-- An INT8 MMA, SINGLE and MODULAR, on tiles in core scratch (03 R124, R127, R91, R92; 04 R153), which meets no
uncorrectable error there. The sums pass through the slot of its context (04 R148). -/
def Obligations.MatrixMultiplyInteger : Prop :=
  ∀ (p : Fin 16) (tag : Fin 4096) (err : ScratchErr) (s : State) (o : Op) (i A B D m n k : Nat),
    (err = .clean ∨ ∃ e, err = .corrected e) → s.runningOp p tag 0x0100 = some o → s.physOf o.core = some i → s.chainMalformed o = false →
    s.mmaRefusal o i = none → mmaChain o.desc = 0 → mmaMode o.desc = 2 → mmaAFmt o.desc = 8 → mmaBFmt o.desc = 8 →
    isScratch (mmaA o.desc) = true → isScratch (mmaB o.desc) = true → isScratch (mmaD o.desc) = true →
    A = i * 2 ^ 22 + scratchOff (mmaA o.desc) → B = i * 2 ^ 22 + scratchOff (mmaB o.desc) →
    D = i * 2 ^ 22 + scratchOff (mmaD o.desc) → m = mmaM o.desc → n = mmaN o.desc → k = mmaK o.desc →
    Answers (.mma p tag err) s fun t =>
      (∀ r c, r < m → c < n →
        leNat (Mem.read t.scratch (D + r * pitchBits (n * 32) + 4 * c) 4) =
          unsgn 32 ((List.range k).map (fun j =>
            sgn 8 (Mem.get s.scratch (A + r * pitchBits (k * 8) + j)).toNat *
              sgn 8 (Mem.get s.scratch (B + c * pitchBits (k * 8) + j)).toNat)).sum) ∧
      SameMemoryBut s t nowhere nowhere (fun a => inRange D (m * pitchBits (n * 32)) a ∨
        inRange (s.ctxWordAt i (mmaCtx o.desc) 0 0) 131072 a) nowhere nowhere ∧ t.EndedWith p tag stDone ∧
      (∀ l j, t.ctxOf l j = s.ctxOf l j)

/-- The ends of an MMA and what a chain leaves (03 R128, R131, R132, R138, R140; 04 R150, R179). -/
def Obligations.MatrixChains : Prop :=
  (∀ (p : Fin 16) (tag : Fin 4096) (err : ScratchErr) (s : State) (o : Op) (i : Nat),
    s.runningOp p tag 0x0100 = some o → s.physOf o.core = some i → s.chainMalformed o = true →
    Answers (.mma p tag err) s fun t => t.EndedWith p tag stMalformed ∧ (∀ l j, t.ctxOf l j = s.ctxOf l j) ∧
      SameMemory s t ∧ SameRegsBut s t nowhere) ∧
  (∀ (p : Fin 16) (tag : Fin 4096) (err : ScratchErr) (s : State) (o : Op) (i st : Nat),
    s.runningOp p tag 0x0100 = some o → s.physOf o.core = some i → s.chainMalformed o = false →
    s.mmaRefusal o i = some st →
    Answers (.mma p tag err) s fun t => t.EndedWith p tag st ∧
      (2 ≤ mmaChain o.desc → t.openCtxOf o.part o.core (mmaCtx o.desc) = none) ∧ SameMemory s t ∧ SameRegsBut s t nowhere) ∧
  (∀ (p : Fin 16) (tag : Fin 4096) (s u : State) (o : Op) (i : Nat),
    s.runningOp p tag 0x0100 = some o → s.physOf o.core = some i → s.chainMalformed o = false →
    s.mmaRefusal o i = none → mmaChain o.desc = 1 → s.prepare o (namedReads o.desc) (namedWrites o.desc) 0 noWhole = .ok u →
    u.openCtxOf o.part o.core (mmaCtx o.desc) = none → u.physOf o.core = some i → (u.findOp p tag).isSome = true →
    Answers (.mma p tag .clean) s fun t => t.EndedWith p tag stDone ∧
      ∃ c, t.openCtxOf o.part o.core (mmaCtx o.desc) = some c ∧ c.m = mmaM o.desc ∧ c.n = mmaN o.desc ∧
        c.mode = mmaMode o.desc ∧ c.count = mmaProducts o.desc % 2 ^ 32 ∧ c.lastTag = dTag o.desc ∧ c.stale = false) ∧
  (∀ (p : Fin 16) (tag : Fin 4096) (line : Fin 65536) (s u : State) (o : Op) (i : Nat),
    s.runningOp p tag 0x0100 = some o → s.physOf o.core = some i → s.chainMalformed o = false →
    s.mmaRefusal o i = none → s.openCtxOf o.part o.core (mmaCtx o.desc) = none →
    s.prepare o (namedReads o.desc) (namedWrites o.desc) 0 noWhole = .ok u →
    u.scratchThird i = false → u.physOf o.core = some i → (u.findOp p tag).isSome = true →
    Answers (.mma p tag (.double line)) s fun t => t.EndedWith p tag stUncorrectable ∧
      (t.core i).uncorr = min 255 ((u.core i).uncorr + 1) ∧
      (∃ e, t.errs.getLast? = some e ∧ e.status = stUncorrectable ∧ e.source = 0x03 ∧
        e.detail = toLE 1 (i / 9) ++ toLE 1 (i % 9) ++ toLE 1 3 ++ zeros 1 ++ toLE 4 line ++ zeros 4) ∧
      t.openCtxOf o.part o.core (mmaCtx o.desc) = none)

/-- VEC with an integer function of two sources on INT32 rows in core scratch (03 R119, R120, R135). -/
def Obligations.VectorInteger : Prop :=
  ∀ (p : Fin 16) (tag : Fin 4096) (err : ScratchErr) (s : State) (o : Op) (i f A B D rows len : Nat),
    (err = .clean ∨ ∃ e, err = .corrected e) → s.runningOp p tag 0x0200 = some o → s.physOf o.core = some i → f = vecFunc o.desc → 0x030 ≤ f → f ≤ 0x034 →
    vecS0Fmt o.desc = 0xA → vecS1Fmt o.desc = 0xA → vecDFmt o.desc = 0xA → vecFieldsOk o.desc = true →
    isScratch (vecS0 o.desc) = true → isScratch (vecS1 o.desc) = true → isScratch (vecDst o.desc) = true →
    s.scratchDenied i [vecS0 o.desc] = false → s.addrOk i (vecS0 o.desc) (vecS0Size o.desc) = true →
    s.addrOk i (vecS1 o.desc) (vecS1Size o.desc) = true → s.addrOk i (vecDst o.desc) (vecDBytes o.desc) = true →
    A = i * 2 ^ 22 + scratchOff (vecS0 o.desc) → B = i * 2 ^ 22 + scratchOff (vecS1 o.desc) →
    D = i * 2 ^ 22 + scratchOff (vecDst o.desc) → rows = vecRows o.desc → len = vecLen o.desc →
    Answers (.vec p tag err) s fun t =>
      (∀ r j, r < rows → j < len → ∀ x y : W32,
        x = BitVec.ofNat 32 (leNat (Mem.read s.scratch (A + r * pitchBits (len * 32) + 4 * j) 4)) →
        y = BitVec.ofNat 32 (leNat (Mem.read s.scratch (B + r * pitchBits (len * 32) + 4 * j) 4)) →
        BitVec.ofNat 32 (leNat (Mem.read t.scratch (D + r * pitchBits (len * 32) + 4 * j) 4)) =
          if f = 0x030 then x + y else if f = 0x031 then x - y else if f = 0x032 then x &&& y
          else if f = 0x033 then x ||| y else x ^^^ y) ∧
      SameMemoryBut s t nowhere nowhere (inRange D (rows * pitchBits (len * 32))) nowhere nowhere ∧
      t.EndedWith p tag stDone ∧ SameRegsBut s t nowhere

/-- ACC_EXPORT (04 R183, R184) and ACC_SETTLE (R185, R187) in core scratch. -/
def Obligations.AccumulatorRecords : Prop :=
  (∀ (p : Fin 16) (tag : Fin 4096) (s : State) (o : Op) (i A : Nat) (c : Ctx),
    s.runningOp p tag 0x0101 = some o → s.physOf o.core = some i → isScratch (expAddr o.desc) = true →
    s.openCtxOf o.part o.core (mmaCtx o.desc) = some c → c.stale = false → 1 ≤ c.n →
    c.m ≤ 128 → 1 ≤ c.m → c.n ≤ 128 → c.mode < 8 →
    s.chainMalformed o = false → s.scratchDenied i [expAddr o.desc] = false →
    allZero (slice o.desc 0x20 28) = true → le o.desc 0x3C 4 < 16 → le o.desc 0x3C 4 < s.ctxSlots i →
    s.addrOk i (expAddr o.desc) (partialBytes c.m c.n) = true → A = i * 2 ^ 22 + scratchOff (expAddr o.desc) →
    Answers (.accExport p tag .clean) s fun t =>
      (Mem.get t.scratch A).toNat = c.mode ∧ (Mem.get t.scratch (A + 1)).toNat = c.m - 1 ∧
      (Mem.get t.scratch (A + 2)).toNat = c.n - 1 ∧ (Mem.get t.scratch (A + 3)).getLsbD 0 = c.sat ∧
      leNat (Mem.read t.scratch (A + 8) 4) = c.count % 2 ^ 32 ∧
      (∀ r j, r < c.m → j < c.n →
        leNat (Mem.read t.scratch (A + 64 + r * pitchBits (64 * c.n) + 8 * j) 8) =
          leNat (Mem.read s.scratch (s.ctxWordAt i (mmaCtx o.desc) r j) 8)) ∧
      SameMemoryBut s t nowhere nowhere (inRange A (partialBytes c.m c.n)) nowhere nowhere ∧
      (∃ c', t.openCtxOf o.part o.core (mmaCtx o.desc) = some c' ∧ c'.m = c.m ∧ c'.n = c.n ∧ c'.count = c.count) ∧ t.EndedWith p tag stDone) ∧
  (∀ (p : Fin 16) (tag : Fin 4096) (s : State) (o : Op) (i A D m n : Nat) (hs : List Bytes),
    s.runningOp p tag 0x0102 = some o → s.physOf o.core = some i → isScratch (setBase o.desc) = true →
    isScratch (setD o.desc) = true → setBase o.desc + setParts o.desc * setStride o.desc < 2 ^ 64 →
    A = i * 2 ^ 22 + scratchOff (setBase o.desc) → D = i * 2 ^ 22 + scratchOff (setD o.desc) →
    hs = (List.range (setParts o.desc)).map (fun k => Mem.read s.scratch (A + k * setStride o.desc) 64) →
    m = le (hs.headD []) 1 1 + 1 → n = le (hs.headD []) 2 1 + 1 → le (hs.headD []) 0 1 = 2 →
    setDFmt o.desc = 0xA →
    s.scratchDenied i [setBase o.desc, setD o.desc] = false → settleFieldsOk o.desc = true →
    settleOk o.desc hs = true →
    s.addrOk i (setBase o.desc) ((setParts o.desc - 1) * setStride o.desc + partialBytes m n) = true →
    s.addrOk i (setBase o.desc) ((setParts o.desc - 1) * setStride o.desc + 64) = true →
    s.addrOk i (setD o.desc) (tileBytes 0xA false m n) = true →
    Answers (.accSettle p tag .clean) s fun t =>
      (∀ r j, r < m → j < n →
        leNat (Mem.read t.scratch (D + r * pitchBits (n * 32) + 4 * j) 4) =
          ((List.range (setParts o.desc)).map (fun k => leNat (Mem.read s.scratch
            (A + k * setStride o.desc + 64 + r * pitchBits (64 * n) + 8 * j) 8))).sum % 2 ^ 32) ∧
      SameMemoryBut s t nowhere nowhere (inRange D (m * pitchBits (n * 32))) nowhere nowhere ∧ t.EndedWith p tag stDone)

/-- CTX_CLOSE (04 R193), SCRATCH_SPLIT_WRITE and _APPLY (03 R140, R144), SR_SEED_WRITE (04 R173, R174, R197),
ACC_POLICY_WRITE (R196) and CORE_ECC_CLEAR (03 R85), by the operator for an unlocked partition. -/
def Obligations.CoreRegisters : Prop :=
  (∀ (c : Fin 8) (k : Fin 9) (v : W32) (s : State),
    s.writeServed (.fn 0) (aCoreCtxClose c k) = true → (∀ o ∈ s.ops, o.stage ≠ .running) →
    Answers (.ctxClose (.fn 0) c k v) s fun t =>
      (∀ n, n < 16 → (t.core (9 * c + k)).ctx n = if v.getLsbD n then none else (s.core (9 * c + k)).ctx n) ∧
      (∀ j, j ≠ 9 * c.val + k.val → t.core j = s.core j) ∧ SameMemory s t ∧ SameRegsBut s t nowhere) ∧
  (∀ (c : Fin 8) (k : Fin 9) (v : W32) (s : State) (a p : Nat),
    a = aCoreScratchSplit c k → s.writeServed (.fn 0) a = true →
    p = (s.partOfCore (s.core (9 * c + k)).logical).getD 0 → s.partTrusted p = false → (s.part p).paused = false →
    v.toNat / 2 ^ 16 % 256 + v.toNat / 256 % 256 + v.toNat % 256 = 64 → 4 ≤ v.toNat / 2 ^ 16 % 256 →
    Answers (.scratchSplitWrite (.fn 0) c k v) s fun t =>
      (s.coreIdle (9 * c + k) = true → t.regN a % 2 ^ 24 = v.toNat % 2 ^ 24) ∧
      (s.coreIdle (9 * c + k) = false → t.reg a = s.reg a ∧
        ∃ w, (t.core (9 * c + k)).splitHeld = some w ∧ w.toNat % 2 ^ 24 = v.toNat % 2 ^ 24) ∧
      (t.part p).expert = true ∧ SameRegsBut s t (fun x => x = a) ∧ SameMemory s t) ∧
  (∀ (c : Fin 8) (k : Fin 9) (v : W32) (s : State) (a p : Nat),
    a = aCoreScratchSplit c k → s.writeServed (.fn 0) a = true →
    p = (s.partOfCore (s.core (9 * c + k)).logical).getD 0 → s.partTrusted p = false →
    (v.toNat / 2 ^ 16 % 256 + v.toNat / 256 % 256 + v.toNat % 256 ≠ 64 ∨ v.toNat / 2 ^ 16 % 256 < 4) →
    Answers (.scratchSplitWrite (.fn 0) c k v) s fun t =>
      t.reg a = s.reg a ∧ (∃ e, t.errs.getLast? = some e ∧ e.status = stMalformed) ∧ SameMemory s t) ∧
  (∀ (c : Fin 8) (k : Fin 9) (s : State) (w : W32),
    (s.core (9 * c + k)).splitHeld = some w → s.coreIdle (9 * c + k) = true →
    Answers (.scratchSplitApply c k) s fun t =>
      t.reg (aCoreScratchSplit c k) = w ∧ (t.core (9 * c + k)).splitHeld = none ∧
      SameRegsBut s t (fun x => x = aCoreScratchSplit c k) ∧ SameMemory s t) ∧
  (∀ (c : Fin 8) (k : Fin 9) (hi : W32) (s : State) (p : Nat),
    s.writeServed (.fn 0) (aCoreSrSeedHi c k) = true →
    s.partOfCore (s.core (9 * c + k)).logical = some p → s.partTrusted p = false → (s.part p).paused = false →
    Answers (.srSeedWrite (.fn 0) c k hi) s fun t =>
      (∀ i ∈ s.physCores p, t.reg (aCoreSrSeedHi (i / 9) (i % 9)) = hi ∧
        t.reg (aCoreSrSeedLo (i / 9) (i % 9)) =
          (Tab.look (fun _ => none) s.pendLo (aCoreSrSeedLo c k)).getD (s.reg (aCoreSrSeedLo c k))) ∧
      (t.part p).expert = true ∧ SameMemory s t) ∧
  (∀ (c : Fin 8) (k : Fin 9) (v : W32) (s : State) (a p : Nat),
    a = aCoreAccPolicy c k → s.writeServed (.fn 0) a = true →
    p = (s.partOfCore (s.core (9 * c + k)).logical).getD 0 → s.partTrusted p = false → (s.part p).paused = false →
    10 ≤ v.toNat / 2 ^ 16 % 32 → v.toNat / 2 ^ 16 % 32 ≤ 16 → 8 ≤ v.toNat / 256 % 32 → v.toNat / 256 % 32 ≤ 20 →
    Answers (.accPolicyWrite (.fn 0) c k v) s fun t =>
      (t.reg a).getLsbD 24 = v.getLsbD 24 ∧ t.regN a / 2 ^ 16 % 32 = v.toNat / 2 ^ 16 % 32 ∧
      t.regN a / 256 % 32 = v.toNat / 256 % 32 ∧ (t.part p).expert = true ∧
      SameRegsBut s t (fun x => x = a) ∧ SameMemory s t) ∧
  (∀ (c : Fin 8) (k : Fin 9) (s : State), s.writeServed (.fn 0) (aCoreEcc c k) = true →
    Answers (.coreEccClear (.fn 0) c k) s fun t =>
      (t.core (9 * c + k)).corr = 0 ∧ (t.core (9 * c + k)).uncorr = 0 ∧
      (∀ j, j ≠ 9 * c.val + k.val → t.core j = s.core j) ∧ SameMemory s t ∧ SameRegsBut s t nowhere)

/-- PAIR_LO_READ (00 R10, R19, R20; log entry 86 lets it carry every read), PAIR_LO_WRITE (R22) and PAIR_HI_WRITE (R21). -/
def Obligations.RegisterReadsAndPairs : Prop :=
  (∀ (off : Nat) (r : RegRow) (ix : List Nat) (s : State),
    regAt off = some (r, ix) → off % 4 = 0 → pfTarget off = .reg off → s.readServed (.fn 0) off = true → r.half ≠ .hi →
    off ≠ aFtimeNowFrac →
    Answers (.pairLoRead (.fn 0) off 4) s fun t =>
      t.out.getLast? = some (.readData (.fn 0) off (s.regValue .pf off)) ∧
      (r.half = .lo → t.latch (.fn 0) (off + 4) = s.regValue .pf (off + 4)) ∧
      (off = aFtimeNowLo → t.latch (.fn 0) aFtimeNowFrac = s.regValue .pf aFtimeNowFrac) ∧ SameRegsBut s t nowhere ∧ SameMemory s t) ∧
  (∀ (off : Nat) (r : RegRow) (ix : List Nat) (s : State),
    regAt off = some (r, ix) → off % 4 = 0 → pfTarget off = .reg off → s.readServed (.fn 0) off = true →
    (r.half = .hi ∨ off = aFtimeNowFrac) →
    Answers (.pairLoRead (.fn 0) off 4) s fun t =>
      t.out.getLast? = some (.readData (.fn 0) off (s.latch (.fn 0) off)) ∧ SameRegsBut s t nowhere ∧ SameMemory s t) ∧
  (∀ (off size : Nat) (s : State), s.reqUp (.fn 0) = true → off < 2 ^ 32 →
    (off % 4 ≠ 0 ∨ size ≠ 4 ∨ (off < 0x700000 ∧ regAt off = none)) →
    Answers (.pairLoRead (.fn 0) off size) s fun t =>
      (off % 4 ≠ 0 ∨ size ≠ 4 → t.out.getLast? = some (.readData (.fn 0) off (BitVec.allOnes 32))) ∧
      (off % 4 = 0 ∧ size = 4 → t.out.getLast? = some (.readData (.fn 0) off 0)) ∧ SameRegsBut s t nowhere ∧ SameMemory s t) ∧
  (∀ (v : W32) (s : State), s.writeServed (.fn 0) aMgmtUpdAddrLo = true →
    Answers (.pairLoWrite (.fn 0) aMgmtUpdAddrLo v) s fun t =>
      SameRegsBut s t nowhere ∧ SameMemory s t ∧
      ∀ hi : W32, Answers (.pairHiWrite (.fn 0) aMgmtUpdAddrHi hi) t fun u =>
        u.reg aMgmtUpdAddrLo = v &&& 0xFFFFF000 ∧ u.reg aMgmtUpdAddrHi = hi ∧
        SameRegsBut s u (fun a => a = aMgmtUpdAddrLo ∨ a = aMgmtUpdAddrHi) ∧ SameMemory s u)

/-- REGISTER_WRITE (00 R10, R11, R13, R23: of a write in the cycle of the hardware's own set, `same`, the set wins) and
RWL_WRITE (02 R77 to R79, 05 R246). -/
def Obligations.RegisterWrites : Prop :=
  (∀ (off : Nat) (v : W32) (same : Bool) (s : State) (r : RegRow) (ix : List Nat),
    regAt off = some (r, ix) → r.w1c ≠ 0 → off % 4 = 0 → pfTarget off = .reg off → s.writeServed (.fn 0) off = true →
    Answers (.registerWrite (.fn 0) off 4 v same) s fun t =>
      t.reg off = s.reg off &&& ~~~((if same then v &&& ~~~(s.hwSetNow off) else v) &&& BitVec.ofNat 32 r.w1c) ∧ SameRegsBut s t (fun a => a = off) ∧ SameMemory s t) ∧
  (∀ (req : Req) (off size : Nat) (v : W32) (same : Bool) (s : State), size ≠ 4 ∨ off % 4 ≠ 0 →
    exec (.registerWrite req off size v same) s = .next s ∧ exec (.rwlWrite req off size v) s = .next s) ∧
  (∀ (off size : Nat) (v : W32) (same : Bool) (s : State), off < 0x700000 → regAt off = none →
    exec (.registerWrite (.fn 0) off size v same) s = .next s) ∧
  (∀ (off : Nat) (v : W32) (s : State) (r : RegRow) (ix : List Nat),
    regAt off = some (r, ix) → r.rwl ≠ 0 → off % 4 = 0 → pfTarget off = .reg off → s.writeServed (.fn 0) off = true →
    s.rwlLocked (s.rwlOwner r ix v.toNat) = true →
    Answers (.rwlWrite (.fn 0) off 4 v) s fun t =>
      (∃ e, t.errs.getLast? = some e ∧ e.status = stNotPermitted ∧ e.func = 0 ∧ e.seq = s.regN aGlobalErrCount) ∧
      SameRegsBut s t (fun a => a = aGlobalErrCount ∨ a = aGlobalErrStatus) ∧ SameMemory s t ∧ t.parts = s.parts) ∧
  (∀ (p : Fin 16) (v : W32) (s : State),
    s.writeServed (.fn 0) (aSchedPartCtrl p) = true → s.partTrusted p = false → (s.part p).paused = false →
    Answers (.rwlWrite (.fn 0) (aSchedPartCtrl p) 4 v) s fun t =>
      (1 ≤ v.toNat % 1024 ∧ v.toNat % 1024 ≤ 1000 →
        t.reg (aSchedPartCtrl p) = (s.reg (aSchedPartCtrl p) &&& ~~~0xF03FF) ||| (v &&& 0xF03FF) ∧
        (t.part p).expert = true ∧ SameRegsBut s t (fun a => a = aSchedPartCtrl p)) ∧
      (v.toNat % 1024 = 0 ∨ 1000 < v.toNat % 1024 →
        t.reg (aSchedPartCtrl p) = s.reg (aSchedPartCtrl p) ∧ t.parts = s.parts ∧
        ∃ e, t.errs.getLast? = some e ∧ e.status = stMalformed) ∧ SameMemory s t)

/-- ERR_INDEX_WRITE (19 R736). -/
def Obligations.ErrorLedgerWindow : Prop :=
  (∀ (s : State) (status source reason : Nat) (part : Option Nat) (func i : Nat) (detail : Bytes), i < 8 →
    (s.addErr status source reason part func detail).reg (aGlobalErrData i) = s.reg (aGlobalErrData i)) ∧
  ∀ (v : W32) (s : State), s.writeServed (.fn 0) aGlobalErrIndex = true →
    Answers (.errIndexWrite (.fn 0) v) s fun t =>
      t.reg aGlobalErrIndex = v ∧ t.errs = s.errs ∧
      (∀ i, i < 8 → ∀ e, s.errs.find? (fun x => decide (x.seq = v.toNat)) = some e →
        t.regN (aGlobalErrData i) = le e.bytes (4 * i) 4) ∧
      (∀ i, i < 8 → (∀ e ∈ s.errs, e.seq ≠ v.toNat) → t.regN (aGlobalErrData i) = 0) ∧
      SameRegsBut s t (fun a => a = aGlobalErrIndex ∨ ∃ i, i < 8 ∧ a = aGlobalErrData i) ∧ SameMemory s t

/-- DBG_ACCESS, JTAG_INSTRUCTION and JTAG_TAP_RESET (20 R752, R753), DBG_MUX_CTRL_WRITE (R742), PROF_CLEAR (R745) and
COUNTER_SNAPSHOT (R746, R747, R755). -/
def Obligations.DebugAccess : Prop :=
  (∀ (off : Nat) (wr : Option W32) (s : State), s.jtagIns ≠ 4 → exec (.dbgAccess off wr) s = .next s) ∧
  (∀ (off : Nat) (s : State), s.jtagIns = 4 → s.power ≠ .off → off < 2 ^ 33 →
    Answers (.dbgAccess off none) s fun t =>
      t.out.getLast? = some (.tdo (if s.tamperHold then 0 else (s.readBar .jtag off 4).1)) ∧ SameMemory s t ∧
      SameRegsBut s t nowhere) ∧
  (∀ (off : Nat) (v : W32) (s : State), s.tamperHold = true → exec (.dbgAccess off (some v)) s = .next s) ∧
  (∀ (a : Nat) (v : W32) (s : State), s.jtagIns = 4 → s.power ≠ .off → s.tamperHold = false → a % 4 = 0 → a < 2 ^ 33 →
    s.hUse (a / 65536) ≠ .retired →
    Answers (.dbgAccess (2 ^ 33 + a) (some v)) s fun t =>
      leNat (Mem.read t.folio.hoard a 4) = v.toNat ∧ SameMemoryBut s t (inRange a 4) nowhere nowhere nowhere nowhere ∧
      SameRegsBut s t nowhere) ∧
  (∀ (ins : Byte) (s : State), Answers (.jtagInstruction ins) s fun t =>
    t.jtagIns = (if ins.toNat ≤ 4 ∨ s.sbox.lc = .blank ∨ s.sbox.lc = .factory then ins.toNat else 0) ∧
    (ins = 1 → t.out = s.out ++ [.tdo 0xB7400D6B]) ∧ SameRegsBut s t nowhere ∧ SameMemory s t) ∧
  (∀ s : State, Answers .jtagTapReset s fun t => t.jtagIns = 1 ∧ SameRegsBut s t nowhere ∧ SameMemory s t) ∧
  (∀ (v : W32) (s : State), s.writeServed (.fn 0) aDbgMuxCtrl = true →
    Answers (.dbgMuxCtrlWrite (.fn 0) v) s fun t =>
      (v.getLsbD 31 = false ∨ leastDiv (v.toNat / 2 ^ 21 % 128) ≤ v.toNat % 256 → t.reg aDbgMuxCtrl = v &&& 0x8FFF00FF) ∧
      (v.getLsbD 31 = true → v.toNat % 256 < leastDiv (v.toNat / 2 ^ 21 % 128) →
        t.reg aDbgMuxCtrl = s.reg aDbgMuxCtrl ∧ ∃ e, t.errs.getLast? = some e ∧ e.status = stMalformed) ∧ SameMemory s t) ∧
  (∀ s : State, s.writeServed (.fn 0) aDbgProfCtrl = true →
    Answers (.profClear (.fn 0)) s fun t =>
      (∀ k c, k < 8 → c < 256 → t.reg (aDbgProfCntLo k c) = 0 ∧ t.reg (aDbgProfCntHi k c) = 0) ∧
      SameRegsBut s t (fun a => aDbgProfCntLo 0 0 ≤ a ∧ a < aDbgProfCntLo 0 0 + 0x4000) ∧ SameMemory s t) ∧
  (∀ s : State, ((s.dev).map (·.dbg.snapMs)).getD 0 = 0 → exec .counterSnapshot s = .next s) ∧
  (∀ (s : State) (p v : Nat) (d : DevCharter), s.dev = some d → d.dbg.snapMs ≠ 0 → s.partsRun = true →
    s.snapParts = [p] → v = 0xFFFFFFFFF → s.unranked p v = false →
    s.discardBefore { part := p, tag := 4096 } v = false → s.handedOff p v = false →
    (s.leaf p v).state = .resident → (s.leaf p v).hvalid = true → (s.leaf p v).cls ≠ .peer →
    Answers .counterSnapshot s fun t =>
      (∀ k c, k < 8 → c < 256 → leNat (Mem.read t.folio.hoard (65536 * (s.leaf p v).hframe + 2048 * k + 8 * c) 8) =
        if d.dbg.profMask.testBit (c / 8) ∧ (s.reg (aDbgProfSel k c)).getLsbD 27 = false ∧
            s.regN (aDbgProfSel k c) / 2 ^ 28 = p then s.pair (aDbgProfCntLo k c) else 0) ∧
      SameMemoryBut s t (inRange (65536 * (s.leaf p v).hframe) 16384) nowhere nowhere nowhere nowhere ∧
      s.cycles < t.cycles ∧ t.cycles ≤ s.cycles + usCycles (1000 * d.dbg.snapMs) ∧ SameRegsBut s t nowhere)

/-- A read by one requester changes no _HI latch of another (00 R20). -/
def Obligations.LatchesAreSeparate : Prop :=
  ∀ (a b : Req) (off size hi : Nat) (s : State), a ≠ b → hi < 2 ^ 32 →
    Answers (.pairLoRead a off size) s fun t => t.latch b hi = s.latch b hi

/-- DEVICE_CHARTER_LOAD and JOB_CHARTER_LOAD (02 R57 to R61, R71 to R74). -/
def Obligations.CharterLoadsStart : Prop :=
  (∀ (s : State) (c : DevCharter), s.writeServed (.fn 0) aCharterLoadCtrl = true → (s.func 0).bme = true → s.load = none →
    s.checkDevice s.loadImage.1 s.loadImage.2 = .ok c →
    Answers (.deviceCharterLoad (.fn 0)) s fun t =>
      (∃ l, t.load = some l ∧ l.charter = .device c ∧ l.image = s.loadImage.1 ∧ l.applied = false) ∧
      (t.reg aCharterLoadStatus).getLsbD 31 = true ∧ t.dev = s.dev ∧ t.parts = s.parts ∧ SameMemory s t ∧
      SameRegsBut s t (fun a => a = aCharterLoadStatus)) ∧
  (∀ (s : State) (e : LoadErr), s.writeServed (.fn 0) aCharterLoadCtrl = true → (s.func 0).bme = true → s.load = none →
    s.checkDevice s.loadImage.1 s.loadImage.2 = .error e → e.1 ≠ .loadBusy → loadReasonStatus e.1 ≠ stDone →
    Answers (.deviceCharterLoad (.fn 0)) s fun t =>
      t.load = none ∧ t.dev = s.dev ∧ t.parts = s.parts ∧
      t.regN aCharterLoadStatus = (loadReasonCode e.1 * 2 ^ 24 + loadReasonStatus e.1) % 2 ^ 32 ∧
      t.regN aCharterLoadAt = e.2 % 2 ^ 32 ∧
      (∃ x, t.errs.getLast? = some x ∧ x.status = loadReasonStatus e.1 ∧ x.source = 0x02 ∧ x.reason = loadReasonCode e.1) ∧
      SameMemory s t) ∧
  (∀ (f : Fin 64) (p : Fin 16) (q : Nat) (s : State) (c : JobCharter),
    s.writeServed (.fn f) aCharterLoadCtrl = true → (s.func f).bme = true → s.load = none →
    (if f = 0 then some p.val else s.partOfFunc f) = some q → s.jobRefusal f (some q) = none →
    s.checkJob s.loadImage.1 s.loadImage.2 q = .ok c →
    Answers (.jobCharterLoad (.fn f) p) s fun t =>
      (∃ l, t.load = some l ∧ l.charter = .job c ∧ l.part = q ∧ l.toPause = [q] ∧ l.applied = false) ∧
      (t.reg aCharterLoadStatus).getLsbD 31 = true ∧ t.parts = s.parts ∧ SameMemory s t ∧
      SameRegsBut s t (fun a => a = aCharterLoadStatus)) ∧
  (∀ (s : State) (p : Fin 16) (c : Instr), s.writeServed (.fn 0) aCharterLoadCtrl = true → (s.func 0).bme = true →
    s.load ≠ none → (c = .deviceCharterLoad (.fn 0) ∨ c = .jobCharterLoad (.fn 0) p) →
    Answers c s fun t =>
      t.load = s.load ∧ t.parts = s.parts ∧
      (∃ x, t.errs.getLast? = some x ∧ x.status = stNotPermitted ∧ x.source = 0x02 ∧ x.reason = loadReasonCode .loadBusy) ∧
      SameRegsBut s t (fun a => a = aGlobalErrCount ∨ a = aGlobalErrStatus) ∧ SameMemory s t)

/-- CHARTER_PAUSE (02 R68, R70), PAUSE_CUTOFF (R71) and CHARTER_APPLY (R64, R69, R71). -/
def Obligations.CharterPauseAndApply : Prop :=
  (∀ (p : Fin 16) (s : State) (l : Load), s.load = some l → l.paused = none → l.toPause.head? = some p.val →
    s.mayPause p = true → s.keysCome l = true →
    Answers (.charterPause p) s fun t =>
      (t.part p).paused = true ∧ (∀ q, q ≠ p.val → t.part q = s.part q) ∧
      (∃ m, t.load = some m ∧ m.paused = some (p.val, s.cycles) ∧ m.toPause = l.toPause.drop 1 ∧ m.charter = l.charter) ∧
      SameMemory s t ∧ SameRegsBut s t nowhere) ∧
  (∀ (p : Fin 16) (s : State) (l : Load) (c : Nat), s.load = some l → l.paused = some (p.val, c) →
    ((s.opsOf p).map Op.tag).Nodup → (∀ r ∈ s.tally.groups, r.part ≠ p.val) →
    Answers (.pauseCutoff p) s fun t =>
      c + usCycles 8000 ≤ t.cycles ∧ (∀ o ∈ s.cutOps p, t.lastOk p o.tag = false) ∧ SameMemory s t) ∧
  (∀ (s : State) (l : Load) (p k : Nat) (c : JobCharter), s.load = some l → l.charter = .job c → l.part = p →
    l.paused = some (p, k) → l.toPause = [] → l.applied = false → s.pauseDrained p = true → s.mgmt.waiting = false →
    Answers .charterApply s fun t =>
      t.load = none ∧ (t.part p).job = some c ∧ (t.part p).ph = .opn ∧ (t.part p).phase = 0 ∧
      (t.part p).paused = false ∧ (t.part p).switch = none) ∧
  (∀ (s : State) (l : Load) (c : DevCharter), s.load = some l → l.charter = .device c → l.paused = none →
    l.toPause = [] → l.applied = false → s.mgmt.waiting = false →
    Answers .charterApply s fun t => t.load = none ∧ t.dev = some c ∧ (t.part 0).expert = false)

/-- CHARTER_REMOVE (17 R672, R675, R680), REMOVAL_COMPLETE (R675, R677) and REMOVAL_FORCED (R676). -/
def Obligations.TenantRemoval : Prop :=
  (∀ (p : Fin 16) (s : State), s.writeServed (.fn 0) aCharterRemoveCtrl = true → p ≠ 0 → (s.partRec p).isSome = true →
    s.removal = none → s.mgmt.waiting = false →
    Answers (.charterRemove (.fn 0) p) s fun t =>
      (t.part p).job = none ∧ (t.part p).ph = .noJob ∧ (t.part p).switch = none ∧
      (∀ v, v < 2 ^ 36 → (t.leaf p v).state = .absent ∨ (t.leaf p v).state = .scrub) ∧
      (∀ v off n, v < 2 ^ 36 → t.folioRead p v off n = zeros n)) ∧
  (∀ (p : Fin 16) (s : State), s.writeServed (.fn 0) aCharterRemoveCtrl = true →
    (p = 0 ∨ s.partRec p = none ∨ s.removal ≠ none) → s.mgmt.waiting = false →
    Answers (.charterRemove (.fn 0) p) s fun t =>
      t.parts = s.parts ∧ t.removal = s.removal ∧ t.folio = s.folio ∧
      (∃ x, t.errs.getLast? = some x ∧ x.status = stNotPermitted ∧ x.source = 0x02 ∧ x.part = some p.val) ∧ SameMemory s t) ∧
  (∀ (s : State) (r : Removal), s.removal = some r → s.opsOf r.part = [] → r.part < 16 → s.mgmt.waiting = false →
    Answers .removalComplete s fun t => t.removal = none ∧
      t.regN aCharterRemoveStatus = r.part * 2 ^ 24 + (if r.tamper then stTamperAbort else stDone) ∧ SameMemory s t) ∧
  (∀ (s : State) (r : Removal), s.removal = some r → s.opsOf r.part ≠ [] → r.part < 16 → s.mgmt.waiting = false →
    Answers .removalForced s fun t => t.removal = none ∧ (∀ o ∈ t.ops, o.part ≠ r.part) ∧
      t.regN aCharterRemoveStatus = 2 ^ 30 + r.part * 2 ^ 24 + (if r.tamper then stTamperAbort else stDone) ∧
      t.regN aCharterRemoveRecords = min (s.opsOf r.part).length (2 ^ 32 - 1) ∧ r.since + usCycles 10000 ≤ t.cycles)

/-- PPS_IN_EDGE, TOD (08 R359, R594), SOURCE_LOST and HOLDOVER_LIMIT_EXCEEDED (R360 to R362). An edge comes `k` 820ths
into its reference cycle (R352). -/
def Obligations.TimeFirstStepAndLoss : Prop :=
  (∀ (k : Fin 820) (s : State) (sec stamp : Nat) (delay : Int), s.timeSource.source = 1 →
    stamp = (s.ft.acc + s.ft.rate * k / 820) / 2 ^ 24 → s.ft.rate < 2 ^ 34 → s.ft.tod = some sec → 1 ≤ sec → sec < 2 ^ 33 →
    delay = sgn 24 (s.regN aFtimePps % 2 ^ 24) → s.ft.ever = false → s.ft.stepped = false → s.ft.lock = .unlocked →
    (stamp : Int) ≤ (sec : Int) * 256000000000 + delay →
    Answers (.ppsInEdge k) s fun t =>
      (t.ft256 : Int) = (sec : Int) * 256000000000 + delay + s.ft256 - stamp ∧ t.ft.stepped = true ∧ t.ft.lock = .unlocked ∧
      t.ft.hist = [] ∧ t.ft.lastPps = some s.cycles ∧ (t.reg aFtimeEvents).getLsbD 3 = true ∧ SameMemory s t) ∧
  (∀ (k : Fin 820) (s : State), s.timeSource.source = 1 → s.ft.tod = none → s.ft.lock = .locked → s.ft.growing = false →
    Answers (.ppsInEdge k) s fun t =>
      t.ft.lock = .holdover ∧ t.ft.growing = true ∧ t.ft.lossAt = s.cycles ∧ t.ft.estBase = s.estErr ∧
      t.ft.acc = s.ft.acc ∧ (t.reg aFtimeEvents).getLsbD 2 = true ∧ SameMemory s t) ∧
  (∀ s : State, s.timeSource.source = 0 → s.ft.gm ≠ none → s.ft.lock = .locked → s.ft.growing = false →
    s.ft.lastAnnounce + 3 * announceCycles < s.ft.lastSync →
    Answers .sourceLost s fun t =>
      t.ft.lock = .holdover ∧ t.ft.growing = true ∧ t.ft.lossAt = t.cycles ∧ t.ft.gm = none ∧ t.ft.foreign = [] ∧
      s.ft.lastAnnounce + 3 * announceCycles ≤ t.cycles ∧ (t.reg aFtimeEvents).getLsbD 2 = true ∧ SameMemory s t) ∧
  (∀ s : State, s.timeSource.source = 0 → 0 ≤ s.timeSource.logSync → s.ft.lock = .locked → s.ft.growing = false →
    s.ft.gm ≠ none → s.ft.lastSync + 4 * 312500000 * 2 ^ s.timeSource.logSync.toNat ≤ s.ft.lastAnnounce + 3 * announceCycles →
    Answers .sourceLost s fun t =>
      t.ft.lock = .holdover ∧ t.ft.growing = true ∧ t.ft.lossAt = t.cycles ∧ t.ft.gm = s.ft.gm ∧
      s.ft.lastSync + 4 * 312500000 * 2 ^ s.timeSource.logSync.toNat ≤ t.cycles ∧
      (t.reg aFtimeEvents).getLsbD 2 = true ∧ SameMemory s t) ∧
  (∀ s : State, s.ft.growing = true → s.ft.lock ≠ .unlocked → 1 ≤ s.ft.holdRate →
    Answers .holdoverLimitExceeded s fun t =>
      t.ft.lock = .unlocked ∧ 256 * t.ft.limit < t.estErr ∧ t.ft.ppsOut = false ∧
      (t.reg aFtimeEvents).getLsbD 0 = true ∧ SameMemory s t) ∧
  (∀ (msg : Bytes) (s : State) (c : Nat), msg.length = 12 → be msg 0 2 = 0x1D9F → le msg 2 1 = 1 →
    s.timeSource.source = 1 → s.ft.lastPps = some c → c + 31250000 ≤ s.cycles → s.cycles ≤ c + 281250000 →
    Answers (.tod msg) s fun t =>
      t.ft.tod = some (be msg 4 6) ∧ t.regN aHostTodLo = be msg 4 6 % 2 ^ 32 ∧
      t.regN aHostTodHi = le msg 3 1 * 65536 + be msg 4 6 / 2 ^ 32 ∧
      SameRegsBut s t (fun a => a = aHostTodLo ∨ a = aHostTodHi) ∧ SameMemory s t)

/-- An update by PPS_IN_EDGE (08 R360 to R362) and FTIME_HOLD_WRITE (R379). -/
def Obligations.TimeLocksAndHoldRegister : Prop :=
  (∀ (k : Fin 820) (s : State) (sec : Nat) (off : Int) (h : List Int), s.timeSource.source = 1 → s.ft.tod = some sec →
    off = ((s.ft.acc + s.ft.rate * k / 820) / 2 ^ 24 : Nat) - sgn 24 (s.regN aFtimePps % 2 ^ 24) - (sec : Int) * 256000000000 → s.ft.ever = true →
    off.natAbs ≤ 256000000 → h = (off :: s.ft.hist).take 8 → s.ft.lock = .unlocked → 7 ≤ s.ft.good →
    (h.map Int.natAbs).foldl (· + ·) 0 / h.length ≤ 256 * (s.regN aFtimeHold % 2 ^ 20) → s.dueActions = [] →
    Answers (.ppsInEdge k) s fun t =>
      t.ft.lock = .locked ∧ t.ft.ever = true ∧ t.ft.hist = h ∧ t.ft.good = s.ft.good + 1 ∧ t.ft.growing = false ∧
      t.ft.limit = s.regN aFtimeHold % 2 ^ 20 ∧ t.ft.holdRate = s.regN aFtimeHold / 2 ^ 20) ∧
  (∀ (v : W32) (s : State), s.writeServed (.fn 0) aFtimeHold = true → (∀ p, s.partTrusted p = false) →
    (s.part 0).paused = false → 1 ≤ v.toNat / 2 ^ 20 → 100 ≤ v.toNat % 2 ^ 20 → v.toNat % 2 ^ 20 ≤ 1000000 →
    Answers (.ftimeHoldWrite (.fn 0) v) s fun t =>
      t.reg aFtimeHold = v ∧ SameRegsBut s t (fun a => a = aFtimeHold) ∧ SameMemory s t ∧ (t.part 0).expert = true ∧
      t.ft.acc = s.ft.acc ∧ t.ft.lock = s.ft.lock ∧
      (s.ft.growing = true → t.ft.limit = v.toNat % 2 ^ 20 ∧ t.ft.holdRate = v.toNat / 2 ^ 20 ∧ t.ft.estBase = s.estErr) ∧
      (s.ft.growing = false → s.ft.lock = .holdover → t.ft.limit = v.toNat % 2 ^ 20 ∧ t.ft.holdRate = v.toNat / 2 ^ 20 ∧
        t.estErr = s.estErr) ∧
      (s.ft.growing = false → s.ft.lock ≠ .holdover → t.ft = s.ft))

/-- PTP_MESSAGE (08 R356, R358; 13 R531), which brings a whole frame, PTP_SEND (R356, R357) and PPS_OUT_PULSE (R366). -/
def Obligations.TimeMessagesAndPulse : Prop :=
  (∀ (port : Fin 64) (f : Bytes) (k : Fin 820) (s : State), (s.port port).up = false → s.ft.sub = 0 →
    exec (.ptpMessage port f k) s = .next s) ∧
  (∀ (port : Fin 64) (f : Bytes) (k : Fin 820) (s : State), (s.port port).up = true → (s.portEnt port).isSome = true →
    s.ft.sub = 0 → (fcsOk f = false ∨ s.timeSource.source ≠ 0 ∨ s.timeSource.port ≠ port.val) → s.regN (aRytPortDropMac port) < 2 ^ 32 - 1 →
    Answers (.ptpMessage port f k) s fun t =>
      t.ft = s.ft ∧ t.regN (aRytPortDropMac port) = s.regN (aRytPortDropMac port) + 1 ∧
      SameRegsBut s t (fun a => a = aRytPortRxFrames port ∨ a = aRytPortDropMac port) ∧ SameMemory s t) ∧
  (∀ (port : Fin 64) (f msg : Bytes) (k : Fin 820) (s : State) (ent : PortEnt), (s.port port).up = true →
    s.portEnt port = some ent → fcsOk f = true → (rxEth ent f).bind (rxPtp s.timeSource.transport ent) = some msg →
    s.ft.sub = 0 → s.timeSource.source = 0 → s.timeSource.port = port.val → 34 ≤ msg.length → be msg 1 1 % 16 = 2 →
    be msg 4 1 = s.timeSource.domain → s.timeSource.masterId ≠ 0 → be msg 20 8 ≠ s.timeSource.masterId →
    s.regN aFtimePtpDrops < 2 ^ 32 - 1 →
    Answers (.ptpMessage port f k) s fun t =>
      t.ft = s.ft ∧ t.regN aFtimePtpDrops = s.regN aFtimePtpDrops + 1 ∧
      SameRegsBut s t (fun a => a = aRytPortRxFrames port ∨ a = aFtimePtpDrops) ∧ SameMemory s t) ∧
  (∀ (port : Fin 64) (f msg : Bytes) (k : Fin 820) (s : State) (ent : PortEnt) (a : Announce), (s.port port).up = true →
    s.portEnt port = some ent → fcsOk f = true → (rxEth ent f).bind (rxPtp s.timeSource.transport ent) = some msg →
    s.timeSource.source = 0 → s.timeSource.port = port.val → 64 ≤ msg.length → be msg 0 1 % 16 = 11 →
    be msg 1 1 % 16 = 2 → be msg 4 1 = s.timeSource.domain → s.timeSource.masterId = 0 → s.ft.gm = none →
    a = readAnnounce msg → a.steps < 255 → (be msg 6 1).testBit 0 = false → a.sender / 65536 ≠ Config.clockIdentity.toNat →
    (s.timeSource.masterOk = false ∨ ownClock.better a = false) →
    Answers (.ptpMessage port f k) s fun t =>
      (s.ft.foreign = [] →
        t.ft.foreign = [{ data := a, last := s.cycles, prev := none }] ∧ t.ft.gm = none) ∧
      (∀ old : Foreign, s.ft.foreign = [old] → old.data.sender = a.sender → s.cycles ≤ old.last + 4 * announceCycles →
        t.ft.gm = some a ∧ (t.reg aFtimeEvents).getLsbD 4 = true) ∧
      t.ft.acc = s.ft.acc ∧ t.ft.lock = s.ft.lock ∧ SameMemory s t) ∧
  (∀ (k : Fin 820) (s : State) (ent : PortEnt), s.timeSource.source = 0 → (s.port s.timeSource.port).up = true →
    s.portEnt s.timeSource.port = some ent → s.ftMaster = true → s.timeSource.twoStep = true →
    Answers (.ptpSend 1 k) s fun t =>
      t.ft.seqSync = (s.ft.seqSync + 1) % 65536 ∧
      t.ft.followDue = some (s.ft.seqSync, (s.ft.acc + s.ft.rate * k / 820) / 2 ^ 24) ∧
      (∃ b, t.out = s.out ++ [.frame s.timeSource.port (ptpFrame s.timeSource.transport s.timeSource.port ent b)] ∧
        b.length = 44 ∧ be b 0 1 = 0 ∧
        be b 30 2 = s.ft.seqSync % 65536 ∧ (be b 6 1).testBit 1 = true) ∧ SameMemory s t) ∧
  (∀ s : State, s.ft.ppsOut = false → s.ft.lock ≠ .unlocked →
    Answers (.ppsOutPulse false) s fun t =>
      ((s.reg aFtimePps).getLsbD 31 = true → t.ft.ppsOut = true ∧ t.out = s.out ++ [.pin "PPS_OUT" true]) ∧
      ((s.reg aFtimePps).getLsbD 31 = false → t.ft.ppsOut = false ∧ t.out = s.out) ∧ SameMemory s t ∧
      SameRegsBut s t nowhere) ∧
  (∀ s : State, s.ft.ppsOut = true →
    Answers (.ppsOutPulse true) s fun t =>
      t.ft.ppsOut = false ∧ t.out = s.out ++ [.pin "PPS_OUT" false] ∧ SameMemory s t ∧ SameRegsBut s t nowhere)

/-- WINDOW_DEFINE (10 R417), OPEN_AT and CLOSE_AT (R422), WINDOW_OPEN and WINDOW_CLOSE (R423), WINDOW_DISCARD and
WINDOW_FREE (R422). -/
def Obligations.TallyWindows : Prop :=
  (∀ (p : Fin 16) (tag : Fin 4096) (s : State) (o : Op) (geo : Geometry) (w : Nat),
    s.runningOp p tag 0x0400 = some o →
    ((s.job p).map (·.templates)).bind (fun l => l.find? (fun g => g.template == le o.desc 0x18 1)) = some geo →
    le o.desc 0x18 1 < 64 → allZero (slice o.desc 0x1A 2) = true → allZero (slice o.desc 0x20 32) = true →
    (List.range 64).find? (fun v => decide ((s.win v).st = .free)) = some w → geo.hampers ≤ s.freeHampers →
    ceilDiv (geo.length * accBytes geo.elem) 65536 + 8 + ceilDiv (geo.contributors * 8) 65536 ≤ s.freeTally →
    (s.ft.lock = .unlocked ∨ s.ftNs < geo.firstOpen + le o.desc 0x1C 4 * geo.period + geo.duration) →
    (geo.period ≠ 0 ∨ le o.desc 0x1C 4 = 0) →
    (∀ v ∈ s.winsOf p, (s.win v).geo.template ≠ le o.desc 0x18 1 ∨ (s.win v).index ≠ le o.desc 0x1C 4) →
    Answers (.windowDefine p tag) s fun t =>
      (t.win w).st = .defined ∧ (t.win w).part = p.val ∧ (t.win w).geo = geo ∧ (t.win w).index = le o.desc 0x1C 4 ∧
      (t.win w).openAt = geo.firstOpen + le o.desc 0x1C 4 * geo.period ∧
      (t.win w).closeAt = geo.firstOpen + le o.desc 0x1C 4 * geo.period + geo.duration ∧
      (∀ f ∈ (t.win w).ledgerFrames, ∀ i, i < 65536 → Mem.get t.folio.hoard (65536 * f + i) = 0) ∧
      SameMemoryBut s t (fun a => a / 65536 ∈ (t.win w).ledgerFrames) nowhere nowhere nowhere nowhere ∧
      t.EndedWith p tag stDone ∧ (t.findOp p tag).map Op.info = some w) ∧
  (∀ (w : Fin 64) (s : State) (u : State), (s.win w).st = .defined → u = s.advanceTo (s.win w).openAt →
    s.ft.lock ≠ .unlocked → (s.win w).openAt ≤ u.ftNs → u.ftNs < (s.win w).closeAt → s.openHeld (s.win w).part = false →
    Answers (.openAt w) s fun t =>
      (t.win w).st = .opn ∧ ((t.win w).slices, (t.win w).blockLog2) = s.layout (s.win w).part ∧
      (t.win w).openAt = (s.win w).openAt ∧ t.ft = u.ft ∧ SameMemory s t) ∧
  (∀ (w : Fin 64) (s : State), (s.win w).st = .defined → s.ft.lock = .unlocked →
    Answers (.openAt w) s fun t => t.win w = s.win w ∧ SameMemory s t) ∧
  (∀ (w : Fin 64) (s : State), (s.win w).st = .opn → s.ft.lock ≠ .unlocked →
    Answers (.closeAt w) s fun t =>
      (t.win w).st = .grace ∧ (t.win w).graceFrom = t.cycles ∧
      (t.win w).graceUs = s.regN (aTallyWinCtrl w) / 2 ^ 17 ∧ SameMemory s t) ∧
  (∀ (p : Fin 16) (tag : Fin 4096) (s : State) (o : Op) (w : Nat) (c : Instr) (oc : Nat),
    ((c = .windowOpen p tag ∧ oc = 0x0401) ∨ (c = .windowClose p tag ∧ oc = 0x0402)) →
    s.runningOp p tag oc = some o → w = winHandle o.desc → s.ft.lock ≠ .unlocked →
    Answers c s fun t => t.EndedWith p tag stNotPermitted ∧ t.tally = s.tally ∧ SameMemory s t) ∧
  (∀ (p : Fin 16) (tag : Fin 4096) (s : State) (o : Op) (w : Nat),
    s.runningOp p tag 0x0401 = some o → w = winHandle o.desc → winBodyOk o.desc = true → s.ft.lock = .unlocked →
    (s.win w).part = p.val → (s.win w).st = .defined → s.openHeld p = false → (s.part p).paused = false →
    Answers (.windowOpen p tag) s fun t =>
      (t.win w).st = .opn ∧ (t.win w).openAt = s.ftNs ∧ (t.win w).byCommand = true ∧ t.EndedWith p tag stDone ∧
      SameMemory s t) ∧
  (∀ (p : Fin 16) (tag : Fin 4096) (s : State) (o : Op) (w : Nat),
    s.runningOp p tag 0x0402 = some o → w = winHandle o.desc → winBodyOk o.desc = true → s.ft.lock = .unlocked →
    (s.win w).part = p.val → (s.win w).st = .opn →
    Answers (.windowClose p tag) s fun t =>
      (t.win w).st = .grace ∧ (t.win w).closeAt = s.ftNs ∧ (t.win w).graceFrom = s.cycles ∧
      t.EndedWith p tag stDone ∧ SameMemory s t) ∧
  (∀ (p : Fin 16) (tag : Fin 4096) (s : State) (o : Op) (w : Nat),
    s.runningOp p tag 0x0403 = some o → w = winHandle o.desc → winBodyOk o.desc = true → (s.win w).part = p.val →
    (((s.win w).st = .defined ∧ (s.part p).paused = false) ∨ (s.win w).st.active = true) → s.winOps w recOps = [] →
    (∀ r ∈ s.tally.groups, r.win ≠ w) →
    Answers (.windowDiscard p tag) s fun t =>
      (t.win w).st = .discarded ∧ (t.win w).hampers = [] ∧ (∀ u ∈ t.tally.subs, u.win ≠ w) ∧ t.EndedWith p tag stDone ∧
      SameMemory s t) ∧
  (∀ (p : Fin 16) (tag : Fin 4096) (s : State) (o : Op) (w : Nat),
    s.runningOp p tag 0x0404 = some o → w = winHandle o.desc → winBodyOk o.desc = true → (s.win w).part = p.val →
    (s.win w).st.terminal = true →
    Answers (.windowFree p tag) s fun t => t.win w = {} ∧ t.EndedWith p tag stDone ∧ SameMemory s t)

/-- TALLY_INGEST (10 R427, R436, R442), which is stamped `k` 820ths into its reference cycle, LEDGER_READ (R443) and
REC_LEDGER_READ (11 R468). -/
def Obligations.TallyIngestAndLedgers : Prop :=
  (∀ (p : Fin 16) (tag : Fin 4096) (k : Fin 820) (s : State) (o : Op) (hostOk : Bool),
    s.runningOp p tag 0x0405 = some o → s.waitsFor o = false →
    (∀ j, s.job p = some j → ∀ g ∈ j.templates, g.template ≠ (s.ingestSeg o).template) →
    Answers (.tallyIngest p tag hostOk k) s fun t =>
      t.EndedWith p tag stMalformed ∧ t.tally = s.tally ∧ SameMemory s t) ∧
  (∀ (p : Fin 16) (tag : Fin 4096) (k : Fin 820) (s : State) (o : Op) (g : Segm) (geo : Geometry) (w : Nat) (e : Peer),
    s.runningOp p tag 0x0405 = some o → g = ({ s with ft := { s.ft with sub := k } } : State).ingestSeg o → s.waitsFor o = false →
    ((s.job p).map (·.templates)).bind (fun l => l.find? (fun y => y.template == g.template)) = some geo →
    geo.hostIngest = true → s.admitted p = true → s.peer p g.relay = some e → e.role = 1 → ingestOk o.desc geo.elem = true →
    g.seg = 0 → g.fin = false → s.openOf p g.template g.contributor = [] → s.windowFor p g.template g.stamp = some w →
    g.contributor < (s.win w).geo.contributors → (s.ledger (s.win w) g.contributor).state = 0 →
    (s.win w).holds g.stamp = true → (s.win w).st = .opn → g.breaks (s.win w) 0 = false →
    (s.hmp ((s.win w).hamperOf g.contributor)).full = false → (s.hmp ((s.win w).hamperOf g.contributor)).win = some w →
    Answers (.tallyIngest p tag true k) s fun t =>
      (∃ u ∈ t.tally.subs, u.win = w ∧ u.contributor = g.contributor ∧ u.subId = g.subId ∧ u.nextSeg = 1 ∧
        u.bytes = g.payload.length ∧ u.aborted = none) ∧
      (t.ledger (s.win w) g.contributor).state = 1 ∧ (t.ledger (s.win w) g.contributor).segs = 1 ∧
      (t.ledger (s.win w) g.contributor).subId = g.subId ∧ t.EndedWith p tag stDone ∧
      SameMemoryBut s t (inRange ((s.win w).ledgerAddr g.contributor) 8) nowhere nowhere nowhere nowhere) ∧
  (∀ (p : Fin 16) (tag : Fin 4096) (s : State) (o : Op) (c : Instr) (oc n w v D k : Nat) (addr : Nat → Nat),
    ((c = .ledgerRead p tag ∧ oc = 0x0406 ∧ n = 8 ∧ addr = (s.win w).ledgerAddr) ∨
      (c = .recLedgerRead p tag ∧ oc = 0x0414 ∧ n = 1 ∧ addr = (s.win w).recAddr ∧ (s.win w).recFrames ≠ [])) →
    s.runningOp p tag oc = some o → w = winHandle o.desc → D = ledgerDst o.desc → k = ledgerCount o.desc → v = D / 65536 →
    (s.win w).st ≠ .free → (s.win w).part = p.val → le o.desc 0x18 1 < 64 → allZero (slice o.desc 0x19 3) = true →
    allZero (slice o.desc 0x24 4) = true → allZero (slice o.desc 0x30 16) = true → 1 ≤ k →
    ledgerFirst o.desc + k ≤ (s.win w).geo.contributors → D % 64 = 0 → D + n * k ≤ 65536 * (v + 1) → D < 2 ^ 52 →
    s.folio.poison = [] → s.unranked p v = false → s.discardBefore o v = false → s.handedOff p v = false →
    (s.leaf p v).state = .resident → (s.leaf p v).hvalid = true → (s.leaf p v).cls ≠ .peer →
    Answers c s fun t =>
      (∀ i j, i < k → j < n → Mem.get t.folio.hoard (65536 * (s.leaf p v).hframe + D % 65536 + n * i + j) =
        Mem.get s.folio.hoard (addr (ledgerFirst o.desc + i) + j)) ∧
      SameMemoryBut s t (inRange (65536 * (s.leaf p v).hframe + D % 65536) (n * k)) nowhere nowhere nowhere nowhere ∧
      t.EndedWith p tag stDone ∧ (t.findOp p tag).map Op.info = some k ∧ SameRegsBut s t nowhere)

/-- HAMPER_POP (09 R384, R388), SLOT_SUMMED (10 R437), REVERSAL_DONE (R434) and RETENTION_APPEND (09 R398, R399). -/
def Obligations.TallySumsAndReversal : Prop :=
  (∀ (h : Fin 64) (s : State) (w : Nat) (b : Bool) (y : HSlot),
    (s.hmp h).win = some w → (s.hmp h).oldest = some b → ((s.hmp h).bank b).visible = true → (s.hmp h).summing = none →
    (s.part (s.win w).part).paused = false → (s.win w).st ≠ .recovering →
    ((s.hmp h).bank b).slots.find? (fun z => !z.popped) = some y → y.dropped = false →
    s.popWaits w ((s.hmp h).bank b) = false →
    Answers (.hamperPop h) s fun t => t.cycles = max s.cycles (s.popCycle h) ∧
      (t.hmp h).summing = some (b, { y with popped := true, summed := false }) ∧
      (∀ k, k ≠ h.val → t.hmp k = s.hmp k) ∧ SameMemory s t) ∧
  (∀ (h : Fin 64) (s : State) (w : Nat) (b : Bool) (y : HSlot) (x : Window),
    (s.hmp h).win = some w → (s.hmp h).summing = some (b, y) → x = s.win w → x.st ≠ .recovering →
    (s.part x.part).paused = false →
    y.seg * perSegment x.geo.elem + (payloadElems x.geo.elem y.payload).length ≤ x.geo.length → x.AccApart →
    Answers (.slotSummed h) s fun t =>
      (∀ i, i < (payloadElems x.geo.elem y.payload).length →
        t.acc x (y.seg * perSegment x.geo.elem + i) =
          accAdd x.geo false (s.acc x (y.seg * perSegment x.geo.elem + i)) ((payloadElems x.geo.elem y.payload).getD i 0)
            % 2 ^ (8 * accBytes x.geo.elem)) ∧
      (∀ e, e < x.geo.length → (e < y.seg * perSegment x.geo.elem ∨
          y.seg * perSegment x.geo.elem + (payloadElems x.geo.elem y.payload).length ≤ e) → t.acc x e = s.acc x e) ∧
      t.tally.wptr = s.tally.wptr) ∧
  (∀ (w : Fin 64) (c : Nat) (s : State) (u : Sub) (g : SegRec) (es : List Nat) (x : Window),
    s.revOf w c = some u → x = s.win w → x.st ≠ .recovering → (s.part x.part).paused = false → u.unrev = false →
    s.retainedBad u = false → u.segs.filter (·.summed) = [g] → es = payloadElems x.geo.elem (s.retained u g) →
    (∀ y ∈ s.slotsOf w, y.contributor = c → y.subId = u.subId → y.popped = true → y.summed = true) →
    g.seg * perSegment x.geo.elem + es.length ≤ x.geo.length → x.AccApart →
    Answers (.reversalDone w c) s fun t =>
      (∀ i, i < es.length → t.acc x (g.seg * perSegment x.geo.elem + i) =
        accAdd x.geo true (s.acc x (g.seg * perSegment x.geo.elem + i)) (es.getD i 0) % 2 ^ (8 * accBytes x.geo.elem)) ∧
      (∀ e, e < x.geo.length → (e < g.seg * perSegment x.geo.elem ∨ g.seg * perSegment x.geo.elem + es.length ≤ e) → t.acc x e = s.acc x e) ∧
      (∀ y ∈ t.tally.subs, y.named w c u.subId = false)) ∧
  (∀ (h : Fin 64) (s : State) (y : HSlot) (w : Nat) (u : Option Sub) (a : Nat),
    s.nextAppend h = some (y, w, u) → (∀ v, u = some v → v.unrev = false) → s.nextHold h = 0 → 64 < s.ringFree →
    (∀ k, k ≠ h.val → s.nextAppend k = none) → (∀ v, (s.win v).st ≠ .recovering) → 1 ≤ y.payload.length →
    y.payload.length ≤ 64 → a = s.ringAddr (s.tally.wptr % s.ringBytes) →
    Answers .retentionAppend s fun t =>
      Mem.read t.folio.hoard a y.payload.length = y.payload ∧
      t.tally.wptr = (s.tally.wptr + 64) % s.ringBytes ∧ t.tally.appends = s.tally.appends + 1 ∧
      SameMemoryBut s t (inRange a 64) nowhere nowhere nowhere nowhere)

/-- COMMIT (10 R431, R432, R433), IDLE_TIMEOUT (R424, R433), GRACE_END (R422, 11 R449 to R451) and SLICE_FAIL (R439). -/
def Obligations.TallyCommitsAndTimeouts : Prop :=
  (∀ (w : Fin 64) (c : Nat) (s : State) (u : Sub), s.subOf w c = some u → u.sealBytes ≠ none → s.sealOk u = true →
    (∀ g, s.graceEnd w = some g → u.commitAt ≤ g) → (s.win w).st ≠ .recovering →
    s.regN (aTallyWinCommits w) + 1 < 2 ^ 32 →
    Answers (.commit w c) s fun t =>
      t.ledger (s.win w) c = { s.ledger (s.win w) c with state := 2 } ∧
      t.regN (aTallyWinCommits w) = s.regN (aTallyWinCommits w) + 1 ∧
      (∀ y ∈ t.tally.subs, y.named w c u.subId = false) ∧ t.cycles = max s.cycles u.commitAt ∧
      SameMemoryBut s t (inRange ((s.win w).ledgerAddr c) 8) nowhere nowhere nowhere nowhere) ∧
  (∀ (w : Fin 64) (c : Nat) (s : State) (u : Sub) (i : Instr) (r : Nat), s.subOf w c = some u → u.unrev = false →
    ((i = .commit w c ∧ r = 1 ∧ u.sealBytes ≠ none ∧ s.sealOk u = false) ∨
      (i = .idleTimeout w c ∧ r = 2 ∧ s.idleFrozen u = false)) →
    s.regN (aTallyWinAborts w) + 1 < 2 ^ 32 →
    Answers i s fun t =>
      t.ledger (s.win w) c = { s.ledger (s.win w) c with
        state := 3, reason := r, aborts := satInc 5 (s.ledger (s.win w) c).aborts } ∧
      t.regN (aTallyWinAborts w) = s.regN (aTallyWinAborts w) + 1 ∧
      (∃ z ∈ t.tally.subs, z.named w c u.subId = true ∧ z.aborted = some r) ∧
      SameMemoryBut s t (inRange ((s.win w).ledgerAddr c) 8) nowhere nowhere nowhere nowhere) ∧
  (∀ (w : Fin 64) (s : State) (y : HSlot), (s.win w).st = .grace → (∀ u ∈ s.tally.subs, u.win ≠ w) →
    y ∈ s.slotsOf w → (y.popped && y.summed && y.retained) = false →
    (∀ h b, ((s.hmp h).bank b).st = .free → ((s.hmp h).bank b).slots = []) →
    Answers (.graceEnd w) s fun t =>
      (t.win w).st = .recovering ∧ (t.win w).phase = .summing ∧ (t.win w).summed = (s.win w).summed ∧
      t.cycles = max s.cycles ((s.win w).graceFrom + usCycles (s.win w).graceUs) ∧ SameMemory s t) ∧
  (∀ (w : Fin 64) (s : State), (s.win w).st = .grace → (s.win w).summed = false → (∀ u ∈ s.tally.subs, u.win ≠ w) →
    s.slotsOf w = [] → s.regN (aTallyWinCommits w) < s.releaseThreshold (s.win w).part →
    Answers (.graceEnd w) s fun t =>
      (t.win w).st = .belowThreshold ∧ (t.win w).phase = .none ∧ (t.win w).hampers = [] ∧
      (t.win w).summed = true ∧ SameMemory s t) ∧
  (∀ (w : Fin 64) (s : State), (s.win w).st = .grace → (s.win w).summed = false → (∀ u ∈ s.tally.subs, u.win ≠ w) →
    s.slotsOf w = [] → s.releaseThreshold (s.win w).part ≤ s.regN (aTallyWinCommits w) → (s.win w).geo.elem ≤ 3 →
    Answers (.graceEnd w) s fun t =>
      (t.win w).st = .recovering ∧ (t.win w).phase = .accepting ∧ (t.win w).hampers = [] ∧
      (∀ f ∈ (t.win w).recFrames, ∀ i, i < 65536 → Mem.get t.folio.hoard (65536 * f + i) = 0) ∧
      SameMemoryBut s t (fun a => a / 65536 ∈ (t.win w).recFrames) nowhere nowhere nowhere nowhere) ∧
  (∀ (k : Fin 8) (s : State),
    Answers (.sliceFail k) s fun t =>
      (∀ j, t.sliceFailed.testBit j = (decide (j = k.val) || s.sliceFailed.testBit j)) ∧
      (s.sliceFailed.testBit k = false → ∀ w, w < 64 → (s.win w).st.active = true → (s.win w).slices.testBit k = true →
        t.win w = { s.win w with sliceMoved := true }) ∧
      (s.sliceFailed.testBit k = true → t = s) ∧ SameMemory s t)

/-- RECOVER_SELF and RECOVER_PAIR (11 R452 to R474), of one group that lies in one resident folio, run through. The slot
that holds its key (R457) is empty again at the end. -/
def Obligations.RecoveryOfMasks : Prop :=
  (∀ (p : Fin 16) (tag : Fin 4096) (s : State) (o : Op) (w v a c j : Nat) (x : Window) (gb k : Bytes),
    s.runningOp p tag 0x0410 = some o → w = winHandle o.desc → x = s.win w → v = recSrc o.desc / 65536 →
    s.ownsWin p w = true → x.st = .recovering → x.phase = .accepting → x.geo.elem ≤ 3 → recBodyOk o.desc = true →
    recSrc o.desc + recLen o.desc ≤ 65536 * (v + 1) → recCount o.desc = 1 → s.unranked p v = false → s.discardBefore o v = false →
    o.progress = 0 → s.tally.groups = [] → s.hasPartKeys p = true → s.freeSlot p = some j →
    (s.leaf p v).state = .resident → (s.leaf p v).hvalid = true →
    a = 65536 * (s.leaf p v).hframe + recSrc o.desc % 65536 → gb = Mem.read s.folio.hoard a (recLen o.desc) →
    gb.length = groupSize false gb → (readGroup false gb).ok x.geo = true → c = (readGroup false gb).contributor →
    (s.ledger x c).state = 2 → ((s.recEntry x c).1 = 0 ∨ (s.recEntry x c).1 = 1) → (s.recEntry x c).2 = false →
    shamir x.geo.shamirT (readGroup false gb).shares = some k → x.AccApart →
    (∀ e, e < x.geo.length → x.recAddr c < x.accAddr e ∨ x.accAddr e + accBytes x.geo.elem ≤ x.recAddr c) →
    s.regN (aTallyRecSelf w) + 1 < 2 ^ 32 →
    Answers (.recoverSelf p tag .whole) s fun t =>
      (∀ e, e < x.geo.length → t.acc x e =
        accAdd x.geo true (s.acc x e) (maskElem x.geo (maskKey x 1 c c k) e) % 2 ^ (8 * accBytes x.geo.elem)) ∧
      t.recEntry x c = (1, true) ∧ atValid (t.slot j).attr = false ∧ t.tally.groups = [] ∧ t.regN (aTallyRecSelf w) = s.regN (aTallyRecSelf w) + 1 ∧
      t.EndedWith p tag stDone ∧ (t.findOp p tag).map Op.info = some 1 ∧
      SameMemoryBut s t (fun b => b = x.recAddr c ∨ ∃ e, e < x.geo.length ∧ inRange (x.accAddr e) (accBytes x.geo.elem) b)
        nowhere nowhere nowhere nowhere) ∧
  (∀ (p : Fin 16) (tag : Fin 4096) (s : State) (o : Op) (w v a c j sk : Nat) (x : Window) (gb k : Bytes)
    (ms : List (Bool × Bytes × Bytes)),
    s.runningOp p tag 0x0411 = some o → w = winHandle o.desc → x = s.win w → v = recSrc o.desc / 65536 →
    s.ownsWin p w = true → x.st = .recovering → x.phase = .accepting → x.geo.elem ≤ 3 → recBodyOk o.desc = true →
    recSrc o.desc + recLen o.desc ≤ 65536 * (v + 1) → recCount o.desc = 1 → s.unranked p v = false → s.discardBefore o v = false →
    o.progress = 0 → s.tally.groups = [] → s.hasPartKeys p = true → s.freeSlot p = some j →
    (s.leaf p v).state = .resident → (s.leaf p v).hvalid = true →
    a = 65536 * (s.leaf p v).hframe + recSrc o.desc % 65536 → gb = Mem.read s.folio.hoard a (recLen o.desc) →
    gb.length = groupSize true gb → (readGroup true gb).ok x.geo = true → c = (readGroup true gb).contributor →
    (s.ledger x c).state ≠ 2 → ((s.recEntry x c).1 = 0 ∨ (s.recEntry x c).1 = 2) → (s.recEntry x c).2 = false →
    (s.setRecEntry x c 2 false).groupMasks x true (readGroup true gb) = some (k, ms, sk) → x.AccApart →
    (∀ e, e < x.geo.length → x.recAddr c < x.accAddr e ∨ x.accAddr e + accBytes x.geo.elem ≤ x.recAddr c) →
    s.regN (aTallyRecPair w) + 1 < 2 ^ 32 →
    Answers (.recoverPair p tag .whole) s fun t =>
      (∀ e, e < x.geo.length → t.acc x e = ms.foldl (fun y m =>
        accAdd x.geo m.1 y (maskElem x.geo m.2 e) % 2 ^ (8 * accBytes x.geo.elem)) (s.acc x e)) ∧
      t.recEntry x c = (2, true) ∧ atValid (t.slot j).attr = false ∧ t.tally.groups = [] ∧ t.regN (aTallyRecPair w) = s.regN (aTallyRecPair w) + 1 ∧
      t.EndedWith p tag stDone ∧ (t.findOp p tag).map Op.info = some 1 ∧
      SameMemoryBut s t (fun b => b = x.recAddr c ∨ ∃ e, e < x.geo.length ∧ inRange (x.accAddr e) (accBytes x.geo.elem) b)
        nowhere nowhere nowhere nowhere) ∧
  (∀ (p : Fin 16) (tag : Fin 4096) (s : State) (o : Op) (w v a c : Nat) (x : Window) (gb : Bytes) (i : Instr) (pair : Bool),
    ((i = .recoverSelf p tag .whole ∧ pair = false ∧ s.runningOp p tag 0x0410 = some o ∧ (s.ledger x c).state ≠ 2) ∨
      (i = .recoverPair p tag .whole ∧ pair = true ∧ s.runningOp p tag 0x0411 = some o ∧ (s.ledger x c).state = 2)) →
    w = winHandle o.desc → x = s.win w → v = recSrc o.desc / 65536 →
    s.ownsWin p w = true → x.st = .recovering → x.phase = .accepting → x.geo.elem ≤ 3 → recBodyOk o.desc = true →
    recSrc o.desc + recLen o.desc ≤ 65536 * (v + 1) → recCount o.desc = 1 → s.unranked p v = false → s.discardBefore o v = false →
    o.progress = 0 → s.tally.groups = [] → s.hasPartKeys p = true →
    (s.leaf p v).state = .resident → (s.leaf p v).hvalid = true →
    a = 65536 * (s.leaf p v).hframe + recSrc o.desc % 65536 → gb = Mem.read s.folio.hoard a (recLen o.desc) →
    gb.length = groupSize pair gb → (readGroup pair gb).ok x.geo = true → c = (readGroup pair gb).contributor →
    s.regN (aTallyRecConflicts w) + 1 < 2 ^ 32 →
    Answers i s fun t =>
      t.EndedWith p tag stLedgerConflict ∧ (t.findOp p tag).map Op.info = some 0 ∧
      t.regN (aTallyRecConflicts w) = s.regN (aTallyRecConflicts w) + 1 ∧ SameMemory s t) ∧
  (∀ (p : Fin 16) (tag : Fin 4096) (s : State) (o : Op) (x : Window) (go : RecGo) (i : Instr) (oc : Nat),
    ((i = .recoverSelf p tag go ∧ oc = 0x0410) ∨ (i = .recoverPair p tag go ∧ oc = 0x0411)) →
    s.runningOp p tag oc = some o → x = s.win (winHandle o.desc) →
    (x.part ≠ p.val ∨ x.st ≠ .recovering ∨ 4 ≤ x.geo.elem ∨ x.phase = .recovered ∨ x.phase = .releasing) →
    Answers i s fun t => t.EndedWith p tag stNotPermitted ∧ t.tally = s.tally ∧ SameMemory s t) ∧
  (∀ (p : Fin 16) (tag : Fin 4096) (s : State) (o : Op) (x : Window) (go : RecGo) (i : Instr) (oc : Nat),
    ((i = .recoverSelf p tag go ∧ oc = 0x0410) ∨ (i = .recoverPair p tag go ∧ oc = 0x0411)) →
    s.runningOp p tag oc = some o → x = s.win (winHandle o.desc) → x.part = p.val → x.st = .recovering →
    x.geo.elem ≤ 3 → x.phase = .summing → recBodyOk o.desc = true → Answers i s fun t => t = s)

/-- RECOVER_FINISH (11 R475), RELEASE (R476, R477), TIMED_RELEASE (R478) and RELEASE_COPY_DONE (R479). -/
def Obligations.RecoveryFinishAndRelease : Prop :=
  (∀ (p : Fin 16) (tag : Fin 4096) (s : State) (o : Op) (w : Nat),
    s.runningOp p tag 0x0412 = some o → w = winHandle o.desc → winBodyOk o.desc = true → (s.win w).part = p.val →
    (s.win w).st = .recovering → (s.win w).phase = .accepting → s.recoveringBefore o w = false →
    Answers (.recoverFinish p tag) s fun t =>
      (s.regN (aTallyWinCommits w) ≤ s.regN (aTallyRecSelf w) → (s.win w).geo.releaseDelay = 0 →
        (t.win w).phase = .releasing ∧ t.EndedWith p tag stDone) ∧
      (s.regN (aTallyWinCommits w) ≤ s.regN (aTallyRecSelf w) → (s.win w).geo.releaseDelay ≠ 0 →
        s.ftNs < (s.win w).closeAt + (s.win w).geo.releaseDelay → (t.win w).phase = .recovered ∧ t.EndedWith p tag stDone) ∧
      (s.regN (aTallyRecSelf w) < s.regN (aTallyWinCommits w) →
        t.EndedWith p tag stNotPermitted ∧ t.win w = s.win w ∧
        (t.findOp p tag).map Op.info = some (s.regN (aTallyWinCommits w) - s.regN (aTallyRecSelf w))) ∧
      SameMemory s t) ∧
  (∀ (p : Fin 16) (tag : Fin 4096) (s : State) (o : Op) (w : Nat),
    s.runningOp p tag 0x0413 = some o → w = winHandle o.desc → winBodyOk o.desc = true → (s.win w).part = p.val →
    (s.win w).st = .recovering → (s.win w).phase = .recovered →
    ((s.win w).geo.releaseDelay = 0 ∨
      (s.ft.lock ≠ .unlocked ∧ (s.win w).closeAt + (s.win w).geo.releaseDelay ≤ s.ftNs)) →
    Answers (.release p tag) s fun t =>
      t.win w = { s.win w with phase := .releasing, releaseFailed := false } ∧ t.EndedWith p tag stDone ∧ SameMemory s t) ∧
  (∀ (p : Fin 16) (tag : Fin 4096) (s : State) (o : Op) (w : Nat),
    s.runningOp p tag 0x0413 = some o → w = winHandle o.desc →
    ((s.win w).part ≠ p.val ∨ (s.win w).st ≠ .recovering ∨ (s.win w).phase ≠ .recovered) →
    Answers (.release p tag) s fun t => t.EndedWith p tag stNotPermitted ∧ t.tally = s.tally ∧ SameMemory s t) ∧
  (∀ (w : Fin 64) (s u : State), u = s.advanceTo ((s.win w).closeAt + (s.win w).geo.releaseDelay) →
    (s.win w).st = .recovering → (s.win w).phase = .recovered → (s.win w).geo.releaseDelay ≠ 0 →
    Answers (.timedRelease w) s fun t =>
      (s.ft.lock ≠ .unlocked → (s.win w).releaseFailed = false →
        (s.win w).closeAt + (s.win w).geo.releaseDelay ≤ u.ftNs → (t.win w).phase = .releasing) ∧
      (s.ft.lock = .unlocked → t.win w = s.win w) ∧ t.cycles = u.cycles ∧ SameMemory s t) ∧
  (∀ (w : Fin 64) (s : State) (x : Window) (v b : Nat), x = s.win w → x.st = .recovering → x.phase = .releasing →
    v = x.geo.dest / 65536 → 1 ≤ x.geo.length → x.geo.dest + x.geo.length * accBytes x.geo.elem ≤ 65536 * (v + 1) →
    s.unranked x.part v = false → s.discardBefore x.writer v = false → s.handedOff x.part v = false →
    (s.leaf x.part v).state = .resident → (s.leaf x.part v).hvalid = true → (s.leaf x.part v).cls ≠ .peer →
    b = 65536 * (s.leaf x.part v).hframe + x.geo.dest % 65536 →
    Answers (.releaseCopyDone w) s fun t =>
      (∀ e, e < x.geo.length →
        Mem.read t.folio.hoard (b + e * accBytes x.geo.elem) (accBytes x.geo.elem) = toLE (accBytes x.geo.elem) (s.acc x e)) ∧
      (t.win w).st = .released ∧ (t.win w).phase = .none ∧ t.ft = s.ft ∧ t.cycles = s.cycles ∧
      SameMemoryBut s t (inRange b (x.geo.length * accBytes x.geo.elem)) nowhere nowhere nowhere nowhere)

/-- The ciphertext operations without a key (12 R499 to R507), where no refresh is needed; `L`, `S`, `N`, `M`, `P` and
`E` are the level, scale, noise, magnitude, number of polynomials and domain of the result, and `f j k` its limb `k`
of polynomial `j`. Which lift RESCALE and the transforms take is the model's free value where the manual leaves it. -/
def Obligations.CiphertextArithmetic : Prop :=
  ∀ (p : Fin 16) (tag : Fin 4096) (s : State) (o : Op) (i : Instr) (oc : Nat) (r : PolyRule) (x : PolySlot) (a b : Ct)
    (data L P : Nat) (S N M : Int) (E : Bool) (la lb f : Nat → Nat → Limb) (reads dst : List VRange),
    la = s.ctLimb p x a →
    lb = (fun j k => if r.plain then s.readLimb p (polySrc1 o.desc + k * x.n * 8) x.n (x.prime k) else s.ctLimb p x b j k) →
    ((i = .ctAdd p tag ∧ oc = 0x0510 ∧ r = addRule limbAdd ∧ L = a.level ∧ S = a.scale ∧ N = max a.noise b.noise + 256 ∧
        M = max a.mag b.mag + 256 ∧ P = a.polys ∧ E = a.eval ∧ f = fun j k => limbAdd (x.prime k) (la j k) (lb j k)) ∨
      (i = .ctSub p tag ∧ oc = 0x0511 ∧ r = addRule limbSub ∧ L = a.level ∧ S = a.scale ∧ N = max a.noise b.noise + 256 ∧
        M = max a.mag b.mag + 256 ∧ P = a.polys ∧ E = a.eval ∧ f = fun j k => limbSub (x.prime k) (la j k) (lb j k)) ∨
      (i = .ptAdd p tag ∧ oc = 0x0512 ∧ r = ptAddRule (polyPtBits o.desc) ∧ L = a.level ∧ S = a.scale ∧ N = a.noise + 256 ∧
        M = max a.mag (256 * polyPtBits o.desc) + 256 ∧ P = a.polys ∧ E = a.eval ∧
        f = fun j k => if j = 0 then limbAdd (x.prime k) (la 0 k) (lb 0 k) else la j k) ∨
      (i = .ptMul p tag ∧ oc = 0x0513 ∧ r = ptMulRule (polyPtBits o.desc) (polyPtScale o.desc) ∧ L = a.level ∧
        S = a.scale + polyPtScale o.desc ∧ N = a.noise + 256 * polyPtBits o.desc + x.expand ∧
        M = a.mag + 256 * polyPtBits o.desc + x.expand ∧ P = a.polys ∧ E = true ∧
        f = fun j k => limbMul (x.prime k) (la j k) (lb 0 k)) ∨
      (i = .ctMul p tag ∧ oc = 0x0514 ∧ r = ctMulRule ∧ L = a.level ∧ S = a.scale + b.scale ∧
        N = max (a.noise + b.mag) (b.noise + a.mag) + x.expand + 256 ∧ M = a.mag + b.mag + x.expand ∧ P = 3 ∧ E = true ∧
        f = fun j k => if j = 0 then limbMul (x.prime k) (la 0 k) (lb 0 k)
          else if j = 1 then limbAdd (x.prime k) (limbMul (x.prime k) (la 0 k) (lb 1 k)) (limbMul (x.prime k) (la 1 k) (lb 0 k))
          else limbMul (x.prime k) (la 1 k) (lb 1 k)) ∨
      (i = .rescale p tag ∧ oc = 0x0517 ∧ r = rescaleRule ∧ a.level = L + 1 ∧ S = (a.scale : Int) - x.log2q a.level ∧
        N = max ((a.noise : Int) - x.log2q a.level) x.rsFloor + 256 ∧ M = (a.mag : Int) - x.log2q a.level ∧ P = a.polys ∧
        E = a.eval ∧ f = fun j k => (rescaleLimbs a.eval (x.chain L) (x.prime a.level) x.nLog2
          ((List.range a.level).map (la j)) (la j a.level)).getD k []) ∨
      (i = .modDrop p tag ∧ oc = 0x0518 ∧ r = modDropRule ∧ a.level = L + 1 ∧ S = a.scale ∧ N = a.noise ∧ M = a.mag ∧
        P = a.polys ∧ E = a.eval ∧ f = la) ∨
      (i = .ntt p tag ∧ oc = 0x0520 ∧ r = nttRule true ∧ L = a.level ∧ S = a.scale ∧ N = a.noise ∧ M = a.mag ∧ P = a.polys ∧
        E = true ∧ f = fun j k => if a.eval then la j k else ntt (x.prime k) x.nLog2 (la j k)) ∨
      (i = .intt p tag ∧ oc = 0x0521 ∧ r = nttRule false ∧ L = a.level ∧ S = a.scale ∧ N = a.noise ∧ M = a.mag ∧
        P = a.polys ∧ E = false ∧ f = fun j k => if a.eval then intt (x.prime k) x.nLog2 (la j k) else la j k)) →
    s.runningOp p tag oc = some o → polyBodyOk o.desc r = true →
    a = readCt (s.readVa p (polySrc0 o.desc) 64) → b = (if r.two then readCt (s.readVa p (polySrc1 o.desc) 64) else a) →
    data = le (s.readVa p (polyDst o.desc) 64) 8 8 → data % 65536 = 0 → a.clean = true → b.clean = true → r.fits a b = true →
    s.polyAccess o true = .ok x → a.valid = true → b.valid = true → a.fp = x.fp → b.fp = x.fp → a.nLog2 = x.nLog2 →
    b.nLog2 = x.nLog2 → a.level < x.limbs → b.level < x.limbs → 12 ≤ x.nLog2 → rangeOk (data, 24 * x.limbs * x.n) = true →
    (∀ k, k ≤ a.level → 0 < x.prime k ∧ x.prime k < 2 ^ 60) → sat88 N ≤ s.noiseCeiling x →
    reads = [(polySrc0 o.desc, 64), (polyDst o.desc, 64)] ++ (if r.two then [(polySrc1 o.desc, 64)] else []) ++
      (List.range (a.level + 1)).map (ctRange a.data x.n a.polys) ++
      (if r.two then (List.range (b.level + 1)).map (ctRange b.data x.n b.polys) else []) ++
      (if r.plain then (List.range (a.level + 1)).map (fun k => (polySrc1 o.desc + k * x.n * 8, 8 * x.n)) else []) →
    dst = (List.range (L + 1)).map (ctRange data x.n P) → (r.ranges o.desc x a b).all rangeOk = true →
    s.RangesHeld o p (reads ++ dst) →
    (polyDst o.desc + 64 ≤ data ∨ data + 24 * x.limbs * x.n ≤ polyDst o.desc) →
    Answers i s fun t =>
      readCt (t.readVa p (polyDst o.desc) 64) =
        { fp := x.fp, data := data, nLog2 := x.nLog2, level := L, polys := P, valid := true, eval := E, scale := sat88 S,
          noise := sat88 N, mag := sat88 M, clean := true } ∧
      (∀ j k, j < P → k ≤ L → t.readLimb p (data + (3 * k + j) * x.n * 8) x.n (x.prime k) = f j k) ∧
      t.EndedWith p tag stDone ∧
      SameMemoryBut s t (s.inRanges p ((polyDst o.desc, 64) :: dst)) nowhere nowhere nowhere nowhere

/-- RELIN and ROTATE (12 R501, R505, R508 to R510), and the checks of step 3 and 4 of R507. Where base conversion
lifts a coefficient to is the model's free value (log entry 55). -/
def Obligations.KeySwitchingAndMismatch : Prop :=
  (∀ (p : Fin 16) (tag : Fin 4096) (s : State) (o : Op) (i : Instr) (oc g data : Nat) (x : PolySlot) (a : Ct)
    (la : Nat → Nat → Limb) (r : PolyRule) (reads dst : List VRange) (f : Nat → Nat → Limb),
    la = s.ctLimb p x a →
    ((i = .relin p tag ∧ oc = 0x0515 ∧ r = relinRule ∧ g = 0 ∧ a.polys = 3 ∧
        f = fun j k =>
          let y := switchLimbs x a (s.keyLimb p (polyKey o.desc) x) ((List.range (a.level + 1)).map (la 2))
          limbAdd (x.prime k) (la j k) ((if j = 0 then y.1 else y.2).getD k [])) ∨
      (i = .rotate p tag ∧ oc = 0x0516 ∧ r = rotateRule (polyGalois o.desc) ∧ g = polyGalois o.desc ∧ a.polys = 2 ∧
        f = fun j k =>
          let turn (j k : Nat) : Limb := fromCoeff a.eval (x.prime k) x.nLog2
            (automorph (x.prime k) x.nLog2 g (toCoeff a.eval (x.prime k) x.nLog2 (la j k)))
          let y := switchLimbs x a (s.keyLimb p (polyKey o.desc) x) ((List.range (a.level + 1)).map (turn 1))
          if j = 0 then limbAdd (x.prime k) (turn 0 k) (y.1.getD k []) else y.2.getD k [])) →
    s.runningOp p tag oc = some o → polyBodyOk o.desc r = true →
    a = readCt (s.readVa p (polySrc0 o.desc) 64) → data = le (s.readVa p (polyDst o.desc) 64) 8 8 → data % 65536 = 0 →
    a.clean = true → s.polyAccess o true = .ok x → a.valid = true → a.fp = x.fp → a.nLog2 = x.nLog2 →
    a.level < x.limbs → 12 ≤ x.nLog2 → rangeOk (data, 24 * x.limbs * x.n) = true → x.specials ≠ 0 → g < 2 * x.n →
    x.workFrames = 0 → keyHeadFault x (some g) (s.readVa p (polyKey o.desc) 64) = none →
    s.badBlock p (polyKey o.desc) x.keyBlocks = none → (∀ k, k ≤ a.level → 0 < x.prime k ∧ x.prime k < 2 ^ 60) →
    sat88 ((max a.noise x.ksAdd + 256 : Nat) : Int) ≤ s.noiseCeiling x →
    reads = [(polySrc0 o.desc, 64), (polyDst o.desc, 64), (polyKey o.desc, 64 + 4096 * x.keyBlocks)] ++
      (List.range (a.level + 1)).map (ctRange a.data x.n a.polys) →
    dst = (List.range (a.level + 1)).map (ctRange data x.n 2) → (r.ranges o.desc x a a).all rangeOk = true →
    s.RangesHeld o p (reads ++ dst) →
    (polyDst o.desc + 64 ≤ data ∨ data + 24 * x.limbs * x.n ≤ polyDst o.desc) →
    Answers i s fun t =>
      readCt (t.readVa p (polyDst o.desc) 64) =
        { fp := x.fp, data := data, nLog2 := x.nLog2, level := a.level, polys := 2, valid := true, eval := a.eval,
          scale := a.scale, noise := min 65535 (max a.noise x.ksAdd + 256), mag := min 65535 (max a.mag x.ksAdd + 256),
          clean := true } ∧
      (∀ j k, j < 2 → k ≤ a.level → t.readLimb p (data + (3 * k + j) * x.n * 8) x.n (x.prime k) = f j k) ∧
      t.EndedWith p tag stDone ∧
      SameMemoryBut s t (s.inRanges p ((polyDst o.desc, 64) :: dst)) nowhere nowhere nowhere nowhere) ∧
  (∀ (p : Fin 16) (tag : Fin 4096) (s : State) (o : Op) (i : Instr) (oc : Nat) (r : PolyRule) (x : PolySlot) (a b : Ct) (data : Nat),
    ((i = .ctAdd p tag ∧ oc = 0x0510 ∧ r = addRule limbAdd) ∨ (i = .ctSub p tag ∧ oc = 0x0511 ∧ r = addRule limbSub) ∨
      (i = .ptAdd p tag ∧ oc = 0x0512 ∧ r = ptAddRule (polyPtBits o.desc)) ∨
      (i = .ptMul p tag ∧ oc = 0x0513 ∧ r = ptMulRule (polyPtBits o.desc) (polyPtScale o.desc)) ∨
      (i = .ctMul p tag ∧ oc = 0x0514 ∧ r = ctMulRule) ∨ (i = .relin p tag ∧ oc = 0x0515 ∧ r = relinRule) ∨
      (i = .rotate p tag ∧ oc = 0x0516 ∧ r = rotateRule (polyGalois o.desc)) ∨
      (i = .rescale p tag ∧ oc = 0x0517 ∧ r = rescaleRule) ∨ (i = .modDrop p tag ∧ oc = 0x0518 ∧ r = modDropRule) ∨
      (i = .ntt p tag ∧ oc = 0x0520 ∧ r = nttRule true) ∨ (i = .intt p tag ∧ oc = 0x0521 ∧ r = nttRule false)) →
    s.runningOp p tag oc = some o → polyBodyOk o.desc r = true →
    a = readCt (s.readVa p (polySrc0 o.desc) 64) → b = (if r.two then readCt (s.readVa p (polySrc1 o.desc) 64) else a) →
    data = le (s.readVa p (polyDst o.desc) 64) 8 8 → data % 65536 = 0 → a.clean = true → b.clean = true → r.fits a b = true →
    s.polyAccess o true = .ok x → o.unit < 8 →
    s.RangesHeld o p ([(polySrc0 o.desc, 64), (polyDst o.desc, 64)] ++ (if r.two then [(polySrc1 o.desc, 64)] else [])) →
    Answers i s fun t =>
      ((a.valid && b.valid) = false → t.EndedWith p tag stKeyCorrupt ∧ (t.findOp p tag).map Op.info = some (2 ^ 31)) ∧
      (a.valid = true → b.valid = true → (a.fp ≠ x.fp ∨ b.fp ≠ x.fp) → t.EndedWith p tag stKeyMismatch) ∧
      ((a.valid && b.valid) = false ∨ a.fp ≠ x.fp ∨ b.fp ≠ x.fp → SameMemory s t))

/-- PARAM_LOAD (12 R493 to R496), PARAM_DROP (R497), KEY_BIND (R509) and POLY_ENGINE_FAIL (R520). -/
def Obligations.PolyParametersAndEngines : Prop :=
  (∀ (p : Fin 16) (tag : Fin 4096) (s : State) (o : Op) (len n : Nat) (bs pub : Bytes) (x0 x : PolySlot) (mine : Tab (Option PolySlot)),
    s.runningOp p tag 0x0500 = some o → n = paramPubLen o.desc → paramAddr o.desc % 64 = 0 → 0 < n → n ≤ 2 ^ 32 →
    rangeOk (paramPub o.desc, n) = true → allZero (slice o.desc 0x30 12) = true → le o.desc 0x3C 1 = 0 →
    (polyEngine o.desc < 8 ∨ polyEngine o.desc = 0xFF) → s.polyAccess o false = .ok {} →
    len = 32 + 16 * (min (byteAt (s.readVa p (paramAddr o.desc) 32) 5).toNat 64 +
      min (byteAt (s.readVa p (paramAddr o.desc) 32) 6).toNat 16) →
    rangeOk (paramAddr o.desc, len) = true → s.RangesHeld o p [(paramAddr o.desc, len), (paramPub o.desc, n)] →
    bs = s.readVa p (paramAddr o.desc) len → pub = s.readVa p (paramPub o.desc) n → readParams p bs = some x0 →
    x = { x0 with fp := leNat ((sha256 (bs ++ pub)).take 8) } → s.heEntry p x.fp ≠ none →
    mine = s.poly.filter (fun e => match e.2 with | some y => y.part == p.val | none => false) →
    Answers (.paramLoad p tag) s fun t =>
      (∀ i, i < 64 → s.pslot i = none → (∀ k, k < i → s.pslot k ≠ none) → mine.length < 16 →
        (∀ k, k < x.limbs + x.specials → primeBad x bs k = false) → (∀ e ∈ mine, ∀ y, e.2 = some y → y.fp ≠ x.fp) →
        t.pslot i = some x ∧ (∀ k, k ≠ i → t.pslot k = s.pslot k) ∧ t.EndedWith p tag stDone ∧
          (t.findOp p tag).map Op.info = some i) ∧
      (∀ e y, mine = [e] → e.2 = some y → y.fp = x.fp →
        t.poly = s.poly ∧ t.EndedWith p tag stDone ∧ (t.findOp p tag).map Op.info = some e.1) ∧
      SameMemory s t) ∧
  (∀ (p : Fin 16) (tag : Fin 4096) (s : State) (o : Op) (x : PolySlot),
    s.runningOp p tag 0x0501 = some o → allZero (slice o.desc 0x18 36) = true → le o.desc 0x3C 1 < 64 →
    (polyEngine o.desc < 8 ∨ polyEngine o.desc = 0xFF) → s.polyAccess o true = .ok x → s.slotUsed o = false →
    Answers (.paramDrop p tag) s fun t =>
      t.pslot (polySlot o.desc) = none ∧ (∀ k, k ≠ polySlot o.desc → t.pslot k = s.pslot k) ∧ t.EndedWith p tag stDone ∧
      SameMemory s t) ∧
  (∀ (p : Fin 16) (tag : Fin 4096) (s : State) (o : Op) (x : PolySlot) (b : Bytes) (g : Nat),
    s.runningOp p tag 0x0502 = some o → polySrc0 o.desc = 0 → polySrc1 o.desc = 0 → polyDst o.desc = 0 →
    polyGalois o.desc = 0 → le o.desc 0x3C 1 < 64 → (polyEngine o.desc < 8 ∨ polyEngine o.desc = 0xFF) →
    rangeOk (polyKey o.desc, 64) = true → s.polyAccess o true = .ok x → o.unit < 8 →
    s.RangesHeld o p [(polyKey o.desc, 64)] → b = s.readVa p (polyKey o.desc) 64 → g = le b 0x10 4 →
    Answers (.keyBind p tag) s fun t =>
      (keyHeadFault x none b = none → (x.binds.filter (fun e => e.1 != g)).length < 256 →
        t.pslot (polySlot o.desc) = some { x with binds := x.binds.filter (fun e => e.1 != g) ++ [(g, polyKey o.desc)] } ∧
        (∀ k, k ≠ polySlot o.desc → t.pslot k = s.pslot k) ∧ t.EndedWith p tag stDone) ∧
      (le b 8 8 ≠ x.fp → t.poly = s.poly ∧ t.EndedWith p tag stKeyMismatch) ∧ SameMemory s t) ∧
  (∀ (e : Fin 8) (s : State), s.polyFailed.testBit e = false →
    Answers (.polyEngineFail e) s fun t =>
      (∀ j, t.polyFailed.testBit j = (decide (j = e.val) || s.polyFailed.testBit j)) ∧
      ((∀ o ∈ s.ops, o.unit ≠ e.val) → t.ops = s.ops) ∧
      (∀ o u, s.ops = [o] → isPolyOp (dOpcode o.desc) = true → o.unit = e.val → o.stage = .running →
        u = ({ s with polyFailed := s.polyFailed ||| 2 ^ e.val } : State).polyUnit o.part o.desc →
        u ∈ ({ s with polyFailed := s.polyFailed ||| 2 ^ e.val } : State).clustersOf o.part →
        ∃ q, t.findOp o.part o.tag = some q ∧ q.unit = u ∧ q.stage = .waiting) ∧
      SameMemory s t)

/-- LIMB_MULADD (12 R501; what names its destination is log entry 56, the model's choice) and MACRO of a refresh
(R514 to R517; the coefficients are free, log entry 57). -/
def Obligations.PolyRowsAndMacros : Prop :=
  (∀ (p : Fin 16) (tag : Fin 4096) (s : State) (o : Op) (x : PolySlot) (L data : Nat) (rows : Nat → List VRange),
    s.runningOp p tag 0x0530 = some o → polyDst o.desc % 64 = 0 → le o.desc 0x3C 1 < 64 →
    (polyEngine o.desc < 8 ∨ polyEngine o.desc = 0xFF) → polyGalois o.desc = 0 → rangeOk (polyDst o.desc, 64) = true →
    L = le (s.readVa p (polyDst o.desc) 64) 0x11 1 → data = le (s.readVa p (polyDst o.desc) 64) 8 8 →
    s.polyAccess o true = .ok x → L < x.limbs → 12 ≤ x.nLog2 →
    rows = (fun y => (List.range (L + 1)).map (fun k => (y + k * x.n * 8, 8 * x.n))) →
    (∀ y ∈ [polySrc0 o.desc, polySrc1 o.desc, polyKey o.desc, data], (rows y).all rangeOk = true) →
    s.RangesHeld o p ((polyDst o.desc, 64) :: (rows (polySrc0 o.desc) ++ rows (polySrc1 o.desc) ++ rows (polyKey o.desc) ++ rows data)) →
    (∀ k, k ≤ L → 0 < x.prime k ∧ x.prime k < 2 ^ 60) →
    Answers (.limbMuladd p tag) s fun t =>
      (∀ k, k ≤ L → t.readLimb p (data + k * x.n * 8) x.n (x.prime k) =
        limbAdd (x.prime k) (limbMul (x.prime k) (s.readLimb p (polySrc0 o.desc + k * x.n * 8) x.n (x.prime k))
          (s.readLimb p (polySrc1 o.desc + k * x.n * 8) x.n (x.prime k)))
          (s.readLimb p (polyKey o.desc + k * x.n * 8) x.n (x.prime k))) ∧
      t.EndedWith p tag stDone ∧ SameMemoryBut s t (s.inRanges p (rows data)) nowhere nowhere nowhere nowhere) ∧
  (∀ (p : Fin 16) (tag : Fin 4096) (s : State) (o : Op) (x : PolySlot) (a : Ct) (id data : Nat) (dst : List VRange),
    s.runningOp p tag 0x0540 = some o → id = polyGalois o.desc → (id = 1 ∨ id = 2) → (s.part p).paused = false →
    (s.part p).ph = .opn → (a.ranges x.n).all rangeOk = true →
    polyEngine o.desc = 0xFF → polySrc0 o.desc % 64 = 0 → polyDst o.desc % 64 = 0 → le o.desc 0x3C 1 < 64 →
    rangeOk (polySrc0 o.desc, 64) = true → rangeOk (polyDst o.desc, 64) = true →
    a = readCt (s.readVa p (polySrc0 o.desc) 64) → data = le (s.readVa p (polyDst o.desc) 64) 8 8 → data % 65536 = 0 →
    a.clean = true → s.polyAccess o true = .ok x → a.valid = true → a.fp = x.fp → a.nLog2 = x.nLog2 → a.level < x.limbs →
    x.refreshLevel < x.limbs → x.limbs ≤ 64 → x.refreshNoise < 65536 → 12 ≤ x.nLog2 → rangeOk (data, 24 * x.limbs * x.n) = true →
    s.macroKeyFault x id = none → x.refreshNoise ≤ s.noiseCeiling x →
    dst = (List.range (x.refreshLevel + 1)).map (ctRange data x.n a.polys) →
    s.RangesHeld o p ([(polySrc0 o.desc, 64), (polyDst o.desc, 64)] ++ x.macroRanges id ++
      (List.range (a.level + 1)).map (ctRange a.data x.n a.polys) ++ dst) →
    (polyDst o.desc + 64 ≤ data ∨ data + 24 * x.limbs * x.n ≤ polyDst o.desc) →
    Answers (.macroOp p tag) s fun t =>
      readCt (t.readVa p (polyDst o.desc) 64) =
        { a with data := data, level := x.refreshLevel, noise := x.refreshNoise, clean := true } ∧
      t.EndedWith p tag stDone ∧
      SameMemoryBut s t (s.inRanges p ((polyDst o.desc, 64) :: dst)) nowhere nowhere nowhere nowhere)

/-- Messages of a job (13 R533 to R543, 07 R341 to R346). A SUBMIT is stamped `j` 820ths into its reference cycle. -/
def Obligations.StreamMessagesDelivered : Prop :=
  (∀ (port : Fin 64) (f : Bytes) (s u : State) (p v first parts : Nat) (e : Peer) (h : Ryt) (b : Bytes),
    s.Arrives port f 2 u p e h b → s.IsNext p e h → b.length = 16 → v = be b 0 8 → first = be b 8 1 → parts = be b 9 1 →
    v < 2 ^ 36 → 1 ≤ parts → first + parts ≤ 8 → allZero (slice b 10 6) = true →
    (s.leaf p v).state = .resident → (s.leaf p v).hvalid = true → (s.leaf p v).cls ≠ .peer →
    Answers (.fetch port f) s fun t =>
      (t.link p e.index).queue = (s.link p e.index).queue ++ (List.range parts).map (fun k =>
        { type := 3, flow := h.flow, more := decide (k + 1 < parts),
          body := folioHead v (first + k) 0 ++ s.folioRead p v (8192 * (first + k)) 8192 }) ∧
      (t.link p e.index).rxNext = h.seq + 1 ∧ (t.link p e.index).accepts = (s.link p e.index).accepts + 1 ∧ SameMemory s t) ∧
  (∀ (port : Fin 64) (f : Bytes) (s u : State) (p : Nat) (e : Peer) (h : Ryt) (b : Bytes) (m : Move),
    s.Arrives port f 3 u p e h b → s.IsNext p e h → s.peerMove p e.index h.flow = some m → m.kind = .fetch →
    be b 0 8 = (s.leaf p m.vfn).home / 1024 → be b 8 1 < 8 → be b 9 1 = 0 → allZero (slice b 10 6) = true →
    b.length = 16 + 8192 →
    Answers (.folio port f) s fun t =>
      Mem.read t.folio.hoard (65536 * m.dest + 8192 * be b 8 1) 8192 = b.drop 16 ∧
      SameMemoryBut s t (inRange (65536 * m.dest + 8192 * be b 8 1) 8192) nowhere nowhere nowhere nowhere ∧
      (∃ y ∈ t.folio.moves, y = { m with parts := m.parts ||| 2 ^ be b 8 1 }) ∧
      (t.link p e.index).rxNext = h.seq + 1 ∧ (t.link p e.index).accepts = (s.link p e.index).accepts + 1) ∧
  (∀ (port : Fin 64) (f : Bytes) (s u : State) (p v : Nat) (e : Peer) (h : Ryt) (b : Bytes),
    s.Arrives port f 4 u p e h b → s.IsNext p e h → be b 8 1 = 0 → b.length = 16 → v = be b 0 8 → v < 2 ^ 36 →
    be b 9 1 < 16 → allZero (slice b 10 6) = true → (s.part p).ph = .opn →
    Answers (.pullReq port f) s fun t =>
      ((s.part p).phase = be b 9 1 → (s.leaf p v).state = .resident → (s.leaf p v).hvalid = true → (s.leaf p v).cls ≠ .peer →
        (t.link p e.index).queue = (s.link p e.index).queue ++ (List.range 8).map (fun k =>
          { type := 3, flow := h.flow, more := decide (k + 1 < 8), body := folioHead v k 0 ++ s.folioRead p v (8192 * k) 8192 })) ∧
      ((s.part p).phase ≠ be b 9 1 → (t.part p).heldPulls = (s.part p).heldPulls.filter (s.pullLive p) ++
        [{ peer := e.index, vfn := v, phase := be b 9 1, flow := h.flow, since := s.cycles }]) ∧
      (t.link p e.index).rxNext = h.seq + 1 ∧ (t.link p e.index).accepts = (s.link p e.index).accepts + 1 ∧ SameMemory s t) ∧
  (∀ (port : Fin 64) (f : Bytes) (s u : State) (p v : Nat) (e : Peer) (h : Ryt) (b : Bytes),
    s.Arrives port f 4 u p e h b → s.IsNext p e h → be b 8 1 = 1 → b.length = 16 → v = be b 0 8 → v < 2 ^ 36 →
    be b 9 1 < 16 → allZero (slice b 10 6) = true → s.peer p e.index = some e →
    Answers (.confirm port f) s fun t =>
      (t.part p).plan.handoffs = (s.part p).plan.handoffs.filter (· != (v, e.rank)) ∧
      (t.part p).plan.copies = (s.part p).plan.copies.filter (· != (v, e.rank)) ∧
      ((v, e.rank) ∈ (s.part p).plan.handoffs → (s.leaf p v).state = .resident → (s.leaf p v).hvalid = true →
        (s.leaf p v).cls ≠ .peer →
        (t.leaf p v).state = .scrub ∧
        ({ hoard := true, frame := (s.leaf p v).hframe, folio := some (p, v) } : ScrubFrame) ∈ t.folio.scrubs) ∧
      (t.link p e.index).rxNext = h.seq + 1 ∧ (t.link p e.index).accepts = (s.link p e.index).accepts + 1 ∧ SameMemory s t) ∧
  (∀ (port : Fin 64) (f : Bytes) (s u : State) (p v : Nat) (e : Peer) (h : Ryt) (b : Bytes) (m : Move),
    s.Arrives port f 4 u p e h b → s.IsNext p e h → be b 8 1 = 2 → b.length = 16 → v = be b 0 8 → v < 2 ^ 36 →
    be b 9 1 < 16 → allZero (slice b 10 6) = true → s.peerMove p e.index h.flow = some m → m.kind = .pull → m.vfn = v →
    Answers (.refuse port f) s fun t =>
      (∀ y ∈ t.folio.moves, ¬(y.part = p ∧ y.vfn = v)) ∧
      (t.link p e.index).rxNext = h.seq + 1 ∧ (t.link p e.index).accepts = (s.link p e.index).accepts + 1 ∧ SameMemory s t) ∧
  (∀ (port : Fin 64) (f : Bytes) (j : Fin 820) (s s1 u r : State) (p k : Nat) (e : Peer) (h : Ryt) (b : Bytes) (g : Segm)
      (res : Taken),
    s1 = { s with ft := { s.ft with sub := j } } →
    s1.Arrives port f 1 u p e h b → s1.IsNext p e h → submitOk b = true → g = submitSeg p e.index (u.stampOf u.stamp256) b →
    u.segRank g = some k → u.takeSeg g = (r, res) →
    Answers (.submit port f j) s fun t =>
      t.tally = r.tally ∧ t.folio = r.folio ∧
      (res ≠ .overrun → (t.link p e.index).rxNext = h.seq + 1 ∧
        (t.link p e.index).pushed = mod8 (s.link p e.index).pushed k (· + 1)) ∧
      (res = .overrun → t = { r with ft := { r.ft with sub := 0 } })) ∧
  (∀ (port : Fin 64) (f : Bytes) (s u : State) (p : Nat) (e : Peer) (h : Ryt) (b : Bytes),
    s.Arrives port f 0 u p e h b → h.ackValid = true → h.ack ≤ (s.link p e.index).txSeq → (s.link p e.index).rekey = false →
    Answers (.ack port f) s fun t =>
      t.link p e.index = { s.link p e.index with
        sent := (s.link p e.index).sent.filter (fun x => decide (h.ack ≤ x.seq)), credit := h.credit } ∧
      t.tally = s.tally ∧ t.folio = s.folio ∧ SameMemory s t) ∧
  (∀ (port : Fin 64) (f : Bytes) (j : Fin 820) (s u : State) (p type : Nat) (c : Instr) (e : Peer) (h : Ryt) (b : Bytes),
    ((c = .submit port f j ∧ type = 1) ∨ (c = .fetch port f ∧ type = 2) ∨ (c = .folio port f ∧ type = 3) ∨
      (c = .pullReq port f ∧ type = 4 ∧ be b 8 1 = 0) ∨ (c = .confirm port f ∧ type = 4 ∧ be b 8 1 = 1) ∨
      (c = .refuse port f ∧ type = 4 ∧ be b 8 1 = 2)) →
    s.Arrives port f type u p e h b → h.ackValid = false → h.seq < (s.link p e.index).rxNext →
    (s.link p e.index).accepts < 15 →
    Answers c s fun t =>
      (t.link p e.index).rxNext = (s.link p e.index).rxNext ∧ (t.link p e.index).queue = (s.link p e.index).queue ∧
      (t.link p e.index).accepts = (s.link p e.index).accepts + 1 ∧ t.tally = s.tally ∧ t.folio = s.folio ∧ SameMemory s t)

/-- The stranger filter on the messages of a job (13 R552 to R555). -/
def Obligations.StrangersAreDropped : Prop :=
  ∀ (port : Fin 64) (f : Bytes) (n : Fin 820) (s u : State) (c : Instr) (r : RxUdp) (h : Ryt) (type reason j : Nat),
    ((c = .submit port f n ∧ type = 1 ∧ j = n) ∨ (j = 0 ∧ ((c = .ack port f ∧ type = 0) ∨ (c = .fetch port f ∧ type = 2) ∨
      (c = .folio port f ∧ type = 3) ∨ (c = .pullReq port f ∧ type = 4) ∨ (c = .confirm port f ∧ type = 4) ∨
      (c = .refuse port f ∧ type = 4)))) →
    s.ft.sub = 0 → s.rxFrame port f = .ryt u r h → h.type = type → (∀ x, s.removal = some x → x.jobId ≠ h.job) →
    ((reason = 1 ∧ (∀ q, q < 16 → s.admitted q = true → (s.part q).adm.known ≤ s.cycles → s.jobId q ≠ h.job)) ∨
      (reason = 2 ∧ ∃ p, (List.range 16).find? (fun q => s.admitted q && s.jobId q == h.job &&
          decide ((s.part q).adm.known ≤ s.cycles)) = some p ∧
        ∀ e, s.peer p h.peer = some e → e.address ≠ r.addr)) →
    Answers c s fun t =>
      (∃ k ∈ (t.port port).strangers, k.addr = r.addr ∧ k.job = h.job ∧
        ((∀ y ∈ (s.port port).strangers, y.addr = r.addr → y.job ≠ h.job) → k.reason = reason) ∧
        k.lastSeen = s.stampOf ((s.ft.acc + s.ft.rate * j / 820) / 2 ^ 24) / 256) ∧
      t.links = s.links ∧ t.tally = s.tally ∧ t.folio = s.folio ∧ t.parts = s.parts ∧ t.sbox = s.sbox ∧ SameMemory s t

/-- FRAME_TRANSMIT (13 R535, R540, R550), ACK_DELAY_EXPIRY (R543), RTO_EXPIRY (R544), REKEY_AT and KEYGEN_RETIRE
(R563). -/
def Obligations.StreamTimersAndTransmission : Prop :=
  (∀ (port : Fin 64) (j : Fin 820) (s : State) (ent : PortEnt) (x : CtlMsg) (ms : List CtlMsg) (g : Bytes),
    s.portEnt port = some ent → (s.port port).up = true → (s.port port).control = x :: ms → x.raw = some g →
    Answers (.frameTransmit port j) s fun t =>
      t.out = s.out ++ [.frame port g] ∧ (t.port port).control = ms ∧ t.links = s.links ∧ SameMemory s t) ∧
  (∀ (port : Fin 64) (j : Fin 820) (s s1 : State) (ent : PortEnt) (p i k n : Nat) (e : Peer) (x : TxMsg) (l : Link),
    s1 = { s with ft := { s.ft with sub := j } } → s.portEnt port = some ent → (s.port port).up = true → (s.port port).control = [] → (s.port port).nextMac ≠ none →
    s1.portNext port = some (p, i, .first k x) → s.peer p i = some e → e.port = port.val → l = s.link p i →
    n = 2 ^ ((s.job p).map (·.key.rekeyLog2)).getD 32 → l.txSeq + 1 < n → l.txAck < n →
    Answers (.frameTransmit port j) s fun t =>
      (∃ g, t.out = s.out ++ [.frame port g] ∧ s1.IsFrame p e l.txGen l.txSeq 0 false x g) ∧
      (t.link p i).txSeq = l.txSeq + 1 ∧ (t.link p i).queue = l.queue.eraseIdx k ∧ (t.link p i).accepts = 0 ∧
      (t.link p i).sent = l.sent ++ [{ gen := l.txGen, seq := l.txSeq, at_ := s.cycles, rtoUs := (s.retx p).1, limit := (s.retx p).2, msg := x }] ∧
      (t.port port).turn = (p + 1) % 16 ∧ SameMemory s t) ∧
  (∀ (p : Fin 16) (i n : Nat) (s u : State) (e : Peer) (l : Link),
    l = s.link p i → s.admitted p = true → 0 < l.accepts → s.peer p i = some e → s.maySend p e.port = true →
    s.isRelay p i = false → n = 2 ^ ((s.job p).map (·.key.rekeyLog2)).getD 32 → l.txAck + 1 < n → l.txSeq < n →
    u = s.advanceToCycle (l.acceptAt + usCycles 2) →
    Answers (.ackDelayExpiry p i) s fun t =>
      (∃ g, t.out = s.out ++ [.frame e.port g] ∧ u.IsFrame p e l.txGen l.txAck 7 true { type := 0, body := zeros 16 } g) ∧
      t.link p i = { l with accepts := 0, txAck := l.txAck + 1 } ∧ t.cycles = u.cycles ∧ SameMemory s t) ∧
  (∀ (p : Fin 16) (i : Nat) (s u : State) (e : Peer) (l : Link) (f : TxFrame),
    l = s.link p i → s.admitted p = true → l.nextRto = some f → f.try_ < f.limit → s.peer p i = some e →
    u = s.advanceToCycle f.expires → u.maySend p e.port = true → u.msgMay p e.port f.msg = true →
    Answers (.rtoExpiry p i) s fun t =>
      (∃ g, t.out = s.out ++ [.frame e.port g] ∧ u.IsFrame p e f.gen f.seq (f.try_ + 1) false f.msg g) ∧
      { f with try_ := f.try_ + 1, at_ := u.cycles, due := false } ∈ (t.link p i).sent ∧
      (t.link p i).txSeq = l.txSeq ∧ (t.link p i).txGen = l.txGen ∧ t.cycles = u.cycles ∧ SameMemory s t) ∧
  (∀ (p : Fin 16) (i : Nat) (s : State) (l : Link) (f : TxFrame),
    l = s.link p i → s.admitted p = true → l.nextRto = some f → f.limit ≤ f.try_ →
    (∀ m ∈ s.folio.moves, m.part ≠ p.val ∨ m.peer ≠ i) →
    Answers (.rtoExpiry p i) s fun t =>
      t.link p i = { l with txGen := l.txGen + 1, txSeq := 0, txAck := 0, sent := [], rekey := false, credit := 16 } ∧
      t.cycles = max s.cycles f.expires ∧ SameMemory s t) ∧
  (∀ (p : Fin 16) (s : State) (x : Nat), s.admitted p = true → s.nextRekey p = some x → s.ft.lock ≠ .unlocked →
    ((s.part p).adm.peers.map (·.index)).Nodup →
    Answers (.rekeyAt p) s fun t =>
      (∀ e ∈ (s.part p).adm.peers, e.index ≠ (s.part p).adm.own →
        ((s.link p e.index).sent = [] → t.link p e.index =
          { s.link p e.index with txGen := (s.link p e.index).txGen + 1, txSeq := 0, txAck := 0, rekey := false }) ∧
        ((s.link p e.index).sent ≠ [] → t.link p e.index = { s.link p e.index with rekey := true })) ∧
      (t.part p).adm = { (s.part p).adm with rekeys := (s.part p).adm.rekeys + 1 } ∧ SameMemory s t) ∧
  (∀ (p : Fin 16) (i g c : Nat) (s : State), (s.link p i).oldGen = some (g, c) →
    Answers (.keygenRetire p i) s fun t =>
      t.link p i = { s.link p i with oldGen := none } ∧ t.cycles = max s.cycles c ∧ SameMemory s t)

/-- LANE_FAIL (13 R565, R566), of the alignment or of more than 1,024 uncorrectable codewords, RETRAIN_COMPLETE (R566),
RETRAIN (R567) and ADDRESS_RESOLUTION (R529). The status of the ledger entry of a lane failure is a free value (log entry
49). -/
def Obligations.PortsAndLanes : Prop :=
  (∀ (lane : Fin 64) (cause : LaneCause) (s : State) (ent : PortEnt) (n i k : Nat), n = modeLanes s.plan.mode →
    i = lane.val / n → k = lane.val % n → (cause = .align ∨ ∃ a b, cause = .fec a b ∧ 1024 < b) →
    (s.port i).failed.testBit k = false → s.portEnt i = some ent → s.errs.length < 4096 →
    Answers (.laneFail lane cause) s fun t =>
      (t.port i).failed = (s.port i).failed ||| 2 ^ k ∧ (t.port i).up = false ∧
      (∀ a c, laneGroup n ((s.port i).failed ||| 2 ^ k) = some (a, c) →
        (t.port i).firstLane = a ∧ (t.port i).lanes = c ∧ (t.port i).retraining = true) ∧
      (laneGroup n ((s.port i).failed ||| 2 ^ k) = none → (t.port i).lanes = 0 ∧ (t.port i).retraining = false) ∧
      (∃ x, t.errs = s.errs ++ [x] ∧ x.source = 0x0A ∧ x.status < 24 ∧ x.part = none) ∧ t.links = s.links ∧ SameMemory s t) ∧
  (∀ (port : Fin 64) (s : State) (ent : PortEnt), s.portEnt port = some ent → (s.port port).retraining = true →
    Answers (.retrainComplete port) s fun t =>
      t.port port = { s.port port with up := true, retraining := false } ∧
      (t.regN (aRytPortEvents port)).testBit 0 = true ∧ SameMemory s t) ∧
  (∀ (req : Req) (port : Fin 64) (s : State) (ent : PortEnt), s.portEnt port = some ent →
    Answers (.retrain req port) s fun t =>
      (reqIsPf req = true → (t.port port).failed = 0 ∧ (t.port port).up = false ∧ (t.port port).retraining = true ∧
        (t.port port).firstLane = 0) ∧
      (reqIsPf req = false → t = s) ∧ SameMemory s t) ∧
  (∀ (port : Fin 64) (f : Bytes) (s : State) (ent : PortEnt) (e : RxEth), s.portEnt port = some ent → (s.port port).up = true →
    fcsOk f = true → rxEth ent f = some e → e.ethertype = 0x0806 → ent.ipv4 = true → 28 ≤ e.body.length →
    e.body.take 6 = [0, 1, 8, 0, 6, 4] → slice e.body 24 4 = ent.address.drop 12 →
    Answers (.addressResolution port f) s fun t =>
      (be e.body 6 2 = 1 → (t.port port).control = (s.port port).control ++
        [{ raw := some (withFcs (ethHead (slice e.body 8 6) (portMac port) ent 0x0806 ++
          arpPacket 2 (portMac port) (ent.address.drop 12) (slice e.body 8 6) (slice e.body 14 4))) }]) ∧
      (be e.body 6 2 = 2 → slice e.body 14 4 = ent.nextHop.drop 12 → (t.port port).nextMac = some (slice e.body 8 6)) ∧
      t.links = s.links ∧ SameMemory s t)

/-- ADMIT_HELLO (13 R558, R561), ADMIT_CONFIRM (R560, R562), ADMIT_TIMEOUT (R562) and EVIDENCE_REQ (R564). A refusal's
three bytes after its status are log entry 51, the model's choice. -/
def Obligations.AdmissionAndEvidence : Prop :=
  (∀ (port : Fin 64) (f : Bytes) (s u : State) (r : RxUdp) (h : Ryt) (b : Bytes), s.ArrivesZero port f 7 u r h b →
    b.length = helloLen → s.jobPart (helloJob b) = none →
    Answers (.admitHello port f) s fun t =>
      (t.port port).control = (s.port port).control ++ [{ addr := r.addr, udp := r.srcPort, type := 8, body := [1, 0, 0, 0] }] ∧
      t.parts = s.parts ∧ SameMemory s t) ∧
  (∀ (port : Fin 64) (f : Bytes) (s u : State) (r : RxUdp) (h : Ryt) (b : Bytes) (p st : Nat), s.ArrivesZero port f 7 u r h b →
    b.length = helloLen → s.jobPart (helloJob b) = some p → s.helloCheck p b = st → st ≠ 0 →
    Answers (.admitHello port f) s fun t =>
      (t.port port).control = (s.port port).control ++
        [{ addr := r.addr, udp := r.srcPort, type := 8, body := toLE 1 st ++ [0, 0, 0] }] ∧
      (t.part p).adm = { (s.part p).adm with reason := st } ∧ SameMemory s t) ∧
  (∀ (port : Fin 64) (f : Bytes) (s u : State) (r : RxUdp) (h : Ryt) (b : Bytes) (p : Nat) (z ev rnd : Bytes),
    s.ArrivesZero port f 7 u r h b → b.length = helloLen → s.jobPart (helloJob b) = some p → s.helloCheck p b = 0 →
    s.rngFailed = false → (s.dropReplies p).rngServes = true → rnd = ((s.dropReplies p).draw 72).1 →
    helloShared (scalarOf (rnd.take 40)) b = some z → s.evidence p (helloNonce b) = some ev →
    Answers (.admitHello port f) s fun t =>
      (∃ ms, (t.port port).control = (s.port port).control ++ ms ∧ ms.flatMap CtlMsg.body =
          zeros 4 ++ [4] ++ p256Public (scalarOf (rnd.take 40)) ++ (kemEncaps (helloKem b) (slice rnd 40 32)).1 ++ ev ∧
        ∀ x ∈ ms, x.addr = r.addr ∧ x.udp = r.srcPort ∧ x.type = 8 ∧ x.raw = none) ∧
      (t.part p).adm.st = .pending ∧ (t.part p).adm.port = port.val ∧ (t.part p).adm.source = r.addr ∧
      (t.part p).adm.sourceUdp = r.srcPort ∧ (t.part p).adm.deadline = s.cycles + 10 * 312500000 ∧ SameMemory s t) ∧
  (∀ (port : Fin 64) (f : Bytes) (s u : State) (r : RxUdp) (h : Ryt) (b c : Bytes) (p own : Nat) (a : Admission) (es : List Peer),
    s.ArrivesZero port f 9 u r h c → p < 16 → a = (s.part p).adm → a.st = .pending → (∀ q, q < p → (s.part q).adm.st ≠ .pending) →
    16 ≤ c.length → gcmOpen (a.kA2p.take 32) (a.kA2p.drop 32) [] (c.take (c.length - 16)) (c.drop (c.length - 16)) = some b →
    s.cycles ≤ a.deadline → own = be b 32 2 → es = (List.range (be b 34 2)).map (fun k => readPeer (slice b (40 + 32 * k) 32)) →
    Answers (.admitConfirm port f) s fun t =>
      (be b 34 2 ≤ 1024 → b.length = 40 + 32 * be b 34 2 → s.peersOk p own es = true → s.peerContexts + be b 34 2 ≤ 4096 →
        (t.part p).adm.st = .admitted ∧ (t.part p).adm.own = own ∧ (t.part p).adm.peers = es ∧
        (t.part p).rank = (es.find? (fun e => e.index == own)).map (·.rank) ∧ (t.part p).adm.known = s.cycles + 1 ∧
        (t.slot (jobRootSlot p)).key = b.take 32 ∧ atValid (t.slot (jobRootSlot p)).attr = true ∧ (∀ i, i < 1024 → t.link p i = {})) ∧
      (b.length ≠ 40 + 32 * be b 34 2 ∨ s.peersOk p own es = false →
        (t.part p).adm.st = .none ∧ (t.part p).adm.reason = 5 ∧ (t.part p).adm.kP2a = [] ∧ t.sbox = s.sbox ∧ SameMemory s t) ∧
      ((s.part p).ph ≠ .opn ∨ s.phaseMap p = none → SameMemory s t)) ∧
  (∀ (p : Fin 16) (s : State) (a : Admission) (x : Bytes × Bytes), a = (s.part p).adm → a.st = .pending →
    x = gcmSeal (a.kP2a.take 32) (a.kP2a.drop 32) [] [6] →
    Answers (.admitTimeout p) s fun t =>
      (t.part p).adm = { a with st := .none, reason := 6, kA2p := [], kP2a := [] } ∧ t.cycles = max s.cycles a.deadline ∧
      (t.port a.port).control = (s.port a.port).control ++ [{ addr := a.source, udp := a.sourceUdp, type := 10, body := x.1 ++ x.2 }] ∧
      SameMemory s t) ∧
  (∀ (port : Fin 64) (f : Bytes) (s u : State) (r : RxUdp) (h : Ryt) (b ev : Bytes), s.ArrivesZero port f 5 u r h b →
    33 ≤ b.length → be b 32 1 < 16 → s.evidence (be b 32 1) (b.take 32) = some ev →
    Answers (.evidenceReq port f) s fun t =>
      (∃ ms, (t.port port).control = (s.port port).control ++ ms ∧ ms.flatMap CtlMsg.body = ev ∧
        ∀ x ∈ ms, x.addr = r.addr ∧ x.udp = r.srcPort ∧ x.type = 6 ∧ x.flow = h.flow ∧ x.raw = none) ∧
      t.parts = s.parts ∧ SameMemory s t)

/-- DMA_IN and DMA_OUT (14 R595 to R598), BME_CLEAR and BME_SET (R599), CONFIG_REQUEST (R575, R576, R600) and
HOST_LINK_RETRAIN (R574). -/
def Obligations.HostPortAndDma : Prop :=
  (∀ (p : Fin 16) (tag : Fin 4096) (s : State) (o : Op) (v a n : Nat), s.runningOp p tag 0x0600 = some o →
    s.dmaCheck o true = stDone → n = dmaLen o.desc → v = dmaVa o.desc / 65536 → dmaVa o.desc + n ≤ 65536 * (v + 1) →
    s.FolioHeld o p v → a = 65536 * (s.leaf p v).hframe + dmaVa o.desc % 65536 →
    Answers (.dmaIn p tag true) s fun t =>
      Mem.read t.folio.hoard a n = Mem.read s.hostMem (dmaHost o.desc) n ∧ (t.leaf p v).dirty = true ∧
      t.EndedWith p tag stDone ∧ SameMemoryBut s t (inRange a n) nowhere nowhere nowhere nowhere) ∧
  (∀ (p : Fin 16) (tag : Fin 4096) (s : State) (o : Op) (v a n : Nat), s.runningOp p tag 0x0601 = some o →
    s.dmaCheck o true = stDone → n = dmaLen o.desc → v = dmaVa o.desc / 65536 → dmaVa o.desc + n ≤ 65536 * (v + 1) →
    s.FolioHeld o p v → a = 65536 * (s.leaf p v).hframe + dmaVa o.desc % 65536 →
    Answers (.dmaOut p tag true) s fun t =>
      Mem.read t.hostMem (dmaHost o.desc) n = Mem.read s.folio.hoard a n ∧
      t.EndedWith p tag stDone ∧ SameMemoryBut s t nowhere nowhere nowhere nowhere (inRange (dmaHost o.desc) n)) ∧
  (∀ (p : Fin 16) (tag : Fin 4096) (s : State) (o : Op) (c : Instr) (oc st : Nat) (hostOk : Bool),
    ((c = .dmaIn p tag hostOk ∧ oc = 0x0600) ∨ (c = .dmaOut p tag hostOk ∧ oc = 0x0601)) → s.runningOp p tag oc = some o →
    st = (if o.bmeOff = true then stNotPermitted
      else if s.memLive o.part (s.part o.part).keyCur = false then s.memCheck o.part (s.part o.part).keyCur
      else if dmaOk o.desc = false then stMalformed else if hostOk = false then stUncorrectable else stDone) →
    st ≠ stDone → Answers c s fun t => t.EndedWith p tag st ∧ SameMemory s t) ∧
  (∀ (f : Fin 64) (s : State) (o : Op), s.dmaOf f = [o] → s.findOp o.part o.tag = some o → s.partOfFunc f = some o.part →
    (s.part o.part).ph ≠ .draining →
    Answers (.bmeClear f) s fun t =>
      (t.func f).bme = false ∧ (∃ q, t.findOp o.part o.tag = some q ∧ q.stage = .recording ∧ q.status = stCancelled) ∧
      SameMemory s t) ∧
  (∀ (f : Fin 64) (s : State), s.restarting = false → (s.func f).discard = false →
    (∀ e ∈ s.msixHeld, e.1 = f.val → (Tab.look msixInit s.msix (1024 * f + 4 * e.2 + 3)).getLsbD 0 = false) →
    Answers (.bmeSet f) s fun t =>
      t.func f = { s.func f with bme := true } ∧ t.msixHeld = s.msixHeld.filter (fun e => e.1 != f.val) ∧
      t.out = s.out ++ (s.msixHeld.filter (fun e => e.1 == f.val)).map (fun e => .msix e.1 e.2) ∧ SameMemory s t) ∧
  (∀ (f : Fin 64) (off : BitVec 12) (wr : Option W32) (s : State),
    Answers (.configRequest f off wr) s fun t =>
      (s.configRetry = true → t.out = s.out ++ [.cpl f 2] ∧ t.func f = s.func f) ∧
      (s.configRetry = false → wr = none → off.toNat / 4 = 0 →
        t.out = s.out ++ [.cfgData f 0 (if f = 0 then 0x74001D9F else 0x74011D9F)]) ∧
      (s.configRetry = false → wr = none → off.toNat / 4 = 2 → t.out = s.out ++ [.cfgData f 8 0x120000B1]) ∧
      (s.configRetry = false → wr = none → off.toNat / 4 = 1 →
        ∃ v : W32, t.out = s.out ++ [.cfgData f 4 v] ∧ v.getLsbD 2 = (s.func f).bme) ∧
      (∀ v, s.configRetry = false → wr = some v → off.toNat / 4 = 1 →
        (t.func f).bme = v.getLsbD 2 ∧ t.out.getLast? = some (.cpl f 0)) ∧ (wr = none → SameMemory s t)) ∧
  (∀ (up flit : Bool) (width speed : Nat) (s : State),
    Answers (.hostLinkRetrain up flit width speed) s fun t =>
      (up = false → t.regN aHostLink = s.regN aHostLink % 2 ^ 31 ∧
        ((s.regN aHostLink).testBit 31 = true → (t.regN aHostEvents).testBit 0 = true)) ∧
      (up = true → width ∈ [1, 2, 4, 8, 16] → 1 ≤ speed → speed ≤ 6 →
        t.regN aHostLink = 2 ^ 31 + (if flit then 2 ^ 30 else 0) + width * 2 ^ 16 + speed ∧
        (width < s.regN aHostLink / 2 ^ 16 % 32 → (t.regN aHostEvents).testBit 1 = true) ∧
        (speed < s.regN aHostLink % 16 → (t.regN aHostEvents).testBit 2 = true)) ∧
      SameRegsBut s t (fun a => a = aHostLink ∨ a = aHostEvents) ∧ SameMemory s t)

/-- LOCK, START and STOP_INTERFACE_REQUEST (14 R588, 02 R62, R72), LOCKED_SETTING_WRITE and IDE_INTEGRITY_FAILURE (R588),
REQUEST_WITHOUT_T_BIT (R589), IDE_KM (R585) and FLR (R601). -/
def Obligations.InterfacesAndStreams : Prop :=
  (∀ (f : Fin 64) (s : State),
    Answers (.lockInterfaceRequest f) s fun t =>
      (f ≠ 0 → (s.func f).tdi = .unlocked → s.loadBars f = false →
        t.func f = { s.func f with tdi := .locked } ∧ (∀ g, g ≠ f.val → t.func g = s.func g)) ∧
      (f = 0 ∨ (s.func f).tdi ≠ .unlocked ∨ s.loadBars f = true → t = s) ∧ SameMemory s t) ∧
  (∀ (f : Fin 64) (s : State) (signed : Bool), signed = (((s.partOfFunc f).bind s.job).map (·.signed)).getD false →
    Answers (.startInterfaceRequest f) s fun t =>
      (f ≠ 0 → (s.func f).tdi = .locked → signed = true → s.loadBars f = false →
        t.func f = { s.func f with tdi := .run } ∧ (∀ g, g ≠ f.val → t.func g = s.func g)) ∧
      (f = 0 ∨ (s.func f).tdi ≠ .locked ∨ signed = false ∨ s.loadBars f = true → t = s) ∧ SameMemory s t) ∧
  (∀ (f : Fin 64) (s : State),
    Answers (.stopInterfaceRequest f) s fun t =>
      (f = 0 ∨ (s.func f).tdi = .unlocked → t = s) ∧
      (f ≠ 0 → ((s.func f).tdi = .locked ∨ (s.func f).tdi = .error) →
        t.func f = { s.func f with tdi := .unlocked, discard := false } ∧ SameMemory s t) ∧
      (f ≠ 0 → (s.func f).tdi = .run → (t.func f).tdi = .unlocked ∧ (t.func f).discard = false)) ∧
  (∀ (f : Fin 64) (s : State) (c : Instr), c = .lockedSettingWrite f ∨ c = .ideIntegrityFailure f →
    Answers c s fun t =>
      (s.tdiHeld f = true → (t.func f).tdi = .error ∧ (t.func f).discard = true) ∧
      (s.tdiHeld f = true → c = .lockedSettingWrite f → (∀ p, s.partOfFunc f = some p → (s.part p).ph ≠ .draining) →
        ∃ e ∈ t.errs, e.status = stAuthFailed ∧ e.source = 0x0B ∧ e.func = f.val) ∧
      (s.tdiHeld f = false → (t.func f).tdi = (s.func f).tdi) ∧
      (c = .ideIntegrityFailure f → t.ideSecure f = false)) ∧
  (∀ (f : Fin 64) (s : State),
    Answers (.requestWithoutTBit f) s fun t =>
      ((s.func f).tdi = .run → t.out = s.out ++ [.cpl f 1] ∧ t.funcs = s.funcs) ∧
      ((s.func f).tdi ≠ .run → t = s) ∧ SameMemory s t) ∧
  (∀ (f stream : Fin 64) (key : BitVec 256) (secure : Bool) (s : State) (i : Nat),
    i = (if f = 0 then 64 else stream.val) →
    Answers (.ideKm f stream key secure) s fun t =>
      (f ≠ 0 → (t.func f).stream = stream.val ∧ t.ideSecure f = secure) ∧
      Tab.look (fun _ => 0) t.ideKeys i = key.toNat ∧ Tab.look (fun _ => false) t.ide i = secure) ∧
  (∀ (f : Fin 64) (s : State),
    Answers (.flr f) s fun t =>
      (f = 0 → t = s) ∧
      (f ≠ 0 → (t.func f).tdi = .unlocked ∧ (t.func f).discard = false ∧ (t.func f).held = none ∧
        (∀ a, aSchedWinCtrl f ≤ a → a < aSchedWinCtrl f + 0x200 → t.reg a = regReset a) ∧
        (∀ v, v < 256 → ∀ k, k < 4 → Tab.look msixInit t.msix (1024 * f + 4 * v + k) = msixInit (1024 * f + 4 * v + k))))

/-- The SPDM, DOE and MCTP requests (14 R591 to R593, 16 R663, 17 R686, R687). The layouts are those of the DMTF
standards that the manual names (log entry 64). -/
def Obligations.SecurityProtocolMessages : Prop :=
  (∀ (f : Fin 66) (msg : Bytes) (s : State) (c : Instr) (code : Nat),
    ((c = .getVersion f msg ∧ code = 0x84) ∨ (c = .getCapabilities f msg ∧ code = 0xE1) ∨
      (c = .negotiateAlgorithms f msg ∧ code = 0xE3) ∨ (c = .getDigests f msg ∧ code = 0x81) ∨
      (c = .getCertificate f msg ∧ code = 0x82) ∨ (c = .challenge f msg ∧ code = 0x83) ∨
      (c = .getMeasurements f msg ∧ code = 0xE0) ∨ (c = .keyExchange f msg ∧ code = 0xE4)) →
    s.configRetry = false → le msg 1 1 = code → s.tamperHold = true →
    Answers c s fun t => t.out = s.out ++ [spdmOut f [0x13, 0x7F, 0x05, 0]] ∧ t.funcs = s.funcs ∧ SameMemory s t) ∧
  (∀ (f : Fin 64) (msg : Bytes) (sess : W32) (s : State) (c : Instr) (code : Nat),
    ((c = .finish f sess msg ∧ code = 0xE5) ∨ (c = .heartbeat f sess msg ∧ code = 0xE8) ∨
      (c = .keyUpdate f sess msg ∧ code = 0xE9) ∨ (c = .endSession f sess msg ∧ code = 0xEC) ∨
      (c = .vendorDefinedRequest f sess msg ∧ code = 0xFE)) →
    s.configRetry = false → le msg 1 1 = code → s.tamperHold = true →
    Answers c s fun t => t.out = s.out ++ [.doe f [0x13, 0x7F, 0x05, 0]] ∧ t.funcs = s.funcs ∧ SameMemory s t) ∧
  (∀ (f : Fin 66) (msg : Bytes) (s : State), s.configRetry = false → s.tamperHold = false → le msg 0 1 = 0x10 → le msg 1 1 = 0x84 →
    Answers (.getVersion f msg) s fun t =>
      t.out = s.out ++ [spdmOut f [0x10, 0x04, 0, 0, 0, 1, 0x00, 0x13]] ∧ (t.func f).conn = 1 ∧ (t.func f).sessions = [] ∧
      SameMemory s t) ∧
  (∀ (f : Fin 66) (msg : Bytes) (s : State), s.configRetry = false → s.tamperHold = false → le msg 0 1 = 0x13 →
    Answers (.getCapabilities f msg) s fun t =>
      (le msg 1 1 = 0xE1 → (s.func f).conn = 1 → 20 ≤ msg.length → (t.func f).conn = 2 ∧
        ∃ r, t.out = s.out ++ [spdmOut f r] ∧ le r 1 1 = 0x61 ∧ le r 8 4 = 0x62D6 ∧ (t.func f).vca = (s.func f).vca ++ msg ++ r) ∧
      (le msg 1 1 = 0xE1 → (s.func f).conn ≠ 1 → t.out = s.out ++ [spdmOut f [0x13, 0x7F, 0x04, 0]] ∧ t.funcs = s.funcs) ∧
      SameMemory s t) ∧
  (∀ (f : Fin 66) (msg : Bytes) (s : State), s.configRetry = false → s.tamperHold = false → le msg 0 1 = 0x13 →
    le msg 1 1 = 0xE3 → (s.func f).conn = 2 → 32 ≤ msg.length → (le msg 8 4).testBit 4 = true → (le msg 12 4).testBit 0 = true →
    Answers (.negotiateAlgorithms f msg) s fun t =>
      (t.func f).conn = 3 ∧ (∃ r, t.out = s.out ++ [spdmOut f r] ∧ le r 1 1 = 0x63 ∧ le r 12 4 = 0x10 ∧ le r 16 4 = 1) ∧
      SameMemory s t) ∧
  (∀ (f : Fin 66) (msg : Bytes) (s : State), s.configRetry = false → s.tamperHold = false → le msg 0 1 = 0x13 →
    3 ≤ (s.func f).conn →
    (le msg 1 1 = 0x81 → Answers (.getDigests f msg) s fun t =>
      t.out = s.out ++ [spdmOut f ([0x13, 0x01, 1, 1] ++ sha256 s.spdmChain)] ∧ SameMemory s t) ∧
    (le msg 1 1 = 0x82 → le msg 2 1 % 16 = 0 → le msg 4 2 < s.spdmChain.length → Answers (.getCertificate f msg) s fun t =>
      (∃ r, t.out = s.out ++ [spdmOut f r] ∧ r.take 4 = [0x13, 0x02, 0, 0] ∧
        r.drop 8 = slice s.spdmChain (le msg 4 2) (le msg 6 2)) ∧ SameMemory s t) ∧
    (∀ k, le msg 1 1 = 0x83 → le msg 2 1 % 16 = 0 → 44 ≤ msg.length → s.sbox.alias_ = some k →
      Answers (.challenge f msg) s fun t =>
        (∃ r, t.out = s.out ++ [spdmOut f (r ++ spdmSign k "responder-challenge_auth signing"
            ((s.func f).vca ++ (s.func f).msgB ++ msg ++ r))] ∧
          r.take 36 = [0x13, 0x03, 0, 1] ++ sha256 s.spdmChain) ∧
        (t.func f).msgB = [] ∧ SameMemory s t) ∧
    (∀ k, le msg 1 1 = 0xE0 → le msg 2 1 % 2 = 1 → 1 ≤ le msg 3 1 → le msg 3 1 ≤ 11 → 45 ≤ msg.length → s.sbox.alias_ = some k →
      Answers (.getMeasurements f msg) s fun t =>
        (∃ r, t.out = s.out ++ [spdmOut f (r ++ spdmSign k "responder-measurements signing"
            ((s.func f).vca ++ (s.func f).msgL ++ msg ++ r))] ∧
          r.take 5 = [0x13, 0x60, 0, 0, 1] ∧
          (r.drop 8).take (s.measurement (s.measuredPart f) (le msg 3 1 - 1)).length =
            s.measurement (s.measuredPart f) (le msg 3 1 - 1)) ∧
        (t.func f).msgL = [] ∧ SameMemory s t)) ∧
  (∀ (f : Fin 66) (msg rnd z : Bytes) (s : State) (k : Nat), s.configRetry = false → s.tamperHold = false → le msg 0 1 = 0x13 →
    le msg 1 1 = 0xE4 → 3 ≤ (s.func f).conn → le msg 3 1 % 16 = 0 → 106 ≤ msg.length → s.rngFailed = false → s.rngServes = true →
    s.sbox.alias_ = some k → (∀ x ∈ (s.func f).sessions, x.id < 0xFFFF0000) → rnd = (s.draw 64).1 → ecdh (beNat (rnd.take 32) % (p256N - 1) + 1) (slice msg 40 64) = some z →
    Answers (.keyExchange f msg) s fun t =>
      (∃ r y, t.out = s.out ++ [spdmOut f r] ∧ le r 1 1 = 0x64 ∧ (t.func f).sessions = (s.func f).sessions ++ [y] ∧
        y.id % 65536 = le msg 4 2 ∧ y.id / 65536 = le r 4 2 ∧ y.established = false ∧ y.handshakeSecret = hkdfExtract (zeros 32) z) ∧
      SameMemory s t) ∧
  (∀ (f : Fin 64) (sess : W32) (msg : Bytes) (s : State) (y : SpdmSession), s.configRetry = false → s.tamperHold = false →
    le msg 0 1 = 0x13 → (s.func f).sessions = [y] → y.id = sess.toNat →
    (le msg 1 1 = 0xE5 → y.established = false → Answers (.finish f sess msg) s fun t =>
      (slice msg 4 32 = hmac (finishedKey y.handshakeSecret "req hs data" y.finished) (sha256 (y.transcript ++ msg.take 4)) →
        t.out = s.out ++ [.doe f [0x13, 0x65, 0, 0]] ∧ ∃ x, (t.func f).sessions = [x] ∧ x.id = y.id ∧ x.established = true) ∧
      (slice msg 4 32 ≠ hmac (finishedKey y.handshakeSecret "req hs data" y.finished) (sha256 (y.transcript ++ msg.take 4)) →
        t.out = s.out ++ [.doe f [0x13, 0x7F, 0x06, 0]] ∧ (t.func f).sessions = []) ∧ SameMemory s t) ∧
    (le msg 1 1 = 0xE8 → y.established = true → Answers (.heartbeat f sess msg) s fun t =>
      t.out = s.out ++ [.doe f [0x13, 0x68, 0, 0]] ∧ t.funcs = s.funcs ∧ SameMemory s t) ∧
    (le msg 1 1 = 0xE9 → y.established = true → 1 ≤ le msg 2 1 → le msg 2 1 ≤ 3 → Answers (.keyUpdate f sess msg) s fun t =>
      (t.func f).sessions = [{ y with
        reqGen := y.reqGen + (if le msg 2 1 < 3 then 1 else 0), rspGen := y.rspGen + (if le msg 2 1 = 2 then 1 else 0) }] ∧
      (∃ r, t.out = s.out ++ [.doe f r] ∧ le r 1 1 = 0x69 ∧ le r 2 1 = le msg 2 1) ∧ SameMemory s t) ∧
    (le msg 1 1 = 0xEC → y.established = true → Answers (.endSession f sess msg) s fun t =>
      t.out = s.out ++ [.doe f [0x13, 0x6C, 0, 0]] ∧ (t.func f).sessions = [] ∧ SameMemory s t) ∧
    (le msg 1 1 = 0xFE → y.established = true → Answers (.vendorDefinedRequest f sess msg) s fun t =>
      (f ≠ 0 → t.out = s.out ++ [.doe f [0x13, 0x7F, 0x07, 0]] ∧ t.funcs = s.funcs) ∧
      (∀ b g, f = 0 → le msg 4 2 = 3 → le msg 6 1 = 2 → le msg 7 2 = 1 → b = slice msg 11 (le msg 9 2) → le b 0 1 = 1 →
        le b 1 1 = 0x10 → le b 2 1 = 0x85 → g = le b 5 2 % 256 → 1 ≤ g → g ≤ 63 →
        t.funcs = s.funcs ∧ ∃ r, t.out = s.out ++ [.doe f r] ∧ r.getLast? = some (BitVec.ofNat 8 (tdiCode (s.func g).tdi))) ∧
      SameMemory s t)) ∧
  (∀ (f : Fin 64) (index : Byte) (s : State), s.configRetry = false →
    Answers (.doeDiscovery f index) s fun t =>
      t.out = s.out ++ [.doe f (if index = 0 then [1, 0, 0, 1] else if index = 1 then [1, 0, 1, 2]
        else if index = 2 then [1, 0, 2, 0] else [0xFF, 0xFF, 0, 0])] ∧ SameMemory s t) ∧
  (∀ (i3c : Bool) (msg : Bytes) (s : State), le msg 0 1 = 0 → 128 ≤ le msg 1 1 → 4 ≤ msg.length →
    Answers (.mctpControl i3c msg) s fun t =>
      (le msg 2 1 = 1 → Tab.look (fun _ => 0) t.eids (if i3c then 1 else 0) = le msg 4 1) ∧
      (le msg 2 1 = 2 → ∃ x y, t.out = s.out ++ [.mctp i3c [0, x, y, 0, BitVec.ofNat 8 (Tab.look (fun _ => 0) s.eids (if i3c then 1 else 0)), 0, 0]]) ∧
      (∃ r, t.out = s.out ++ [.mctp i3c r]) ∧ SameMemory s t)

/-- KEY_WRITE, KEY_DERIVE, KEY_WRAP, KEY_UNWRAP, KEY_ORPHAN, KEY_ZEROISE, KEY_INFO and SIGN (15 R616 to R639, R653). -/
def Obligations.MailboxKeyCommands : Prop :=
  (∀ (m : Mbx) (rb : Bool) (s : State) (x : Mailbox), s.MbxRuns m 1 → x = s.mbx m →
    Answers (.keyWrite m rb) s fun t =>
      (x.slotNo < 0x240 → attrOk x.attr = true → x.len = lenBytes (atLength x.attr) →
        s.slotTakes x.slotNo (atPart x.attr) = true → hostAttrOk m x.attr = true → (x.slotNo < 512 ∨ rb = true) →
        (t.slot x.slotNo).key = x.data.take x.len ∧ atValid (t.slot x.slotNo).attr = true ∧
        atOrphaned (t.slot x.slotNo).attr = false ∧
        atGen (t.slot x.slotNo).attr = (atGen (s.slot x.slotNo).attr + 1) % 256 ∧
        atUsage (t.slot x.slotNo).attr = atUsage x.attr ∧ atMaster (t.slot x.slotNo).attr = atMaster x.attr ∧
        atPart (t.slot x.slotNo).attr = atPart x.attr ∧ t.MbxEnded m stDone []) ∧
      (x.slotNo < 0x240 → attrOk x.attr = true → x.len = lenBytes (atLength x.attr) →
        s.slotTakes x.slotNo (atPart x.attr) = true → hostAttrOk m x.attr = true → 512 ≤ x.slotNo → rb = false →
        t.slot x.slotNo = s.slot x.slotNo ∧ t.MbxEnded m stUncorrectable []) ∧
      (x.slotNo < 0x240 → attrOk x.attr = true → x.len = lenBytes (atLength x.attr) →
        (s.slotTakes x.slotNo (atPart x.attr) = false ∨ hostAttrOk m x.attr = false) →
        t.slot x.slotNo = s.slot x.slotNo ∧ t.MbxEnded m stNotPermitted []) ∧
      (0x240 ≤ x.slotNo ∨ attrOk x.attr = false ∨ x.len ≠ lenBytes (atLength x.attr) →
        t.slot x.slotNo = s.slot x.slotNo ∧ t.MbxEnded m stMalformed []) ∧
      SameSlotsBut s t (fun i => i = x.slotNo) ∧ SameMemory s t) ∧
  (∀ (m : Mbx) (rb : Bool) (s : State) (x : Mailbox) (y : KeySlot), s.MbxRuns m 2 → x = s.mbx m → x.slotNo < 0x240 → x.parentNo < 0x240 →
    attrOk x.attr = true → 1 ≤ x.len → x.len ≤ 64 → s.slotTakes x.slotNo (atPart x.attr) = true → y = s.slot x.parentNo →
    Answers (.keyDerive m rb) s fun t =>
      (s.keyCheck x.parentNo usDerive (mbxUnit m) 0 0 = stDone → (x.slotNo < 512 ∨ rb = true) →
        (t.slot x.slotNo).key = kdf108 y.key (x.data.take x.len)
          [BitVec.ofNat 8 (atPart x.attr), BitVec.ofNat 8 ((atGen (s.slot x.slotNo).attr + 1) % 256),
            BitVec.ofNat 8 (atOrigin y.attr), BitVec.ofNat 8 (atDepth y.attr)] (lenBytes (atLength x.attr)) ∧
        atValid (t.slot x.slotNo).attr = true ∧ atParent (t.slot x.slotNo).attr = x.parentNo ∧
        SameSlotsBut s t (fun i => i = x.slotNo) ∧ t.MbxEnded m stDone []) ∧
      (s.keyCheck x.parentNo usDerive (mbxUnit m) 0 0 = stDone → 512 ≤ x.slotNo → rb = false →
        SameSlotsBut s t nowhere ∧ t.MbxEnded m stUncorrectable []) ∧
      (s.keyCheck x.parentNo usDerive (mbxUnit m) 0 0 ≠ stDone →
        SameSlotsBut s t nowhere ∧ t.MbxEnded m (s.keyCheck x.parentNo usDerive (mbxUnit m) 0 0) []) ∧ SameMemory s t) ∧
  (∀ (m : Mbx) (s : State) (x : Mailbox) (a b : Nat), s.MbxRuns m 3 → x = s.mbx m → x.slotNo < 0x240 → x.parentNo < 0x240 →
    a = (s.slot x.slotNo).attr → b = (s.slot x.parentNo).attr → s.keyCheck x.parentNo usWrap (mbxUnit m) 0 0 = stDone →
    s.keyLives x.slotNo = true →
    Answers (.keyWrap m) s fun t =>
      (atPart a = atPart b → atWorld a &&& atWorld b = atWorld a → atMaster a &&& atMaster b = atMaster a → atOrigin a ≠ 2 →
        (s.rngServes = false → s.rngFailed = false → (t.mbx m).busy = true ∧ (t.mbx m).waitRng = true) ∧
        (s.rngFailed = true → t.MbxEnded m stEntropyFailed []) ∧
        (s.rngServes = true → ∃ n c, n = (s.draw 12).1 ∧ c = gcmSeal (s.slot x.parentNo).key (fit 12 n) (blobHead a x.parentNo (atGen b) n) (s.slot x.slotNo).key ∧
          t.MbxEnded m stDone (blobHead a x.parentNo (atGen b) n ++ c.1 ++ c.2))) ∧
      (atPart a ≠ atPart b ∨ atOrigin a = 2 → t.MbxEnded m stNotPermitted []) ∧
      SameSlotsBut s t nowhere ∧ SameMemory s t) ∧
  (∀ (m : Mbx) (rb : Bool) (s : State) (x : Mailbox) (d key : Bytes) (n a : Nat), s.MbxRuns m 4 → x = s.mbx m → x.slotNo < 0x240 →
    x.parentNo < 0x240 → d = x.data.take x.len → n = lenBytes (le d 5 1) → a = putBits (le d 8 8) 47 38 x.parentNo →
    d.take 4 = ascii "GKKB" → le d 4 1 = 1 → n ≠ 0 → allZero (slice d 6 2) = true → allZero (slice d 0x13 1) = true →
    x.len = 48 + n → attrOk a = true → atLength a = le d 5 1 → s.slotTakes x.slotNo (atPart a) = true → hostAttrOk m a = true →
    s.keyCheck x.parentNo usWrap (mbxUnit m) 0 0 = stDone → le d 0x12 1 = atGen (s.slot x.parentNo).attr →
    Answers (.keyUnwrap m rb) s fun t =>
      (gcmOpen (s.slot x.parentNo).key (slice d 0x14 12) (d.take 32) (slice d 32 n) (slice d (32 + n) 16) = some key →
        512 ≤ x.slotNo → rb = false → SameSlotsBut s t nowhere ∧ t.MbxEnded m stUncorrectable []) ∧
      (gcmOpen (s.slot x.parentNo).key (slice d 0x14 12) (d.take 32) (slice d 32 n) (slice d (32 + n) 16) = some key →
        (x.slotNo < 512 ∨ rb = true) →
        (t.slot x.slotNo).key = key ∧ atValid (t.slot x.slotNo).attr = true ∧ SameSlotsBut s t (fun i => i = x.slotNo) ∧
        t.MbxEnded m stDone []) ∧
      (gcmOpen (s.slot x.parentNo).key (slice d 0x14 12) (d.take 32) (slice d 32 n) (slice d (32 + n) 16) = none →
        SameSlotsBut s t nowhere ∧ t.MbxEnded m stAuthFailed []) ∧ SameMemory s t) ∧
  (∀ (m : Mbx) (s : State) (i : Nat), s.MbxRuns m 5 → i = (s.mbx m).slotNo → i < 0x240 →
    Answers (.keyOrphan m) s fun t =>
      t.keyLives i = false ∧ (t.slot i).key = (s.slot i).key ∧ SameSlotsBut s t (fun j => j = i) ∧ t.MbxEnded m stDone [] ∧
      SameMemory s t) ∧
  (∀ (m : Mbx) (rb : Bool) (s : State) (i : Nat), s.MbxRuns m 6 → i = (s.mbx m).slotNo → i < 0x240 →
    Answers (.keyZeroise m rb) s fun t =>
      ((i < 512 ∨ rb = true) → (t.slot i).key = [] ∧ atValid (t.slot i).attr = false ∧
        atGen (t.slot i).attr = atGen (s.slot i).attr ∧ t.MbxEnded m stDone []) ∧
      (512 ≤ i → rb = false → t.keyLives i = false ∧ (t.slot i).key = (s.slot i).key ∧ t.MbxEnded m stUncorrectable []) ∧
      (∀ j ∈ s.validSlots, j ≠ i → s.descends i 577 j = true → atOrphaned (t.slot j).attr = true) ∧
      SameSlotsBut s t (fun j => j = i ∨ s.descends i 577 j = true) ∧ SameMemory s t) ∧
  (∀ (m : Mbx) (s : State) (i : Nat), s.MbxRuns m 7 → i = (s.mbx m).slotNo → i < 0x240 →
    Answers (.keyInfo m) s fun t =>
      (t.mbx m).attr = (s.slot i).attr ∧ t.MbxEnded m stDone [] ∧ SameSlotsBut s t nowhere ∧ SameMemory s t) ∧
  (∀ (m : Mbx) (s : State) (i st : Nat), s.MbxRuns m 8 → i = (s.mbx m).slotNo → i < 0x240 → (s.mbx m).len = 32 →
    st = s.keyCheck i usSign (mbxUnit m) 0 0 →
    Answers (.sign m) s fun t =>
      (st = stDone → t.MbxEnded m stDone (ecdsaSign (beNat (s.slot i).key % p256N) ((s.mbx m).data.take 32))) ∧
      (st ≠ stDone → t.MbxEnded m st []) ∧ SameSlotsBut s t nowhere ∧ SameMemory s t)

/-- MEM_ROTATE (15 R641), TAMPER_READ and the tamper ledger (R651; where an entry stands in its ring is log entry 41),
LC_ADVANCE and FACTORY_TRANSITION (R608), TAMPER_ALARM and ALARM_CONDITION_ENDS (R636, R644 to R648),
STRONGBOX_SELF_CHECK_FAILURE (19 R729), ORPHAN_ZEROISE_DONE (R633) and SWEEP_MARK_CLEARED (R634). -/
def Obligations.StrongboxLifeAndTamper : Prop :=
  (∀ (m : Mbx) (s : State) (p g : Nat), s.MbxRuns m 9 → p = bits (s.mbx m).cmd 7 4 → g = ((s.part p).keyCur + 1) % 4 →
    (s.partRec p).isSome = true → s.hasPartKeys p = true → (∀ r, s.removal = some r → r.part ≠ p) → s.rngServes = true →
    Answers (.memRotate m) s fun t =>
      ((s.part p).keyLive.testBit g = false →
        (t.part p).keyCur = g ∧ (t.part p).keyLive.testBit g = true ∧ (t.slot (memSlot p g)).key = (s.draw 64).1 ∧
        atValid (t.slot (memSlot p g)).attr = true ∧ t.MbxEnded m stDone [] ∧
        (∀ h, h < 4 → h ≠ g → (s.part p).keyLive.testBit h = true → s.genRefs p h = 0 →
          (t.part p).keyLive.testBit h = false ∧ (t.slot (memSlot p h)).key = []) ∧
        (∀ h, h < 4 → h ≠ g → s.genRefs p h ≠ 0 → (t.part p).keyLive.testBit h = (s.part p).keyLive.testBit h) ∧
        SameSlotsBut s t (fun i => i = memSlot p g ∨
          ∃ h, h < 4 ∧ h ≠ g ∧ (s.part p).keyLive.testBit h = true ∧ s.genRefs p h = 0 ∧ i = memSlot p h)) ∧
      ((s.part p).keyLive.testBit g = true →
        t.parts = s.parts ∧ SameSlotsBut s t nowhere ∧ t.MbxEnded m stRotationBusy []) ∧ SameMemory s t) ∧
  (∀ (m : Mbx) (s : State) (k : Nat), s.MbxRuns m 11 → k = bits (s.mbx m).cmd 19 14 →
    Answers (.tamperRead m) s fun t =>
      t.MbxEnded m stDone (s.tamperAt k ++ s.tamperAt (k + 1) ++ s.tamperAt (k + 2) ++ s.tamperAt (k + 3)) ∧
      t.sbox.tamperLog = s.sbox.tamperLog ∧ SameSlotsBut s t nowhere ∧ SameMemory s t) ∧
  (∀ (s : State) (lc : Lc), s.MbxRuns .pf 10 → lc = s.sbox.lc →
    Answers (.lcAdvance .pf) s fun t =>
      (bits s.sbox.pf.cmd 16 14 = 4 → (lc = .factory ∨ lc = .service ∨ lc = .returned) →
        t.sbox.lc = .scrapped ∧ ∀ i, (t.slot i).key = [] ∨ s.slot i = {} ∨ 0x240 ≤ i) ∧
      (∀ k, bits s.sbox.pf.cmd 16 14 = k → (lc = .factory ∧ k = 2 ∨ lc = .service ∧ k = 3 ∧ ∀ p, p < 16 → s.job p = none) →
        tokenSigned (s.sbox.pf.data.take s.sbox.pf.len) = true → tokenFits s.sbox.pf.data k = true →
        t.sbox.lc = lcOf k ∧ ∀ i, (t.slot i).key = [] ∨ s.slot i = {} ∨ 0x240 ≤ i) ∧
      (bits s.sbox.pf.cmd 16 14 < 5 → s.lcMay .pf (bits s.sbox.pf.cmd 16 14) = none →
        t.sbox.lc = lc ∧ SameSlotsBut s t nowhere ∧ t.MbxEnded .pf stNotPermitted []) ∧
      (5 ≤ bits s.sbox.pf.cmd 16 14 → t.sbox.lc = lc ∧ SameSlotsBut s t nowhere ∧ t.MbxEnded .pf stMalformed [])) ∧
  (∀ (s : State),
    Answers .factoryTransition s fun t =>
      (s.sbox.lc = .blank → s.rngReady = true → t.sbox.lc = .factory ∧
        t.sbox.uds = some (BitVec.ofNat 256 (beNat (s.rng.pool.take 32))) ∧ t.sbox.identity ≠ none ∧
        t.rng.poolAt = max s.cycles s.rng.poolFull ∧ t.cycles = max s.cycles s.rng.poolFull) ∧
      (s.sbox.lc ≠ .blank ∨ s.rngReady = false → t = s) ∧ SameMemory s t) ∧
  (∀ (src : Fin 5) (s : State) (r : Nat), s.power ≠ .off → s.sbox.alarms.testBit src = false → s.pwr.bootDue = false →
    s.mgmt.waiting = false → r = tamperField (s.regN aSecmbxTamperCfg) src →
    Answers (.tamperAlarm src) s fun t =>
      t.sbox.alarms.testBit src = true ∧
      (∃ e, t.sbox.tamperLog.getLast? = some e ∧ e.seq = s.sbox.tamperCount ∧ e.source = src.val ∧ e.response = r) ∧
      (r ≠ 0 → t.tamperHold = true) ∧ (r = 0 → t.tamperHold = s.tamperHold) ∧
      (r = 2 → ∀ i, t.keyLives i = false) ∧
      (r ≠ 2 → s.load = none → s.tally.groups = [] → SameSlotsBut s t nowhere) ∧
      (∀ m, (s.mbx m).busy = true → t.MbxEnded m stTamperAbort [])) ∧
  (∀ (src : Fin 5) (s : State),
    Answers (.alarmConditionEnds src) s fun t =>
      t.sbox.alarms.testBit src = false ∧ (∀ j, j ≠ src.val → t.sbox.alarms.testBit j = s.sbox.alarms.testBit j) ∧
      t.tamperHold = s.tamperHold ∧ SameSlotsBut s t nowhere ∧ SameMemory s t) ∧
  (∀ s : State, s.power ≠ .off →
    Answers .strongboxSelfCheckFailure s fun t =>
      t.tamperHold = true ∧ (∃ e, t.sbox.tamperLog.getLast? = some e ∧ e.source = 4) ∧ SameSlotsBut s t nowhere ∧ SameMemory s t) ∧
  (∀ s : State,
    Answers .orphanZeroiseDone s fun t =>
      (∀ i ∈ s.orphaned, (t.slot i).key = [] ∧ atValid (t.slot i).attr = false ∧ atGen (t.slot i).attr = atGen (s.slot i).attr) ∧
      SameSlotsBut s t (fun i => i ∈ s.orphaned) ∧ SameMemory s t) ∧
  (∀ s : State,
    Answers .sweepMarkCleared s fun t =>
      (s.sbox.sweepPending = true → t.sbox.sweepPending = false ∧ t.sbox.mram = [] ∧ (∀ i, 512 ≤ i → t.slot i = {})) ∧
      (s.sbox.sweepPending = false → t = s) ∧ SameSlotsBut s t (fun i => 512 ≤ i) ∧ SameMemory s t)

/-- RNG_STARTUP_DONE, RNG_SEEDED and HEALTH_TEST_FAILURE (16 R660, R661), DRBG_RESEED (R657), GENERATE_CALL (R664, 15
R625) and RNG_TEST_WRITE (R666, R667). -/
def Obligations.RandomGenerator : Prop :=
  (∀ s : State, Answers .rngStartupDone s fun t =>
    (s.rng.st = .startup → t.rng = { s.rng with st := .seeding, poolAt := s.rng.startAt + 4096 } ∧
      t.cycles = max s.cycles (s.rng.startAt + 4096)) ∧ (s.rng.st ≠ .startup → t = s) ∧
    SameMemory s t) ∧
  (∀ (katOk : Bool) (s : State), s.rng.st = .seeding → Answers (.rngSeeded katOk) s fun t =>
    (katOk = true → t.rng.st = .ready ∧ t.rng.calls = 0 ∧ t.rng.fails = 0 ∧ t.rng.waiting = s.rng.waiting ∧
      (t.rng.key, t.rng.v) = drbgInstantiate (s.rng.pool.take 48) (s.rng.pool.drop 48) (toLE 8 Config.serial.toNat) ∧
      t.rng.seededAt = t.cycles ∧ t.rng.poolAt = t.cycles ∧ t.cycles = max s.cycles s.rng.poolFull ∧ SameMemory s t) ∧
    (katOk = false → t.rng.st = .failed ∧ (∀ m, s.rng.waiting = [.mbx m] → t.MbxEnded m stEntropyFailed []))) ∧
  (∀ (rct apt : Bool) (s : State), s.rng.st ≠ .failed → (rct || apt) = true → Answers (.healthTestFailure rct apt) s fun t =>
    (s.rng.fails + 1 < s.regN aRngCfg % 8 → t.rng.st = .startup ∧ t.rng.fails = s.rng.fails + 1 ∧ t.rng.calls = 0 ∧
      t.rng.key = [] ∧ t.rng.v = [] ∧ t.rng.starts = s.rng.starts + 1 ∧ t.rng.startAt = s.cycles ∧
      t.rng.waiting = s.rng.waiting ∧ SameMemory s t) ∧
    (s.regN aRngCfg % 8 ≤ s.rng.fails + 1 → t.rng.st = .failed ∧
      (∀ m, s.rng.waiting = [.mbx m] → t.MbxEnded m stEntropyFailed [])) ∧
    t.rng.rct = (if rct then satInc 16 s.rng.rct else s.rng.rct) ∧
    t.rng.apt = (if apt then satInc 16 s.rng.apt else s.rng.apt)) ∧
  (∀ s : State, s.rng.st = .ready → Answers .drbgReseed s fun t =>
    t.rng.st = .ready ∧ t.rng.calls = 0 ∧ (t.rng.key, t.rng.v) = drbgReseed s.rng.key s.rng.v (s.rng.pool.take 48) ∧
    t.rng.seededAt = t.cycles ∧ t.rng.poolAt = t.cycles ∧
    t.cycles = max s.cycles (max s.rng.poolFull (if 2 ^ 20 ≤ s.rng.calls then 0 else s.rng.seededAt + 312500000)) ∧
    SameMemory s t) ∧
  (∀ (s : State) (c : Caller) (cs : List Caller), s.rng.waiting = c :: cs → Answers .generateCall s fun t =>
    (s.rngReady = false → t = s) ∧
    (∀ p, s.rngReady = true → c = .sec (.partKeys p) → t.rng.waiting = cs ∧ t.rng.calls = s.rng.calls + 1 ∧
      (t.slot (partRootSlot p)).key = (s.draw 96).1.take 32 ∧ (t.slot (memSlot p 0)).key = slice (s.draw 96).1 32 64 ∧
      (t.part p).keyCur = 0 ∧ (t.part p).keyLive = 1 ∧
      SameSlotsBut s t (fun i => i = partRootSlot p ∨ i = memSlot p 0) ∧ SameMemory s t) ∧
    (∀ m, s.rngReady = true → c = .mbx m → ((s.mbx m).opcode = 3 ∨ (s.mbx m).opcode = 9) →
      t.rng.waiting = cs ∧ (t.mbx m).busy = false ∧ (t.mbx m).waitRng = false ∧ SameMemory s t)) ∧
  (∀ (v : W32) (s : State), s.writeServed (.fn 0) aRngTest = true → Answers (.rngTestWrite (.fn 0) v) s fun t =>
    (s.sbox.lc = .factory → s.rng.st ≠ .failed → t.rng.st = .startup ∧ t.rng.calls = 0 ∧ t.rng.key = [] ∧ t.rng.test = v.getLsbD 31 ∧
      t.rng.testSeed = (if v.toNat % 65536 = 0 then 1 else v.toNat % 65536)) ∧
    (s.sbox.lc = .factory → s.rng.st = .failed → t.rng.st = .failed) ∧
    (s.sbox.lc ≠ .factory → t.rng = s.rng ∧ ∃ e, t.errs.getLast? = some e ∧ e.status = stNotPermitted) ∧ SameMemory s t)

/-- VIN_RISE, VIN_FALL, VIN_HIGH and VIN_HIGH_CLEARED (21 R756 to R764), PERST_N_ASSERT and PERST_N_DEASSERT (00_scope
R16, R17; 21 R761), BOOT_ROM_START and START_COMPLETE (18 R698 to R706), MP_WATCHDOG_RESET (00_scope R18, 18 R706),
ENTER_IDLE, DOZE, DOZE_WAKE and WAKING_DONE (21 R764 to R766), THROTTLE_STEP and THERMAL_TRIP (R768 to R772). What a step
up waits for rests on log entry 81, the reset registers that a warm reset keeps on log entry 72. -/
def Obligations.PowerAndReset : Prop :=
  (∀ (mv : BitVec 16) (s : State),
    Answers (.vinRise mv) s fun t =>
      (s.power = .off → s.pwr.tripped = false → 40000 ≤ mv.toNat → mv.toNat ≤ 60000 →
        t = { s with power := .active, pwr := { s.pwr with vinMv := mv.toNat, good := true, bootDue := true },
                     out := s.out ++ [.pin "PWR_GOOD" true] }) ∧
      (s.power = .off → s.pwr.tripped = false → 60000 < mv.toNat → mv.toNat ≤ 64000 →
        t.power = .active ∧ t.pwr.vinHigh = true ∧ t.pwr.bootDue = true ∧ (t.regN aPwrEvents).testBit 2 = true) ∧
      (s.power ≠ .off ∨ s.pwr.tripped = true ∨ mv.toNat < 40000 → t = s)) ∧
  (∀ (mv : BitVec 16) (s : State),
    Answers (.vinFall mv) s fun t =>
      (40000 ≤ mv.toNat → t = s) ∧
      (mv.toNat < 40000 → t.power = .off ∧ t.pwr.tripped = false ∧ t.pwr.vinHigh = false ∧ t.pwr.vinMv = mv.toNat) ∧
      (mv.toNat < 40000 → s.power ≠ .off →
        t.pwr.good = false ∧ t.out = s.out ++ [.pin "PWR_GOOD" false] ∧ (∀ a, t.reg a = regReset a) ∧ t.folio.hoard = [] ∧
        t.folio.lpddr = [] ∧ t.ops = [] ∧ t.hostMem = s.hostMem ∧ t.sbox.lc = s.sbox.lc ∧ t.sbox.mram = s.sbox.mram ∧
        (∀ i, i < 512 → t.slot i = {}) ∧ (∀ i, 512 ≤ i → t.slot i = s.slot i))) ∧
  (∀ (mv : BitVec 16) (s : State), s.power ≠ .off →
    (Answers (.vinHigh mv) s fun t =>
      (mv.toNat ≤ 60000 → t = s) ∧
      (60000 < mv.toNat → mv.toNat ≤ 64000 → t.pwr = { s.pwr with vinMv := mv.toNat, vinHigh := true } ∧
        (t.regN aPwrEvents).testBit 2 = true ∧ t.sbox = s.sbox) ∧
      (64000 < mv.toNat → (t.sbox.alarms).testBit 1 = true)) ∧
    (Answers (.vinHighCleared mv) s fun t =>
      (40000 ≤ mv.toNat → mv.toNat ≤ 60000 → t = { s with pwr := { s.pwr with vinMv := mv.toNat, vinHigh := false } }) ∧
      (mv.toNat < 40000 ∨ 60000 < mv.toNat → t = s))) ∧
  (∀ s : State,
    Answers .perstNAssert s fun t =>
      t.pwr.perst = true ∧
      (s.pwr.perst = false → s.power ≠ .off →
        t.pwr.bootDue = true ∧ t.startDone = false ∧ t.ops = [] ∧ t.dev = none ∧ t.hostMem = s.hostMem ∧
        (∀ a, warmKept a = true → a ≠ aMgmtUpdStatus → a ≠ aGlobalErrStatus → t.reg a = s.reg a) ∧
        (∀ a, warmKept a = false → a ≠ aGlobalErrStatus → t.reg a = regReset a) ∧
        (∀ i, i < 512 → t.slot i = {}) ∧ t.folio.hoard = s.folio.hoard ∧ t.sbox.lc = s.sbox.lc)) ∧
  (∀ (recoveryN : Bool) (s : State),
    Answers (.perstNDeassert recoveryN) s fun t =>
      (s.pwr.perst = true → t = { s with pwr := { s.pwr with perst := false, recoveryLow := !recoveryN } }) ∧
      (s.pwr.perst = false → t = s)) ∧
  (∀ (bistFail : Nat) (s : State), s.pwr.bootDue = true → s.pwr.good = true → s.pwr.perst = false → s.power ≠ .off →
    s.sbox.sweepPending = false → s.sbox.lc ≠ .scrapped → ¬(s.restarting = true ∧ s.tamperHold = true) →
    Answers (.bootRomStart bistFail) s fun t =>
      t.pwr.bootDue = false ∧
      (s.sbox.alarms % 32 ≠ 0 → t.tamperHold = true ∧ t.startDone = s.startDone ∧ t.mgmt.loaded = s.mgmt.loaded) ∧
      (s.sbox.alarms % 32 = 0 → bistFail = 0 → min 64 s.mgmt.confirmed ≤ s.mgmt.counter → s.mgmt.upd = .idle →
        s.pwr.recoveryLow = false →
        (s.mgmt.record = false → t.recoveryMode = true ∧
          t.sbox.blocks = [toBE 32 Config.romDigest.toNat, toBE 32 Config.recoveryDigest.toNat]) ∧
        (∀ x bs, s.mgmt.record = true → s.mgmt.recFallback = false → s.checkSlot s.mgmt.active = .ok (x, bs) →
          t.mgmt.loaded = true ∧ t.recoveryMode = false ∧ t.sbox.blocks = imageDigests bs ∧
          t.mgmt.bundle.map (·.digest) = some (sha256 x.header)) ∧
        (∀ r, s.mgmt.record = true → s.mgmt.recFallback = false → s.checkSlot s.mgmt.active = .error r →
          t.recoveryMode = true)) ∧
      (∀ k r, s.sbox.alarms % 32 = 0 → bistFail = 0 → min 64 s.mgmt.confirmed ≤ s.mgmt.counter → s.restarting = true →
        s.mgmt.upd = .checking → s.mgmt.trialSlot = some k → r < 128 → s.checkSlot k = .error r →
        t.mgmt.upd = .idle ∧ t.mgmt.trialSlot = none ∧ t.regN aMgmtUpdStatus = r * 2 ^ 24 + stImageRejected)) ∧
  (∀ s : State, s.mgmt.loaded = true → s.tamperHold = false → s.schemaBad = false → (s.dev.isSome ∨ s.activeSettings = none) →
    Answers .startComplete s fun t =>
      t.startDone = true ∧ t.configReady = true ∧ t.restarting = false ∧ t.mgmt.loaded = false ∧
      (s.mgmt.upd = .checking → t.mgmt.upd = .trial ∧ t.mgmt.trialFrom = s.cycles ∧ t.regN aMgmtUpdStatus % 65536 = stDone) ∧
      (s.mgmt.upd = .fallback → t.mgmt.upd = .idle ∧ t.mgmt.trialSlot = none)) ∧
  (∀ s : State, s.power ≠ .off → s.recoveryMode = false → s.startDone = true →
    Answers .mpWatchdogReset s fun t =>
      (s.mgmt.upd = .trial → t.mgmt.upd = .fallback ∧ t.mgmt.cause = 0x08 ∧ t.restarting = true) ∧
      (s.mgmt.upd = .idle → s.mgmt.wdt.length < 3 → t.restarting = true ∧ t.startDone = false ∧ t.configReady = false ∧
        t.pwr.bootDue = true ∧ t.recoveryMode = false) ∧
      (s.mgmt.upd = .idle → s.mgmt.wdt.length = 3 → s.cycles ≤ s.mgmt.wdt.getD 2 0 + 60 * 312500000 → t.recoveryMode = true) ∧
      (s.mgmt.upd = .idle → ∀ w, w < 64 → (s.win w).st.active = true → (t.win w).st = .discarded)) ∧
  (∀ s : State,
    (Answers .enterIdle s fun t =>
      (s.power = .active → s.quiesced = true → s.slotsHeld = false → t = { s with power := .idle }) ∧
      (s.power ≠ .active ∨ s.quiesced = false ∨ s.slotsHeld = true → t = s)) ∧
    (s.power = .doze → Answers .dozeWake s fun t => t = { s with power := .waking }) ∧
    (s.power = .waking →
      Answers .wakingDone s fun t => t.power = .active ∧ t.pwr.wakeEvent = false ∧ (t.regN aPwrEvents).testBit 3 = true)) ∧
  (∀ (req : Req) (s : State), reqIsPf req = true → s.writeServed req aPwrCtrl = true → s.power = .active →
    Answers (.doze req) s fun t =>
      (s.quiesced = true → s.loadsBusy = false → s.updateBusy = false →
        t.power = .doze ∧ t.scratch = [] ∧ (∀ i, (t.port i).up = false)) ∧
      (s.quiesced = false ∨ s.loadsBusy = true ∨ s.updateBusy = true →
        t.power = .active ∧ ∃ e ∈ t.errs, e.status = stNotPermitted ∧ e.source = 0x01)) ∧
  (∀ (tj sensor : Byte) (inputW : BitVec 16) (s u : State) (hot : Bool), s.power = .active ∨ s.power = .idle →
    u = s.advanceToCycle ((s.cycles / 312500 + 1) * 312500) → u.pwr.steps ≤ 8 →
    hot = decide ((u.tjLimit : Int) ≤ sgn 8 tj.toNat ∨ u.limitW < inputW.toNat) →
    Answers (.throttleStep tj sensor inputW) s fun t =>
      t.pwr.tj = tj.toNat ∧ t.pwr.sensor = sensor.toNat ∧ t.pwr.inputW = inputW.toNat ∧
      t.pwr.steps = (if hot then min 8 (u.pwr.steps + 1)
        else if sgn 8 tj.toNat ≤ (u.tjLimit : Int) - 3 ∧ inputW.toNat + u.hystW ≤ u.limitW ∧ u.pwr.upAt + 3125000 ≤ u.cycles then
          u.pwr.steps - 1 else u.pwr.steps) ∧
      (hot = true → u.pwr.steps = 0 → (t.regN aPwrEvents).testBit 0 = true)) ∧
  (∀ (tj : Byte) (s : State), s.power ≠ .off → 115 ≤ sgn 8 tj.toNat →
    Answers (.thermalTrip tj) s fun t =>
      t.power = .off ∧ t.pwr.tripped = true ∧ t.pwr.trips = s.pwr.trips + 1 ∧ t.folio.hoard = [] ∧
      (∀ i, i < 512 → t.slot i = {}) ∧ t.hostMem = s.hostMem)

/-- STAGE and STAGE_COMPLETE (18 R695 to R697), UPDATE_DISCARD (R697), ACTIVATE (R701, R702), UPDATE_LEDGER_READ (R714, R716),
HEALTH_CONFIRM, REJECT_SELF and FALLBACK_TIMEOUT (R706, R707, R715), and the refusals of a trial (R708). What an erased slot
reads as is log entry 10, which entries a ledger read takes log entry 80, the image that an entry names log entry 74. -/
def Obligations.FirmwareUpdates : Prop :=
  (∀ (req : Req) (s : State) (slot n : Nat), reqIsPf req = true → s.writeServed req aMgmtUpdCtrl = true →
    s.mayStage req = true → s.mgmt.upd = .idle → s.mgmt.legacyBlown = false → slot = s.inactiveSlot → n = s.updLen →
    Answers (.stage req) s fun t =>
      (n % 4096 = 0 → 4096 ≤ n → n ≤ maxImage →
        t.mgmt.upd = .staging ∧ t.mgmt.stageAddr = s.updAddr ∧ t.mgmt.stageLen = n ∧ (t.regN aMgmtUpdStatus).testBit 31 = true ∧
        (∀ a, slotBase slot ≤ a → a < slotBase slot + maxImage → Mem.get t.mgmt.flash a = 0) ∧
        (∀ a, a < slotBase slot ∨ slotBase slot + maxImage ≤ a → Mem.get t.mgmt.flash a = Mem.get s.mgmt.flash a)) ∧
      (n % 4096 ≠ 0 ∨ n < 4096 ∨ maxImage < n → t.regN aMgmtUpdStatus % 65536 = stMalformed ∧ t.mgmt = s.mgmt) ∧
      t.hostMem = s.hostMem ∧ t.folio = s.folio ∧ SameRegsBut s t (fun a => a = aMgmtUpdStatus ∨ a = aMgmtUpdCtrl)) ∧
  (∀ (req : Req) (s : State), reqIsPf req = true → s.writeServed req aMgmtUpdCtrl = true →
    (s.mayStage req = false ∨ s.mgmt.upd ≠ .idle) →
    Answers (.stage req) s fun t => t.regN aMgmtUpdStatus % 65536 = stNotPermitted ∧ t.mgmt = s.mgmt ∧ SameMemory s t) ∧
  (∀ (ok : Bool) (s : State), s.mgmt.upd ≠ .staging ∨ (s.mgmt.stageEng = none ∧ s.dmaIdle = none) →
    exec (.stageComplete ok) s = .next s) ∧
  (∀ (s : State) (b : Bytes), s.mgmt.upd = .staging → (s.mgmt.stageEng.isSome = true ∨ s.dmaIdle.isSome = true) → (s.func 0).bme = true → b = Mem.read s.hostMem s.mgmt.stageAddr s.mgmt.stageLen →
    160 ≤ b.length →
    Answers (.stageComplete true) s fun t =>
      t.mgmt.upd = .staged ∧
      (¬(b.take 4 = ascii "GKFW" ∧ le b 5 1 = 0) → t.slotRead s.inactiveSlot 0 s.mgmt.stageLen = b) ∧
      (b.take 4 = ascii "GKFW" → le b 5 1 = 0 →
        t.slotRead s.inactiveSlot 0 32 = b.take 5 ++ [1] ++ slice b 6 26 ∧
        t.slotRead s.inactiveSlot 0xA0 (s.mgmt.stageLen - 0xA0) = b.drop 0xA0) ∧ t.regN aMgmtUpdStatus % 65536 = stDone ∧
      (t.regN aMgmtUpdStatus).testBit 31 = false ∧
      (∃ e, t.mgmt.ledger.getLast? = some e ∧ e.event = 0x01 ∧ e.slot = s.inactiveSlot ∧ e.seq = s.mgmt.ledgerCount) ∧
      t.mgmt.ledgerCount = s.mgmt.ledgerCount + 1 ∧ t.hostMem = s.hostMem) ∧
  (∀ (s : State), s.mgmt.upd = .staging → (s.mgmt.stageEng.isSome = true ∨ s.dmaIdle.isSome = true) →
    Answers (.stageComplete false) s fun t => t.mgmt.upd = .idle ∧ (t.regN aMgmtUpdStatus).testBit 31 = false ∧ t.hostMem = s.hostMem) ∧
  (∀ (req : Req) (s : State), reqIsPf req = true → s.writeServed req aMgmtUpdCtrl = true →
    Answers (.updateDiscard req) s fun t =>
      (s.mgmt.upd = .staged → t.mgmt.upd = .idle ∧ t.regN aMgmtUpdStatus % 65536 = stDone ∧
        (∃ e, t.mgmt.ledger.getLast? = some e ∧ e.event = 0x02 ∧ e.slot = s.inactiveSlot)) ∧
      (s.mgmt.upd ≠ .staged → t.regN aMgmtUpdStatus % 65536 = stNotPermitted ∧ t.mgmt = s.mgmt) ∧ SameMemory s t) ∧
  (∀ (req : Req) (s : State), reqIsPf req = true → s.writeServed req aMgmtUpdCtrl = true → s.loadsBusy = false →
    Answers (.activate req) s fun t =>
      (s.mgmt.upd = .staged → s.quiesced = true →
        t.mgmt.upd = .checking ∧ t.mgmt.trialSlot = some s.inactiveSlot ∧ t.mgmt.trialS = s.regN aMgmtUpdCfg % 4096 ∧
        t.restarting = true ∧ t.startDone = false ∧ t.pwr.bootDue = true ∧ (t.regN aMgmtUpdStatus).testBit 31 = true ∧
        t.mgmt.flash = s.mgmt.flash) ∧
      (s.mgmt.upd ≠ .staged ∨ s.quiesced = false →
        t.regN aMgmtUpdStatus % 65536 = stNotPermitted ∧ t.mgmt.upd = s.mgmt.upd ∧ SameMemory s t)) ∧
  (∀ (req : Req) (s : State), reqIsPf req = true → s.writeServed req aMgmtUpdCtrl = true → s.loadsBusy = true →
    s.mgmt.upd ≠ .trial →
    Answers (.activate req) s fun t =>
      t.mgmt = { s.mgmt with waiting := true } ∧ (t.regN aMgmtUpdStatus).testBit 31 = true ∧ SameMemory s t) ∧
  (∀ (req : Req) (count : Byte) (s : State) (b : Bytes), reqIsPf req = true → s.writeServed req aMgmtUpdCtrl = true →
    (s.func 0).bme = true → b = (s.mgmt.ledger.drop (s.mgmt.ledger.length - count.toNat)).flatMap UpdEntry.bytes →
    Answers (.updateLedgerRead req count) s fun t =>
      (count ≠ 0 → Mem.read t.hostMem s.updAddr b.length = b ∧ t.regN aMgmtUpdStatus % 65536 = stDone ∧
        SameMemoryBut s t nowhere nowhere nowhere nowhere (inRange s.updAddr b.length)) ∧
      (count = 0 → t.regN aMgmtUpdStatus % 65536 = stMalformed ∧ SameMemory s t) ∧ t.mgmt = s.mgmt) ∧
  (∀ (s : State) (k : Nat), s.mgmt.upd = .trial → s.mgmt.trialSlot = some k → s.mgmt.defaults = false →
    (∀ mv, Answers (.healthConfirm (some mv)) s fun t =>
      t.power = .off ∧ t.pwr.vinMv = mv.toNat ∧ t.mgmt.upd = .idle ∧ t.mgmt.active = k ∧ t.mgmt.trialSlot = none ∧
      t.mgmt.record = true ∧ t.mgmt.confirmed = (s.mgmt.bundle.map (·.svn)).getD 0 ∧ t.mgmt.counter = s.mgmt.counter ∧
      t.mgmt.ledger = s.mgmt.ledger) ∧
    Answers (.healthConfirm none) s fun t =>
      t.mgmt.upd = .idle ∧ t.mgmt.active = k ∧ t.mgmt.trialSlot = none ∧ t.mgmt.record = true ∧
      t.mgmt.counter = max s.mgmt.counter (min 64 ((s.mgmt.bundle.map (·.svn)).getD 0)) ∧
      (∃ e ∈ t.mgmt.ledger, e.event = 0x06 ∧ e.slot = k ∧ e.seq = s.mgmt.ledgerCount) ∧ SameMemory s t) ∧
  (∀ (s : State),
    (Answers .rejectSelf s fun t =>
      (s.mgmt.upd = .trial → t.mgmt.upd = .fallback ∧ t.mgmt.cause = 0x09 ∧ t.restarting = true ∧ t.startDone = false) ∧
      (s.mgmt.upd ≠ .trial → t = s)) ∧
    (Answers .fallbackTimeout s fun t =>
      (s.mgmt.upd = .trial → t.mgmt.upd = .fallback ∧ t.mgmt.cause = 0x07 ∧ t.restarting = true ∧ t.startDone = false) ∧
      (s.mgmt.upd ≠ .trial → t = s))) ∧
  (∀ (req : Req) (s : State) (c : Instr), reqIsPf req = true → s.writeServed req aMgmtUpdCtrl = true → s.mgmt.upd = .trial →
    c = .stage req ∨ c = .updateDiscard req ∨ c = .activate req →
    Answers c s fun t => t.regN aMgmtUpdStatus % 65536 = stNotPermitted ∧ t.mgmt = s.mgmt ∧ SameMemory s t)
end

