-- ==== Sys2Proof/Laws/Tab.lean ====
section
/-!
SUPPORT. Laws/Tab.lean: the laws of sparse tables and memories: the canonical form is kept, a read after a write
gives what was written, and a write leaves every other key alone.
-/
namespace Sys2Proof.Machine

variable {α : Type} [DecidableEq α] {d : Nat → α}

theorem Tab.wfFrom_mono {lo lo' : Nat} (h : lo' ≤ lo) {t : Tab α} (w : Tab.wfFrom d lo t = true) :
    Tab.wfFrom d lo' t = true := by
  cases t with
  | nil => rfl
  | cons e t =>
    obtain ⟨j, v⟩ := e
    simp only [Tab.wfFrom, Bool.and_eq_true, decide_eq_true_eq] at w ⊢
    exact ⟨⟨Nat.le_trans h w.1.1, w.1.2⟩, w.2⟩

theorem Tab.wfFrom_filter {t : Tab α} {lo : Nat} (p : Nat × α → Bool) (w : Tab.wfFrom d lo t = true) :
    Tab.wfFrom d lo (t.filter p) = true := by
  induction t generalizing lo with
  | nil => rfl
  | cons e t ih =>
    obtain ⟨j, v⟩ := e
    simp only [Tab.wfFrom, Bool.and_eq_true, decide_eq_true_eq] at w
    rw [List.filter_cons]
    split
    · simp only [Tab.wfFrom, Bool.and_eq_true, decide_eq_true_eq]
      exact ⟨w.1, ih w.2⟩
    · exact Tab.wfFrom_mono (by omega) (ih w.2)

theorem Tab.wfFrom_put1 {t : Tab α} {lo k : Nat} {v : α} (hk : lo ≤ k) (hv : v ≠ d k)
    (w : Tab.wfFrom d lo t = true) : Tab.wfFrom d lo (Tab.put1 t k v) = true := by
  induction t generalizing lo with
  | nil => simp [Tab.put1, Tab.wfFrom, hk, hv]
  | cons e t ih =>
    obtain ⟨j, x⟩ := e
    simp only [Tab.wfFrom, Bool.and_eq_true, decide_eq_true_eq] at w
    unfold Tab.put1
    split
    · simp only [Tab.wfFrom, Bool.and_eq_true, decide_eq_true_eq]
      exact ⟨⟨hk, hv⟩, ⟨by omega, w.1.2⟩, w.2⟩
    · split
      · rename_i h1 h2
        subst h2
        simp only [Tab.wfFrom, Bool.and_eq_true, decide_eq_true_eq]
        exact ⟨⟨hk, hv⟩, w.2⟩
      · simp only [Tab.wfFrom, Bool.and_eq_true, decide_eq_true_eq]
        exact ⟨w.1, ih (by omega) w.2⟩

/-- Storing a value keeps the canonical form. -/
theorem Tab.wf_store {t : Tab α} (k : Nat) (v : α) (w : Tab.wf d t = true) : Tab.wf d (Tab.store d t k v) = true := by
  unfold Tab.store
  split
  · exact Tab.wfFrom_filter _ w
  · rename_i h
    exact Tab.wfFrom_put1 (Nat.zero_le k) h w

/-- Leaving entries out keeps the canonical form. -/
theorem Tab.wf_filter {t : Tab α} (p : Nat × α → Bool) (w : Tab.wf d t = true) : Tab.wf d (t.filter p) = true :=
  Tab.wfFrom_filter p w

theorem Tab.wf_without {t : Tab α} (p : Nat → Bool) (w : Tab.wf d t = true) : Tab.wf d (Tab.without p t) = true :=
  Tab.wfFrom_filter _ w

omit [DecidableEq α] in
theorem Tab.look_put1 (t : Tab α) (k a : Nat) (v : α) :
    Tab.look d (Tab.put1 t k v) a = if a = k then v else Tab.look d t a := by
  induction t with
  | nil => rfl
  | cons e t ih =>
    obtain ⟨j, x⟩ := e
    unfold Tab.put1
    split
    · rfl
    · split
      · subst_vars
        rw [Tab.look.eq_2, Tab.look.eq_2]
        split <;> rfl
      · rw [Tab.look.eq_2, Tab.look.eq_2, ih]
        split
        · rw [if_neg (by omega)]
        · rfl

omit [DecidableEq α] in
theorem Tab.look_filter (t : Tab α) (p : Nat → Bool) (a : Nat) :
    Tab.look d (t.filter (fun e => p e.1)) a = if p a then Tab.look d t a else d a := by
  induction t with
  | nil => simp [Tab.look]
  | cons e t ih =>
    obtain ⟨j, v⟩ := e
    rw [List.filter_cons]
    by_cases hp : p j = true
    · rw [if_pos (by exact hp), Tab.look.eq_2, Tab.look.eq_2, ih]
      split
      · subst_vars; rw [if_pos hp]
      · rfl
    · rw [if_neg (by exact hp), ih, Tab.look.eq_2]
      split
      · split
        · subst_vars; contradiction
        · rfl
      · rfl

omit [DecidableEq α] in
theorem Tab.look_drop1 (t : Tab α) (k a : Nat) :
    Tab.look d (Tab.drop1 t k) a = if a = k then d a else Tab.look d t a := by
  have h := Tab.look_filter (d := d) t (fun x => decide (x ≠ k)) a
  unfold Tab.drop1
  rw [h]
  by_cases e : a = k <;> simp [e]

/-- A read after a write gives what was written at its key, and what was there before at every other. -/
theorem Tab.look_store (t : Tab α) (k a : Nat) (v : α) :
    Tab.look d (Tab.store d t k v) a = if a = k then v else Tab.look d t a := by
  unfold Tab.store
  split
  · rename_i h
    rw [Tab.look_drop1]
    split
    · subst_vars; rfl
    · rfl
  · exact Tab.look_put1 t k a v

theorem Tab.look_store_self (t : Tab α) (k : Nat) (v : α) : Tab.look d (Tab.store d t k v) k = v := by
  rw [Tab.look_store, if_pos rfl]

omit [DecidableEq α] in
theorem Tab.look_without (t : Tab α) (p : Nat → Bool) (a : Nat) :
    Tab.look d (Tab.without p t) a = if p a then d a else Tab.look d t a := by
  have h := Tab.look_filter (d := d) t (fun x => !p x) a
  unfold Tab.without
  rw [h]
  cases p a <;> rfl

/-! ### Memories -/

theorem Memory.wf_set {m : Tab Byte} (a : Nat) (b : Byte) (w : Memory.wf m = true) : Memory.wf (Mem.set m a b) = true :=
  Tab.wf_store a b w

theorem Memory.wf_write (bs : Bytes) {m : Tab Byte} (a : Nat) (w : Memory.wf m = true) :
    Memory.wf (Mem.write m a bs) = true := by
  induction bs generalizing m a with
  | nil => exact w
  | cons b bs ih => exact ih (a + 1) (Memory.wf_set a b w)

theorem Memory.wf_zero {m : Tab Byte} (a n : Nat) (w : Memory.wf m = true) : Memory.wf (Mem.zero m a n) = true :=
  Tab.wf_without _ w

theorem Memory.wf_without {m : Tab Byte} (p : Nat → Bool) (w : Memory.wf m = true) :
    Memory.wf (Tab.without p m) = true :=
  Tab.wf_without _ w

theorem Memory.wf_nil : Memory.wf [] = true := rfl

theorem Memory.wf_copy (src : Tab Byte) {m : Tab Byte} (a b n : Nat) (w : Memory.wf m = true) :
    Memory.wf (Mem.copy src a m b n) = true := by
  unfold Mem.copy
  generalize List.filter _ src = l
  have h0 := Memory.wf_zero b n w
  generalize Mem.zero m b n = z at h0
  induction l generalizing z with
  | nil => exact h0
  | cons e l ih => exact ih _ (Memory.wf_set _ _ h0)

theorem Memory.wf_foldl {β : Type} (f : Tab Byte → β → Tab Byte) (l : List β) {m : Tab Byte}
    (h : ∀ m x, Memory.wf m = true → Memory.wf (f m x) = true) (w : Memory.wf m = true) :
    Memory.wf (l.foldl f m) = true := by
  induction l generalizing m with
  | nil => exact w
  | cons x l ih => exact ih (h m x w)

theorem Mem.get_set (m : Tab Byte) (a x : Nat) (b : Byte) :
    Mem.get (Mem.set m a b) x = if x = a then b else Mem.get m x :=
  Tab.look_store m a x b

/-- A byte after a string is written: the string's within it, what it was before outside. -/
theorem Mem.get_write (bs : Bytes) (m : Tab Byte) (a x : Nat) :
    Mem.get (Mem.write m a bs) x =
      if a ≤ x ∧ x < a + bs.length then bs.getD (x - a) 0 else Mem.get m x := by
  induction bs generalizing m a with
  | nil =>
    rw [if_neg (by simp only [List.length_nil]; omega)]
    rfl
  | cons b bs ih =>
    rw [Mem.write, ih, Mem.get_set]
    simp only [List.length_cons]
    by_cases h : a + 1 ≤ x ∧ x < a + 1 + bs.length
    · rw [if_pos h, if_pos (by omega), show x - a = (x - (a + 1)) + 1 by omega, List.getD_cons_succ]
    · rw [if_neg h]
      by_cases h2 : x = a
      · rw [if_pos h2, if_pos (by omega), show x - a = 0 by omega, List.getD_cons_zero]
      · rw [if_neg h2, if_neg (by omega)]

/-- A write of a string leaves every byte outside it alone. -/
theorem Mem.get_write_other (bs : Bytes) (m : Tab Byte) (a x : Nat) (h : x < a ∨ a + bs.length ≤ x) :
    Mem.get (Mem.write m a bs) x = Mem.get m x := by
  rw [Mem.get_write, if_neg (by omega)]

/-- A string read back after it was written is the string. -/
theorem Mem.read_write (bs : Bytes) (m : Tab Byte) (a : Nat) :
    Mem.read (Mem.write m a bs) a bs.length = bs := by
  apply List.ext_getElem
  · simp [Mem.read]
  · intro i h1 h2
    simp only [Mem.read, List.getElem_map, List.getElem_range]
    rw [Mem.get_write, if_pos (by omega), show a + i - a = i by omega]
    simp [List.getD, h2]

/-- Zeroed bytes read 0 and the others are left alone. -/
theorem Mem.get_zero (m : Tab Byte) (a n x : Nat) :
    Mem.get (Mem.zero m a n) x = if a ≤ x ∧ x < a + n then 0 else Mem.get m x := by
  unfold Mem.get Mem.zero
  rw [Tab.look_without]
  by_cases h : a ≤ x ∧ x < a + n
  · rw [if_pos h, if_pos (by simp [h])]; rfl
  · rw [if_neg h, if_neg (by simpa using h)]

theorem Tab.look_absent {β : Type} (l : Tab β) (f : Nat → β) (k : Nat) (h : ∀ e ∈ l, e.1 ≠ k) : Tab.look f l k = f k := by
  induction l with
  | nil => rfl
  | cons e l ih =>
    obtain ⟨j, v⟩ := e
    rw [Tab.look, if_neg (fun c => h (j, v) (List.mem_cons_self ..) c.symm)]
    exact ih (fun e he => h e (List.mem_cons_of_mem _ he))

theorem Tab.look_congr {β : Type} (l : Tab β) (f g : Nat → β) (k : Nat) (h : f k = g k) :
    Tab.look f l k = Tab.look g l k := by
  induction l with
  | nil => exact h
  | cons e l ih =>
    rw [Tab.look, Tab.look, ih]

theorem Tab.wfFrom_key {t : Tab α} {lo : Nat} (w : Tab.wfFrom d lo t = true) : ∀ e ∈ t, lo ≤ e.1 := by
  induction t generalizing lo with
  | nil => intro e h; cases h
  | cons e t ih =>
    obtain ⟨j, v⟩ := e
    simp only [Tab.wfFrom, Bool.and_eq_true, decide_eq_true_eq] at w
    intro e h
    rcases List.mem_cons.1 h with rfl | h
    · exact w.1.1
    · exact Nat.le_trans w.1.1 (Nat.le_of_succ_le (ih w.2 e h))

theorem Mem.get_foldl_set (l : Tab Byte) (m : Tab Byte) (a b x : Nat) {lo : Nat} (ha : a ≤ lo) (hx : b ≤ x)
    (w : Tab.wfFrom Mem.empty lo l = true) :
    Mem.get (l.foldl (fun t e => Mem.set t (e.1 - a + b) e.2) m) x =
      Tab.look (fun _ => Mem.get m x) l (x - b + a) := by
  induction l generalizing m lo with
  | nil => rfl
  | cons e l ih =>
    obtain ⟨j, v⟩ := e
    simp only [Tab.wfFrom, Bool.and_eq_true, decide_eq_true_eq] at w
    rw [List.foldl_cons, ih _ (by omega) w.2, Mem.get_set, Tab.look]
    by_cases h : x - b + a = j
    · rw [if_pos h, if_pos (by omega)]
      refine Tab.look_absent l _ _ (fun e he c => ?_)
      have := Tab.wfFrom_key w.2 e he
      omega
    · rw [if_neg h, if_neg (by omega)]

/-- A byte after a range of one memory is copied to a range of another. -/
theorem Mem.get_copy (src m : Tab Byte) (a b n x : Nat) (w : Memory.wf src = true) :
    Mem.get (Mem.copy src a m b n) x = if b ≤ x ∧ x < b + n then Mem.get src (x - b + a) else Mem.get m x := by
  have wf : Tab.wfFrom Mem.empty 0 (src.filter (fun e => decide (a ≤ e.1) && decide (e.1 < a + n))) = true :=
    Tab.wfFrom_filter _ w
  have wfa : Tab.wfFrom Mem.empty a (src.filter (fun e => decide (a ≤ e.1) && decide (e.1 < a + n))) = true := by
    have hk : ∀ e ∈ src.filter (fun e => decide (a ≤ e.1) && decide (e.1 < a + n)), a ≤ e.1 := by
      intro e he
      have := (List.mem_filter.1 he).2
      simp only [Bool.and_eq_true, decide_eq_true_eq] at this
      exact this.1
    revert wf hk
    generalize src.filter (fun e => decide (a ≤ e.1) && decide (e.1 < a + n)) = l
    intro wf hk
    cases l with
    | nil => rfl
    | cons e l =>
      obtain ⟨j, v⟩ := e
      simp only [Tab.wfFrom, Bool.and_eq_true, decide_eq_true_eq] at wf ⊢
      exact ⟨⟨hk (j, v) (List.mem_cons_self ..), wf.1.2⟩, wf.2⟩
  unfold Mem.copy
  by_cases hb : b ≤ x
  · rw [Mem.get_foldl_set _ _ a b x (Nat.le_refl a) hb wfa]
    have hl := Tab.look_filter (d := fun _ => Mem.get (Mem.zero m b n) x) src
      (fun k => decide (a ≤ k) && decide (k < a + n)) (x - b + a)
    refine Eq.trans hl ?_
    by_cases h : b ≤ x ∧ x < b + n
    · rw [if_pos h, if_pos (by simp only [Bool.and_eq_true, decide_eq_true_eq]; omega)]
      refine Tab.look_congr src _ _ _ ?_
      rw [Mem.get_zero, if_pos h]
      rfl
    · rw [if_neg h, if_neg (by simp only [Bool.and_eq_true, decide_eq_true_eq]; omega), Mem.get_zero, if_neg h]
  · rw [if_neg (fun h => hb h.1)]
    have key : ∀ (l : Tab Byte) (z : Tab Byte), Mem.get (l.foldl (fun t e => Mem.set t (e.1 - a + b) e.2) z) x = Mem.get z x := by
      intro l
      induction l with
      | nil => intro z; rfl
      | cons e l ih =>
        intro z
        rw [List.foldl_cons, ih, Mem.get_set, if_neg (by omega)]
    rw [key, Mem.get_zero, if_neg (fun h => hb h.1)]

end Sys2Proof.Machine
end

