-- ==== Sys2Proof/Laws/Kept.lean ====
section
/-!
SUPPORT. Laws/Kept.lean: what almost every operation keeps of a state: the commands that wait, the size of an LPDDR5X
stack, the life-cycle state and the fuses, the anti-rollback counter from below, and the invariant of Safety.lean.
The files Laws/Kept*.lean say it once of each operation.
-/
namespace Sys2Proof.Machine

/-- The parts of a state that these laws follow. -/
structure Traced where
  pending : List Instr
  stackGib : Nat
  lc : Lc
  fuseSweep : Bool
  uds : Option (BitVec 256)
  counter : Nat
  hostMem : Tab Byte
  scratch : Tab Byte
  slots : Tab Byte
  hoard : Tab Byte
  lpddr : Tab Byte
  flash : Tab Byte
  regs : Tab W32
  errs : List ErrEntry
  tamperLog : List TamperEntry

/-- Those parts: a change of any other field leaves them the same by definition. -/
def State.traced (s : State) : Traced :=
  { pending := s.pending, stackGib := s.stackGib, lc := s.sbox.lc, fuseSweep := s.sbox.fuseSweep, uds := s.sbox.uds
    counter := s.mgmt.counter, hostMem := s.hostMem, scratch := s.scratch, slots := s.slots, hoard := s.folio.hoard
    lpddr := s.folio.lpddr, flash := s.mgmt.flash, regs := s.regs, errs := s.errs, tamperLog := s.sbox.tamperLog }

/-- The invariant of Safety.lean, said of those parts. -/
structure Traced.Formed (x : Traced) : Prop where
  hostMem : Memory.wf x.hostMem = true
  scratch : Memory.wf x.scratch = true
  slots : Memory.wf x.slots = true
  hoard : Memory.wf x.hoard = true
  lpddr : Memory.wf x.lpddr = true
  flash : Memory.wf x.flash = true
  regs : Tab.wf regReset x.regs = true
  errs : x.errs.length ≤ 4096
  tamperLog : x.tamperLog.length ≤ 64

/-- What a command that starts from parts `x` and reaches parts `y` keeps. -/
structure Traced.Keeps (x y : Traced) : Prop where
  pending : y.pending = x.pending
  stackGib : y.stackGib = x.stackGib
  lc : y.lc = x.lc
  fuseSweep : y.fuseSweep = x.fuseSweep
  uds : y.uds = x.uds
  counter : x.counter ≤ y.counter
  formed : x.Formed → y.Formed

theorem State.formed_of_inv {s : State} (i : Inv s) : s.traced.Formed where
  hostMem := i.hostMem
  scratch := i.scratch
  slots := i.slots
  hoard := i.hoard
  lpddr := i.lpddr
  flash := i.flash
  regs := i.regs
  errs := i.errs
  tamperLog := i.tamperLog

theorem State.inv_of_formed {s : State} (x : s.traced.Formed) : Inv s where
  hostMem := x.hostMem
  scratch := x.scratch
  slots := x.slots
  hoard := x.hoard
  lpddr := x.lpddr
  flash := x.flash
  regs := x.regs
  errs := x.errs
  tamperLog := x.tamperLog

/-- What a command reaches from `s0` keeps of it. -/
def Kept (s0 s : State) : Prop := s0.traced.Keeps s.traced

theorem Kept.inv {s0 s : State} (h : Kept s0 s) (i : Inv s0) : Inv s :=
  State.inv_of_formed (Traced.Keeps.formed h (State.formed_of_inv i))

theorem Kept.pending {s0 s : State} (h : Kept s0 s) : s.pending = s0.pending := Traced.Keeps.pending h

variable {s0 s t : State}

theorem Kept.refl (s : State) : Kept s s where
  pending := rfl
  stackGib := rfl
  lc := rfl
  fuseSweep := rfl
  uds := rfl
  counter := Nat.le_refl _
  formed := id

theorem Kept.trans {a b c : State} (h : Kept a b) (k : Kept b c) : Kept a c where
  pending := (Traced.Keeps.pending k).trans (Traced.Keeps.pending h)
  stackGib := (Traced.Keeps.stackGib k).trans (Traced.Keeps.stackGib h)
  lc := (Traced.Keeps.lc k).trans (Traced.Keeps.lc h)
  fuseSweep := (Traced.Keeps.fuseSweep k).trans (Traced.Keeps.fuseSweep h)
  uds := (Traced.Keeps.uds k).trans (Traced.Keeps.uds h)
  counter := Nat.le_trans (Traced.Keeps.counter h) (Traced.Keeps.counter k)
  formed := Traced.Keeps.formed k ∘ Traced.Keeps.formed h

theorem Kept.ite {p : Prop} [Decidable p] (h : Kept s0 s) (k : Kept s0 t) : Kept s0 (if p then s else t) := by
  split <;> assumption

theorem Kept.foldl {β : Type} (f : State → β → State) (l : List β) (h : Kept s0 s)
    (k : ∀ t x, Kept s0 t → Kept s0 (f t x)) : Kept s0 (l.foldl f s) := by
  induction l generalizing s with
  | nil => exact h
  | cons x l ih => exact ih (k s x h)

/-- The same with more than a state carried along. -/
theorem Kept.foldl_fst {β γ : Type} (f : State × γ → β → State × γ) (l : List β) (x : State × γ) (h : Kept s0 x.1)
    (k : ∀ t x, Kept s0 t.1 → Kept s0 (f t x).1) : Kept s0 (l.foldl f x).1 := by
  induction l generalizing x with
  | nil => exact h
  | cons y l ih => exact ih _ (k x y h)

theorem Kept.foldl_snd {β γ : Type} (f : γ × State → β → γ × State) (l : List β) (x : γ × State) (h : Kept s0 x.2)
    (k : ∀ t x, Kept s0 t.2 → Kept s0 (f t x).2) : Kept s0 (l.foldl f x).2 := by
  induction l generalizing x with
  | nil => exact h
  | cons y l ih => exact ih _ (k x y h)

theorem Kept.of_fst {β : Type} {x : State × β} {b : β} (e : x = (t, b)) (h : Kept s0 x.1) : Kept s0 t := by
  subst e; exact h

theorem Kept.of_snd {β : Type} {x : β × State} {b : β} (e : x = (b, t)) (h : Kept s0 x.2) : Kept s0 t := by
  subst e; exact h

theorem Kept.fst_ite {β : Type} {p : Prop} [Decidable p] {x y : State × β} (h : Kept s0 x.1) (k : Kept s0 y.1) :
    Kept s0 (if p then x else y).1 := by
  split <;> assumption

theorem Kept.snd_ite {β : Type} {p : Prop} [Decidable p] {x y : β × State} (h : Kept s0 x.2) (k : Kept s0 y.2) :
    Kept s0 (if p then x else y).2 := by
  split <;> assumption

/-- A changed state keeps what is asked where its traced parts do. -/
theorem Kept.of (h : Kept s0 s) (k : s.traced.Keeps t.traced) : Kept s0 t := h.trans k

/-- A change of the memories, the register file and the ledgers alone, which keeps their forms. -/
theorem Kept.ofFormed (h : Kept s0 s) (h1 : t.pending = s.pending) (h2 : t.stackGib = s.stackGib) (h3 : t.sbox = s.sbox)
    (h4 : t.mgmt.counter = s.mgmt.counter) (k : s.traced.Formed → t.traced.Formed) : Kept s0 t :=
  h.of
    { pending := h1, stackGib := h2, lc := congrArg Sbox.lc h3, fuseSweep := congrArg Sbox.fuseSweep h3
      uds := congrArg Sbox.uds h3, counter := Nat.le_of_eq h4.symm, formed := k }

/-- A change of fields that are not followed. -/
theorem Kept.lit (h : Kept s0 s)
    {cycles : Nat} {ft : FtSt} {power : Power} {pwr : PwrSt} {startDone : Bool} {tamperHold : Bool}
    {recoveryMode : Bool} {restarting : Bool} {configReady : Bool} {latches : Tab W32} {hwSet : HwSet}
    {pendLo : Tab (Option W32)} {numVfs : Nat} {funcs : Tab Func} {rings : Tab RingSt} {fetchTurn : Nat}
    {parts : Tab PartSt} {ops : List Op} {recs : List PendRec} {ide : Tab Bool} {ideKeys : Tab Nat}
    {msix : Tab W32} {pba : Tab Bool} {msixHeld : List (Nat × Nat)} {dev : Option DevCharter}
    {load : Option Load} {removal : Option Removal} {cores : Tab Core} {retired : Nat} {sliceFailed : Nat}
    {polyFailed : Nat} {tally : TallySt} {poly : Tab (Option PolySlot)} {limbBufs : Tab Nat} {links : Tab Link}
    {ports : Tab Port} {rng : Rng} {jtagIns : Nat} {eids : Tab Nat} {out : List Out} {fresh : Nat} :
    Kept s0 { s with
      cycles := cycles, ft := ft, power := power, pwr := pwr, startDone := startDone, tamperHold := tamperHold,
      recoveryMode := recoveryMode, restarting := restarting, configReady := configReady, latches := latches,
      hwSet := hwSet, pendLo := pendLo, numVfs := numVfs, funcs := funcs, rings := rings,
      fetchTurn := fetchTurn, parts := parts, ops := ops, recs := recs, ide := ide, ideKeys := ideKeys,
      msix := msix, pba := pba, msixHeld := msixHeld, dev := dev, load := load, removal := removal,
      cores := cores, retired := retired, sliceFailed := sliceFailed, polyFailed := polyFailed, tally := tally,
      poly := poly, limbBufs := limbBufs, links := links, ports := ports, rng := rng, jtagIns := jtagIns,
      eids := eids, out := out, fresh := fresh } := h

/-- The same with a change of `hostMem` that keeps its form. -/
theorem Kept.lit_hostMem (h : Kept s0 s)
    {cycles : Nat} {ft : FtSt} {power : Power} {pwr : PwrSt} {startDone : Bool} {tamperHold : Bool}
    {recoveryMode : Bool} {restarting : Bool} {configReady : Bool} {latches : Tab W32} {hwSet : HwSet}
    {pendLo : Tab (Option W32)} {numVfs : Nat} {funcs : Tab Func} {rings : Tab RingSt} {fetchTurn : Nat}
    {parts : Tab PartSt} {ops : List Op} {recs : List PendRec} {ide : Tab Bool} {ideKeys : Tab Nat}
    {msix : Tab W32} {pba : Tab Bool} {msixHeld : List (Nat × Nat)} {dev : Option DevCharter}
    {load : Option Load} {removal : Option Removal} {cores : Tab Core} {retired : Nat} {sliceFailed : Nat}
    {polyFailed : Nat} {tally : TallySt} {poly : Tab (Option PolySlot)} {limbBufs : Tab Nat} {links : Tab Link}
    {ports : Tab Port} {rng : Rng} {jtagIns : Nat} {eids : Tab Nat} {out : List Out} {fresh : Nat}
    {m : Tab Byte} (w : Memory.wf s.hostMem = true → Memory.wf m = true) :
    Kept s0 { s with
      hostMem := m,
      cycles := cycles, ft := ft, power := power, pwr := pwr, startDone := startDone, tamperHold := tamperHold,
      recoveryMode := recoveryMode, restarting := restarting, configReady := configReady, latches := latches,
      hwSet := hwSet, pendLo := pendLo, numVfs := numVfs, funcs := funcs, rings := rings,
      fetchTurn := fetchTurn, parts := parts, ops := ops, recs := recs, ide := ide, ideKeys := ideKeys,
      msix := msix, pba := pba, msixHeld := msixHeld, dev := dev, load := load, removal := removal,
      cores := cores, retired := retired, sliceFailed := sliceFailed, polyFailed := polyFailed, tally := tally,
      poly := poly, limbBufs := limbBufs, links := links, ports := ports, rng := rng, jtagIns := jtagIns,
      eids := eids, out := out, fresh := fresh } :=
  h.ofFormed rfl rfl rfl rfl fun x => { x with hostMem := w x.hostMem }

/-- The same with a change of `scratch` that keeps its form. -/
theorem Kept.lit_scratch (h : Kept s0 s)
    {cycles : Nat} {ft : FtSt} {power : Power} {pwr : PwrSt} {startDone : Bool} {tamperHold : Bool}
    {recoveryMode : Bool} {restarting : Bool} {configReady : Bool} {latches : Tab W32} {hwSet : HwSet}
    {pendLo : Tab (Option W32)} {numVfs : Nat} {funcs : Tab Func} {rings : Tab RingSt} {fetchTurn : Nat}
    {parts : Tab PartSt} {ops : List Op} {recs : List PendRec} {ide : Tab Bool} {ideKeys : Tab Nat}
    {msix : Tab W32} {pba : Tab Bool} {msixHeld : List (Nat × Nat)} {dev : Option DevCharter}
    {load : Option Load} {removal : Option Removal} {cores : Tab Core} {retired : Nat} {sliceFailed : Nat}
    {polyFailed : Nat} {tally : TallySt} {poly : Tab (Option PolySlot)} {limbBufs : Tab Nat} {links : Tab Link}
    {ports : Tab Port} {rng : Rng} {jtagIns : Nat} {eids : Tab Nat} {out : List Out} {fresh : Nat}
    {m : Tab Byte} (w : Memory.wf s.scratch = true → Memory.wf m = true) :
    Kept s0 { s with
      scratch := m,
      cycles := cycles, ft := ft, power := power, pwr := pwr, startDone := startDone, tamperHold := tamperHold,
      recoveryMode := recoveryMode, restarting := restarting, configReady := configReady, latches := latches,
      hwSet := hwSet, pendLo := pendLo, numVfs := numVfs, funcs := funcs, rings := rings,
      fetchTurn := fetchTurn, parts := parts, ops := ops, recs := recs, ide := ide, ideKeys := ideKeys,
      msix := msix, pba := pba, msixHeld := msixHeld, dev := dev, load := load, removal := removal,
      cores := cores, retired := retired, sliceFailed := sliceFailed, polyFailed := polyFailed, tally := tally,
      poly := poly, limbBufs := limbBufs, links := links, ports := ports, rng := rng, jtagIns := jtagIns,
      eids := eids, out := out, fresh := fresh } :=
  h.ofFormed rfl rfl rfl rfl fun x => { x with scratch := w x.scratch }

/-- The same with a change of `slots` that keeps its form. -/
theorem Kept.lit_slots (h : Kept s0 s)
    {cycles : Nat} {ft : FtSt} {power : Power} {pwr : PwrSt} {startDone : Bool} {tamperHold : Bool}
    {recoveryMode : Bool} {restarting : Bool} {configReady : Bool} {latches : Tab W32} {hwSet : HwSet}
    {pendLo : Tab (Option W32)} {numVfs : Nat} {funcs : Tab Func} {rings : Tab RingSt} {fetchTurn : Nat}
    {parts : Tab PartSt} {ops : List Op} {recs : List PendRec} {ide : Tab Bool} {ideKeys : Tab Nat}
    {msix : Tab W32} {pba : Tab Bool} {msixHeld : List (Nat × Nat)} {dev : Option DevCharter}
    {load : Option Load} {removal : Option Removal} {cores : Tab Core} {retired : Nat} {sliceFailed : Nat}
    {polyFailed : Nat} {tally : TallySt} {poly : Tab (Option PolySlot)} {limbBufs : Tab Nat} {links : Tab Link}
    {ports : Tab Port} {rng : Rng} {jtagIns : Nat} {eids : Tab Nat} {out : List Out} {fresh : Nat}
    {m : Tab Byte} (w : Memory.wf s.slots = true → Memory.wf m = true) :
    Kept s0 { s with
      slots := m,
      cycles := cycles, ft := ft, power := power, pwr := pwr, startDone := startDone, tamperHold := tamperHold,
      recoveryMode := recoveryMode, restarting := restarting, configReady := configReady, latches := latches,
      hwSet := hwSet, pendLo := pendLo, numVfs := numVfs, funcs := funcs, rings := rings,
      fetchTurn := fetchTurn, parts := parts, ops := ops, recs := recs, ide := ide, ideKeys := ideKeys,
      msix := msix, pba := pba, msixHeld := msixHeld, dev := dev, load := load, removal := removal,
      cores := cores, retired := retired, sliceFailed := sliceFailed, polyFailed := polyFailed, tally := tally,
      poly := poly, limbBufs := limbBufs, links := links, ports := ports, rng := rng, jtagIns := jtagIns,
      eids := eids, out := out, fresh := fresh } :=
  h.ofFormed rfl rfl rfl rfl fun x => { x with slots := w x.slots }

/-- The same with a change of `regs` that keeps its form. -/
theorem Kept.lit_regs (h : Kept s0 s)
    {cycles : Nat} {ft : FtSt} {power : Power} {pwr : PwrSt} {startDone : Bool} {tamperHold : Bool}
    {recoveryMode : Bool} {restarting : Bool} {configReady : Bool} {latches : Tab W32} {hwSet : HwSet}
    {pendLo : Tab (Option W32)} {numVfs : Nat} {funcs : Tab Func} {rings : Tab RingSt} {fetchTurn : Nat}
    {parts : Tab PartSt} {ops : List Op} {recs : List PendRec} {ide : Tab Bool} {ideKeys : Tab Nat}
    {msix : Tab W32} {pba : Tab Bool} {msixHeld : List (Nat × Nat)} {dev : Option DevCharter}
    {load : Option Load} {removal : Option Removal} {cores : Tab Core} {retired : Nat} {sliceFailed : Nat}
    {polyFailed : Nat} {tally : TallySt} {poly : Tab (Option PolySlot)} {limbBufs : Tab Nat} {links : Tab Link}
    {ports : Tab Port} {rng : Rng} {jtagIns : Nat} {eids : Tab Nat} {out : List Out} {fresh : Nat}
    {m : Tab W32} (w : Tab.wf regReset s.regs = true → Tab.wf regReset m = true) :
    Kept s0 { s with
      regs := m,
      cycles := cycles, ft := ft, power := power, pwr := pwr, startDone := startDone, tamperHold := tamperHold,
      recoveryMode := recoveryMode, restarting := restarting, configReady := configReady, latches := latches,
      hwSet := hwSet, pendLo := pendLo, numVfs := numVfs, funcs := funcs, rings := rings,
      fetchTurn := fetchTurn, parts := parts, ops := ops, recs := recs, ide := ide, ideKeys := ideKeys,
      msix := msix, pba := pba, msixHeld := msixHeld, dev := dev, load := load, removal := removal,
      cores := cores, retired := retired, sliceFailed := sliceFailed, polyFailed := polyFailed, tally := tally,
      poly := poly, limbBufs := limbBufs, links := links, ports := ports, rng := rng, jtagIns := jtagIns,
      eids := eids, out := out, fresh := fresh } :=
  h.ofFormed rfl rfl rfl rfl fun x => { x with regs := w x.regs }

theorem Kept.regs (h : Kept s0 s) {m : Tab W32} (w : Tab.wf regReset s.regs = true → Tab.wf regReset m = true) :
    Kept s0 { s with regs := m } := h.ofFormed rfl rfl rfl rfl fun x => { x with regs := w x.regs }

theorem Kept.hostMem (h : Kept s0 s) {m : Tab Byte} (w : Memory.wf s.hostMem = true → Memory.wf m = true) :
    Kept s0 { s with hostMem := m } := h.ofFormed rfl rfl rfl rfl fun x => { x with hostMem := w x.hostMem }

theorem Kept.scratch (h : Kept s0 s) {m : Tab Byte} (w : Memory.wf s.scratch = true → Memory.wf m = true) :
    Kept s0 { s with scratch := m } := h.ofFormed rfl rfl rfl rfl fun x => { x with scratch := w x.scratch }

theorem Kept.slots (h : Kept s0 s) {m : Tab Byte} (w : Memory.wf s.slots = true → Memory.wf m = true) :
    Kept s0 { s with slots := m } := h.ofFormed rfl rfl rfl rfl fun x => { x with slots := w x.slots }

theorem State.modFolio_kept (g : FolioSt → FolioSt) (h : Kept s0 s)
    (w1 : ∀ f : FolioSt, Memory.wf f.hoard = true → Memory.wf (g f).hoard = true)
    (w2 : ∀ f : FolioSt, Memory.wf f.lpddr = true → Memory.wf (g f).lpddr = true) : Kept s0 (s.modFolio g) :=
  h.ofFormed rfl rfl rfl rfl fun x => { x with hoard := w1 _ x.hoard, lpddr := w2 _ x.lpddr }

theorem State.modSbox_kept (g : Sbox → Sbox) (h : Kept s0 s) (h3 : ∀ b : Sbox, (g b).lc = b.lc)
    (h4 : ∀ b : Sbox, (g b).fuseSweep = b.fuseSweep) (h5 : ∀ b : Sbox, (g b).uds = b.uds)
    (w : ∀ b : Sbox, b.tamperLog.length ≤ 64 → (g b).tamperLog.length ≤ 64) : Kept s0 (s.modSbox g) :=
  h.of { Kept.refl s with
    lc := h3 _, fuseSweep := h4 _, uds := h5 _, formed := fun x => { x with tamperLog := w _ x.tamperLog } }

theorem State.modMgmt_kept (g : MgmtSt → MgmtSt) (h : Kept s0 s) (h6 : ∀ m : MgmtSt, m.counter ≤ (g m).counter)
    (w : ∀ m : MgmtSt, Memory.wf m.flash = true → Memory.wf (g m).flash = true) : Kept s0 (s.modMgmt g) :=
  h.of { Kept.refl s with counter := h6 _, formed := fun x => { x with flash := w _ x.flash } }

end Sys2Proof.Machine
end

