-- ==== Sys2Proof/Laws/KeptOps.lean ====
section
/-!
SUPPORT. Laws/KeptOps.lean: what the operations of Machine/Ops.lean keep of a state (Laws/Kept.lean).
-/
namespace Sys2Proof.Machine

theorem State.setPart_kept {s0 : State} {s : State} (p : Nat) (x : PartSt) (hkept : Kept s0 s) :
    Kept s0 (State.setPart s p x) := by
  unfold State.setPart
  repeat' first
    | with_reducible exact hkept | with_reducible assumption | intro _ _ _ | intro _ _ | intro _ | dsimp only
    | with_reducible exact Kept.lit (by with_reducible assumption) | exact hkept | assumption

theorem State.modPart_kept {s0 : State} {s : State} (p : Nat) (f : PartSt → PartSt) (hkept : Kept s0 s) :
    Kept s0 (State.modPart s p f) := by
  unfold State.modPart
  repeat' first
    | with_reducible exact hkept | with_reducible assumption | with_reducible apply State.setPart_kept
    | dsimp only | exact hkept | assumption

theorem State.modFunc_kept {s0 : State} {s : State} (f : Nat) (g : Func → Func) (hkept : Kept s0 s) :
    Kept s0 (State.modFunc s f g) := by
  unfold State.modFunc
  repeat' first
    | with_reducible exact hkept | with_reducible assumption | intro _ _ _ | intro _ _ | intro _ | dsimp only
    | with_reducible exact Kept.lit (by with_reducible assumption) | exact hkept | assumption

theorem State.modRing_kept {s0 : State} {s : State} (f r : Nat) (g : RingSt → RingSt) (hkept : Kept s0 s) :
    Kept s0 (State.modRing s f r g) := by
  unfold State.modRing
  repeat' first
    | with_reducible exact hkept | with_reducible assumption | intro _ _ _ | intro _ _ | intro _ | dsimp only
    | with_reducible exact Kept.lit (by with_reducible assumption) | exact hkept | assumption

theorem State.modCore_kept {s0 : State} {s : State} (i : Nat) (g : Core → Core) (hkept : Kept s0 s) :
    Kept s0 (State.modCore s i g) := by
  unfold State.modCore
  repeat' first
    | with_reducible exact hkept | with_reducible assumption | dsimp only
    | with_reducible exact Kept.lit (by with_reducible assumption) | exact hkept | assumption

theorem State.setReg_kept {s0 s : State} (off : Nat) (v : W32) (h : Kept s0 s) : Kept s0 (s.setReg off v) :=
  h.regs fun w => Tab.wf_store off v w

theorem State.setRegN_kept {s0 : State} {s : State} (off v : Nat) (hkept : Kept s0 s) :
    Kept s0 (State.setRegN s off v) := by
  unfold State.setRegN
  repeat' first
    | with_reducible exact hkept | with_reducible assumption | with_reducible apply State.setReg_kept
    | dsimp only | exact hkept | assumption

theorem State.setPair_kept {s0 : State} {s : State} (lo v : Nat) (hkept : Kept s0 s) :
    Kept s0 (State.setPair s lo v) := by
  unfold State.setPair
  repeat' first
    | with_reducible exact hkept | with_reducible assumption | with_reducible apply State.setRegN_kept
    | dsimp only | exact hkept | assumption

theorem State.countUp_kept {s0 : State} {s : State} (off n : Nat) (hkept : Kept s0 s) :
    Kept s0 (State.countUp s off n) := by
  unfold State.countUp
  repeat' first
    | with_reducible exact hkept | with_reducible assumption | with_reducible apply State.setRegN_kept
    | with_reducible apply Kept.ite | split | dsimp only | exact hkept | assumption

theorem State.emit_kept {s0 : State} {s : State} (o : Out) (hkept : Kept s0 s) :
    Kept s0 (State.emit s o) := by
  unfold State.emit
  repeat' first
    | with_reducible exact hkept | with_reducible assumption | dsimp only
    | with_reducible exact Kept.lit (by with_reducible assumption) | exact hkept | assumption

theorem State.prof_kept {s0 : State} {s : State} (k p ev n : Nat) (hkept : Kept s0 s) :
    Kept s0 (State.prof s k p ev n) := by
  unfold State.prof
  repeat' first
    | with_reducible exact hkept | with_reducible assumption
    | (extract_lets +onlyGivenNames y'; refine (fun (_ : Kept s0 y') => ?_) ?_; clear_value y'; revert y'; intro _ _; rotate_left; dsimp only [y']; clear y'; rotate_left)
    | (extract_lets +onlyGivenNames y'; clear_value y'; revert y'; intro _)
    | with_reducible apply State.setPair_kept | with_reducible apply Kept.ite | with_reducible apply Kept.foldl
    | with_reducible apply Kept.foldl_fst | with_reducible apply Kept.foldl_snd | intro _ _ _ | intro _ _
    | intro _ | split | dsimp only | exact hkept | assumption

theorem State.free_kept {s0 : State} {s : State} (hkept : Kept s0 s) :
    Kept s0 (State.free s).2 := by
  unfold State.free
  repeat' first
    | with_reducible exact hkept | with_reducible assumption | dsimp only
    | with_reducible exact Kept.lit (by with_reducible assumption) | exact hkept | assumption

theorem State.profOpen_kept {s0 : State} {s : State} (k p ev : Nat) (hkept : Kept s0 s) :
    Kept s0 (State.profOpen s k p ev) := by
  unfold State.profOpen
  repeat' first
    | with_reducible exact hkept | with_reducible assumption
    | (extract_lets +onlyGivenNames y'; refine (fun (_ : Kept s0 y') => ?_) ?_; clear_value y'; revert y'; intro _ _; rotate_left; dsimp only [y']; clear y'; rotate_left)
    | (extract_lets +onlyGivenNames y'; refine (fun (_ : Kept s0 y'.2) => ?_) ?_; clear_value y'; revert y'; intro _ _; rotate_left; dsimp only [y']; clear y'; rotate_left)
    | (extract_lets +onlyGivenNames y'; clear_value y'; revert y'; intro _)
    | with_reducible apply State.prof_kept
    | with_reducible apply State.free_kept
    | with_reducible apply Kept.ite | with_reducible apply Kept.foldl | with_reducible apply Kept.foldl_fst
    | with_reducible apply Kept.foldl_snd | intro _ _ _ | intro _ _ | intro _ | split | dsimp only
    | exact hkept | assumption

theorem State.freeBytes_kept {s0 : State} (a0 : Nat) {a1 : State} (hkept : Kept s0 a1) :
    Kept s0 (State.freeBytes a0 a1).2 := by
  induction a0 generalizing a1 with
  | zero =>
    unfold State.freeBytes
    repeat' first
      | with_reducible exact hkept | with_reducible assumption
      | (extract_lets +onlyGivenNames y'; refine (fun (_ : Kept s0 y') => ?_) ?_; clear_value y'; revert y'; intro _ _; rotate_left; dsimp only [y']; clear y'; rotate_left)
      | (extract_lets +onlyGivenNames y'; refine (fun (_ : Kept s0 y'.2) => ?_) ?_; clear_value y'; revert y'; intro _ _; rotate_left; dsimp only [y']; clear y'; rotate_left)
      | (extract_lets +onlyGivenNames y'; clear_value y'; revert y'; intro _)
      | with_reducible apply State.free_kept | with_reducible apply Kept.of_snd (by with_reducible assumption)
      | split | dsimp only | exact hkept | assumption
  | succ k ih =>
    unfold State.freeBytes
    repeat' first
      | with_reducible exact hkept | with_reducible assumption | with_reducible apply ih
      | (extract_lets +onlyGivenNames y'; refine (fun (_ : Kept s0 y') => ?_) ?_; clear_value y'; revert y'; intro _ _; rotate_left; dsimp only [y']; clear y'; rotate_left)
      | (extract_lets +onlyGivenNames y'; refine (fun (_ : Kept s0 y'.2) => ?_) ?_; clear_value y'; revert y'; intro _ _; rotate_left; dsimp only [y']; clear y'; rotate_left)
      | (extract_lets +onlyGivenNames y'; clear_value y'; revert y'; intro _)
      | with_reducible apply State.free_kept | with_reducible apply Kept.of_snd (by with_reducible assumption)
      | split | dsimp only | exact hkept | assumption

theorem State.atInstant_kept {s0 : State} {s : State} (sub : Nat) (g : State → State) (hkept : Kept s0 s) (hg : ∀ x0, Kept s0 x0 → Kept s0 (g x0)) :
    Kept s0 (State.atInstant s sub g) := by
  unfold State.atInstant
  repeat' first
    | with_reducible exact hkept | with_reducible assumption | with_reducible apply hg
    | (extract_lets +onlyGivenNames y'; refine (fun (_ : Kept s0 y') => ?_) ?_; clear_value y'; revert y'; intro _ _; rotate_left; dsimp only [y']; clear y'; rotate_left)
    | (extract_lets +onlyGivenNames y'; clear_value y'; revert y'; intro _) | intro _ _ _ | intro _ _ | intro _
    | dsimp only | with_reducible exact Kept.lit (by with_reducible assumption) | exact hkept | assumption

theorem State.advance_kept {s0 : State} {s : State} (n : Nat) (hkept : Kept s0 s) :
    Kept s0 (State.advance s n) := by
  unfold State.advance
  repeat' first
    | with_reducible exact hkept | with_reducible assumption | dsimp only
    | with_reducible exact Kept.lit (by with_reducible assumption) | exact hkept | assumption

theorem State.advanceTo_kept {s0 : State} {s : State} (t : Nat) (hkept : Kept s0 s) :
    Kept s0 (State.advanceTo s t) := by
  unfold State.advanceTo
  repeat' first
    | with_reducible exact hkept | with_reducible assumption | with_reducible apply State.advance_kept
    | dsimp only | exact hkept | assumption

theorem State.advanceToCycle_kept {s0 : State} {s : State} (c : Nat) (hkept : Kept s0 s) :
    Kept s0 (State.advanceToCycle s c) := by
  unfold State.advanceToCycle
  repeat' first
    | with_reducible exact hkept | with_reducible assumption | with_reducible apply State.advance_kept
    | dsimp only | exact hkept | assumption

theorem State.tick_kept {s0 : State} {s : State} (hkept : Kept s0 s) :
    Kept s0 (State.tick s) := by
  unfold State.tick
  repeat' first
    | with_reducible exact hkept | with_reducible assumption | with_reducible apply State.advance_kept
    | with_reducible apply Kept.ite | split | dsimp only | exact hkept | assumption

theorem State.sendMsix_kept {s0 : State} {s : State} (f v : Nat) (hkept : Kept s0 s) :
    Kept s0 (State.sendMsix s f v) := by
  unfold State.sendMsix
  repeat' first
    | with_reducible exact hkept | with_reducible assumption | with_reducible apply State.emit_kept
    | with_reducible apply Kept.ite | intro _ _ _ | intro _ _ | intro _ | split | dsimp only
    | with_reducible exact Kept.lit (by with_reducible assumption) | exact hkept | assumption
    | (with_reducible apply Kept.lit
       (first | with_reducible assumption | with_reducible apply State.emit_kept))

theorem State.raise_kept {s0 : State} {s : State} (ev : Nat) (hkept : Kept s0 s) :
    Kept s0 (State.raise s ev) := by
  unfold State.raise
  repeat' first
    | with_reducible exact hkept | with_reducible assumption | with_reducible apply State.sendMsix_kept
    | dsimp only | exact hkept | assumption

theorem State.setBitsHw_kept {s0 : State} {s : State} (off mask : Nat) (hkept : Kept s0 s) :
    Kept s0 (State.setBitsHw s off mask) := by
  unfold State.setBitsHw
  repeat' first
    | with_reducible exact hkept | with_reducible assumption
    | (extract_lets +onlyGivenNames y'; refine (fun (_ : Kept s0 y') => ?_) ?_; clear_value y'; revert y'; intro _ _; rotate_left; dsimp only [y']; clear y'; rotate_left)
    | (extract_lets +onlyGivenNames y'; clear_value y'; revert y'; intro _)
    | with_reducible apply State.setRegN_kept | with_reducible apply Kept.ite | intro _ _ _ | intro _ _
    | intro _ | split | dsimp only | with_reducible exact Kept.lit (by with_reducible assumption) | exact hkept
    | assumption
    | (with_reducible apply Kept.lit
       (first | with_reducible assumption | with_reducible apply State.setRegN_kept))

theorem State.setEvents_kept {s0 : State} {s : State} (off mask ev : Nat) (hkept : Kept s0 s) :
    Kept s0 (State.setEvents s off mask ev) := by
  unfold State.setEvents
  repeat' first
    | with_reducible exact hkept | with_reducible assumption
    | (extract_lets +onlyGivenNames y'; refine (fun (_ : Kept s0 y') => ?_) ?_; clear_value y'; revert y'; intro _ _; rotate_left; dsimp only [y']; clear y'; rotate_left)
    | (extract_lets +onlyGivenNames y'; clear_value y'; revert y'; intro _)
    | with_reducible apply State.setBitsHw_kept | with_reducible apply State.raise_kept
    | with_reducible apply Kept.ite | with_reducible apply Kept.foldl | with_reducible apply Kept.foldl_fst
    | with_reducible apply Kept.foldl_snd | intro _ _ _ | intro _ _ | intro _ | split | dsimp only
    | exact hkept | assumption

theorem State.addErr_kept {s0 s : State} (status source reason : Nat) (part : Option Nat) (func : Nat) (detail : Bytes)
    (h : Kept s0 s) : Kept s0 (s.addErr status source reason part func detail) := by
  have h1 : ∀ e : ErrEntry, Kept s0 { s with
      errs := (if decide (4096 ≤ s.errs.length) then s.errs.drop 1 else s.errs) ++ [e] } := fun e =>
    h.ofFormed rfl rfl rfl rfl fun x => { x with
      errs := by
        have := x.errs
        show ((if decide (4096 ≤ s.errs.length) then s.errs.drop 1 else s.errs) ++ [e]).length ≤ 4096
        change s.errs.length ≤ 4096 at this
        rw [List.length_append]
        split <;> simp_all <;> omega }
  unfold State.addErr
  dsimp only
  split
  · exact State.setBitsHw_kept _ _ (State.setRegN_kept _ _ (State.setRegN_kept _ _ (h1 _)))
  · exact State.raise_kept _ (State.setBitsHw_kept _ _ (State.setRegN_kept _ _ (State.setRegN_kept _ _ (h1 _))))

theorem State.regErrOf_kept {s0 : State} {s : State} (part : Option Nat) (status : Nat) (req : Req) (off : Nat)
    (hkept : Kept s0 s) : Kept s0 (State.regErrOf s part status req off) := by
  unfold State.regErrOf
  exact State.addErr_kept _ _ _ _ _ _ hkept

theorem State.regErr_kept {s0 : State} {s : State} (status : Nat) (req : Req) (off : Nat) (hkept : Kept s0 s) :
    Kept s0 (State.regErr s status req off) :=
  State.regErrOf_kept _ _ _ _ hkept

end Sys2Proof.Machine
end

