-- ==== Sys2Proof/Laws/KeptKeys.lean ====
section
/-!
SUPPORT. Laws/KeptKeys.lean: what the operations of Machine/Keys.lean keep of a state (Laws/Kept.lean).
-/
namespace Sys2Proof.Machine

theorem State.setSlot_kept {s0 : State} {s : State} (i : Nat) (k : KeySlot) (hkept : Kept s0 s) :
    Kept s0 (State.setSlot s i k) := by
  unfold State.setSlot
  repeat' first
    | with_reducible exact hkept | with_reducible assumption | with_reducible apply State.modSbox_kept
    | with_reducible refine Kept.lit_slots (by with_reducible assumption) ?_
    | (with_reducible apply Kept.slots
       (first | with_reducible assumption | with_reducible apply State.modSbox_kept))
    | intro _ _ _ | intro _ _ | intro _ | dsimp only
    | with_reducible exact Kept.lit (by with_reducible assumption) | exact hkept | assumption | exact rfl
    | exact Nat.le_refl _
    | (with_reducible apply Kept.lit
       (first | with_reducible assumption | with_reducible apply State.modSbox_kept))

theorem State.orphan_kept {s0 : State} {s : State} (i : Nat) (hkept : Kept s0 s) :
    Kept s0 (State.orphan s i) := by
  unfold State.orphan
  repeat' first
    | with_reducible exact hkept | with_reducible assumption
    | (extract_lets +onlyGivenNames y'; refine (fun (_ : Kept s0 y') => ?_) ?_; clear_value y'; revert y'; intro _ _; rotate_left; dsimp only [y']; clear y'; rotate_left)
    | (extract_lets +onlyGivenNames y'; clear_value y'; revert y'; intro _)
    | with_reducible apply State.setSlot_kept | with_reducible apply Kept.ite | split | dsimp only
    | with_reducible exact Kept.lit (by with_reducible assumption) | exact hkept | assumption
    | (with_reducible apply Kept.lit
       (first | with_reducible assumption | with_reducible apply State.setSlot_kept))

theorem State.zeroise_kept {s0 : State} {s : State} (i : Nat) (hkept : Kept s0 s) :
    Kept s0 (State.zeroise s i) := by
  unfold State.zeroise
  repeat' first
    | with_reducible exact hkept | with_reducible assumption | with_reducible apply State.setSlot_kept
    | dsimp only | exact hkept | assumption

theorem State.installKey_kept {s0 : State} {s : State} (i attr : Nat) (key : Bytes) (hkept : Kept s0 s) :
    Kept s0 (State.installKey s i attr key) := by
  unfold State.installKey
  repeat' first
    | with_reducible exact hkept | with_reducible assumption
    | (extract_lets +onlyGivenNames y'; refine (fun (_ : Kept s0 y') => ?_) ?_; clear_value y'; revert y'; intro _ _; rotate_left; dsimp only [y']; clear y'; rotate_left)
    | (extract_lets +onlyGivenNames y'; clear_value y'; revert y'; intro _)
    | with_reducible apply State.setSlot_kept | with_reducible apply Kept.ite | split | dsimp only
    | exact hkept | assumption

theorem State.makePartKeys_kept {s0 : State} {s : State} (p : Nat) (r : Bytes) (hkept : Kept s0 s) :
    Kept s0 (State.makePartKeys s p r) := by
  unfold State.makePartKeys
  repeat' first
    | with_reducible exact hkept | with_reducible assumption
    | (extract_lets +onlyGivenNames y'; refine (fun (_ : Kept s0 y') => ?_) ?_; clear_value y'; revert y'; intro _ _; rotate_left; dsimp only [y']; clear y'; rotate_left)
    | (extract_lets +onlyGivenNames y'; clear_value y'; revert y'; intro _)
    | with_reducible apply State.installKey_kept | with_reducible apply State.modPart_kept | intro _ _ _
    | intro _ _ | intro _ | dsimp only | with_reducible exact Kept.lit (by with_reducible assumption)
    | exact hkept | assumption
    | (with_reducible apply Kept.lit
       (first | with_reducible assumption | with_reducible apply State.installKey_kept
              | with_reducible apply State.modPart_kept))

theorem State.draw_kept {s0 : State} {s : State} (n : Nat) (hkept : Kept s0 s) :
    Kept s0 (State.draw s n).2 := by
  unfold State.draw
  repeat' first
    | with_reducible exact hkept | with_reducible assumption
    | (extract_lets +onlyGivenNames y'; refine (fun (_ : Kept s0 y') => ?_) ?_; clear_value y'; revert y'; intro _ _; rotate_left; dsimp only [y']; clear y'; rotate_left)
    | (extract_lets +onlyGivenNames y'; clear_value y'; revert y'; intro _) | dsimp only
    | with_reducible exact Kept.lit (by with_reducible assumption) | exact hkept | assumption

theorem State.rngWait_kept {s0 : State} {s : State} (c : Caller) (hkept : Kept s0 s) :
    Kept s0 (State.rngWait s c) := by
  unfold State.rngWait
  repeat' first
    | with_reducible exact hkept | with_reducible assumption | dsimp only
    | with_reducible exact Kept.lit (by with_reducible assumption) | exact hkept | assumption

theorem State.drawPartKeys_kept {s0 : State} {s : State} (p : Nat) (hkept : Kept s0 s) :
    Kept s0 (State.drawPartKeys s p) := by
  unfold State.drawPartKeys
  repeat' first
    | with_reducible exact hkept | with_reducible assumption
    | (extract_lets +onlyGivenNames y'; refine (fun (_ : Kept s0 y') => ?_) ?_; clear_value y'; revert y'; intro _ _; rotate_left; dsimp only [y']; clear y'; rotate_left)
    | (extract_lets +onlyGivenNames y'; refine (fun (_ : Kept s0 y'.2) => ?_) ?_; clear_value y'; revert y'; intro _ _; rotate_left; dsimp only [y']; clear y'; rotate_left)
    | (extract_lets +onlyGivenNames y'; clear_value y'; revert y'; intro _)
    | with_reducible apply State.draw_kept | with_reducible apply State.makePartKeys_kept
    | with_reducible apply State.rngWait_kept | with_reducible apply Kept.ite | split | dsimp only
    | exact hkept | assumption

theorem State.sweepSlot_kept {s0 : State} {s : State} (i : Nat) (hkept : Kept s0 s) :
    Kept s0 (State.sweepSlot s i) := by
  unfold State.sweepSlot
  repeat' first
    | with_reducible exact hkept | with_reducible assumption | with_reducible apply State.setSlot_kept
    | dsimp only | exact hkept | assumption

theorem State.destroyPart_kept {s0 : State} {s : State} (p : Nat) (hkept : Kept s0 s) :
    Kept s0 (State.destroyPart s p) := by
  unfold State.destroyPart
  repeat' first
    | with_reducible exact hkept | with_reducible assumption | with_reducible apply State.sweepSlot_kept
    | with_reducible apply State.orphan_kept | with_reducible apply Kept.ite | with_reducible apply Kept.foldl
    | with_reducible apply Kept.foldl_fst | with_reducible apply Kept.foldl_snd | intro _ _ _ | intro _ _
    | intro _ | split | dsimp only | exact hkept | assumption

end Sys2Proof.Machine
end

