-- ==== Sys2Proof/Laws/KeptLinkOps.lean ====
section
/-!
SUPPORT. Laws/KeptLinkOps.lean: what the operations of Machine/LinkOps.lean keep of a state (Laws/Kept.lean).
-/
namespace Sys2Proof.Machine

theorem State.modLink_kept {s0 : State} {s : State} (p i : Nat) (g : Link → Link) (hkept : Kept s0 s) :
    Kept s0 (State.modLink s p i g) := by
  unfold State.modLink
  repeat' first
    | with_reducible exact hkept | with_reducible assumption | intro _ _ _ | intro _ _ | intro _ | dsimp only
    | with_reducible exact Kept.lit (by with_reducible assumption) | exact hkept | assumption

theorem State.modPort_kept {s0 : State} {s : State} (i : Nat) (g : Port → Port) (hkept : Kept s0 s) :
    Kept s0 (State.modPort s i g) := by
  unfold State.modPort
  repeat' first
    | with_reducible exact hkept | with_reducible assumption | intro _ _ _ | intro _ _ | intro _ | dsimp only
    | with_reducible exact Kept.lit (by with_reducible assumption) | exact hkept | assumption

theorem State.queueMsg_kept {s0 : State} {s : State} (p i : Nat) (m : TxMsg) (hkept : Kept s0 s) :
    Kept s0 (State.queueMsg s p i m) := by
  unfold State.queueMsg
  repeat' first
    | with_reducible exact hkept | with_reducible assumption | with_reducible apply State.modLink_kept
    | with_reducible apply Kept.ite | intro _ _ _ | intro _ _ | intro _ | split | dsimp only
    | with_reducible exact Kept.lit (by with_reducible assumption) | exact hkept | assumption
    | (with_reducible apply Kept.lit
       (first | with_reducible assumption | with_reducible apply State.modLink_kept))

theorem State.takeFlow_kept {s0 : State} {s : State} (p i : Nat) (hkept : Kept s0 s) :
    Kept s0 (State.takeFlow s p i).2 := by
  unfold State.takeFlow
  repeat' first
    | with_reducible exact hkept | with_reducible assumption | with_reducible apply State.modLink_kept
    | intro _ _ _ | intro _ _ | intro _ | dsimp only
    | with_reducible exact Kept.lit (by with_reducible assumption) | exact hkept | assumption
    | (with_reducible apply Kept.lit
       (first | with_reducible assumption | with_reducible apply State.modLink_kept))

theorem State.dropLinks_kept {s0 : State} {s : State} (p : Nat) (hkept : Kept s0 s) :
    Kept s0 (State.dropLinks s p) := by
  unfold State.dropLinks
  repeat' first
    | with_reducible exact hkept | with_reducible assumption | intro _ _ _ | intro _ _ | intro _ | dsimp only
    | with_reducible exact Kept.lit (by with_reducible assumption) | exact hkept | assumption

end Sys2Proof.Machine
end

