-- ==== Sys2Proof/Laws/KeptSchedOps.lean ====
section
/-!
SUPPORT. Laws/KeptSchedOps.lean: what the operations of Machine/SchedOps.lean keep of a state (Laws/Kept.lean).
-/
namespace Sys2Proof.Machine

theorem State.markPerturbed_kept {s0 : State} {s : State} (hkept : Kept s0 s) :
    Kept s0 (State.markPerturbed s) := by
  unfold State.markPerturbed
  repeat' first
    | with_reducible exact hkept | with_reducible assumption | with_reducible apply Kept.ite | intro _ _ _
    | intro _ _ | intro _ | split | dsimp only | with_reducible exact Kept.lit (by with_reducible assumption)
    | exact hkept | assumption

theorem State.modOp_kept {s0 : State} {s : State} (p tag : Nat) (g : Op → Op) (hkept : Kept s0 s) :
    Kept s0 (State.modOp s p tag g) := by
  unfold State.modOp
  repeat' first
    | with_reducible exact hkept | with_reducible assumption | with_reducible apply Kept.ite | intro _ _ _
    | intro _ _ | intro _ | split | dsimp only | with_reducible exact Kept.lit (by with_reducible assumption)
    | exact hkept | assumption

theorem State.freeEntry_kept {s0 : State} {s : State} (p tag : Nat) (hkept : Kept s0 s) :
    Kept s0 (State.freeEntry s p tag) := by
  unfold State.freeEntry
  repeat' first
    | with_reducible exact hkept | with_reducible assumption | intro _ _ _ | intro _ _ | intro _ | dsimp only
    | with_reducible exact Kept.lit (by with_reducible assumption) | exact hkept | assumption

theorem State.setLastOk_kept {s0 : State} {s : State} (p tag : Nat) (ok : Bool) (hkept : Kept s0 s) :
    Kept s0 (State.setLastOk s p tag ok) := by
  unfold State.setLastOk
  repeat' first
    | with_reducible exact hkept | with_reducible assumption | with_reducible apply State.modPart_kept
    | intro _ _ _ | intro _ _ | intro _ | dsimp only
    | with_reducible exact Kept.lit (by with_reducible assumption) | exact hkept | assumption
    | (with_reducible apply Kept.lit
       (first | with_reducible assumption | with_reducible apply State.modPart_kept))

theorem State.setCtx_kept {s0 : State} {s : State} (i n : Nat) (x : Option Ctx) (hkept : Kept s0 s) :
    Kept s0 (State.setCtx s i n x) := by
  unfold State.setCtx
  repeat' first
    | with_reducible exact hkept | with_reducible assumption | with_reducible apply State.modCore_kept
    | intro _ _ _ | intro _ _ | intro _ | dsimp only
    | with_reducible exact Kept.lit (by with_reducible assumption) | exact hkept | assumption
    | (with_reducible apply Kept.lit
       (first | with_reducible assumption | with_reducible apply State.modCore_kept))

theorem State.pushRec_kept {s0 : State} {s : State} (r : PendRec) (hkept : Kept s0 s) :
    Kept s0 (State.pushRec s r) := by
  unfold State.pushRec
  repeat' first
    | with_reducible exact hkept | with_reducible assumption | with_reducible apply State.freeEntry_kept
    | with_reducible apply Kept.ite | split | dsimp only
    | with_reducible exact Kept.lit (by with_reducible assumption) | exact hkept | assumption
    | (with_reducible apply Kept.lit
       (first | with_reducible assumption | with_reducible apply State.freeEntry_kept))

theorem State.immediate_kept {s0 : State} {s : State} (f slot : Nat) (d : Bytes) (status flags info : Nat) (hkept : Kept s0 s) :
    Kept s0 (State.immediate s f slot d status flags info) := by
  unfold State.immediate
  repeat' first
    | with_reducible exact hkept | with_reducible assumption | with_reducible apply State.pushRec_kept
    | dsimp only | exact hkept | assumption

theorem State.closeChain_kept {s0 : State} {s : State} (o : Op) (status : Nat) (hkept : Kept s0 s) :
    Kept s0 (State.closeChain s o status) := by
  unfold State.closeChain
  repeat' first
    | with_reducible exact hkept | with_reducible assumption
    | (extract_lets +onlyGivenNames y'; refine (fun (_ : Kept s0 y') => ?_) ?_; clear_value y'; revert y'; intro _ _; rotate_left; dsimp only [y']; clear y'; rotate_left)
    | (extract_lets +onlyGivenNames y'; clear_value y'; revert y'; intro _)
    | with_reducible apply State.setCtx_kept | with_reducible apply State.modCore_kept
    | with_reducible apply State.modOp_kept | with_reducible apply Kept.ite | intro _ _ _ | intro _ _ | intro _
    | split | dsimp only | with_reducible exact Kept.lit (by with_reducible assumption) | exact hkept
    | assumption
    | (with_reducible apply Kept.lit
       (first | with_reducible assumption | with_reducible apply State.setCtx_kept
              | with_reducible apply State.modCore_kept | with_reducible apply State.modOp_kept))

theorem State.dropHeldWrites_kept {s0 : State} {s : State} (p tag : Nat) (hkept : Kept s0 s) :
    Kept s0 (State.dropHeldWrites s p tag) := by
  unfold State.dropHeldWrites
  repeat' first
    | with_reducible exact hkept | with_reducible assumption | with_reducible apply State.modFolio_kept
    | with_reducible apply Kept.ite | intro _ _ _ | intro _ _ | intro _ | split | dsimp only
    | with_reducible exact Kept.lit (by with_reducible assumption) | exact hkept | assumption | exact rfl
    | exact Nat.le_refl _
    | (with_reducible apply Kept.lit
       (first | with_reducible assumption | with_reducible apply State.modFolio_kept))

theorem State.profComplete_kept {s0 : State} {s : State} (o : Op) (hkept : Kept s0 s) :
    Kept s0 (State.profComplete s o) := by
  unfold State.profComplete
  repeat' first
    | with_reducible exact hkept | with_reducible assumption
    | (extract_lets +onlyGivenNames y'; refine (fun (_ : Kept s0 y') => ?_) ?_; clear_value y'; revert y'; intro _ _; rotate_left; dsimp only [y']; clear y'; rotate_left)
    | (extract_lets +onlyGivenNames y'; refine (fun (_ : Kept s0 y'.2) => ?_) ?_; clear_value y'; revert y'; intro _ _; rotate_left; dsimp only [y']; clear y'; rotate_left)
    | (extract_lets +onlyGivenNames y'; clear_value y'; revert y'; intro _)
    | with_reducible apply State.prof_kept
    | with_reducible apply State.profOpen_kept
    | with_reducible apply Kept.ite | with_reducible apply Kept.foldl | with_reducible apply Kept.foldl_fst
    | with_reducible apply Kept.foldl_snd | intro _ _ _ | intro _ _ | intro _ | split | dsimp only
    | exact hkept | assumption

theorem State.completeOne_kept {s0 : State} {s : State} (o : Op) (status : Nat) (hkept : Kept s0 s) :
    Kept s0 (State.completeOne s o status) := by
  unfold State.completeOne
  repeat' first
    | with_reducible exact hkept | with_reducible assumption | with_reducible apply State.profComplete_kept
    | (extract_lets +onlyGivenNames y'; refine (fun (_ : Kept s0 y') => ?_) ?_; clear_value y'; revert y'; intro _ _; rotate_left; dsimp only [y']; clear y'; rotate_left)
    | (extract_lets +onlyGivenNames y'; clear_value y'; revert y'; intro _)
    | with_reducible apply State.setLastOk_kept | with_reducible apply State.closeChain_kept
    | with_reducible apply State.dropHeldWrites_kept | with_reducible apply Prep.poly_kept
    | with_reducible apply State.stage_kept | with_reducible apply State.modOp_kept
    | with_reducible apply State.pushRec_kept | with_reducible apply Kept.ite | intro _ _ _ | intro _ _
    | intro _ | split | dsimp only | with_reducible exact Kept.lit (by with_reducible assumption) | exact hkept
    | assumption
    | (with_reducible apply Kept.lit
       (first | with_reducible assumption | with_reducible apply State.profComplete_kept | with_reducible apply State.setLastOk_kept
              | with_reducible apply State.closeChain_kept | with_reducible apply State.dropHeldWrites_kept
              | with_reducible apply Prep.poly_kept | with_reducible apply State.stage_kept
              | with_reducible apply State.modOp_kept | with_reducible apply State.pushRec_kept))

theorem State.cancelAfter_kept {s0 : State} {s : State} (o : Op) (causes : List Nat) (hkept : Kept s0 s) :
    Kept s0 (State.cancelAfter s o causes) := by
  unfold State.cancelAfter
  repeat' first
    | with_reducible exact hkept | with_reducible assumption
    | (extract_lets +onlyGivenNames y'; refine (fun (_ : Kept s0 y') => ?_) ?_; clear_value y'; revert y'; intro _ _; rotate_left; dsimp only [y']; clear y'; rotate_left)
    | (extract_lets +onlyGivenNames y'; clear_value y'; revert y'; intro _)
    | with_reducible apply State.completeOne_kept | with_reducible apply Kept.ite | intro _ _ _ | intro _ _
    | intro _ | split | dsimp only | with_reducible exact Kept.lit (by with_reducible assumption) | exact hkept
    | assumption
    | (with_reducible apply Kept.lit
       (first | with_reducible assumption | with_reducible apply State.completeOne_kept))

theorem State.cascade_kept {s0 : State} (a0 : Nat) {a1 : State} (a2 : Nat) (a3 : List Nat) (hkept : Kept s0 a1) :
    Kept s0 (State.cascade a0 a1 a2 a3) := by
  induction a0 generalizing a1 a2 a3 with
  | zero =>
    unfold State.cascade
    repeat' first
      | with_reducible exact hkept | with_reducible assumption
      | (extract_lets +onlyGivenNames y'; refine (fun (_ : Kept s0 y') => ?_) ?_; clear_value y'; revert y'; intro _ _; rotate_left; dsimp only [y']; clear y'; rotate_left)
      | (extract_lets +onlyGivenNames y'; clear_value y'; revert y'; intro _)
      | with_reducible apply State.stage_kept | with_reducible apply State.cancelAfter_kept
      | with_reducible apply Kept.ite | with_reducible apply Kept.foldl | with_reducible apply Kept.foldl_fst
      | with_reducible apply Kept.foldl_snd | intro _ _ _ | intro _ _ | intro _ | split | dsimp only
      | exact hkept | assumption
  | succ k ih =>
    unfold State.cascade
    repeat' first
      | with_reducible exact hkept | with_reducible assumption | with_reducible apply ih
      | (extract_lets +onlyGivenNames y'; refine (fun (_ : Kept s0 y') => ?_) ?_; clear_value y'; revert y'; intro _ _; rotate_left; dsimp only [y']; clear y'; rotate_left)
      | (extract_lets +onlyGivenNames y'; clear_value y'; revert y'; intro _)
      | with_reducible apply State.stage_kept | with_reducible apply State.cancelAfter_kept
      | with_reducible apply Kept.ite | with_reducible apply Kept.foldl | with_reducible apply Kept.foldl_fst
      | with_reducible apply Kept.foldl_snd | intro _ _ _ | intro _ _ | intro _ | split | dsimp only
      | exact hkept | assumption

theorem State.complete_kept {s0 : State} {s : State} (o : Op) (status : Nat) (hkept : Kept s0 s) :
    Kept s0 (State.complete s o status) := by
  unfold State.complete
  repeat' first
    | with_reducible exact hkept | with_reducible assumption
    | (extract_lets +onlyGivenNames y'; refine (fun (_ : Kept s0 y') => ?_) ?_; clear_value y'; revert y'; intro _ _; rotate_left; dsimp only [y']; clear y'; rotate_left)
    | (extract_lets +onlyGivenNames y'; clear_value y'; revert y'; intro _)
    | with_reducible apply State.completeOne_kept | with_reducible apply State.cascade_kept
    | with_reducible apply Kept.ite | split | dsimp only | exact hkept | assumption

theorem State.failHeld_kept {s0 : State} {s : State} (f slot : Nat) (d : Bytes) (status : Nat) (scores : Bool) (hkept : Kept s0 s) :
    Kept s0 (State.failHeld s f slot d status scores) := by
  unfold State.failHeld
  repeat' first
    | with_reducible exact hkept | with_reducible assumption
    | (extract_lets +onlyGivenNames y'; refine (fun (_ : Kept s0 y') => ?_) ?_; clear_value y'; revert y'; intro _ _; rotate_left; dsimp only [y']; clear y'; rotate_left)
    | (extract_lets +onlyGivenNames y'; clear_value y'; revert y'; intro _)
    | with_reducible apply State.immediate_kept | with_reducible apply State.setLastOk_kept
    | with_reducible apply Kept.ite | split | dsimp only | exact hkept | assumption

theorem State.countPhys_kept {s0 : State} {s : State} (i : Nat) (o : Op) (hkept : Kept s0 s) :
    Kept s0 (State.countPhys s i o) := by
  unfold State.countPhys
  repeat' first
    | with_reducible exact hkept | with_reducible assumption
    | (extract_lets +onlyGivenNames y'; refine (fun (_ : Kept s0 y') => ?_) ?_; clear_value y'; revert y'; intro _ _; rotate_left; dsimp only [y']; clear y'; rotate_left)
    | (extract_lets +onlyGivenNames y'; clear_value y'; revert y'; intro _)
    | with_reducible apply State.setPair_kept | with_reducible apply Kept.ite | split | dsimp only
    | exact hkept | assumption

theorem State.countCore_kept {s0 : State} {s : State} (o : Op) (hkept : Kept s0 s) :
    Kept s0 (State.countCore s o) := by
  unfold State.countCore
  repeat' first
    | with_reducible exact hkept | with_reducible assumption | with_reducible apply State.countPhys_kept
    | split | dsimp only | with_reducible exact Kept.lit (by with_reducible assumption) | exact hkept
    | assumption
    | (with_reducible apply Kept.lit
       (first | with_reducible assumption | with_reducible apply State.countPhys_kept))

theorem State.endInfo_kept {s0 : State} {s : State} (o : Op) (hkept : Kept s0 s) :
    Kept s0 (State.endInfo s o).2 := by
  unfold State.endInfo
  repeat' first
    | with_reducible exact hkept | with_reducible assumption
    | (extract_lets +onlyGivenNames y'; refine (fun (_ : Kept s0 y') => ?_) ?_; clear_value y'; revert y'; intro _ _; rotate_left; dsimp only [y']; clear y'; rotate_left)
    | (extract_lets +onlyGivenNames y'; refine (fun (_ : Kept s0 y'.2) => ?_) ?_; clear_value y'; revert y'; intro _ _; rotate_left; dsimp only [y']; clear y'; rotate_left)
    | (extract_lets +onlyGivenNames y'; clear_value y'; revert y'; intro _)
    | with_reducible apply State.free_kept | with_reducible apply Kept.snd_ite | with_reducible apply Kept.ite
    | split | dsimp only | exact hkept | assumption

theorem State.cancelOp_kept {s0 : State} {s : State} (p tag status : Nat) (hkept : Kept s0 s) :
    Kept s0 (State.cancelOp s p tag status) := by
  unfold State.cancelOp
  repeat' first
    | with_reducible exact hkept | with_reducible assumption
    | (extract_lets +onlyGivenNames y'; refine (fun (_ : Kept s0 y') => ?_) ?_; clear_value y'; revert y'; intro _ _; rotate_left; dsimp only [y']; clear y'; rotate_left)
    | (extract_lets +onlyGivenNames y'; refine (fun (_ : Kept s0 y'.2) => ?_) ?_; clear_value y'; revert y'; intro _ _; rotate_left; dsimp only [y']; clear y'; rotate_left)
    | (extract_lets +onlyGivenNames y'; clear_value y'; revert y'; intro _)
    | with_reducible apply State.stage_kept | with_reducible apply State.complete_kept
    | with_reducible apply State.endInfo_kept | with_reducible apply State.countCore_kept
    | with_reducible apply Kept.of_snd (by with_reducible assumption) | split | dsimp only
    | with_reducible exact Kept.lit (by with_reducible assumption) | exact hkept | assumption
    | (with_reducible apply Kept.lit
       (first | with_reducible assumption | with_reducible apply State.stage_kept
              | with_reducible apply State.complete_kept | with_reducible apply State.endInfo_kept
              | with_reducible apply State.countCore_kept))

theorem State.cancelPart_kept {s0 : State} {s : State} (p status : Nat) (hkept : Kept s0 s) :
    Kept s0 (State.cancelPart s p status).1 := by
  unfold State.cancelPart
  repeat' first
    | with_reducible exact hkept | with_reducible assumption
    | (extract_lets +onlyGivenNames y'; refine (fun (_ : Kept s0 y') => ?_) ?_; clear_value y'; revert y'; intro _ _; rotate_left; dsimp only [y']; clear y'; rotate_left)
    | (extract_lets +onlyGivenNames y'; clear_value y'; revert y'; intro _)
    | with_reducible apply State.cancelOp_kept | with_reducible apply Kept.foldl
    | with_reducible apply Kept.foldl_fst | with_reducible apply Kept.foldl_snd | intro _ _ _ | intro _ _
    | intro _ | dsimp only | exact hkept | assumption

theorem State.forgetTags_kept {s0 : State} {s : State} (p : Nat) (hkept : Kept s0 s) :
    Kept s0 (State.forgetTags s p) := by
  unfold State.forgetTags
  repeat' first
    | with_reducible exact hkept | with_reducible assumption
    | (extract_lets +onlyGivenNames y'; refine (fun (_ : Kept s0 y') => ?_) ?_; clear_value y'; revert y'; intro _ _; rotate_left; dsimp only [y']; clear y'; rotate_left)
    | (extract_lets +onlyGivenNames y'; clear_value y'; revert y'; intro _)
    | with_reducible apply State.stage_kept | with_reducible apply State.complete_kept
    | with_reducible apply Kept.ite | with_reducible apply Kept.foldl | with_reducible apply Kept.foldl_fst
    | with_reducible apply Kept.foldl_snd | intro _ _ _ | intro _ _ | intro _ | split | dsimp only
    | with_reducible exact Kept.lit (by with_reducible assumption) | exact hkept | assumption
    | (with_reducible apply Kept.lit
       (first | with_reducible assumption | with_reducible apply State.stage_kept
              | with_reducible apply State.complete_kept))

theorem State.endOp_kept {s0 : State} {s : State} (p tag status flags info : Nat) (hkept : Kept s0 s) :
    Kept s0 (State.endOp s p tag status flags info) := by
  unfold State.endOp
  repeat' first
    | with_reducible exact hkept | with_reducible assumption | with_reducible apply State.modOp_kept
    | intro _ _ _ | intro _ _ | intro _ | dsimp only
    | with_reducible exact Kept.lit (by with_reducible assumption) | exact hkept | assumption
    | (with_reducible apply Kept.lit
       (first | with_reducible assumption | with_reducible apply State.modOp_kept))

theorem State.endOpCycles_kept {s0 : State} {s : State} (p tag status flags : Nat) (hkept : Kept s0 s) :
    Kept s0 (State.endOpCycles s p tag status flags) := by
  unfold State.endOpCycles
  repeat' first
    | with_reducible exact hkept | with_reducible assumption
    | (extract_lets +onlyGivenNames y'; refine (fun (_ : Kept s0 y') => ?_) ?_; clear_value y'; revert y'; intro _ _; rotate_left; dsimp only [y']; clear y'; rotate_left)
    | (extract_lets +onlyGivenNames y'; refine (fun (_ : Kept s0 y'.2) => ?_) ?_; clear_value y'; revert y'; intro _ _; rotate_left; dsimp only [y']; clear y'; rotate_left)
    | (extract_lets +onlyGivenNames y'; clear_value y'; revert y'; intro _)
    | with_reducible apply State.endInfo_kept | with_reducible apply State.endOp_kept
    | with_reducible apply Kept.of_snd (by with_reducible assumption) | split | dsimp only
    | with_reducible exact Kept.lit (by with_reducible assumption) | exact hkept | assumption
    | (with_reducible apply Kept.lit
       (first | with_reducible assumption | with_reducible apply State.endInfo_kept
              | with_reducible apply State.endOp_kept))

theorem State.moveCtxs_kept {s0 : State} {s : State} (i j : Nat) (hkept : Kept s0 s) :
    Kept s0 (State.moveCtxs s i j) := by
  unfold State.moveCtxs
  repeat' first
    | with_reducible exact hkept | with_reducible assumption
    | (extract_lets +onlyGivenNames y'; refine (fun (_ : Kept s0 y') => ?_) ?_; clear_value y'; revert y'; intro _ _; rotate_left; dsimp only [y']; clear y'; rotate_left)
    | (extract_lets +onlyGivenNames y'; clear_value y'; revert y'; intro _)
    | with_reducible apply State.setCtx_kept | with_reducible apply State.modCore_kept
    | with_reducible apply Kept.ite | with_reducible apply Kept.foldl | with_reducible apply Kept.foldl_fst
    | with_reducible apply Kept.foldl_snd | intro _ _ _ | intro _ _ | intro _ | split | dsimp only
    | with_reducible exact Kept.lit (by with_reducible assumption) | exact hkept | assumption
    | (with_reducible apply Kept.lit
       (first | with_reducible assumption | with_reducible apply State.setCtx_kept
              | with_reducible apply State.modCore_kept))

theorem State.copySeed_kept {s0 : State} {s : State} (p l j : Nat) (hkept : Kept s0 s) :
    Kept s0 (State.copySeed s p l j) := by
  unfold State.copySeed
  repeat' first
    | with_reducible exact hkept | with_reducible assumption
    | (extract_lets +onlyGivenNames y'; refine (fun (_ : Kept s0 y') => ?_) ?_; clear_value y'; revert y'; intro _ _; rotate_left; dsimp only [y']; clear y'; rotate_left)
    | (extract_lets +onlyGivenNames y'; clear_value y'; revert y'; intro _)
    | with_reducible apply State.setPair_kept | intro _ _ _ | intro _ _ | intro _ | split | dsimp only
    | with_reducible exact Kept.lit (by with_reducible assumption) | exact hkept | assumption
    | (with_reducible apply Kept.lit
       (first | with_reducible assumption | with_reducible apply State.setPair_kept))

theorem State.substituteOne_kept {s0 : State} {s : State} (l : Nat) (hkept : Kept s0 s) :
    Kept s0 (State.substituteOne s l) := by
  unfold State.substituteOne
  repeat' first
    | with_reducible exact hkept | with_reducible assumption
    | (extract_lets +onlyGivenNames y'; refine (fun (_ : Kept s0 y') => ?_) ?_; clear_value y'; revert y'; intro _ _; rotate_left; dsimp only [y']; clear y'; rotate_left)
    | (extract_lets +onlyGivenNames y'; clear_value y'; revert y'; intro _)
    | with_reducible apply State.modCore_kept | with_reducible apply State.copySeed_kept
    | with_reducible apply State.moveCtxs_kept | with_reducible apply Kept.ite | intro _ _ _ | intro _ _
    | intro _ | split | dsimp only | with_reducible exact Kept.lit (by with_reducible assumption) | exact hkept
    | assumption
    | (with_reducible apply Kept.lit
       (first | with_reducible assumption | with_reducible apply State.modCore_kept
              | with_reducible apply State.copySeed_kept | with_reducible apply State.moveCtxs_kept))

theorem State.substitute_kept {s0 : State} {s : State} (p : Nat) (hkept : Kept s0 s) :
    Kept s0 (State.substitute s p) := by
  unfold State.substitute
  repeat' first
    | with_reducible exact hkept | with_reducible assumption | with_reducible apply State.substituteOne_kept
    | with_reducible apply Kept.foldl | with_reducible apply Kept.foldl_fst
    | with_reducible apply Kept.foldl_snd | intro _ _ _ | intro _ _ | intro _ | dsimp only | exact hkept
    | assumption

theorem State.substituteIdle_kept {s0 : State} {s : State} (p : Nat) (hkept : Kept s0 s) :
    Kept s0 (State.substituteIdle s p) := by
  unfold State.substituteIdle
  repeat' first
    | with_reducible exact hkept | with_reducible assumption | with_reducible apply State.stage_kept
    | with_reducible apply State.substitute_kept | with_reducible apply Kept.ite | intro _ _ _ | intro _ _
    | intro _ | split | dsimp only | exact hkept | assumption

theorem State.replaceAuto_kept {s0 : State} {s : State} (o : Op) (degraded : Bool) (hkept : Kept s0 s) :
    Kept s0 (State.replaceAuto s o degraded) := by
  unfold State.replaceAuto
  repeat' first
    | with_reducible exact hkept | with_reducible assumption | with_reducible apply State.complete_kept
    | with_reducible apply State.modOp_kept | with_reducible apply Kept.ite | intro _ _ _ | intro _ _ | intro _
    | split | dsimp only | with_reducible exact Kept.lit (by with_reducible assumption) | exact hkept
    | assumption
    | (with_reducible apply Kept.lit
       (first | with_reducible assumption | with_reducible apply State.complete_kept
              | with_reducible apply State.modOp_kept))

theorem State.takeBack_kept {s0 : State} (i : Nat) {s : State} (o : Op) (hkept : Kept s0 s) :
    Kept s0 (State.takeBack i s o) := by
  unfold State.takeBack
  repeat' first
    | with_reducible exact hkept | with_reducible assumption
    | (extract_lets +onlyGivenNames y'; refine (fun (_ : Kept s0 y') => ?_) ?_; clear_value y'; revert y'; intro _ _; rotate_left; dsimp only [y']; clear y'; rotate_left)
    | (extract_lets +onlyGivenNames y'; clear_value y'; revert y'; intro _)
    | with_reducible apply State.setCtx_kept | with_reducible apply State.modCore_kept
    | with_reducible apply State.modOp_kept | with_reducible apply Kept.ite | intro _ _ _ | intro _ _ | intro _
    | split | dsimp only | with_reducible exact Kept.lit (by with_reducible assumption) | exact hkept
    | assumption
    | (with_reducible apply Kept.lit
       (first | with_reducible assumption | with_reducible apply State.setCtx_kept
              | with_reducible apply State.modCore_kept | with_reducible apply State.modOp_kept))

theorem State.replayOne_kept {s0 : State} {s : State} (i l : Nat) (spare : Bool) (tgt : Option Nat) (o : Op) (hkept : Kept s0 s) :
    Kept s0 (State.replayOne s i l spare tgt o) := by
  unfold State.replayOne
  repeat' first
    | with_reducible exact hkept | with_reducible assumption
    | (extract_lets +onlyGivenNames y'; refine (fun (_ : Kept s0 y') => ?_) ?_; clear_value y'; revert y'; intro _ _; rotate_left; dsimp only [y']; clear y'; rotate_left)
    | (extract_lets +onlyGivenNames y'; refine (fun (_ : Kept s0 y'.2) => ?_) ?_; clear_value y'; revert y'; intro _ _; rotate_left; dsimp only [y']; clear y'; rotate_left)
    | (extract_lets +onlyGivenNames y'; clear_value y'; revert y'; intro _)
    | with_reducible apply State.free_kept | with_reducible apply State.stage_kept
    | with_reducible apply State.countPhys_kept | with_reducible apply State.complete_kept
    | with_reducible apply State.modOp_kept | with_reducible apply State.countUp_kept
    | with_reducible apply State.prof_kept | with_reducible apply State.replaceAuto_kept
    | with_reducible apply Kept.of_snd (by with_reducible assumption) | with_reducible apply Kept.ite
    | intro _ _ _ | intro _ _ | intro _ | split | dsimp only
    | with_reducible exact Kept.lit (by with_reducible assumption) | exact hkept | assumption
    | (with_reducible apply Kept.lit
       (first | with_reducible assumption | with_reducible apply State.free_kept
              | with_reducible apply State.stage_kept | with_reducible apply State.countPhys_kept
              | with_reducible apply State.complete_kept | with_reducible apply State.modOp_kept
              | with_reducible apply State.countUp_kept | with_reducible apply State.prof_kept
              | with_reducible apply State.replaceAuto_kept))

theorem State.placeRetired_kept {s0 : State} {s : State} (tgt : Option Nat) (o : Op) (hkept : Kept s0 s) :
    Kept s0 (State.placeRetired s tgt o) := by
  unfold State.placeRetired
  repeat' first
    | with_reducible exact hkept | with_reducible assumption | with_reducible apply State.modOp_kept
    | with_reducible apply State.complete_kept | with_reducible apply State.replaceAuto_kept
    | with_reducible apply Kept.ite | intro _ _ _ | intro _ _ | intro _ | split | dsimp only
    | with_reducible exact Kept.lit (by with_reducible assumption) | exact hkept | assumption
    | (with_reducible apply Kept.lit
       (first | with_reducible assumption | with_reducible apply State.modOp_kept
              | with_reducible apply State.complete_kept | with_reducible apply State.replaceAuto_kept))

theorem State.yieldSpare_kept {s0 : State} {s : State} (h : Nat) (hkept : Kept s0 s) :
    Kept s0 (State.yieldSpare s h) := by
  unfold State.yieldSpare
  repeat' first
    | with_reducible exact hkept | with_reducible assumption
    | (extract_lets +onlyGivenNames y'; refine (fun (_ : Kept s0 y') => ?_) ?_; clear_value y'; revert y'; intro _ _; rotate_left; dsimp only [y']; clear y'; rotate_left)
    | (extract_lets +onlyGivenNames y'; clear_value y'; revert y'; intro _)
    | with_reducible apply State.modCore_kept | with_reducible apply State.placeRetired_kept
    | with_reducible apply State.moveCtxs_kept | with_reducible apply Kept.foldl
    | with_reducible apply Kept.foldl_fst | with_reducible apply Kept.foldl_snd | intro _ _ _ | intro _ _
    | intro _ | split | dsimp only | with_reducible exact Kept.lit (by with_reducible assumption) | exact hkept
    | assumption
    | (with_reducible apply Kept.lit
       (first | with_reducible assumption | with_reducible apply State.modCore_kept
              | with_reducible apply State.placeRetired_kept | with_reducible apply State.moveCtxs_kept))

theorem State.coincide_kept {s0 : State} {s : State} (c l : Nat) (hkept : Kept s0 s) :
    Kept s0 (State.coincide s c l) := by
  unfold State.coincide
  repeat' first
    | with_reducible exact hkept | with_reducible assumption
    | (extract_lets +onlyGivenNames y'; refine (fun (_ : Kept s0 y') => ?_) ?_; clear_value y'; revert y'; intro _ _; rotate_left; dsimp only [y']; clear y'; rotate_left)
    | (extract_lets +onlyGivenNames y'; clear_value y'; revert y'; intro _)
    | with_reducible apply State.yieldSpare_kept
    | with_reducible apply Kept.ite | with_reducible apply Kept.foldl | intro _ _ _ | intro _ _ | intro _ | split
    | dsimp only | with_reducible exact Kept.lit (by with_reducible assumption) | exact hkept | assumption
    | (with_reducible apply Kept.lit
       (first | with_reducible assumption
              | with_reducible apply State.yieldSpare_kept))

theorem State.failCore_kept {s0 : State} {s : State} (i cause line : Nat) (hkept : Kept s0 s) :
    Kept s0 (State.failCore s i cause line) := by
  unfold State.failCore
  repeat' first
    | with_reducible exact hkept | with_reducible assumption
    | (extract_lets +onlyGivenNames y'; refine (fun (_ : Kept s0 y') => ?_) ?_; clear_value y'; revert y'; intro _ _; rotate_left; dsimp only [y']; clear y'; rotate_left)
    | (extract_lets +onlyGivenNames y'; clear_value y'; revert y'; intro _)
    | with_reducible apply State.addErr_kept | with_reducible apply State.modCore_kept
    | with_reducible apply State.coincide_kept | with_reducible apply State.replayOne_kept
    | with_reducible apply State.reverse_kept | with_reducible apply State.takeBack_kept
    | with_reducible apply State.moveCtxs_kept | with_reducible apply State.substituteIdle_kept
    | with_reducible apply State.substituteOne_kept | with_reducible apply Kept.ite
    | with_reducible apply Kept.foldl | with_reducible apply Kept.foldl_fst
    | with_reducible apply Kept.foldl_snd | intro _ _ _ | intro _ _ | intro _ | split | dsimp only
    | with_reducible exact Kept.lit (by with_reducible assumption) | exact hkept | assumption
    | (with_reducible apply Kept.lit
       (first | with_reducible assumption | with_reducible apply State.addErr_kept
              | with_reducible apply State.modCore_kept | with_reducible apply State.coincide_kept
              | with_reducible apply State.replayOne_kept | with_reducible apply State.reverse_kept
              | with_reducible apply State.takeBack_kept | with_reducible apply State.moveCtxs_kept
              | with_reducible apply State.substituteIdle_kept
              | with_reducible apply State.substituteOne_kept))

end Sys2Proof.Machine
end

