-- ==== Sys2Proof/Laws/KeptFolioOps.lean ====
section
/-!
SUPPORT. Laws/KeptFolioOps.lean: what the operations of Machine/FolioOps.lean keep of a state (Laws/Kept.lean).
-/
namespace Sys2Proof.Machine

theorem State.setLeaf_kept {s0 : State} {s : State} (p v : Nat) (l : Leaf) (hkept : Kept s0 s) :
    Kept s0 (State.setLeaf s p v l) := by
  unfold State.setLeaf
  repeat' first
    | with_reducible exact hkept | with_reducible assumption | with_reducible apply State.modFolio_kept
    | intro _ _ _ | intro _ _ | intro _ | dsimp only
    | with_reducible exact Kept.lit (by with_reducible assumption) | exact hkept | assumption | exact rfl
    | exact Nat.le_refl _
    | (with_reducible apply Kept.lit
       (first | with_reducible assumption | with_reducible apply State.modFolio_kept))

theorem State.modLeaf_kept {s0 : State} {s : State} (p v : Nat) (g : Leaf → Leaf) (hkept : Kept s0 s) :
    Kept s0 (State.modLeaf s p v g) := by
  unfold State.modLeaf
  repeat' first
    | with_reducible exact hkept | with_reducible assumption | with_reducible apply State.setLeaf_kept
    | dsimp only | exact hkept | assumption

theorem State.setHUse_kept {s0 : State} {s : State} (f : Nat) (u : HUse) (hkept : Kept s0 s) :
    Kept s0 (State.setHUse s f u) := by
  unfold State.setHUse
  repeat' first
    | with_reducible exact hkept | with_reducible assumption | with_reducible apply State.modFolio_kept
    | with_reducible apply State.free_kept | intro _ _ _ | intro _ _ | intro _ | dsimp only
    | with_reducible exact Kept.lit (by with_reducible assumption) | exact hkept | assumption | exact rfl
    | exact Nat.le_refl _
    | (with_reducible apply Kept.lit
       (first | with_reducible assumption | with_reducible apply State.modFolio_kept
              | with_reducible apply State.free_kept))

theorem State.setLUse_kept {s0 : State} {s : State} (f : Nat) (u : LUse) (hkept : Kept s0 s) :
    Kept s0 (State.setLUse s f u) := by
  unfold State.setLUse
  repeat' first
    | with_reducible exact hkept | with_reducible assumption | with_reducible apply State.modFolio_kept
    | with_reducible apply State.free_kept | intro _ _ _ | intro _ _ | intro _ | dsimp only
    | with_reducible exact Kept.lit (by with_reducible assumption) | exact hkept | assumption | exact rfl
    | exact Nat.le_refl _
    | (with_reducible apply Kept.lit
       (first | with_reducible assumption | with_reducible apply State.modFolio_kept
              | with_reducible apply State.free_kept))

theorem State.makeTable_kept {s0 : State} {s : State} (p k : Nat) (hkept : Kept s0 s) :
    Kept s0 (State.makeTable s p k) := by
  unfold State.makeTable
  repeat' first
    | with_reducible exact hkept | with_reducible assumption | with_reducible apply State.setLUse_kept
    | with_reducible apply State.modFolio_kept | intro _ _ _ | intro _ _ | intro _ | split | dsimp only
    | with_reducible exact Kept.lit (by with_reducible assumption) | exact hkept | assumption | exact rfl
    | exact Nat.le_refl _
    | (with_reducible apply Kept.lit
       (first | with_reducible assumption | with_reducible apply State.setLUse_kept
              | with_reducible apply State.modFolio_kept))

/-- Every state that a preparation gives keeps what is asked. -/
def Prep.Kept (s0 : State) : Prep → Prop
  | .ok t => Machine.Kept s0 t
  | .wait t => Machine.Kept s0 t
  | .fail t _ => Machine.Kept s0 t

theorem Prep.ok_kept {s0 t : State} (h : Machine.Kept s0 t) : (Prep.ok t).Kept s0 := h

theorem Prep.wait_kept {s0 t : State} (h : Machine.Kept s0 t) : (Prep.wait t).Kept s0 := h

theorem Prep.fail_kept {s0 t : State} (st : Nat) (h : Machine.Kept s0 t) : (Prep.fail t st).Kept s0 := h

theorem Prep.of_ok {s0 t : State} {r : Prep} (e : r = .ok t) (h : r.Kept s0) : Machine.Kept s0 t := by
  subst e; exact h

theorem Prep.of_wait {s0 t : State} {r : Prep} (e : r = .wait t) (h : r.Kept s0) : Machine.Kept s0 t := by
  subst e; exact h

theorem Prep.of_fail {s0 t : State} {r : Prep} {st : Nat} (e : r = .fail t st) (h : r.Kept s0) : Machine.Kept s0 t := by
  subst e; exact h

theorem Prep.ite_kept {s0 : State} {p : Prop} [Decidable p] {a b : Prep} (h : a.Kept s0) (k : b.Kept s0) :
    (if p then a else b).Kept s0 := by split <;> assumption

theorem Prep.andThen_kept {s0 : State} {r : Prep} {g : State → Prep} (h : r.Kept s0)
    (hg : ∀ t, Machine.Kept s0 t → (g t).Kept s0) : (r.andThen g).Kept s0 := by
  cases r with
  | ok t => exact hg t h
  | wait t =>
    have := hg t h
    show (match g t with
      | .ok t => Prep.wait t
      | .wait t => .wait t
      | .fail t st => .fail t st).Kept s0
    revert this
    cases g t <;> exact id
  | fail t st => exact h

theorem prepAll_kept {s0 : State} {α : Type} (g : State → α → Prep) (l : List α) {s : State} (h : Kept s0 s)
    (hg : ∀ t x, Kept s0 t → (g t x).Kept s0) : (prepAll g l s).Kept s0 := by
  induction l generalizing s with
  | nil => exact h
  | cons a l ih => exact Prep.andThen_kept (hg s a h) (fun t k => ih k)

theorem State.quotaErr_kept {s0 : State} {s : State} (p : Nat) (hkept : Kept s0 s) :
    Kept s0 (State.quotaErr s p) := by
  unfold State.quotaErr
  repeat' first
    | with_reducible exact hkept | with_reducible assumption | with_reducible apply State.addErr_kept
    | dsimp only | exact hkept | assumption

theorem State.dropCopy_kept {s0 : State} {s : State} (p v : Nat) (hkept : Kept s0 s) :
    Kept s0 (State.dropCopy s p v) := by
  unfold State.dropCopy
  repeat' first
    | with_reducible exact hkept | with_reducible assumption
    | (extract_lets +onlyGivenNames y'; refine (fun (_ : Kept s0 y') => ?_) ?_; clear_value y'; revert y'; intro _ _; rotate_left; dsimp only [y']; clear y'; rotate_left)
    | (extract_lets +onlyGivenNames y'; refine (fun (_ : Kept s0 y'.2) => ?_) ?_; clear_value y'; revert y'; intro _ _; rotate_left; dsimp only [y']; clear y'; rotate_left)
    | (extract_lets +onlyGivenNames y'; clear_value y'; revert y'; intro _)
    | with_reducible apply State.setHUse_kept | with_reducible apply State.free_kept
    | with_reducible apply State.setLeaf_kept | dsimp only
    | with_reducible exact Kept.lit (by with_reducible assumption) | exact hkept | assumption
    | (with_reducible apply Kept.lit
       (first | with_reducible assumption | with_reducible apply State.setHUse_kept
              | with_reducible apply State.free_kept | with_reducible apply State.setLeaf_kept))

theorem State.startMove_kept {s0 : State} {s : State} (m : Move) (hkept : Kept s0 s) :
    Kept s0 (State.startMove s m) := by
  unfold State.startMove
  repeat' first
    | with_reducible exact hkept | with_reducible assumption | with_reducible apply State.modLeaf_kept
    | with_reducible apply State.modFolio_kept | intro _ _ _ | intro _ _ | intro _ | dsimp only
    | with_reducible exact Kept.lit (by with_reducible assumption) | exact hkept | assumption | exact rfl
    | exact Nat.le_refl _
    | (with_reducible apply Kept.lit
       (first | with_reducible assumption | with_reducible apply State.modLeaf_kept
              | with_reducible apply State.modFolio_kept))

theorem State.modMove_kept {s0 : State} {s : State} (p v : Nat) (g : Move → Move) (hkept : Kept s0 s) :
    Kept s0 (State.modMove s p v g) := by
  unfold State.modMove
  repeat' first
    | with_reducible exact hkept | with_reducible assumption | with_reducible apply State.modFolio_kept
    | with_reducible apply Kept.ite | intro _ _ _ | intro _ _ | intro _ | split | dsimp only
    | with_reducible exact Kept.lit (by with_reducible assumption) | exact hkept | assumption | exact rfl
    | exact Nat.le_refl _
    | (with_reducible apply Kept.lit
       (first | with_reducible assumption | with_reducible apply State.modFolio_kept))

theorem State.startWriteback_kept {s0 s t : State} {p v : Nat} {waiters : List Nat}
    (e : s.startWriteback p v waiters = some t) (h : Kept s0 s) : Kept s0 t := by
  unfold State.startWriteback at e
  dsimp only at e
  split at e
  · cases e
  · split at e
    · split at e
      · cases e
      · cases e; exact State.startMove_kept _ (State.setLUse_kept _ _ h)
    · cases e; exact State.startMove_kept _ h

theorem State.victimRoom_kept {s0 : State} {s : State} (p c : Nat) (a0 : Nat) (a1 : List Nat) (hkept : Kept s0 s) :
    Kept s0 (State.victimRoom s p c a0 a1).1 := by
  induction a0 generalizing s a1 with
  | zero =>
    unfold State.victimRoom
    repeat' first
      | with_reducible exact hkept | with_reducible assumption
      | (extract_lets +onlyGivenNames y'; refine (fun (_ : Kept s0 y') => ?_) ?_; clear_value y'; revert y'; intro _ _; rotate_left; dsimp only [y']; clear y'; rotate_left)
      | (extract_lets +onlyGivenNames y'; clear_value y'; revert y'; intro _)
      | with_reducible apply State.dropCopy_kept
      | with_reducible apply State.startWriteback_kept (by with_reducible assumption)
      | with_reducible apply Kept.fst_ite | with_reducible apply Kept.ite | split | dsimp only
      | with_reducible exact Kept.lit (by with_reducible assumption) | exact hkept | assumption
      | (with_reducible apply Kept.lit
         (first | with_reducible assumption | with_reducible apply State.dropCopy_kept))
  | succ k ih =>
    unfold State.victimRoom
    repeat' first
      | with_reducible exact hkept | with_reducible assumption | with_reducible apply ih
      | (extract_lets +onlyGivenNames y'; refine (fun (_ : Kept s0 y') => ?_) ?_; clear_value y'; revert y'; intro _ _; rotate_left; dsimp only [y']; clear y'; rotate_left)
      | (extract_lets +onlyGivenNames y'; clear_value y'; revert y'; intro _)
      | with_reducible apply State.dropCopy_kept
      | with_reducible apply State.startWriteback_kept (by with_reducible assumption)
      | with_reducible apply Kept.fst_ite | with_reducible apply Kept.ite | split | dsimp only
      | with_reducible exact Kept.lit (by with_reducible assumption) | exact hkept | assumption
      | (with_reducible apply Kept.lit
         (first | with_reducible assumption | with_reducible apply State.dropCopy_kept))

theorem State.roomInCol_kept {s0 : State} {s : State} (p c : Nat) (hkept : Kept s0 s) :
    Kept s0 (State.roomInCol s p c).1 := by
  unfold State.roomInCol
  repeat' first
    | with_reducible exact hkept | with_reducible assumption | with_reducible apply State.victimRoom_kept
    | with_reducible apply Kept.of_fst (by with_reducible assumption) | split | dsimp only
    | with_reducible exact Kept.lit (by with_reducible assumption) | exact hkept | assumption
    | (with_reducible apply Kept.lit
       (first | with_reducible assumption | with_reducible apply State.victimRoom_kept))

theorem State.roomFrom_kept {s0 : State} {s : State} (p : Nat) (a0 : Nat) (a1 : Nat) (hkept : Kept s0 s) :
    Kept s0 (State.roomFrom s p a0 a1).1 := by
  induction a0 generalizing s a1 with
  | zero =>
    unfold State.roomFrom
    repeat' first
      | with_reducible exact hkept | with_reducible assumption | with_reducible apply State.roomInCol_kept
      | with_reducible apply Kept.of_fst (by with_reducible assumption) | split | dsimp only
      | with_reducible exact Kept.lit (by with_reducible assumption) | exact hkept | assumption
      | (with_reducible apply Kept.lit
         (first | with_reducible assumption | with_reducible apply State.roomInCol_kept))
  | succ k ih =>
    unfold State.roomFrom
    repeat' first
      | with_reducible exact hkept | with_reducible assumption | with_reducible apply ih
      | with_reducible apply State.roomInCol_kept
      | with_reducible apply Kept.of_fst (by with_reducible assumption) | split | dsimp only
      | with_reducible exact Kept.lit (by with_reducible assumption) | exact hkept | assumption
      | (with_reducible apply Kept.lit
         (first | with_reducible assumption | with_reducible apply State.roomInCol_kept))

theorem State.takeHoard_kept {s0 : State} {s : State} (p c : Nat) (hkept : Kept s0 s) :
    Kept s0 (State.takeHoard s p c).1 := by
  unfold State.takeHoard
  repeat' first
    | with_reducible exact hkept | with_reducible assumption | with_reducible apply State.roomFrom_kept
    | dsimp only | exact hkept | assumption

theorem State.scrubFrames_kept {s0 : State} {s : State} (p v : Nat) (hoard lpddr : Option Nat) (hkept : Kept s0 s) :
    Kept s0 (State.scrubFrames s p v hoard lpddr) := by
  unfold State.scrubFrames
  repeat' first
    | with_reducible exact hkept | with_reducible assumption
    | (extract_lets +onlyGivenNames y'; refine (fun (_ : Kept s0 y') => ?_) ?_; clear_value y'; revert y'; intro _ _; rotate_left; dsimp only [y']; clear y'; rotate_left)
    | ((fail_if_success (have := k_add)); extract_lets +onlyGivenNames y'; refine (fun (k_add : ∀ t' h' o', Kept s0 t' → Kept s0 (y' t' h' o')) => ?_) ?_; clear_value y'; revert y'; intro _ k_add; rotate_left; dsimp only [y']; clear y'; rotate_left)
    | (extract_lets +onlyGivenNames y'; clear_value y'; revert y'; intro _) | with_reducible apply k_add
    | with_reducible apply State.setHUse_kept | with_reducible apply State.setLUse_kept
    | with_reducible apply State.modFolio_kept | with_reducible apply Kept.ite | intro _ _ _ | intro _ _
    | intro _ | split | dsimp only | with_reducible exact Kept.lit (by with_reducible assumption) | exact hkept
    | assumption | exact rfl | exact Nat.le_refl _
    | (with_reducible apply Kept.lit
       (first | with_reducible assumption | with_reducible apply State.setHUse_kept
              | with_reducible apply State.setLUse_kept | with_reducible apply State.modFolio_kept))

theorem State.toScrub_kept {s0 : State} {s : State} (p v : Nat) (hkept : Kept s0 s) :
    Kept s0 (State.toScrub s p v) := by
  unfold State.toScrub
  repeat' first
    | with_reducible exact hkept | with_reducible assumption
    | (extract_lets +onlyGivenNames y'; refine (fun (_ : Kept s0 y') => ?_) ?_; clear_value y'; revert y'; intro _ _; rotate_left; dsimp only [y']; clear y'; rotate_left)
    | (extract_lets +onlyGivenNames y'; clear_value y'; revert y'; intro _)
    | with_reducible apply State.scrubFrames_kept | with_reducible apply State.setLeaf_kept
    | with_reducible apply Kept.ite | split | dsimp only | exact hkept | assumption

theorem State.zeroFrame_kept {s0 : State} {s : State} (hoard : Bool) (f : Nat) (hkept : Kept s0 s) :
    Kept s0 (State.zeroFrame s hoard f) := by
  unfold State.zeroFrame
  repeat' first
    | with_reducible exact hkept | with_reducible assumption
    | (extract_lets +onlyGivenNames y'; refine (fun (_ : Kept s0 y') => ?_) ?_; clear_value y'; revert y'; intro _ _; rotate_left; dsimp only [y']; clear y'; rotate_left)
    | (extract_lets +onlyGivenNames y'; refine (fun (_ : Kept s0 y'.2) => ?_) ?_; clear_value y'; revert y'; intro _ _; rotate_left; dsimp only [y']; clear y'; rotate_left)
    | (extract_lets +onlyGivenNames y'; clear_value y'; revert y'; intro _)
    | with_reducible apply State.modFolio_kept | with_reducible apply State.setHUse_kept
    | with_reducible apply State.free_kept | with_reducible apply State.setLUse_kept
    | with_reducible apply State.setLeaf_kept | with_reducible apply Kept.of_snd (by with_reducible assumption)
    | with_reducible apply Kept.ite | exact Memory.wf_zero _ _ (by assumption) | intro _ _ _ | intro _ _
    | intro _ | split | dsimp only | with_reducible exact Kept.lit (by with_reducible assumption) | exact hkept
    | assumption | exact rfl | exact Nat.le_refl _
    | (with_reducible apply Kept.lit
       (first | with_reducible assumption | with_reducible apply State.modFolio_kept
              | with_reducible apply State.setHUse_kept | with_reducible apply State.free_kept
              | with_reducible apply State.setLUse_kept | with_reducible apply State.setLeaf_kept))

theorem State.finishScrub_kept {s0 : State} {s : State} (p v : Nat) (hkept : Kept s0 s) :
    Kept s0 (State.finishScrub s p v) := by
  unfold State.finishScrub
  repeat' first
    | with_reducible exact hkept | with_reducible assumption | with_reducible apply State.zeroFrame_kept
    | with_reducible apply Kept.foldl | with_reducible apply Kept.foldl_fst
    | with_reducible apply Kept.foldl_snd | intro _ _ _ | intro _ _ | intro _ | dsimp only | exact hkept
    | assumption

theorem State.allocFolio_kept {s0 : State} {s : State} (p v c wclass : Nat) (pin : Bool) (hkept : Kept s0 s) :
    (State.allocFolio s p v c wclass pin).Kept s0 := by
  unfold State.allocFolio
  repeat' first
    | with_reducible exact hkept | with_reducible assumption
    | (extract_lets +onlyGivenNames y'; refine (fun (_ : Kept s0 y') => ?_) ?_; clear_value y'; revert y'; intro _ _; rotate_left; dsimp only [y']; clear y'; rotate_left)
    | (extract_lets +onlyGivenNames y'; refine (fun (_ : Kept s0 y'.1) => ?_) ?_; clear_value y'; revert y'; intro _ _; rotate_left; dsimp only [y']; clear y'; rotate_left)
    | (extract_lets +onlyGivenNames y'; clear_value y'; revert y'; intro _)
    | with_reducible apply State.quotaErr_kept | with_reducible apply State.takeHoard_kept
    | with_reducible apply State.makeTable_kept | with_reducible apply State.setHUse_kept
    | with_reducible apply State.modFolio_kept | with_reducible apply State.setLeaf_kept
    | with_reducible apply Prep.ok_kept | with_reducible apply Prep.wait_kept
    | with_reducible apply Prep.fail_kept | with_reducible apply Prep.of_ok (by with_reducible assumption)
    | with_reducible apply Prep.of_wait (by with_reducible assumption)
    | with_reducible apply Prep.of_fail (by with_reducible assumption)
    | with_reducible apply Kept.of_fst (by with_reducible assumption) | with_reducible apply Kept.ite
    | with_reducible apply Prep.ite_kept | with_reducible apply Kept.foldl
    | with_reducible apply Kept.foldl_fst | with_reducible apply Kept.foldl_snd
    | exact Memory.wf_foldl _ _ (fun _ _ w => Memory.wf_zero _ _ w) (by assumption)
    | exact Memory.wf_zero _ _ (by assumption) | intro _ _ _ | intro _ _ | intro _ | split | dsimp only
    | with_reducible exact Kept.lit (by with_reducible assumption) | exact hkept | assumption | exact rfl
    | exact Nat.le_refl _
    | (with_reducible apply Kept.lit
       (first | with_reducible assumption | with_reducible apply State.quotaErr_kept
              | with_reducible apply State.takeHoard_kept | with_reducible apply State.makeTable_kept
              | with_reducible apply State.setHUse_kept | with_reducible apply State.modFolio_kept
              | with_reducible apply State.setLeaf_kept))

theorem State.askPeer_kept {s0 : State} {s : State} (p peer remote : Nat) (hkept : Kept s0 s) :
    Kept s0 (State.askPeer s p peer remote) := by
  unfold State.askPeer
  repeat' first
    | with_reducible exact hkept | with_reducible assumption
    | (extract_lets +onlyGivenNames y'; refine (fun (_ : Kept s0 y') => ?_) ?_; clear_value y'; revert y'; intro _ _; rotate_left; dsimp only [y']; clear y'; rotate_left)
    | (extract_lets +onlyGivenNames y'; refine (fun (_ : Kept s0 y'.2) => ?_) ?_; clear_value y'; revert y'; intro _ _; rotate_left; dsimp only [y']; clear y'; rotate_left)
    | (extract_lets +onlyGivenNames y'; clear_value y'; revert y'; intro _)
    | with_reducible apply State.takeFlow_kept | with_reducible apply State.queueMsg_kept | dsimp only
    | exact hkept | assumption

theorem State.startPeer_kept {s0 : State} {s : State} (m : Move) (peer : Nat) (hkept : Kept s0 s) :
    Kept s0 (State.startPeer s m peer) := by
  unfold State.startPeer
  repeat' first
    | with_reducible exact hkept | with_reducible assumption | with_reducible apply State.startMove_kept
    | dsimp only | with_reducible exact Kept.lit (by with_reducible assumption) | exact hkept | assumption
    | (with_reducible apply Kept.lit
       (first | with_reducible assumption | with_reducible apply State.startMove_kept))

theorem State.startFetch_kept {s0 : State} {s : State} (p v c : Nat) (waiters : List Nat) (stream : Bool) (hkept : Kept s0 s) :
    (State.startFetch s p v c waiters stream).Kept s0 := by
  unfold State.startFetch
  repeat' first
    | with_reducible exact hkept | with_reducible assumption
    | (extract_lets +onlyGivenNames y'; refine (fun (_ : Kept s0 y') => ?_) ?_; clear_value y'; revert y'; intro _ _; rotate_left; dsimp only [y']; clear y'; rotate_left)
    | (extract_lets +onlyGivenNames y'; refine (fun (_ : Kept s0 y'.1) => ?_) ?_; clear_value y'; revert y'; intro _ _; rotate_left; dsimp only [y']; clear y'; rotate_left)
    | (extract_lets +onlyGivenNames y'; clear_value y'; revert y'; intro _)
    | with_reducible apply State.takeHoard_kept | with_reducible apply State.setHUse_kept
    | with_reducible apply State.askPeer_kept | with_reducible apply State.startPeer_kept
    | with_reducible apply State.startMove_kept | with_reducible apply Prep.ok_kept
    | with_reducible apply Prep.wait_kept | with_reducible apply Prep.fail_kept
    | with_reducible apply Prep.of_ok (by with_reducible assumption)
    | with_reducible apply Prep.of_wait (by with_reducible assumption)
    | with_reducible apply Prep.of_fail (by with_reducible assumption)
    | with_reducible apply Kept.of_fst (by with_reducible assumption) | with_reducible apply Kept.ite
    | with_reducible apply Prep.ite_kept | split | dsimp only
    | with_reducible exact Kept.lit (by with_reducible assumption) | exact hkept | assumption
    | (with_reducible apply Kept.lit
       (first | with_reducible assumption | with_reducible apply State.takeHoard_kept
              | with_reducible apply State.setHUse_kept | with_reducible apply State.askPeer_kept
              | with_reducible apply State.startPeer_kept | with_reducible apply State.startMove_kept))

theorem State.setStream_kept {s0 : State} {s : State} (c i : Nat) (x : Stream) (hkept : Kept s0 s) :
    Kept s0 (State.setStream s c i x) := by
  unfold State.setStream
  repeat' first
    | with_reducible exact hkept | with_reducible assumption | with_reducible apply State.modFolio_kept
    | intro _ _ _ | intro _ _ | intro _ | dsimp only
    | with_reducible exact Kept.lit (by with_reducible assumption) | exact hkept | assumption | exact rfl
    | exact Nat.le_refl _
    | (with_reducible apply Kept.lit
       (first | with_reducible assumption | with_reducible apply State.modFolio_kept))

theorem State.streamsSee_kept {s0 : State} {s : State} (p c v : Nat) (hkept : Kept s0 s) :
    Kept s0 (State.streamsSee s p c v) := by
  unfold State.streamsSee
  repeat' first
    | with_reducible exact hkept | with_reducible assumption
    | (extract_lets +onlyGivenNames y'; refine (fun (_ : Kept s0 y') => ?_) ?_; clear_value y'; revert y'; intro _ _; rotate_left; dsimp only [y']; clear y'; rotate_left)
    | (extract_lets +onlyGivenNames y'; clear_value y'; revert y'; intro _)
    | with_reducible apply State.setStream_kept | with_reducible apply State.release_kept
    | with_reducible apply State.modLeaf_kept | with_reducible apply Kept.ite | with_reducible apply Kept.foldl
    | with_reducible apply Kept.foldl_fst | with_reducible apply Kept.foldl_snd | intro _ _ _ | intro _ _
    | intro _ | split | dsimp only | with_reducible exact Kept.lit (by with_reducible assumption) | exact hkept
    | assumption
    | (with_reducible apply Kept.lit
       (first | with_reducible assumption | with_reducible apply State.setStream_kept
              | with_reducible apply State.release_kept | with_reducible apply State.modLeaf_kept))

theorem State.touch_kept {s0 : State} {s : State} (p v : Nat) (hkept : Kept s0 s) :
    Kept s0 (State.touch s p v) := by
  unfold State.touch
  repeat' first
    | with_reducible exact hkept | with_reducible assumption | with_reducible apply State.modLeaf_kept
    | intro _ _ _ | intro _ _ | intro _ | dsimp only
    | with_reducible exact Kept.lit (by with_reducible assumption) | exact hkept | assumption
    | (with_reducible apply Kept.lit
       (first | with_reducible assumption | with_reducible apply State.modLeaf_kept))

theorem State.sawRead_kept {s0 : State} {s : State} (o : Op) (v : Nat) (hkept : Kept s0 s) :
    Kept s0 (State.sawRead s o v) := by
  unfold State.sawRead
  repeat' first
    | with_reducible exact hkept | with_reducible assumption
    | (extract_lets +onlyGivenNames y'; refine (fun (_ : Kept s0 y') => ?_) ?_; clear_value y'; revert y'; intro _ _; rotate_left; dsimp only [y']; clear y'; rotate_left)
    | (extract_lets +onlyGivenNames y'; clear_value y'; revert y'; intro _)
    | with_reducible apply State.touch_kept | with_reducible apply State.streamsSee_kept
    | with_reducible apply State.modOp_kept | with_reducible apply Kept.ite | intro _ _ _ | intro _ _ | intro _
    | split | dsimp only | with_reducible exact Kept.lit (by with_reducible assumption) | exact hkept
    | assumption
    | (with_reducible apply Kept.lit
       (first | with_reducible assumption | with_reducible apply State.touch_kept
              | with_reducible apply State.streamsSee_kept | with_reducible apply State.modOp_kept))

theorem State.classGate_kept {s0 : State} {s : State} (p v : Nat) (hkept : Kept s0 s) :
    (State.classGate s p v).Kept s0 := by
  unfold State.classGate
  repeat' first
    | with_reducible exact hkept | with_reducible assumption
    | (extract_lets +onlyGivenNames y'; refine (fun (_ : Kept s0 y') => ?_) ?_; clear_value y'; revert y'; intro _ _; rotate_left; dsimp only [y']; clear y'; rotate_left)
    | (extract_lets +onlyGivenNames y'; clear_value y'; revert y'; intro _)
    | with_reducible apply State.finishScrub_kept | with_reducible apply State.quotaErr_kept
    | with_reducible apply State.makeTable_kept | with_reducible apply State.setLeaf_kept
    | with_reducible apply Prep.ok_kept | with_reducible apply Prep.wait_kept
    | with_reducible apply Prep.fail_kept | with_reducible apply Prep.of_ok (by with_reducible assumption)
    | with_reducible apply Prep.of_wait (by with_reducible assumption)
    | with_reducible apply Prep.of_fail (by with_reducible assumption) | with_reducible apply Kept.ite
    | with_reducible apply Prep.ite_kept | with_reducible apply Kept.foldl
    | with_reducible apply Kept.foldl_fst | with_reducible apply Kept.foldl_snd | intro _ _ _ | intro _ _
    | intro _ | split | dsimp only | with_reducible exact Kept.lit (by with_reducible assumption) | exact hkept
    | assumption
    | (with_reducible apply Kept.lit
       (first | with_reducible assumption | with_reducible apply State.finishScrub_kept
              | with_reducible apply State.quotaErr_kept | with_reducible apply State.makeTable_kept
              | with_reducible apply State.setLeaf_kept))

theorem State.touchReadIn_kept {s0 : State} (o : Op) (v : Nat) {s : State} (hkept : Kept s0 s) :
    (State.touchReadIn o v s).Kept s0 := by
  unfold State.touchReadIn
  repeat' first
    | with_reducible exact hkept | with_reducible assumption | with_reducible apply State.prof_kept
    | (extract_lets +onlyGivenNames y'; refine (fun (_ : Kept s0 y') => ?_) ?_; clear_value y'; revert y'; intro _ _; rotate_left; dsimp only [y']; clear y'; rotate_left)
    | (extract_lets +onlyGivenNames y'; refine (fun (_ : y'.Kept s0) => ?_) ?_; clear_value y'; revert y'; intro _ _; rotate_left; dsimp only [y']; clear y'; rotate_left)
    | (extract_lets +onlyGivenNames y'; clear_value y'; revert y'; intro _)
    | with_reducible apply State.sawRead_kept | with_reducible apply State.startFetch_kept
    | with_reducible apply State.modMove_kept | with_reducible apply Prep.ok_kept
    | with_reducible apply Prep.wait_kept | with_reducible apply Prep.fail_kept
    | with_reducible apply Prep.of_ok (by with_reducible assumption)
    | with_reducible apply Prep.of_wait (by with_reducible assumption)
    | with_reducible apply Prep.of_fail (by with_reducible assumption) | with_reducible apply Kept.ite
    | with_reducible apply Prep.ite_kept | intro _ _ _ | intro _ _ | intro _ | split | dsimp only
    | with_reducible exact Kept.lit (by with_reducible assumption) | exact hkept | assumption
    | (with_reducible apply Kept.lit
       (first | with_reducible assumption | with_reducible apply State.prof_kept | with_reducible apply State.sawRead_kept
              | with_reducible apply State.startFetch_kept | with_reducible apply State.modMove_kept))

theorem State.touchRead_kept {s0 : State} {s : State} (o : Op) (v : Nat) (hkept : Kept s0 s) :
    (State.touchRead s o v).Kept s0 := by
  unfold State.touchRead
  repeat' first
    | with_reducible exact hkept | with_reducible assumption | with_reducible apply State.classGate_kept
    | with_reducible apply Prep.andThen_kept | with_reducible apply State.touchReadIn_kept
    | with_reducible apply Prep.ok_kept | with_reducible apply Prep.wait_kept
    | with_reducible apply Prep.fail_kept | with_reducible apply Prep.of_ok (by with_reducible assumption)
    | with_reducible apply Prep.of_wait (by with_reducible assumption)
    | with_reducible apply Prep.of_fail (by with_reducible assumption) | with_reducible apply Kept.ite
    | with_reducible apply Prep.ite_kept | intro _ _ _ | intro _ _ | intro _ | split | dsimp only | exact hkept
    | assumption

theorem State.touchWriteIn_kept {s0 : State} (o : Op) (w : Nat) (whole : Nat → Bool) (v : Nat) {s : State} (hkept : Kept s0 s) :
    (State.touchWriteIn o w whole v s).Kept s0 := by
  unfold State.touchWriteIn
  repeat' first
    | with_reducible exact hkept | with_reducible assumption | with_reducible apply State.prof_kept
    | (extract_lets +onlyGivenNames y'; refine (fun (_ : Kept s0 y') => ?_) ?_; clear_value y'; revert y'; intro _ _; rotate_left; dsimp only [y']; clear y'; rotate_left)
    | (extract_lets +onlyGivenNames y'; refine (fun (_ : y'.Kept s0) => ?_) ?_; clear_value y'; revert y'; intro _ _; rotate_left; dsimp only [y']; clear y'; rotate_left)
    | (extract_lets +onlyGivenNames y'; clear_value y'; revert y'; intro _)
    | with_reducible apply State.allocFolio_kept | with_reducible apply State.finishScrub_kept
    | with_reducible apply State.touch_kept | with_reducible apply State.startFetch_kept
    | with_reducible apply Prep.ok_kept | with_reducible apply Prep.wait_kept
    | with_reducible apply Prep.fail_kept | with_reducible apply Prep.of_ok (by with_reducible assumption)
    | with_reducible apply Prep.of_wait (by with_reducible assumption)
    | with_reducible apply Prep.of_fail (by with_reducible assumption) | with_reducible apply Kept.ite
    | with_reducible apply Prep.ite_kept | split | dsimp only
    | with_reducible exact Kept.lit (by with_reducible assumption) | exact hkept | assumption
    | (with_reducible apply Kept.lit
       (first | with_reducible assumption | with_reducible apply State.prof_kept | with_reducible apply State.allocFolio_kept
              | with_reducible apply State.finishScrub_kept | with_reducible apply State.touch_kept
              | with_reducible apply State.startFetch_kept))

theorem State.touchWrite_kept {s0 : State} (o : Op) (w : Nat) (whole : Nat → Bool) {s : State} (v : Nat) (hkept : Kept s0 s) :
    (State.touchWrite o w whole s v).Kept s0 := by
  unfold State.touchWrite
  repeat' first
    | with_reducible exact hkept | with_reducible assumption | with_reducible apply State.classGate_kept
    | with_reducible apply Prep.andThen_kept | with_reducible apply State.touchWriteIn_kept
    | with_reducible apply Prep.ok_kept | with_reducible apply Prep.wait_kept
    | with_reducible apply Prep.fail_kept | with_reducible apply Prep.of_ok (by with_reducible assumption)
    | with_reducible apply Prep.of_wait (by with_reducible assumption)
    | with_reducible apply Prep.of_fail (by with_reducible assumption) | with_reducible apply Kept.ite
    | with_reducible apply Prep.ite_kept | intro _ _ _ | intro _ _ | intro _ | split | dsimp only | exact hkept
    | assumption

theorem State.hold_kept {s0 : State} {s : State} (o : Op) (rs : List VRange) (hkept : Kept s0 s) :
    Kept s0 (State.hold s o rs) := by
  unfold State.hold
  repeat' first
    | with_reducible exact hkept | with_reducible assumption | with_reducible apply State.modOp_kept
    | intro _ _ _ | intro _ _ | intro _ | dsimp only
    | with_reducible exact Kept.lit (by with_reducible assumption) | exact hkept | assumption
    | (with_reducible apply Kept.lit
       (first | with_reducible assumption | with_reducible apply State.modOp_kept))

theorem State.prepare_kept {s0 : State} {s : State} (o : Op) (reads writes : List VRange) (w : Nat) (whole : Nat → Bool) (hkept : Kept s0 s) :
    (State.prepare s o reads writes w whole).Kept s0 := by
  unfold State.prepare
  repeat' first
    | with_reducible exact hkept | with_reducible assumption | with_reducible apply State.touchRead_kept
    | with_reducible apply State.hold_kept | with_reducible apply Prep.andThen_kept
    | with_reducible apply State.touchWrite_kept | with_reducible apply prepAll_kept
    | with_reducible apply Prep.ok_kept | with_reducible apply Prep.wait_kept
    | with_reducible apply Prep.fail_kept | with_reducible apply Prep.of_ok (by with_reducible assumption)
    | with_reducible apply Prep.of_wait (by with_reducible assumption)
    | with_reducible apply Prep.of_fail (by with_reducible assumption) | intro _ _ _ | intro _ _ | intro _
    | dsimp only | exact hkept | assumption

theorem State.lpddrSeal_kept {s0 : State} {s : State} (p v g f k : Nat) (plain : Bytes) (hkept : Kept s0 s) :
    Kept s0 (State.lpddrSeal s p v g f k plain) := by
  unfold State.lpddrSeal
  repeat' first
    | with_reducible exact hkept | with_reducible assumption
    | (extract_lets +onlyGivenNames y'; refine (fun (_ : Kept s0 y') => ?_) ?_; clear_value y'; revert y'; intro _ _; rotate_left; dsimp only [y']; clear y'; rotate_left)
    | (extract_lets +onlyGivenNames y'; clear_value y'; revert y'; intro _)
    | with_reducible apply State.modFolio_kept | exact Memory.wf_write _ _ (by assumption) | intro _ _ _
    | intro _ _ | intro _ | dsimp only | with_reducible exact Kept.lit (by with_reducible assumption)
    | exact hkept | assumption | exact rfl | exact Nat.le_refl _
    | (with_reducible apply Kept.lit
       (first | with_reducible assumption | with_reducible apply State.modFolio_kept))

theorem State.hostSeal_kept {s0 : State} {s : State} (p v g home : Nat) (plain : Bytes) (hkept : Kept s0 s) :
    Kept s0 (State.hostSeal s p v g home plain) := by
  unfold State.hostSeal
  repeat' first
    | with_reducible exact hkept | with_reducible assumption
    | with_reducible refine Kept.lit_hostMem (by with_reducible assumption) ?_
    | (with_reducible apply Kept.hostMem
       (first | with_reducible assumption))
    | exact Memory.wf_write _ _ (by assumption) | intro _ _ _ | intro _ _ | intro _ | dsimp only
    | with_reducible exact Kept.lit (by with_reducible assumption) | exact hkept | assumption

theorem State.folioWrite_kept {s0 : State} {s : State} (p tag v off : Nat) (bs : Bytes) (hkept : Kept s0 s) :
    Kept s0 (State.folioWrite s p tag v off bs) := by
  unfold State.folioWrite
  repeat' first
    | with_reducible exact hkept | with_reducible assumption
    | (extract_lets +onlyGivenNames y'; refine (fun (_ : Kept s0 y') => ?_) ?_; clear_value y'; revert y'; intro _ _; rotate_left; dsimp only [y']; clear y'; rotate_left)
    | (extract_lets +onlyGivenNames y'; clear_value y'; revert y'; intro _)
    | with_reducible apply State.touch_kept | with_reducible apply State.modMove_kept
    | with_reducible apply State.modFolio_kept | with_reducible apply State.setLeaf_kept
    | with_reducible apply Kept.ite | exact Memory.wf_write _ _ (by assumption) | intro _ _ _ | intro _ _
    | intro _ | split | dsimp only | with_reducible exact Kept.lit (by with_reducible assumption) | exact hkept
    | assumption | exact rfl | exact Nat.le_refl _
    | (with_reducible apply Kept.lit
       (first | with_reducible assumption | with_reducible apply State.touch_kept
              | with_reducible apply State.modMove_kept | with_reducible apply State.modFolio_kept
              | with_reducible apply State.setLeaf_kept))

theorem State.writeVaN_kept {s0 : State} (p tag : Nat) (a0 : Nat) {a1 : State} (a2 : Nat) (a3 : Bytes) (hkept : Kept s0 a1) :
    Kept s0 (State.writeVaN p tag a0 a1 a2 a3) := by
  induction a0 generalizing a1 a2 a3 with
  | zero =>
    unfold State.writeVaN
    repeat' first
      | with_reducible exact hkept | with_reducible assumption
      | (extract_lets +onlyGivenNames y'; refine (fun (_ : Kept s0 y') => ?_) ?_; clear_value y'; revert y'; intro _ _; rotate_left; dsimp only [y']; clear y'; rotate_left)
      | (extract_lets +onlyGivenNames y'; clear_value y'; revert y'; intro _)
      | with_reducible apply State.folioWrite_kept | with_reducible apply Kept.ite | split | dsimp only
      | exact hkept | assumption
  | succ k ih =>
    unfold State.writeVaN
    repeat' first
      | with_reducible exact hkept | with_reducible assumption | with_reducible apply ih
      | (extract_lets +onlyGivenNames y'; refine (fun (_ : Kept s0 y') => ?_) ?_; clear_value y'; revert y'; intro _ _; rotate_left; dsimp only [y']; clear y'; rotate_left)
      | (extract_lets +onlyGivenNames y'; clear_value y'; revert y'; intro _)
      | with_reducible apply State.folioWrite_kept | with_reducible apply Kept.ite | split | dsimp only
      | exact hkept | assumption

theorem State.writeVa_kept {s0 : State} {s : State} (p tag va : Nat) (bs : Bytes) (hkept : Kept s0 s) :
    Kept s0 (State.writeVa s p tag va bs) := by
  unfold State.writeVa
  repeat' first
    | with_reducible exact hkept | with_reducible assumption | with_reducible apply State.writeVaN_kept
    | dsimp only | exact hkept | assumption

theorem State.retireGens_kept {s0 : State} {s : State} (p : Nat) (hkept : Kept s0 s) :
    Kept s0 (State.retireGens s p) := by
  unfold State.retireGens
  repeat' first
    | with_reducible exact hkept | with_reducible assumption | with_reducible apply State.zeroise_kept
    | with_reducible apply State.modPart_kept | with_reducible apply Kept.ite | with_reducible apply Kept.foldl
    | with_reducible apply Kept.foldl_fst | with_reducible apply Kept.foldl_snd | intro _ _ _ | intro _ _
    | intro _ | split | dsimp only | with_reducible exact Kept.lit (by with_reducible assumption) | exact hkept
    | assumption
    | (with_reducible apply Kept.lit
       (first | with_reducible assumption | with_reducible apply State.zeroise_kept
              | with_reducible apply State.modPart_kept))

theorem State.failTags_kept {s0 : State} {s : State} (p : Nat) (tags : List Nat) (status : Nat) (hkept : Kept s0 s) :
    Kept s0 (State.failTags s p tags status) := by
  unfold State.failTags
  repeat' first
    | with_reducible exact hkept | with_reducible assumption | with_reducible apply State.endOpCycles_kept
    | with_reducible apply Kept.ite | with_reducible apply Kept.foldl | with_reducible apply Kept.foldl_fst
    | with_reducible apply Kept.foldl_snd | intro _ _ _ | intro _ _ | intro _ | split | dsimp only
    | with_reducible exact Kept.lit (by with_reducible assumption) | exact hkept | assumption
    | (with_reducible apply Kept.lit
       (first | with_reducible assumption | with_reducible apply State.endOpCycles_kept))

theorem State.endMove_kept {s0 : State} {s : State} (m : Move) (hkept : Kept s0 s) :
    Kept s0 (State.endMove s m) := by
  unfold State.endMove
  repeat' first
    | with_reducible exact hkept | with_reducible assumption | with_reducible apply State.modFolio_kept
    | intro _ _ _ | intro _ _ | intro _ | dsimp only
    | with_reducible exact Kept.lit (by with_reducible assumption) | exact hkept | assumption | exact rfl
    | exact Nat.le_refl _
    | (with_reducible apply Kept.lit
       (first | with_reducible assumption | with_reducible apply State.modFolio_kept))

theorem State.abandonMove_kept {s0 : State} {s : State} (m : Move) (hkept : Kept s0 s) :
    Kept s0 (State.abandonMove s m) := by
  unfold State.abandonMove
  repeat' first
    | with_reducible exact hkept | with_reducible assumption
    | (extract_lets +onlyGivenNames y'; refine (fun (_ : Kept s0 y') => ?_) ?_; clear_value y'; revert y'; intro _ _; rotate_left; dsimp only [y']; clear y'; rotate_left)
    | (extract_lets +onlyGivenNames y'; refine (fun (_ : Kept s0 y'.2) => ?_) ?_; clear_value y'; revert y'; intro _ _; rotate_left; dsimp only [y']; clear y'; rotate_left)
    | (extract_lets +onlyGivenNames y'; clear_value y'; revert y'; intro _)
    | with_reducible apply State.setHUse_kept | with_reducible apply State.free_kept
    | with_reducible apply State.setLUse_kept | with_reducible apply State.endMove_kept
    | with_reducible apply State.setLeaf_kept | with_reducible apply Kept.of_snd (by with_reducible assumption)
    | with_reducible apply Kept.ite | split | dsimp only
    | with_reducible exact Kept.lit (by with_reducible assumption) | exact hkept | assumption
    | (with_reducible apply Kept.lit
       (first | with_reducible assumption | with_reducible apply State.setHUse_kept
              | with_reducible apply State.free_kept | with_reducible apply State.setLUse_kept
              | with_reducible apply State.endMove_kept | with_reducible apply State.setLeaf_kept))

theorem State.applyHeld_kept {s0 : State} {s : State} (m : Move) (col : Nat) (hkept : Kept s0 s) :
    Kept s0 (State.applyHeld s m col) := by
  unfold State.applyHeld
  repeat' first
    | with_reducible exact hkept | with_reducible assumption | with_reducible apply State.prof_kept
    | (extract_lets +onlyGivenNames y'; refine (fun (_ : Kept s0 y') => ?_) ?_; clear_value y'; revert y'; intro _ _; rotate_left; dsimp only [y']; clear y'; rotate_left)
    | (extract_lets +onlyGivenNames y'; refine (fun (_ : y'.Kept s0) => ?_) ?_; clear_value y'; revert y'; intro _ _; rotate_left; dsimp only [y']; clear y'; rotate_left)
    | (extract_lets +onlyGivenNames y'; clear_value y'; revert y'; intro _)
    | with_reducible apply State.folioWrite_kept | with_reducible apply State.startFetch_kept
    | with_reducible apply State.modMove_kept | with_reducible apply State.startMove_kept
    | with_reducible apply State.failTags_kept | with_reducible apply Prep.ok_kept
    | with_reducible apply Prep.wait_kept | with_reducible apply Prep.fail_kept
    | with_reducible apply Prep.of_ok (by with_reducible assumption)
    | with_reducible apply Prep.of_wait (by with_reducible assumption)
    | with_reducible apply Prep.of_fail (by with_reducible assumption) | with_reducible apply Kept.ite
    | with_reducible apply Kept.foldl | with_reducible apply Kept.foldl_fst
    | with_reducible apply Kept.foldl_snd | intro _ _ _ | intro _ _ | intro _ | split | dsimp only
    | with_reducible exact Kept.lit (by with_reducible assumption) | exact hkept | assumption
    | (with_reducible apply Kept.lit
       (first | with_reducible assumption | with_reducible apply State.prof_kept | with_reducible apply State.folioWrite_kept
              | with_reducible apply State.startFetch_kept | with_reducible apply State.modMove_kept
              | with_reducible apply State.startMove_kept | with_reducible apply State.failTags_kept))

/-- A frame zeroed and written keeps the form of its memory. -/
theorem Memory.wf_fill (bs : Bytes) {m : Tab Byte} (a n : Nat) (w : Memory.wf m = true) :
    Memory.wf (Mem.write (Mem.zero m a n) a bs) = true := Memory.wf_write _ _ (Memory.wf_zero _ _ w)

theorem State.fillHoard_kept {s0 s : State} (a n : Nat) (bs : Bytes) (h : Kept s0 s) :
    Kept s0 (s.modFolio (fun y => { y with hoard := Mem.write (Mem.zero y.hoard a n) a bs })) :=
  State.modFolio_kept _ h (fun _ w => Memory.wf_fill _ _ _ w) (fun _ w => w)

theorem State.pullCopy_kept {s0 s : State} (p v : Nat) (h : Kept s0 s) : Kept s0 (State.pullCopy s p v) := by
  unfold State.pullCopy
  split
  · exact h
  · split
    · exact h
    · split
      · rename_i e
        exact Kept.of_fst e (State.takeHoard_kept _ _ h)
      · rename_i e
        have k := Kept.of_fst e (State.takeHoard_kept _ _ h)
        dsimp only
        with_reducible apply State.setLeaf_kept
        with_reducible apply State.fillHoard_kept
        exact State.setHUse_kept _ _ k

theorem State.profMove_kept {s0 : State} {s : State} (l : Leaf) (m : Move) (hkept : Kept s0 s) :
    Kept s0 (State.profMove s l m) := by
  unfold State.profMove
  repeat' first
    | with_reducible exact hkept | with_reducible assumption
    | (extract_lets +onlyGivenNames y'; refine (fun (_ : Kept s0 y') => ?_) ?_; clear_value y'; revert y'; intro _ _; rotate_left; dsimp only [y']; clear y'; rotate_left)
    | (extract_lets +onlyGivenNames y'; refine (fun (_ : Kept s0 y'.2) => ?_) ?_; clear_value y'; revert y'; intro _ _; rotate_left; dsimp only [y']; clear y'; rotate_left)
    | (extract_lets +onlyGivenNames y'; clear_value y'; revert y'; intro _)
    | with_reducible apply State.prof_kept
    | with_reducible apply Kept.ite | with_reducible apply Kept.foldl | with_reducible apply Kept.foldl_fst
    | with_reducible apply Kept.foldl_snd | intro _ _ _ | intro _ _ | intro _ | split | dsimp only
    | exact hkept | assumption

theorem State.commitMove_kept {s0 : State} {s : State} (m : Move) (h : Kept s0 s) :
    Kept s0 (State.commitMove s m) := by
  have e := State.endMove_kept m h
  unfold State.commitMove
  dsimp only
  with_reducible apply State.retireGens_kept
  with_reducible apply State.applyHeld_kept
  with_reducible apply State.profMove_kept
  cases m.kind <;> dsimp only
  · with_reducible apply State.setLeaf_kept
    split
    · with_reducible apply State.fillHoard_kept
      exact e
    · with_reducible apply State.fillHoard_kept
      exact e
    · exact e
    · exact e
  · with_reducible apply State.setLeaf_kept
    with_reducible apply State.setHUse_kept
    split
    · exact State.hostSeal_kept _ _ _ _ _ e
    · exact State.lpddrSeal_kept _ _ _ _ _ _ e
  · split
    · with_reducible apply State.setLeaf_kept
      with_reducible apply State.setLUse_kept
      split
      · exact State.modFolio_kept _ e (fun _ w => w) (fun _ w => Memory.wf_copy _ _ _ _ w)
      · exact State.lpddrSeal_kept _ _ _ _ _ _ e
    · split
      · with_reducible apply State.setLeaf_kept
        exact State.lpddrSeal_kept _ _ _ _ _ _ e
      · split
        · with_reducible apply State.setLeaf_kept
          exact State.hostSeal_kept _ _ _ _ _ e
        · exact State.setLeaf_kept _ _ _ e
  · with_reducible apply State.setLeaf_kept
    with_reducible apply State.setHUse_kept
    exact State.modFolio_kept _ e (fun _ w => Memory.wf_copy _ _ _ _ w) (fun _ w => w)
  · with_reducible apply State.modPart_kept
    with_reducible apply State.queueMsg_kept
    with_reducible apply State.pullCopy_kept
    with_reducible apply State.setLeaf_kept
    split
    · exact State.setHUse_kept _ _ e
    · exact e

theorem State.retireFolio_kept {s0 : State} {s : State} (p v : Nat) (hkept : Kept s0 s) :
    Kept s0 (State.retireFolio s p v) := by
  unfold State.retireFolio
  repeat' first
    | with_reducible exact hkept | with_reducible assumption
    | (extract_lets +onlyGivenNames y'; refine (fun (_ : Kept s0 y') => ?_) ?_; clear_value y'; revert y'; intro _ _; rotate_left; dsimp only [y']; clear y'; rotate_left)
    | ((fail_if_success (have := k_add)); extract_lets +onlyGivenNames y'; refine (fun (k_add : ∀ t' h' o', Kept s0 t' → Kept s0 (y' t' h' o')) => ?_) ?_; clear_value y'; revert y'; intro _ k_add; rotate_left; dsimp only [y']; clear y'; rotate_left)
    | (extract_lets +onlyGivenNames y'; clear_value y'; revert y'; intro _) | with_reducible apply k_add
    | with_reducible apply State.setHUse_kept | with_reducible apply State.setLUse_kept
    | with_reducible apply State.modFolio_kept | with_reducible apply State.setLeaf_kept
    | with_reducible apply State.retireGens_kept | with_reducible apply Kept.ite | intro _ _ _ | intro _ _
    | intro _ | split | dsimp only | with_reducible exact Kept.lit (by with_reducible assumption) | exact hkept
    | assumption | exact rfl | exact Nat.le_refl _
    | (with_reducible apply Kept.lit
       (first | with_reducible assumption | with_reducible apply State.setHUse_kept
              | with_reducible apply State.setLUse_kept | with_reducible apply State.modFolio_kept
              | with_reducible apply State.setLeaf_kept | with_reducible apply State.retireGens_kept))

theorem State.restoreHome_kept {s0 : State} {s : State} (p v : Nat) (hkept : Kept s0 s) :
    Kept s0 (State.restoreHome s p v) := by
  unfold State.restoreHome
  repeat' first
    | with_reducible exact hkept | with_reducible assumption
    | (extract_lets +onlyGivenNames y'; refine (fun (_ : Kept s0 y') => ?_) ?_; clear_value y'; revert y'; intro _ _; rotate_left; dsimp only [y']; clear y'; rotate_left)
    | (extract_lets +onlyGivenNames y'; clear_value y'; revert y'; intro _)
    | with_reducible apply State.lpddrSeal_kept | with_reducible apply State.modLeaf_kept | intro _ _ _
    | intro _ _ | intro _ | dsimp only | with_reducible exact Kept.lit (by with_reducible assumption)
    | exact hkept | assumption
    | (with_reducible apply Kept.lit
       (first | with_reducible assumption | with_reducible apply State.lpddrSeal_kept
              | with_reducible apply State.modLeaf_kept))

theorem State.loseMove_kept {s0 : State} {s : State} (m : Move) (hkept : Kept s0 s) :
    Kept s0 (State.loseMove s m) := by
  unfold State.loseMove
  repeat' first
    | with_reducible exact hkept | with_reducible assumption
    | (extract_lets +onlyGivenNames y'; refine (fun (_ : Kept s0 y') => ?_) ?_; clear_value y'; revert y'; intro _ _; rotate_left; dsimp only [y']; clear y'; rotate_left)
    | ((fail_if_success (have := k_lp)); extract_lets +onlyGivenNames y'; refine (fun (k_lp : ∀ t', Kept s0 t' → Kept s0 (y' t')) => ?_) ?_; clear_value y'; revert y'; intro _ k_lp; rotate_left; dsimp only [y']; clear y'; rotate_left)
    | ((fail_if_success (have := k_hd)); extract_lets +onlyGivenNames y'; refine (fun (k_hd : ∀ t', Kept s0 t' → Kept s0 (y' t')) => ?_) ?_; clear_value y'; revert y'; intro _ k_hd; rotate_left; dsimp only [y']; clear y'; rotate_left)
    | (extract_lets +onlyGivenNames y'; clear_value y'; revert y'; intro _) | with_reducible apply k_lp
    | with_reducible apply k_hd | with_reducible apply State.addErr_kept
    | with_reducible apply State.abandonMove_kept | with_reducible apply State.retireFolio_kept
    | with_reducible apply State.restoreHome_kept | with_reducible apply State.dropCopy_kept
    | with_reducible apply State.failTags_kept | with_reducible apply State.retireGens_kept
    | with_reducible apply Kept.ite | intro _ _ _ | intro _ _ | intro _ | split | dsimp only
    | with_reducible exact Kept.lit (by with_reducible assumption) | exact hkept | assumption
    | (with_reducible apply Kept.lit
       (first | with_reducible assumption | with_reducible apply State.addErr_kept
              | with_reducible apply State.abandonMove_kept | with_reducible apply State.retireFolio_kept
              | with_reducible apply State.restoreHome_kept | with_reducible apply State.dropCopy_kept
              | with_reducible apply State.failTags_kept | with_reducible apply State.retireGens_kept))

end Sys2Proof.Machine
end

