-- ==== Sys2Proof/Laws/KeptEvidence.lean ====
section
/-!
SUPPORT. Laws/KeptEvidence.lean: what the operations of Machine/Evidence.lean keep of a state (Laws/Kept.lean).
-/
namespace Sys2Proof.Machine

theorem State.markSince_kept {s0 : State} {s : State} (hkept : Kept s0 s) :
    Kept s0 (State.markSince s) := by
  unfold State.markSince
  repeat' first
    | with_reducible exact hkept | with_reducible assumption | with_reducible apply State.modPart_kept
    | with_reducible apply Kept.foldl | with_reducible apply Kept.foldl_fst
    | with_reducible apply Kept.foldl_snd | intro _ _ _ | intro _ _ | intro _ | dsimp only
    | with_reducible exact Kept.lit (by with_reducible assumption) | exact hkept | assumption
    | (with_reducible apply Kept.lit
       (first | with_reducible assumption | with_reducible apply State.modPart_kept))

theorem State.markReach_kept {s0 : State} {s : State} (p mask : Nat) (hkept : Kept s0 s) :
    Kept s0 (State.markReach s p mask) := by
  unfold State.markReach
  repeat' first
    | with_reducible exact hkept | with_reducible assumption | with_reducible apply State.modPart_kept
    | intro _ _ _ | intro _ _ | intro _ | dsimp only
    | with_reducible exact Kept.lit (by with_reducible assumption) | exact hkept | assumption
    | (with_reducible apply Kept.lit
       (first | with_reducible assumption | with_reducible apply State.modPart_kept))

end Sys2Proof.Machine
end

