-- ==== Sys2Proof/Laws/KeptFolio.lean ====
section
/-!
SUPPORT. Laws/KeptFolio.lean: what the operations of Machine/Folio.lean keep of a state (Laws/Kept.lean).
-/
namespace Sys2Proof.Machine

theorem State.runOp_kept {s0 : State} {s : State} (p tag oc : Nat) (body : Op → State) (hkept : Kept s0 s) (hbody : ∀ x0, Kept s0 (body x0)) :
    Kept s0 (State.runOp s p tag oc body) := by
  unfold State.runOp
  repeat' first
    | with_reducible exact hkept | with_reducible assumption | with_reducible apply hbody | intro _ _ _
    | intro _ _ | intro _ | split | dsimp only | with_reducible exact Kept.lit (by with_reducible assumption)
    | exact hkept | assumption

theorem Prep.finish_kept {s0 : State} {r : Prep} (o : Op) (work : State → State) (hr : r.Kept s0) (hwork : ∀ x0, Machine.Kept s0 x0 → Machine.Kept s0 (work x0)) :
    Machine.Kept s0 (Prep.finish r o work) := by
  unfold Prep.finish
  repeat' first
    | with_reducible exact hkept | with_reducible assumption | with_reducible apply hwork
    | with_reducible apply State.endOpCycles_kept | with_reducible apply Prep.ok_kept
    | with_reducible apply Prep.wait_kept | with_reducible apply Prep.fail_kept
    | with_reducible apply Prep.of_ok (by with_reducible assumption)
    | with_reducible apply Prep.of_wait (by with_reducible assumption)
    | with_reducible apply Prep.of_fail (by with_reducible assumption) | intro _ _ _ | intro _ _ | intro _
    | split | dsimp only | with_reducible exact Kept.lit (by with_reducible assumption) | exact hkept
    | assumption
    | (with_reducible apply Kept.lit
       (first | with_reducible assumption | with_reducible apply State.endOpCycles_kept))

/-- Every state that a folio step gives keeps what is asked. -/
def FolStep.Kept (s0 : State) : FolStep → Prop
  | .did t => Machine.Kept s0 t
  | .same t => Machine.Kept s0 t
  | .wait t => Machine.Kept s0 t
  | .fail t _ => Machine.Kept s0 t

theorem FolStep.did_kept {s0 t : State} (h : Machine.Kept s0 t) : (FolStep.did t).Kept s0 := h

theorem FolStep.of_did {s0 t : State} {r : FolStep} (e : r = .did t) (h : r.Kept s0) : Machine.Kept s0 t := by
  subst e; exact h

theorem FolStep.same_kept {s0 t : State} (h : Machine.Kept s0 t) : (FolStep.same t).Kept s0 := h

theorem FolStep.of_same {s0 t : State} {r : FolStep} (e : r = .same t) (h : r.Kept s0) : Machine.Kept s0 t := by
  subst e; exact h

theorem FolStep.wait_kept {s0 t : State} (h : Machine.Kept s0 t) : (FolStep.wait t).Kept s0 := h

theorem FolStep.of_wait {s0 t : State} {r : FolStep} (e : r = .wait t) (h : r.Kept s0) : Machine.Kept s0 t := by
  subst e; exact h

theorem FolStep.fail_kept {s0 t : State} (st : Nat) (h : Machine.Kept s0 t) : (FolStep.fail t st).Kept s0 := h

theorem FolStep.of_fail {s0 t : State} {r : FolStep} {st : Nat} (e : r = .fail t st) (h : r.Kept s0) :
    Machine.Kept s0 t := by
  subst e; exact h

theorem FolStep.ite_kept {s0 : State} {p : Prop} [Decidable p] {a b : FolStep} (h : a.Kept s0) (k : b.Kept s0) :
    (if p then a else b).Kept s0 := by split <;> assumption

theorem folioLoop_kept {s0 : State} (g : State → Nat → FolStep) (p tag : Nat) (a0 : List Nat) {a1 : State} (hkept : Kept s0 a1) (hg : ∀ x0 x1, Kept s0 x0 → (g x0 x1).Kept s0) :
    Kept s0 (folioLoop g p tag a0 a1) := by
  induction a0 generalizing a1 with
  | nil =>
    unfold folioLoop
    repeat' first
      | with_reducible exact hkept | with_reducible assumption | with_reducible apply hg
      | with_reducible apply State.endOp_kept | with_reducible apply State.modOp_kept
      | with_reducible apply FolStep.did_kept | with_reducible apply FolStep.same_kept
      | with_reducible apply FolStep.wait_kept | with_reducible apply FolStep.fail_kept
      | with_reducible apply FolStep.of_did (by with_reducible assumption)
      | with_reducible apply FolStep.of_same (by with_reducible assumption)
      | with_reducible apply FolStep.of_wait (by with_reducible assumption)
      | with_reducible apply FolStep.of_fail (by with_reducible assumption) | with_reducible apply Kept.ite
      | intro _ _ _ | intro _ _ | intro _ | split | dsimp only
      | with_reducible exact Kept.lit (by with_reducible assumption) | exact hkept | assumption
      | (with_reducible apply Kept.lit
         (first | with_reducible assumption | with_reducible apply State.endOp_kept
                | with_reducible apply State.modOp_kept))
  | cons k l ih =>
    unfold folioLoop
    repeat' first
      | with_reducible exact hkept | with_reducible assumption | with_reducible apply ih
      | with_reducible apply hg | with_reducible apply State.endOp_kept | with_reducible apply State.modOp_kept
      | with_reducible apply FolStep.did_kept | with_reducible apply FolStep.same_kept
      | with_reducible apply FolStep.wait_kept | with_reducible apply FolStep.fail_kept
      | with_reducible apply FolStep.of_did (by with_reducible assumption)
      | with_reducible apply FolStep.of_same (by with_reducible assumption)
      | with_reducible apply FolStep.of_wait (by with_reducible assumption)
      | with_reducible apply FolStep.of_fail (by with_reducible assumption) | with_reducible apply Kept.ite
      | intro _ _ _ | intro _ _ | intro _ | split | dsimp only
      | with_reducible exact Kept.lit (by with_reducible assumption) | exact hkept | assumption
      | (with_reducible apply Kept.lit
         (first | with_reducible assumption | with_reducible apply State.endOp_kept
                | with_reducible apply State.modOp_kept))

theorem State.refuseOp_kept {s0 : State} {s : State} (o : Op) (status : Nat) (hkept : Kept s0 s) :
    Kept s0 (State.refuseOp s o status) := by
  unfold State.refuseOp
  repeat' first
    | with_reducible exact hkept | with_reducible assumption | with_reducible apply State.endOpCycles_kept
    | dsimp only | exact hkept | assumption

theorem State.folioOp_kept {s0 : State} {s : State} (o : Op) (g : State → Nat → FolStep) (hkept : Kept s0 s) (hg : ∀ x0 x1, Kept s0 x0 → (g x0 x1).Kept s0) :
    Kept s0 (State.folioOp s o g) := by
  unfold State.folioOp
  repeat' first
    | with_reducible exact hkept | with_reducible assumption | with_reducible apply hg
    | with_reducible apply State.refuseOp_kept | with_reducible apply folioLoop_kept
    | with_reducible apply FolStep.did_kept | with_reducible apply FolStep.same_kept
    | with_reducible apply FolStep.wait_kept | with_reducible apply FolStep.fail_kept
    | with_reducible apply FolStep.of_did (by with_reducible assumption)
    | with_reducible apply FolStep.of_same (by with_reducible assumption)
    | with_reducible apply FolStep.of_wait (by with_reducible assumption)
    | with_reducible apply FolStep.of_fail (by with_reducible assumption) | with_reducible apply Kept.ite
    | intro _ _ _ | intro _ _ | intro _ | split | dsimp only | exact hkept | assumption

theorem State.copyOp_kept {s0 : State} {s : State} (o : Op) (hkept : Kept s0 s) :
    Kept s0 (State.copyOp s o) := by
  unfold State.copyOp
  repeat' first
    | with_reducible exact hkept | with_reducible assumption
    | (extract_lets +onlyGivenNames y'; refine (fun (_ : Kept s0 y') => ?_) ?_; clear_value y'; revert y'; intro _ _; rotate_left; dsimp only [y']; clear y'; rotate_left)
    | (extract_lets +onlyGivenNames y'; refine (fun (_ : y'.Kept s0) => ?_) ?_; clear_value y'; revert y'; intro _ _; rotate_left; dsimp only [y']; clear y'; rotate_left)
    | (extract_lets +onlyGivenNames y'; clear_value y'; revert y'; intro _)
    | with_reducible apply State.refuseOp_kept | with_reducible apply State.prepare_kept
    | with_reducible apply Prep.finish_kept | with_reducible apply State.writeVa_kept
    | with_reducible apply State.endOp_kept | with_reducible apply Prep.ok_kept
    | with_reducible apply Prep.wait_kept | with_reducible apply Prep.fail_kept
    | with_reducible apply Prep.of_ok (by with_reducible assumption)
    | with_reducible apply Prep.of_wait (by with_reducible assumption)
    | with_reducible apply Prep.of_fail (by with_reducible assumption) | with_reducible apply Kept.ite
    | intro _ _ _ | intro _ _ | intro _ | split | dsimp only | exact hkept | assumption

theorem State.fillOp_kept {s0 : State} {s : State} (o : Op) (hkept : Kept s0 s) :
    Kept s0 (State.fillOp s o) := by
  unfold State.fillOp
  repeat' first
    | with_reducible exact hkept | with_reducible assumption
    | (extract_lets +onlyGivenNames y'; refine (fun (_ : Kept s0 y') => ?_) ?_; clear_value y'; revert y'; intro _ _; rotate_left; dsimp only [y']; clear y'; rotate_left)
    | (extract_lets +onlyGivenNames y'; refine (fun (_ : y'.Kept s0) => ?_) ?_; clear_value y'; revert y'; intro _ _; rotate_left; dsimp only [y']; clear y'; rotate_left)
    | (extract_lets +onlyGivenNames y'; clear_value y'; revert y'; intro _)
    | with_reducible apply State.refuseOp_kept | with_reducible apply State.prepare_kept
    | with_reducible apply Prep.finish_kept | with_reducible apply State.writeVa_kept
    | with_reducible apply State.endOp_kept | with_reducible apply Prep.ok_kept
    | with_reducible apply Prep.wait_kept | with_reducible apply Prep.fail_kept
    | with_reducible apply Prep.of_ok (by with_reducible assumption)
    | with_reducible apply Prep.of_wait (by with_reducible assumption)
    | with_reducible apply Prep.of_fail (by with_reducible assumption) | with_reducible apply Kept.ite
    | intro _ _ _ | intro _ _ | intro _ | split | dsimp only | exact hkept | assumption

theorem State.discardStep_kept {s0 : State} (o : Op) {s : State} (v : Nat) (hkept : Kept s0 s) :
    (State.discardStep o s v).Kept s0 := by
  unfold State.discardStep
  repeat' first
    | with_reducible exact hkept | with_reducible assumption | with_reducible apply State.toScrub_kept
    | with_reducible apply State.retireGens_kept | with_reducible apply FolStep.did_kept
    | with_reducible apply FolStep.same_kept | with_reducible apply FolStep.wait_kept
    | with_reducible apply FolStep.fail_kept
    | with_reducible apply FolStep.of_did (by with_reducible assumption)
    | with_reducible apply FolStep.of_same (by with_reducible assumption)
    | with_reducible apply FolStep.of_wait (by with_reducible assumption)
    | with_reducible apply FolStep.of_fail (by with_reducible assumption) | with_reducible apply Kept.ite
    | with_reducible apply FolStep.ite_kept | split | dsimp only
    | with_reducible exact Kept.lit (by with_reducible assumption) | exact hkept | assumption
    | (with_reducible apply Kept.lit
       (first | with_reducible assumption | with_reducible apply State.toScrub_kept
              | with_reducible apply State.retireGens_kept))

theorem State.discardOp_kept {s0 : State} {s : State} (o : Op) (hkept : Kept s0 s) :
    Kept s0 (State.discardOp s o) := by
  unfold State.discardOp
  repeat' first
    | with_reducible exact hkept | with_reducible assumption
    | (extract_lets +onlyGivenNames y'; refine (fun (_ : Kept s0 y') => ?_) ?_; clear_value y'; revert y'; intro _ _; rotate_left; dsimp only [y']; clear y'; rotate_left)
    | (extract_lets +onlyGivenNames y'; clear_value y'; revert y'; intro _)
    | with_reducible apply State.refuseOp_kept | with_reducible apply State.folioOp_kept
    | with_reducible apply State.discardStep_kept | with_reducible apply FolStep.did_kept
    | with_reducible apply FolStep.same_kept | with_reducible apply FolStep.wait_kept
    | with_reducible apply FolStep.fail_kept
    | with_reducible apply FolStep.of_did (by with_reducible assumption)
    | with_reducible apply FolStep.of_same (by with_reducible assumption)
    | with_reducible apply FolStep.of_wait (by with_reducible assumption)
    | with_reducible apply FolStep.of_fail (by with_reducible assumption) | with_reducible apply Kept.ite
    | split | dsimp only | exact hkept | assumption

theorem State.mapStep_kept {s0 : State} (o : Op) {s : State} (v : Nat) (hkept : Kept s0 s) :
    (State.mapStep o s v).Kept s0 := by
  unfold State.mapStep
  repeat' first
    | with_reducible exact hkept | with_reducible assumption
    | (extract_lets +onlyGivenNames y'; refine (fun (_ : Kept s0 y') => ?_) ?_; clear_value y'; revert y'; intro _ _; rotate_left; dsimp only [y']; clear y'; rotate_left)
    | (extract_lets +onlyGivenNames y'; clear_value y'; revert y'; intro _)
    | with_reducible apply State.quotaErr_kept | with_reducible apply State.makeTable_kept
    | with_reducible apply State.setLeaf_kept | with_reducible apply FolStep.did_kept
    | with_reducible apply FolStep.same_kept | with_reducible apply FolStep.wait_kept
    | with_reducible apply FolStep.fail_kept
    | with_reducible apply FolStep.of_did (by with_reducible assumption)
    | with_reducible apply FolStep.of_same (by with_reducible assumption)
    | with_reducible apply FolStep.of_wait (by with_reducible assumption)
    | with_reducible apply FolStep.of_fail (by with_reducible assumption) | with_reducible apply Kept.ite
    | with_reducible apply FolStep.ite_kept | with_reducible apply Kept.foldl
    | with_reducible apply Kept.foldl_fst | with_reducible apply Kept.foldl_snd | intro _ _ _ | intro _ _
    | intro _ | split | dsimp only | with_reducible exact Kept.lit (by with_reducible assumption) | exact hkept
    | assumption
    | (with_reducible apply Kept.lit
       (first | with_reducible assumption | with_reducible apply State.quotaErr_kept
              | with_reducible apply State.makeTable_kept | with_reducible apply State.setLeaf_kept))

theorem State.mapOp_kept {s0 : State} {s : State} (o : Op) (hkept : Kept s0 s) :
    Kept s0 (State.mapOp s o) := by
  unfold State.mapOp
  repeat' first
    | with_reducible exact hkept | with_reducible assumption
    | (extract_lets +onlyGivenNames y'; refine (fun (_ : Kept s0 y') => ?_) ?_; clear_value y'; revert y'; intro _ _; rotate_left; dsimp only [y']; clear y'; rotate_left)
    | (extract_lets +onlyGivenNames y'; clear_value y'; revert y'; intro _)
    | with_reducible apply State.refuseOp_kept | with_reducible apply State.folioOp_kept
    | with_reducible apply State.mapStep_kept | with_reducible apply FolStep.did_kept
    | with_reducible apply FolStep.same_kept | with_reducible apply FolStep.wait_kept
    | with_reducible apply FolStep.fail_kept
    | with_reducible apply FolStep.of_did (by with_reducible assumption)
    | with_reducible apply FolStep.of_same (by with_reducible assumption)
    | with_reducible apply FolStep.of_wait (by with_reducible assumption)
    | with_reducible apply FolStep.of_fail (by with_reducible assumption) | with_reducible apply Kept.ite
    | split | dsimp only | exact hkept | assumption

theorem State.streamOpenOp_kept {s0 : State} {s : State} (o : Op) (hkept : Kept s0 s) :
    Kept s0 (State.streamOpenOp s o) := by
  unfold State.streamOpenOp
  repeat' first
    | with_reducible exact hkept | with_reducible assumption
    | (extract_lets +onlyGivenNames y'; refine (fun (_ : Kept s0 y') => ?_) ?_; clear_value y'; revert y'; intro _ _; rotate_left; dsimp only [y']; clear y'; rotate_left)
    | (extract_lets +onlyGivenNames y'; clear_value y'; revert y'; intro _)
    | with_reducible apply State.refuseOp_kept | with_reducible apply State.setStream_kept
    | with_reducible apply State.endOp_kept | with_reducible apply Kept.ite | intro _ _ _ | intro _ _ | intro _
    | split | dsimp only | with_reducible exact Kept.lit (by with_reducible assumption) | exact hkept
    | assumption
    | (with_reducible apply Kept.lit
       (first | with_reducible assumption | with_reducible apply State.refuseOp_kept
              | with_reducible apply State.setStream_kept | with_reducible apply State.endOp_kept))

theorem State.streamCloseOp_kept {s0 : State} {s : State} (o : Op) (hkept : Kept s0 s) :
    Kept s0 (State.streamCloseOp s o) := by
  unfold State.streamCloseOp
  repeat' first
    | with_reducible exact hkept | with_reducible assumption
    | (extract_lets +onlyGivenNames y'; refine (fun (_ : Kept s0 y') => ?_) ?_; clear_value y'; revert y'; intro _ _; rotate_left; dsimp only [y']; clear y'; rotate_left)
    | (extract_lets +onlyGivenNames y'; clear_value y'; revert y'; intro _)
    | with_reducible apply State.refuseOp_kept | with_reducible apply State.setStream_kept
    | with_reducible apply State.endOp_kept | with_reducible apply Kept.ite | split | dsimp only
    | with_reducible exact Kept.lit (by with_reducible assumption) | exact hkept | assumption
    | (with_reducible apply Kept.lit
       (first | with_reducible assumption | with_reducible apply State.refuseOp_kept
              | with_reducible apply State.setStream_kept | with_reducible apply State.endOp_kept))

theorem State.closeStreams_kept {s0 : State} {s : State} (p : Nat) (hkept : Kept s0 s) :
    Kept s0 (State.closeStreams s p) := by
  unfold State.closeStreams
  repeat' first
    | with_reducible exact hkept | with_reducible assumption | with_reducible apply State.modFolio_kept
    | with_reducible apply Kept.ite | intro _ _ _ | intro _ _ | intro _ | split | dsimp only
    | with_reducible exact Kept.lit (by with_reducible assumption) | exact hkept | assumption | exact rfl
    | exact Nat.le_refl _
    | (with_reducible apply Kept.lit
       (first | with_reducible assumption | with_reducible apply State.modFolio_kept))

theorem State.pinHere_kept {s0 : State} (o : Op) {s : State} (v : Nat) (hkept : Kept s0 s) :
    (State.pinHere o s v).Kept s0 := by
  unfold State.pinHere
  repeat' first
    | with_reducible exact hkept | with_reducible assumption | with_reducible apply State.prof_kept
    | (extract_lets +onlyGivenNames y'; refine (fun (_ : Kept s0 y') => ?_) ?_; clear_value y'; revert y'; intro _ _; rotate_left; dsimp only [y']; clear y'; rotate_left)
    | ((fail_if_success (have := k_alloc)); extract_lets +onlyGivenNames y'; refine (fun (k_alloc : ∀ t', Kept s0 t' → (y' t').Kept s0) => ?_) ?_; clear_value y'; revert y'; intro _ k_alloc; rotate_left; dsimp only [y']; clear y'; rotate_left)
    | (extract_lets +onlyGivenNames y'; refine (fun (_ : y'.Kept s0) => ?_) ?_; clear_value y'; revert y'; intro _ _; rotate_left; dsimp only [y']; clear y'; rotate_left)
    | (extract_lets +onlyGivenNames y'; clear_value y'; revert y'; intro _) | with_reducible apply k_alloc
    | with_reducible apply State.allocFolio_kept | with_reducible apply State.finishScrub_kept
    | with_reducible apply State.setLeaf_kept | with_reducible apply State.startFetch_kept
    | with_reducible apply Prep.ok_kept | with_reducible apply Prep.wait_kept
    | with_reducible apply Prep.fail_kept | with_reducible apply Prep.of_ok (by with_reducible assumption)
    | with_reducible apply Prep.of_wait (by with_reducible assumption)
    | with_reducible apply Prep.of_fail (by with_reducible assumption) | with_reducible apply FolStep.did_kept
    | with_reducible apply FolStep.same_kept | with_reducible apply FolStep.wait_kept
    | with_reducible apply FolStep.fail_kept
    | with_reducible apply FolStep.of_did (by with_reducible assumption)
    | with_reducible apply FolStep.of_same (by with_reducible assumption)
    | with_reducible apply FolStep.of_wait (by with_reducible assumption)
    | with_reducible apply FolStep.of_fail (by with_reducible assumption) | with_reducible apply Kept.ite
    | with_reducible apply FolStep.ite_kept | intro _ _ _ | intro _ _ | intro _ | split | dsimp only
    | with_reducible exact Kept.lit (by with_reducible assumption) | exact hkept | assumption
    | (with_reducible apply Kept.lit
       (first | with_reducible assumption | with_reducible apply State.prof_kept | with_reducible apply State.allocFolio_kept
              | with_reducible apply State.finishScrub_kept | with_reducible apply State.setLeaf_kept
              | with_reducible apply State.startFetch_kept))

theorem State.pinStep_kept {s0 : State} (o : Op) {s : State} (v : Nat) (hkept : Kept s0 s) :
    (State.pinStep o s v).Kept s0 := by
  have h := State.classGate_kept o.part v hkept
  unfold State.pinStep
  split <;> rename_i e <;> rw [e] at h
  · exact State.pinHere_kept o v h
  · exact h
  · exact h

theorem State.expertOp_kept {s0 : State} {s : State} (o : Op) (ok : Bool) (g : State → Nat → FolStep) (hkept : Kept s0 s) (hg : ∀ x0 x1, Kept s0 x0 → (g x0 x1).Kept s0) :
    Kept s0 (State.expertOp s o ok g) := by
  unfold State.expertOp
  repeat' first
    | with_reducible exact hkept | with_reducible assumption | with_reducible apply hg
    | with_reducible apply State.refuseOp_kept | with_reducible apply State.folioOp_kept
    | with_reducible apply FolStep.did_kept | with_reducible apply FolStep.same_kept
    | with_reducible apply FolStep.wait_kept | with_reducible apply FolStep.fail_kept
    | with_reducible apply FolStep.of_did (by with_reducible assumption)
    | with_reducible apply FolStep.of_same (by with_reducible assumption)
    | with_reducible apply FolStep.of_wait (by with_reducible assumption)
    | with_reducible apply FolStep.of_fail (by with_reducible assumption) | with_reducible apply Kept.ite
    | intro _ _ _ | intro _ _ | intro _ | split | dsimp only | exact hkept | assumption

theorem State.unpinStep_kept {s0 : State} (o : Op) {s : State} (v : Nat) (hkept : Kept s0 s) :
    (State.unpinStep o s v).Kept s0 := by
  unfold State.unpinStep
  repeat' first
    | with_reducible exact hkept | with_reducible assumption
    | (extract_lets +onlyGivenNames y'; refine (fun (_ : Kept s0 y') => ?_) ?_; clear_value y'; revert y'; intro _ _; rotate_left; dsimp only [y']; clear y'; rotate_left)
    | (extract_lets +onlyGivenNames y'; clear_value y'; revert y'; intro _)
    | with_reducible apply State.setLeaf_kept | with_reducible apply FolStep.did_kept
    | with_reducible apply FolStep.same_kept | with_reducible apply FolStep.wait_kept
    | with_reducible apply FolStep.fail_kept
    | with_reducible apply FolStep.of_did (by with_reducible assumption)
    | with_reducible apply FolStep.of_same (by with_reducible assumption)
    | with_reducible apply FolStep.of_wait (by with_reducible assumption)
    | with_reducible apply FolStep.of_fail (by with_reducible assumption) | with_reducible apply Kept.ite
    | with_reducible apply FolStep.ite_kept | split | dsimp only
    | with_reducible exact Kept.lit (by with_reducible assumption) | exact hkept | assumption
    | (with_reducible apply Kept.lit
       (first | with_reducible assumption | with_reducible apply State.setLeaf_kept))

theorem State.placeStep_kept {s0 : State} (o : Op) {s : State} (v : Nat) (hkept : Kept s0 s) :
    (State.placeStep o s v).Kept s0 := by
  unfold State.placeStep
  repeat' first
    | with_reducible exact hkept | with_reducible assumption
    | (extract_lets +onlyGivenNames y'; refine (fun (_ : Kept s0 y') => ?_) ?_; clear_value y'; revert y'; intro _ _; rotate_left; dsimp only [y']; clear y'; rotate_left)
    | (extract_lets +onlyGivenNames y'; refine (fun (_ : Kept s0 y'.2) => ?_) ?_; clear_value y'; revert y'; intro _ _; rotate_left; dsimp only [y']; clear y'; rotate_left)
    | (extract_lets +onlyGivenNames y'; clear_value y'; revert y'; intro _)
    | with_reducible apply State.free_kept | with_reducible apply State.setHUse_kept
    | with_reducible apply State.startMove_kept | with_reducible apply State.askPeer_kept
    | with_reducible apply State.startPeer_kept | with_reducible apply State.quotaErr_kept
    | with_reducible apply State.setLUse_kept | with_reducible apply FolStep.did_kept
    | with_reducible apply FolStep.same_kept | with_reducible apply FolStep.wait_kept
    | with_reducible apply FolStep.fail_kept
    | with_reducible apply FolStep.of_did (by with_reducible assumption)
    | with_reducible apply FolStep.of_same (by with_reducible assumption)
    | with_reducible apply FolStep.of_wait (by with_reducible assumption)
    | with_reducible apply FolStep.of_fail (by with_reducible assumption)
    | with_reducible apply Kept.of_snd (by with_reducible assumption) | with_reducible apply Kept.ite
    | with_reducible apply FolStep.ite_kept | split | dsimp only
    | with_reducible exact Kept.lit (by with_reducible assumption) | exact hkept | assumption
    | (with_reducible apply Kept.lit
       (first | with_reducible assumption | with_reducible apply State.free_kept
              | with_reducible apply State.setHUse_kept | with_reducible apply State.startMove_kept
              | with_reducible apply State.askPeer_kept | with_reducible apply State.startPeer_kept
              | with_reducible apply State.quotaErr_kept | with_reducible apply State.setLUse_kept))

theorem State.evictStep_kept {s0 : State} (o : Op) {s : State} (v : Nat) (hkept : Kept s0 s) :
    (State.evictStep o s v).Kept s0 := by
  unfold State.evictStep
  repeat' first
    | with_reducible exact hkept | with_reducible assumption
    | (extract_lets +onlyGivenNames y'; refine (fun (_ : Kept s0 y') => ?_) ?_; clear_value y'; revert y'; intro _ _; rotate_left; dsimp only [y']; clear y'; rotate_left)
    | (extract_lets +onlyGivenNames y'; clear_value y'; revert y'; intro _)
    | with_reducible apply State.stage_kept | with_reducible apply State.dropCopy_kept
    | with_reducible apply FolStep.did_kept | with_reducible apply FolStep.same_kept
    | with_reducible apply FolStep.wait_kept | with_reducible apply FolStep.fail_kept
    | with_reducible apply FolStep.of_did (by with_reducible assumption)
    | with_reducible apply FolStep.of_same (by with_reducible assumption)
    | with_reducible apply FolStep.of_wait (by with_reducible assumption)
    | with_reducible apply FolStep.of_fail (by with_reducible assumption)
    | with_reducible apply State.startWriteback_kept (by with_reducible assumption)
    | with_reducible apply Kept.ite | with_reducible apply FolStep.ite_kept | intro _ _ _ | intro _ _ | intro _
    | split | dsimp only | with_reducible exact Kept.lit (by with_reducible assumption) | exact hkept
    | assumption
    | (with_reducible apply Kept.lit
       (first | with_reducible assumption | with_reducible apply State.stage_kept
              | with_reducible apply State.dropCopy_kept))

theorem State.flagLpddr_kept {s0 : State} {s : State} (hkept : Kept s0 s) :
    Kept s0 (State.flagLpddr s) := by
  unfold State.flagLpddr
  repeat' first
    | with_reducible exact hkept | with_reducible assumption
    | (extract_lets +onlyGivenNames y'; refine (fun (_ : Kept s0 y') => ?_) ?_; clear_value y'; revert y'; intro _ _; rotate_left; dsimp only [y']; clear y'; rotate_left)
    | (extract_lets +onlyGivenNames y'; clear_value y'; revert y'; intro _)
    | with_reducible apply State.modPart_kept | with_reducible apply Kept.ite | with_reducible apply Kept.foldl
    | with_reducible apply Kept.foldl_fst | with_reducible apply Kept.foldl_snd | intro _ _ _ | intro _ _
    | intro _ | split | dsimp only | with_reducible exact Kept.lit (by with_reducible assumption) | exact hkept
    | assumption
    | (with_reducible apply Kept.lit
       (first | with_reducible assumption | with_reducible apply State.modPart_kept))

theorem State.rehome_kept {s0 : State} {s : State} (p v : Nat) (hkept : Kept s0 s) :
    Kept s0 (State.rehome s p v) := by
  unfold State.rehome
  repeat' first
    | with_reducible exact hkept | with_reducible assumption
    | (extract_lets +onlyGivenNames y'; refine (fun (_ : Kept s0 y') => ?_) ?_; clear_value y'; revert y'; intro _ _; rotate_left; dsimp only [y']; clear y'; rotate_left)
    | (extract_lets +onlyGivenNames y'; clear_value y'; revert y'; intro _)
    | with_reducible apply State.setLUse_kept | with_reducible apply State.startMove_kept
    | with_reducible apply State.retireFolio_kept | with_reducible apply Kept.ite | split | dsimp only
    | with_reducible exact Kept.lit (by with_reducible assumption) | exact hkept | assumption
    | (with_reducible apply Kept.lit
       (first | with_reducible assumption | with_reducible apply State.setLUse_kept
              | with_reducible apply State.startMove_kept | with_reducible apply State.retireFolio_kept))

theorem State.leaveChannels_kept {s0 : State} {s : State} (hkept : Kept s0 s) :
    Kept s0 (State.leaveChannels s) := by
  unfold State.leaveChannels
  repeat' first
    | with_reducible exact hkept | with_reducible assumption
    | (extract_lets +onlyGivenNames y'; refine (fun (_ : Kept s0 y') => ?_) ?_; clear_value y'; revert y'; intro _ _; rotate_left; dsimp only [y']; clear y'; rotate_left)
    | (extract_lets +onlyGivenNames y'; clear_value y'; revert y'; intro _)
    | with_reducible apply State.rehome_kept | with_reducible apply Kept.ite | with_reducible apply Kept.foldl
    | with_reducible apply Kept.foldl_fst | with_reducible apply Kept.foldl_snd | intro _ _ _ | intro _ _
    | intro _ | split | dsimp only | exact hkept | assumption

theorem State.reissue_kept {s0 : State} (clean : Bool) {s : State} (m : Move) (hkept : Kept s0 s) :
    Kept s0 (State.reissue clean s m) := by
  unfold State.reissue
  repeat' first
    | with_reducible exact hkept | with_reducible assumption
    | (extract_lets +onlyGivenNames y'; refine (fun (_ : Kept s0 y') => ?_) ?_; clear_value y'; revert y'; intro _ _; rotate_left; dsimp only [y']; clear y'; rotate_left)
    | (extract_lets +onlyGivenNames y'; clear_value y'; revert y'; intro _)
    | with_reducible apply State.setLUse_kept | with_reducible apply State.startMove_kept
    | with_reducible apply State.failTags_kept | with_reducible apply Kept.ite | split | dsimp only
    | with_reducible exact Kept.lit (by with_reducible assumption) | exact hkept | assumption
    | (with_reducible apply Kept.lit
       (first | with_reducible assumption | with_reducible apply State.setLUse_kept
              | with_reducible apply State.startMove_kept | with_reducible apply State.failTags_kept))

theorem State.moveTable_kept {s0 : State} {s : State} (k f g : Nat) (hkept : Kept s0 s) :
    Kept s0 (State.moveTable s k f g) := by
  unfold State.moveTable
  repeat' first
    | with_reducible exact hkept | with_reducible assumption | with_reducible apply State.setLUse_kept
    | with_reducible apply State.modFolio_kept | intro _ _ _ | intro _ _ | intro _ | split | dsimp only
    | with_reducible exact Kept.lit (by with_reducible assumption) | exact hkept | assumption | exact rfl
    | exact Nat.le_refl _
    | (with_reducible apply Kept.lit
       (first | with_reducible assumption | with_reducible apply State.setLUse_kept
              | with_reducible apply State.modFolio_kept))

theorem State.retireChannel_kept {s0 : State} {s : State} (ch : Nat) (bad : List (Fin 16 × Nat)) (hkept : Kept s0 s) :
    Kept s0 (State.retireChannel s ch bad) := by
  unfold State.retireChannel
  repeat' first
    | with_reducible exact hkept | with_reducible assumption
    | (extract_lets +onlyGivenNames y'; refine (fun (_ : Kept s0 y') => ?_) ?_; clear_value y'; revert y'; intro _ _; rotate_left; dsimp only [y']; clear y'; rotate_left)
    | (extract_lets +onlyGivenNames y'; refine (fun (_ : Kept s0 y'.2) => ?_) ?_; clear_value y'; revert y'; intro _ _; rotate_left; dsimp only [y']; clear y'; rotate_left)
    | (extract_lets +onlyGivenNames y'; clear_value y'; revert y'; intro _)
    | with_reducible apply State.modFolio_kept | with_reducible apply State.abandonMove_kept
    | with_reducible apply State.restoreHome_kept | with_reducible apply State.retireFolio_kept
    | with_reducible apply State.moveTable_kept | with_reducible apply State.reissue_kept
    | with_reducible apply State.leaveChannels_kept | with_reducible apply State.free_kept
    | with_reducible apply State.addErr_kept | with_reducible apply State.flagLpddr_kept
    | with_reducible apply Kept.ite | with_reducible apply Kept.foldl | with_reducible apply Kept.foldl_fst
    | with_reducible apply Kept.foldl_snd | intro _ _ _ | intro _ _ | intro _ | split | dsimp only
    | with_reducible exact Kept.lit (by with_reducible assumption) | exact hkept | assumption | exact rfl
    | exact Nat.le_refl _
    | (with_reducible apply Kept.lit
       (first | with_reducible assumption | with_reducible apply State.modFolio_kept
              | with_reducible apply State.abandonMove_kept | with_reducible apply State.restoreHome_kept
              | with_reducible apply State.retireFolio_kept | with_reducible apply State.moveTable_kept
              | with_reducible apply State.reissue_kept | with_reducible apply State.leaveChannels_kept
              | with_reducible apply State.free_kept | with_reducible apply State.addErr_kept
              | with_reducible apply State.flagLpddr_kept))

theorem State.countChanErr_kept {s0 : State} {s : State} (ch : Nat) (bad : Fin 16 × Nat) (hkept : Kept s0 s) :
    Kept s0 (State.countChanErr s ch bad) := by
  unfold State.countChanErr
  repeat' first
    | with_reducible exact hkept | with_reducible assumption
    | (extract_lets +onlyGivenNames y'; refine (fun (_ : Kept s0 y') => ?_) ?_; clear_value y'; revert y'; intro _ _; rotate_left; dsimp only [y']; clear y'; rotate_left)
    | (extract_lets +onlyGivenNames y'; clear_value y'; revert y'; intro _)
    | with_reducible apply State.modFolio_kept | with_reducible apply State.retireChannel_kept
    | with_reducible apply Kept.ite | intro _ _ _ | intro _ _ | intro _ | split | dsimp only
    | with_reducible exact Kept.lit (by with_reducible assumption) | exact hkept | assumption | exact rfl
    | exact Nat.le_refl _
    | (with_reducible apply Kept.lit
       (first | with_reducible assumption | with_reducible apply State.modFolio_kept
              | with_reducible apply State.retireChannel_kept))

theorem State.spoilLine_kept {s0 : State} {s : State} (l : Leaf) (line : Nat) (hkept : Kept s0 s) :
    Kept s0 (State.spoilLine s l line) := by
  unfold State.spoilLine
  repeat' first
    | with_reducible exact hkept | with_reducible assumption | with_reducible apply State.modFolio_kept
    | exact Memory.wf_write _ _ (by assumption) | intro _ _ _ | intro _ _ | intro _ | dsimp only
    | with_reducible exact Kept.lit (by with_reducible assumption) | exact hkept | assumption | exact rfl
    | exact Nat.le_refl _
    | (with_reducible apply Kept.lit
       (first | with_reducible assumption | with_reducible apply State.modFolio_kept))

theorem State.settleMove_kept {s0 : State} {s : State} (p v : Nat) (res : ReadResult) (hkept : Kept s0 s) :
    Kept s0 (State.settleMove s p v res) := by
  unfold State.settleMove
  repeat' first
    | with_reducible exact hkept | with_reducible assumption
    | (extract_lets +onlyGivenNames y'; refine (fun (_ : Kept s0 y') => ?_) ?_; clear_value y'; revert y'; intro _ _; rotate_left; dsimp only [y']; clear y'; rotate_left)
    | (extract_lets +onlyGivenNames y'; clear_value y'; revert y'; intro _)
    | with_reducible apply State.abandonMove_kept | with_reducible apply State.failTags_kept
    | with_reducible apply State.retireGens_kept | with_reducible apply State.loseMove_kept
    | with_reducible apply State.countChanErr_kept | with_reducible apply State.commitMove_kept
    | with_reducible apply State.modFolio_kept | with_reducible apply State.spoilLine_kept
    | with_reducible apply Kept.ite | intro _ _ _ | intro _ _ | intro _ | split | dsimp only
    | with_reducible exact Kept.lit (by with_reducible assumption) | exact hkept | assumption | exact rfl
    | exact Nat.le_refl _
    | (with_reducible apply Kept.lit
       (first | with_reducible assumption | with_reducible apply State.abandonMove_kept
              | with_reducible apply State.failTags_kept | with_reducible apply State.retireGens_kept
              | with_reducible apply State.loseMove_kept | with_reducible apply State.countChanErr_kept
              | with_reducible apply State.commitMove_kept | with_reducible apply State.modFolio_kept
              | with_reducible apply State.spoilLine_kept))

theorem State.evictAhead_kept {s0 : State} {s : State} (c : Nat) (a0 : Nat) (a1 : Nat) (a2 : List Nat) (hkept : Kept s0 s) :
    Kept s0 (State.evictAhead s c a0 a1 a2) := by
  induction a0 generalizing s a1 a2 with
  | zero =>
    unfold State.evictAhead
    repeat' first
      | with_reducible exact hkept | with_reducible assumption
      | (extract_lets +onlyGivenNames y'; refine (fun (_ : Kept s0 y') => ?_) ?_; clear_value y'; revert y'; intro _ _; rotate_left; dsimp only [y']; clear y'; rotate_left)
      | (extract_lets +onlyGivenNames y'; clear_value y'; revert y'; intro _)
      | with_reducible apply State.dropCopy_kept
      | with_reducible apply State.startWriteback_kept (by with_reducible assumption)
      | with_reducible apply Kept.ite | split | dsimp only
      | with_reducible exact Kept.lit (by with_reducible assumption) | exact hkept | assumption
      | (with_reducible apply Kept.lit
         (first | with_reducible assumption | with_reducible apply State.dropCopy_kept))
  | succ k ih =>
    unfold State.evictAhead
    repeat' first
      | with_reducible exact hkept | with_reducible assumption | with_reducible apply ih
      | (extract_lets +onlyGivenNames y'; refine (fun (_ : Kept s0 y') => ?_) ?_; clear_value y'; revert y'; intro _ _; rotate_left; dsimp only [y']; clear y'; rotate_left)
      | (extract_lets +onlyGivenNames y'; clear_value y'; revert y'; intro _)
      | with_reducible apply State.dropCopy_kept
      | with_reducible apply State.startWriteback_kept (by with_reducible assumption)
      | with_reducible apply Kept.ite | split | dsimp only
      | with_reducible exact Kept.lit (by with_reducible assumption) | exact hkept | assumption
      | (with_reducible apply Kept.lit
         (first | with_reducible assumption | with_reducible apply State.dropCopy_kept))

theorem State.walkTo_kept {s0 : State} {s : State} (p v : Nat) (hkept : Kept s0 s) :
    Kept s0 (State.walkTo s p v) := by
  unfold State.walkTo
  repeat' first
    | with_reducible exact hkept | with_reducible assumption | with_reducible apply State.modFolio_kept
    | intro _ _ _ | intro _ _ | intro _ | dsimp only
    | with_reducible exact Kept.lit (by with_reducible assumption) | exact hkept | assumption | exact rfl
    | exact Nat.le_refl _
    | (with_reducible apply Kept.lit
       (first | with_reducible assumption | with_reducible apply State.modFolio_kept))

theorem State.walkTables_kept {s0 : State} {s : State} (p : Nat) (hkept : Kept s0 s) :
    Kept s0 (State.walkTables s p) := by
  unfold State.walkTables
  repeat' first
    | with_reducible exact hkept | with_reducible assumption | with_reducible apply State.modFolio_kept
    | with_reducible apply State.retireGens_kept | with_reducible apply Kept.ite | intro _ _ _ | intro _ _
    | intro _ | split | dsimp only | with_reducible exact Kept.lit (by with_reducible assumption) | exact hkept
    | assumption | exact rfl | exact Nat.le_refl _
    | (with_reducible apply Kept.lit
       (first | with_reducible assumption | with_reducible apply State.modFolio_kept
              | with_reducible apply State.retireGens_kept))

theorem State.prefetchOne_kept {s0 : State} (c : Nat) (x : Stream) {s : State} (i : Nat) (hkept : Kept s0 s) :
    Kept s0 (State.prefetchOne c x s i) := by
  unfold State.prefetchOne
  repeat' first
    | with_reducible exact hkept | with_reducible assumption | with_reducible apply State.modMove_kept
    | (extract_lets +onlyGivenNames y'; refine (fun (_ : Kept s0 y') => ?_) ?_; clear_value y'; revert y'; intro _ _; rotate_left; dsimp only [y']; clear y'; rotate_left)
    | (extract_lets +onlyGivenNames y'; refine (fun (_ : y'.Kept s0) => ?_) ?_; clear_value y'; revert y'; intro _ _; rotate_left; dsimp only [y']; clear y'; rotate_left)
    | (extract_lets +onlyGivenNames y'; clear_value y'; revert y'; intro _)
    | with_reducible apply State.startFetch_kept | with_reducible apply State.modLeaf_kept
    | with_reducible apply Prep.ok_kept | with_reducible apply Prep.wait_kept
    | with_reducible apply Prep.fail_kept | with_reducible apply Prep.of_ok (by with_reducible assumption)
    | with_reducible apply Prep.of_wait (by with_reducible assumption)
    | with_reducible apply Prep.of_fail (by with_reducible assumption) | with_reducible apply Kept.ite
    | intro _ _ _ | intro _ _ | intro _ | split | dsimp only
    | with_reducible exact Kept.lit (by with_reducible assumption) | exact hkept | assumption
    | (with_reducible apply Kept.lit
       (first | with_reducible assumption | with_reducible apply State.modMove_kept | with_reducible apply State.startFetch_kept
              | with_reducible apply State.modLeaf_kept))

end Sys2Proof.Machine
end

