-- ==== Sys2Proof/Laws/KeptTallyOps.lean ====
section
/-!
SUPPORT. Laws/KeptTallyOps.lean: what the operations of Machine/TallyOps.lean keep of a state (Laws/Kept.lean).
-/
namespace Sys2Proof.Machine

theorem State.modTally_kept {s0 : State} {s : State} (g : TallySt → TallySt) (hkept : Kept s0 s) :
    Kept s0 (State.modTally s g) := by
  unfold State.modTally
  repeat' first
    | with_reducible exact hkept | with_reducible assumption | dsimp only
    | with_reducible exact Kept.lit (by with_reducible assumption) | exact hkept | assumption

theorem State.setWin_kept {s0 : State} {s : State} (w : Nat) (x : Window) (hkept : Kept s0 s) :
    Kept s0 (State.setWin s w x) := by
  unfold State.setWin
  repeat' first
    | with_reducible exact hkept | with_reducible assumption | with_reducible apply State.modTally_kept
    | intro _ _ _ | intro _ _ | intro _ | dsimp only
    | with_reducible exact Kept.lit (by with_reducible assumption) | exact hkept | assumption
    | (with_reducible apply Kept.lit
       (first | with_reducible assumption | with_reducible apply State.modTally_kept))

theorem State.modWin_kept {s0 : State} {s : State} (w : Nat) (g : Window → Window) (hkept : Kept s0 s) :
    Kept s0 (State.modWin s w g) := by
  unfold State.modWin
  repeat' first
    | with_reducible exact hkept | with_reducible assumption | with_reducible apply State.setWin_kept
    | dsimp only | exact hkept | assumption

theorem State.setHmp_kept {s0 : State} {s : State} (h : Nat) (x : Hamper) (hkept : Kept s0 s) :
    Kept s0 (State.setHmp s h x) := by
  unfold State.setHmp
  repeat' first
    | with_reducible exact hkept | with_reducible assumption | with_reducible apply State.modTally_kept
    | intro _ _ _ | intro _ _ | intro _ | dsimp only
    | with_reducible exact Kept.lit (by with_reducible assumption) | exact hkept | assumption
    | (with_reducible apply Kept.lit
       (first | with_reducible assumption | with_reducible apply State.modTally_kept))

theorem State.modSub_kept {s0 : State} {s : State} (w c sid : Nat) (g : Sub → Sub) (hkept : Kept s0 s) :
    Kept s0 (State.modSub s w c sid g) := by
  unfold State.modSub
  repeat' first
    | with_reducible exact hkept | with_reducible assumption | with_reducible apply State.modTally_kept
    | with_reducible apply Kept.ite | intro _ _ _ | intro _ _ | intro _ | split | dsimp only
    | with_reducible exact Kept.lit (by with_reducible assumption) | exact hkept | assumption
    | (with_reducible apply Kept.lit
       (first | with_reducible assumption | with_reducible apply State.modTally_kept))

theorem State.dropSub_kept {s0 : State} {s : State} (w c sid : Nat) (hkept : Kept s0 s) :
    Kept s0 (State.dropSub s w c sid) := by
  unfold State.dropSub
  repeat' first
    | with_reducible exact hkept | with_reducible assumption | with_reducible apply State.modTally_kept
    | intro _ _ _ | intro _ _ | intro _ | dsimp only
    | with_reducible exact Kept.lit (by with_reducible assumption) | exact hkept | assumption
    | (with_reducible apply Kept.lit
       (first | with_reducible assumption | with_reducible apply State.modTally_kept))

theorem State.vecEvents_kept {s0 : State} {s : State} (w off mask : Nat) (hkept : Kept s0 s) :
    Kept s0 (State.vecEvents s w off mask) := by
  unfold State.vecEvents
  repeat' first
    | with_reducible exact hkept | with_reducible assumption
    | (extract_lets +onlyGivenNames y'; refine (fun (_ : Kept s0 y') => ?_) ?_; clear_value y'; revert y'; intro _ _; rotate_left; dsimp only [y']; clear y'; rotate_left)
    | (extract_lets +onlyGivenNames y'; clear_value y'; revert y'; intro _)
    | with_reducible apply State.sendMsix_kept | with_reducible apply State.setBitsHw_kept
    | with_reducible apply Kept.ite | with_reducible apply Kept.foldl | with_reducible apply Kept.foldl_fst
    | with_reducible apply Kept.foldl_snd | intro _ _ _ | intro _ _ | intro _ | split | dsimp only
    | exact hkept | assumption

theorem State.winEvents_kept {s0 : State} {s : State} (w mask : Nat) (hkept : Kept s0 s) :
    Kept s0 (State.winEvents s w mask) := by
  unfold State.winEvents
  repeat' first
    | with_reducible exact hkept | with_reducible assumption | with_reducible apply State.vecEvents_kept
    | dsimp only | exact hkept | assumption

theorem State.winGo_kept {s0 : State} {s : State} (w : Nat) (x : WinState) (hkept : Kept s0 s) :
    Kept s0 (State.winGo s w x) := by
  unfold State.winGo
  repeat' first
    | with_reducible exact hkept | with_reducible assumption | with_reducible apply State.modWin_kept
    | with_reducible apply State.winEvents_kept | intro _ _ _ | intro _ _ | intro _ | dsimp only
    | with_reducible exact Kept.lit (by with_reducible assumption) | exact hkept | assumption
    | (with_reducible apply Kept.lit
       (first | with_reducible assumption | with_reducible apply State.modWin_kept
              | with_reducible apply State.winEvents_kept))

theorem State.hmpEvents_kept {s0 : State} {s : State} (h mask : Nat) (hkept : Kept s0 s) :
    Kept s0 (State.hmpEvents s h mask) := by
  unfold State.hmpEvents
  repeat' first
    | with_reducible exact hkept | with_reducible assumption | with_reducible apply State.vecEvents_kept
    | with_reducible apply State.setBitsHw_kept | split | dsimp only
    | with_reducible exact Kept.lit (by with_reducible assumption) | exact hkept | assumption
    | (with_reducible apply Kept.lit
       (first | with_reducible assumption | with_reducible apply State.vecEvents_kept
              | with_reducible apply State.setBitsHw_kept))

theorem State.setAcc_kept {s0 : State} {s : State} (x : Window) (e v : Nat) (hkept : Kept s0 s) :
    Kept s0 (State.setAcc s x e v) := by
  unfold State.setAcc
  repeat' first
    | with_reducible exact hkept | with_reducible assumption | with_reducible apply State.modFolio_kept
    | exact Memory.wf_write _ _ (by assumption) | intro _ _ _ | intro _ _ | intro _ | dsimp only
    | with_reducible exact Kept.lit (by with_reducible assumption) | exact hkept | assumption | exact rfl
    | exact Nat.le_refl _
    | (with_reducible apply Kept.lit
       (first | with_reducible assumption | with_reducible apply State.modFolio_kept))

theorem State.addElems_kept {s0 : State} (x : Window) (neg : Bool) (a0 : List Nat) (a1 : Nat) {a2 : State} (hkept : Kept s0 a2) :
    Kept s0 (State.addElems x neg a0 a1 a2) := by
  induction a0 generalizing a2 a1 with
  | nil =>
    unfold State.addElems
    repeat' first
      | with_reducible exact hkept | with_reducible assumption | with_reducible apply State.setAcc_kept | split
      | dsimp only | exact hkept | assumption
  | cons k l ih =>
    unfold State.addElems
    repeat' first
      | with_reducible exact hkept | with_reducible assumption | with_reducible apply ih
      | with_reducible apply State.setAcc_kept | split | dsimp only | exact hkept | assumption

theorem State.profAdds_kept {s0 : State} {s : State} (x : Window) (first n : Nat) (hkept : Kept s0 s) :
    Kept s0 (State.profAdds s x first n) := by
  unfold State.profAdds
  repeat' first
    | with_reducible exact hkept | with_reducible assumption
    | (extract_lets +onlyGivenNames y'; refine (fun (_ : Kept s0 y') => ?_) ?_; clear_value y'; revert y'; intro _ _; rotate_left; dsimp only [y']; clear y'; rotate_left)
    | (extract_lets +onlyGivenNames y'; refine (fun (_ : Kept s0 y'.2) => ?_) ?_; clear_value y'; revert y'; intro _ _; rotate_left; dsimp only [y']; clear y'; rotate_left)
    | (extract_lets +onlyGivenNames y'; clear_value y'; revert y'; intro _)
    | with_reducible apply State.prof_kept
    | with_reducible apply Kept.ite | with_reducible apply Kept.foldl | with_reducible apply Kept.foldl_fst
    | with_reducible apply Kept.foldl_snd | intro _ _ _ | intro _ _ | intro _ | split | dsimp only
    | exact hkept | assumption

theorem State.addSegment_kept {s0 : State} {s : State} (x : Window) (neg : Bool) (seg : Nat) (bs : Bytes) (hkept : Kept s0 s) :
    Kept s0 (State.addSegment s x neg seg bs) := by
  unfold State.addSegment
  repeat' first
    | with_reducible exact hkept | with_reducible assumption | with_reducible apply State.profAdds_kept | with_reducible apply State.addElems_kept
    | dsimp only | exact hkept | assumption

theorem State.takeFrames_kept {s0 : State} (w : Nat) (r : Region) (c : Nat) (a0 : Nat) {a1 : State} (a2 : List Nat) (hkept : Kept s0 a1) :
    Kept s0 (State.takeFrames w r c a0 a1 a2).1 := by
  induction a0 generalizing a1 a2 with
  | zero =>
    unfold State.takeFrames
    repeat' first
      | with_reducible exact hkept | with_reducible assumption | with_reducible apply State.setHUse_kept
      | split | dsimp only | with_reducible exact Kept.lit (by with_reducible assumption) | exact hkept
      | assumption
      | (with_reducible apply Kept.lit
         (first | with_reducible assumption | with_reducible apply State.setHUse_kept))
  | succ k ih =>
    unfold State.takeFrames
    repeat' first
      | with_reducible exact hkept | with_reducible assumption | with_reducible apply ih
      | with_reducible apply State.setHUse_kept | split | dsimp only
      | with_reducible exact Kept.lit (by with_reducible assumption) | exact hkept | assumption
      | (with_reducible apply Kept.lit
         (first | with_reducible assumption | with_reducible apply State.setHUse_kept))

theorem State.zeroHoard_kept {s0 : State} {s : State} (fs : List Nat) (hkept : Kept s0 s) :
    Kept s0 (State.zeroHoard s fs) := by
  unfold State.zeroHoard
  repeat' first
    | with_reducible exact hkept | with_reducible assumption | with_reducible apply State.modFolio_kept
    | with_reducible apply Kept.foldl | with_reducible apply Kept.foldl_fst
    | with_reducible apply Kept.foldl_snd
    | exact Memory.wf_foldl _ _ (fun _ _ w => Memory.wf_zero _ _ w) (by assumption)
    | exact Memory.wf_zero _ _ (by assumption) | intro _ _ _ | intro _ _ | intro _ | dsimp only
    | with_reducible exact Kept.lit (by with_reducible assumption) | exact hkept | assumption | exact rfl
    | exact Nat.le_refl _
    | (with_reducible apply Kept.lit
       (first | with_reducible assumption | with_reducible apply State.modFolio_kept))

theorem State.scrubHoard_kept {s0 : State} {s : State} (fs : List Nat) (hkept : Kept s0 s) :
    Kept s0 (State.scrubHoard s fs) := by
  unfold State.scrubHoard
  repeat' first
    | with_reducible exact hkept | with_reducible assumption | with_reducible apply State.setHUse_kept
    | with_reducible apply State.modFolio_kept | with_reducible apply Kept.ite
    | with_reducible apply Kept.foldl | with_reducible apply Kept.foldl_fst
    | with_reducible apply Kept.foldl_snd | intro _ _ _ | intro _ _ | intro _ | split | dsimp only
    | with_reducible exact Kept.lit (by with_reducible assumption) | exact hkept | assumption | exact rfl
    | exact Nat.le_refl _
    | (with_reducible apply Kept.lit
       (first | with_reducible assumption | with_reducible apply State.setHUse_kept
              | with_reducible apply State.modFolio_kept))

theorem State.setLedger_kept {s0 : State} {s : State} (x : Window) (c : Nat) (e : LedgerEntry) (hkept : Kept s0 s) :
    Kept s0 (State.setLedger s x c e) := by
  unfold State.setLedger
  repeat' first
    | with_reducible exact hkept | with_reducible assumption
    | (extract_lets +onlyGivenNames y'; refine (fun (_ : Kept s0 y') => ?_) ?_; clear_value y'; revert y'; intro _ _; rotate_left; dsimp only [y']; clear y'; rotate_left)
    | (extract_lets +onlyGivenNames y'; clear_value y'; revert y'; intro _)
    | with_reducible apply State.modFolio_kept | exact Memory.wf_write _ _ (by assumption) | intro _ _ _
    | intro _ _ | intro _ | dsimp only | with_reducible exact Kept.lit (by with_reducible assumption)
    | exact hkept | assumption | exact rfl | exact Nat.le_refl _
    | (with_reducible apply Kept.lit
       (first | with_reducible assumption | with_reducible apply State.modFolio_kept))

theorem State.modLedger_kept {s0 : State} {s : State} (x : Window) (c : Nat) (g : LedgerEntry → LedgerEntry) (hkept : Kept s0 s) :
    Kept s0 (State.modLedger s x c g) := by
  unfold State.modLedger
  repeat' first
    | with_reducible exact hkept | with_reducible assumption | with_reducible apply State.setLedger_kept
    | dsimp only | exact hkept | assumption

theorem State.startFill_kept {s0 : State} {s : State} (h : Nat) (b : Bool) (hkept : Kept s0 s) :
    Kept s0 (State.startFill s h b) := by
  unfold State.startFill
  repeat' first
    | with_reducible exact hkept | with_reducible assumption
    | (extract_lets +onlyGivenNames y'; refine (fun (_ : Kept s0 y') => ?_) ?_; clear_value y'; revert y'; intro _ _; rotate_left; dsimp only [y']; clear y'; rotate_left)
    | (extract_lets +onlyGivenNames y'; clear_value y'; revert y'; intro _)
    | with_reducible apply State.setHmp_kept | dsimp only
    | with_reducible exact Kept.lit (by with_reducible assumption) | exact hkept | assumption
    | (with_reducible apply Kept.lit
       (first | with_reducible assumption | with_reducible apply State.setHmp_kept))

theorem State.handOver_kept {s0 : State} {s : State} (h : Nat) (b : Bool) (hkept : Kept s0 s) :
    Kept s0 (State.handOver s h b) := by
  unfold State.handOver
  repeat' first
    | with_reducible exact hkept | with_reducible assumption
    | (extract_lets +onlyGivenNames y'; refine (fun (_ : Kept s0 y') => ?_) ?_; clear_value y'; revert y'; intro _ _; rotate_left; dsimp only [y']; clear y'; rotate_left)
    | (extract_lets +onlyGivenNames y'; refine (fun (_ : Kept s0 y'.2) => ?_) ?_; clear_value y'; revert y'; intro _ _; rotate_left; dsimp only [y']; clear y'; rotate_left)
    | (extract_lets +onlyGivenNames y'; clear_value y'; revert y'; intro _)
    | with_reducible apply State.setHmp_kept | with_reducible apply State.free_kept
    | with_reducible apply State.startFill_kept | with_reducible apply Kept.ite | split | dsimp only
    | with_reducible exact Kept.lit (by with_reducible assumption) | exact hkept | assumption
    | (with_reducible apply Kept.lit
       (first | with_reducible assumption | with_reducible apply State.setHmp_kept
              | with_reducible apply State.free_kept | with_reducible apply State.startFill_kept))

theorem State.releaseOne_kept {s0 : State} {s : State} (h : Nat) (b : Bool) (hkept : Kept s0 s) :
    Kept s0 (State.releaseOne s h b) := by
  unfold State.releaseOne
  repeat' first
    | with_reducible exact hkept | with_reducible assumption
    | (extract_lets +onlyGivenNames y'; refine (fun (_ : Kept s0 y') => ?_) ?_; clear_value y'; revert y'; intro _ _; rotate_left; dsimp only [y']; clear y'; rotate_left)
    | (extract_lets +onlyGivenNames y'; clear_value y'; revert y'; intro _)
    | with_reducible apply State.setHmp_kept | with_reducible apply State.startFill_kept
    | with_reducible apply State.handOver_kept | with_reducible apply Kept.ite | intro _ _ _ | intro _ _
    | intro _ | split | dsimp only | exact hkept | assumption

theorem State.release_kept {s0 : State} {s : State} (h : Nat) (hkept : Kept s0 s) :
    Kept s0 (State.release s h) := by
  unfold State.release
  repeat' first
    | with_reducible exact hkept | with_reducible assumption
    | (extract_lets +onlyGivenNames y'; refine (fun (_ : Kept s0 y') => ?_) ?_; clear_value y'; revert y'; intro _ _; rotate_left; dsimp only [y']; clear y'; rotate_left)
    | ((fail_if_success (have := k_go)); extract_lets +onlyGivenNames y'; refine (fun (k_go : ∀ t' b', Kept s0 t' → Kept s0 (y' t' b')) => ?_) ?_; clear_value y'; revert y'; intro _ k_go; rotate_left; dsimp only [y']; clear y'; rotate_left)
    | (extract_lets +onlyGivenNames y'; clear_value y'; revert y'; intro _) | with_reducible apply k_go
    | with_reducible apply State.releaseOne_kept | intro _ _ _ | intro _ _ | intro _ | dsimp only | exact hkept
    | assumption

theorem State.levelEvent_kept {s0 : State} {s : State} (h old : Nat) (hkept : Kept s0 s) :
    Kept s0 (State.levelEvent s h old) := by
  unfold State.levelEvent
  repeat' first
    | with_reducible exact hkept | with_reducible assumption
    | (extract_lets +onlyGivenNames y'; refine (fun (_ : Kept s0 y') => ?_) ?_; clear_value y'; revert y'; intro _ _; rotate_left; dsimp only [y']; clear y'; rotate_left)
    | (extract_lets +onlyGivenNames y'; clear_value y'; revert y'; intro _)
    | with_reducible apply State.hmpEvents_kept | with_reducible apply Kept.ite | split | dsimp only
    | exact hkept | assumption

theorem State.overrun_kept {s0 : State} {s : State} (h p : Nat) (hkept : Kept s0 s) :
    Kept s0 (State.overrun s h p) := by
  unfold State.overrun
  repeat' first
    | with_reducible exact hkept | with_reducible assumption
    | (extract_lets +onlyGivenNames y'; refine (fun (_ : Kept s0 y') => ?_) ?_; clear_value y'; revert y'; intro _ _; rotate_left; dsimp only [y']; clear y'; rotate_left)
    | (extract_lets +onlyGivenNames y'; clear_value y'; revert y'; intro _)
    | with_reducible apply State.countUp_kept | with_reducible apply State.hmpEvents_kept
    | with_reducible apply State.addErr_kept | with_reducible apply Kept.ite | split | dsimp only | exact hkept
    | assumption

theorem State.push_kept {s0 : State} {s : State} (h : Nat) (y : HSlot) (hkept : Kept s0 s) :
    Kept s0 (State.push s h y) := by
  unfold State.push
  repeat' first
    | with_reducible exact hkept | with_reducible assumption
    | (extract_lets +onlyGivenNames y'; refine (fun (_ : Kept s0 y') => ?_) ?_; clear_value y'; revert y'; intro _ _; rotate_left; dsimp only [y']; clear y'; rotate_left)
    | (extract_lets +onlyGivenNames y'; refine (fun (_ : Kept s0 y'.2) => ?_) ?_; clear_value y'; revert y'; intro _ _; rotate_left; dsimp only [y']; clear y'; rotate_left)
    | (extract_lets +onlyGivenNames y'; clear_value y'; revert y'; intro _)
    | with_reducible apply State.setHmp_kept | with_reducible apply State.free_kept
    | with_reducible apply State.handOver_kept | with_reducible apply State.release_kept
    | with_reducible apply State.levelEvent_kept
    | with_reducible apply Kept.of_snd (by with_reducible assumption) | with_reducible apply Kept.ite
    | with_reducible refine Kept.lit_slots (by with_reducible assumption) ?_
    | (with_reducible apply Kept.slots
       (first | with_reducible assumption | with_reducible apply State.setHmp_kept
              | with_reducible apply State.free_kept | with_reducible apply State.handOver_kept
              | with_reducible apply State.release_kept | with_reducible apply State.levelEvent_kept))
    | intro _ _ _ | intro _ _ | intro _ | split | dsimp only
    | with_reducible exact Kept.lit (by with_reducible assumption) | exact hkept | assumption
    | (with_reducible apply Kept.lit
       (first | with_reducible assumption | with_reducible apply State.setHmp_kept
              | with_reducible apply State.free_kept | with_reducible apply State.handOver_kept
              | with_reducible apply State.release_kept | with_reducible apply State.levelEvent_kept))

theorem State.mapSlots_kept {s0 : State} {s : State} (w : Nat) (g : HSlot → HSlot) (hkept : Kept s0 s) :
    Kept s0 (State.mapSlots s w g) := by
  unfold State.mapSlots
  repeat' first
    | with_reducible exact hkept | with_reducible assumption
    | (extract_lets +onlyGivenNames y'; refine (fun (_ : Kept s0 y') => ?_) ?_; clear_value y'; revert y'; intro _ _; rotate_left; dsimp only [y']; clear y'; rotate_left)
    | (extract_lets +onlyGivenNames y'; clear_value y'; revert y'; intro _)
    | with_reducible apply State.setHmp_kept | with_reducible apply Kept.foldl
    | with_reducible apply Kept.foldl_fst | with_reducible apply Kept.foldl_snd
    | with_reducible refine Kept.lit_slots (by with_reducible assumption) ?_
    | (with_reducible apply Kept.slots
       (first | with_reducible assumption | with_reducible apply State.setHmp_kept))
    | intro _ _ _ | intro _ _ | intro _ | dsimp only
    | with_reducible exact Kept.lit (by with_reducible assumption) | exact hkept | assumption
    | (with_reducible apply Kept.lit
       (first | with_reducible assumption | with_reducible apply State.setHmp_kept))

theorem State.releaseAll_kept {s0 : State} {s : State} (w : Nat) (hkept : Kept s0 s) :
    Kept s0 (State.releaseAll s w) := by
  unfold State.releaseAll
  repeat' first
    | with_reducible exact hkept | with_reducible assumption | with_reducible apply State.release_kept
    | with_reducible apply Kept.foldl | with_reducible apply Kept.foldl_fst
    | with_reducible apply Kept.foldl_snd | intro _ _ _ | intro _ _ | intro _ | dsimp only | exact hkept
    | assumption

theorem State.bindHamper_kept {s0 : State} {s : State} (w h thr : Nat) (hkept : Kept s0 s) :
    Kept s0 (State.bindHamper s w h thr) := by
  unfold State.bindHamper
  repeat' first
    | with_reducible exact hkept | with_reducible assumption
    | (extract_lets +onlyGivenNames y'; refine (fun (_ : Kept s0 y') => ?_) ?_; clear_value y'; revert y'; intro _ _; rotate_left; dsimp only [y']; clear y'; rotate_left)
    | (extract_lets +onlyGivenNames y'; clear_value y'; revert y'; intro _)
    | with_reducible apply State.setRegN_kept | with_reducible apply State.setHmp_kept | dsimp only
    | exact hkept | assumption

theorem State.unbind_kept {s0 : State} {s : State} (w : Nat) (hkept : Kept s0 s) :
    Kept s0 (State.unbind s w) := by
  unfold State.unbind
  repeat' first
    | with_reducible exact hkept | with_reducible assumption | with_reducible apply State.setHmp_kept
    | with_reducible apply State.modWin_kept | with_reducible apply Kept.foldl
    | with_reducible apply Kept.foldl_fst | with_reducible apply Kept.foldl_snd | intro _ _ _ | intro _ _
    | intro _ | dsimp only | with_reducible exact Kept.lit (by with_reducible assumption) | exact hkept
    | assumption
    | (with_reducible apply Kept.lit
       (first | with_reducible assumption | with_reducible apply State.setHmp_kept
              | with_reducible apply State.modWin_kept))

theorem State.ringWrite_kept {s0 : State} {s : State} (p o : Nat) (bs : Bytes) (hkept : Kept s0 s) :
    Kept s0 (State.ringWrite s p o bs) := by
  unfold State.ringWrite
  repeat' first
    | with_reducible exact hkept | with_reducible assumption
    | (extract_lets +onlyGivenNames y'; refine (fun (_ : Kept s0 y') => ?_) ?_; clear_value y'; revert y'; intro _ _; rotate_left; dsimp only [y']; clear y'; rotate_left)
    | (extract_lets +onlyGivenNames y'; clear_value y'; revert y'; intro _)
    | with_reducible apply State.modTally_kept | with_reducible apply State.modFolio_kept
    | with_reducible apply Kept.foldl | with_reducible apply Kept.foldl_fst
    | with_reducible apply Kept.foldl_snd | exact Memory.wf_write _ _ (by assumption) | intro _ _ _ | intro _ _
    | intro _ | dsimp only | with_reducible exact Kept.lit (by with_reducible assumption) | exact hkept
    | assumption | exact rfl | exact Nat.le_refl _
    | (with_reducible apply Kept.lit
       (first | with_reducible assumption | with_reducible apply State.modTally_kept
              | with_reducible apply State.modFolio_kept))

theorem State.ringForget_kept {s0 : State} {s : State} (p : Nat) (hkept : Kept s0 s) :
    Kept s0 (State.ringForget s p) := by
  unfold State.ringForget
  repeat' first
    | with_reducible exact hkept | with_reducible assumption
    | (extract_lets +onlyGivenNames y'; refine (fun (_ : Kept s0 y') => ?_) ?_; clear_value y'; revert y'; intro _ _; rotate_left; dsimp only [y']; clear y'; rotate_left)
    | (extract_lets +onlyGivenNames y'; clear_value y'; revert y'; intro _)
    | with_reducible apply State.modTally_kept | with_reducible apply State.modFolio_kept
    | with_reducible apply Kept.foldl | with_reducible apply Kept.foldl_fst
    | with_reducible apply Kept.foldl_snd
    | exact Memory.wf_foldl _ _ (fun _ _ w => Memory.wf_zero _ _ w) (by assumption)
    | exact Memory.wf_zero _ _ (by assumption) | intro _ _ _ | intro _ _ | intro _ | dsimp only
    | with_reducible exact Kept.lit (by with_reducible assumption) | exact hkept | assumption | exact rfl
    | exact Nat.le_refl _
    | (with_reducible apply Kept.lit
       (first | with_reducible assumption | with_reducible apply State.modTally_kept
              | with_reducible apply State.modFolio_kept))

theorem State.makeUnrev_kept {s0 : State} {s : State} (x : Sub) (hkept : Kept s0 s) :
    Kept s0 (State.makeUnrev s x) := by
  unfold State.makeUnrev
  repeat' first
    | with_reducible exact hkept | with_reducible assumption
    | (extract_lets +onlyGivenNames y'; refine (fun (_ : Kept s0 y') => ?_) ?_; clear_value y'; revert y'; intro _ _; rotate_left; dsimp only [y']; clear y'; rotate_left)
    | (extract_lets +onlyGivenNames y'; clear_value y'; revert y'; intro _)
    | with_reducible apply State.modSub_kept | with_reducible apply State.modLedger_kept
    | with_reducible apply State.countUp_kept | intro _ _ _ | intro _ _ | intro _ | dsimp only
    | with_reducible exact Kept.lit (by with_reducible assumption) | exact hkept | assumption
    | (with_reducible apply Kept.lit
       (first | with_reducible assumption | with_reducible apply State.modSub_kept
              | with_reducible apply State.modLedger_kept | with_reducible apply State.countUp_kept))

theorem State.retainSlot_kept {s0 : State} {s : State} (h : Nat) (y : HSlot) (hkept : Kept s0 s) :
    Kept s0 (State.retainSlot s h y) := by
  unfold State.retainSlot
  repeat' first
    | with_reducible exact hkept | with_reducible assumption
    | (extract_lets +onlyGivenNames y'; refine (fun (_ : Kept s0 y') => ?_) ?_; clear_value y'; revert y'; intro _ _; rotate_left; dsimp only [y']; clear y'; rotate_left)
    | (extract_lets +onlyGivenNames y'; clear_value y'; revert y'; intro _)
    | with_reducible apply State.setHmp_kept | with_reducible apply State.release_kept
    | with_reducible apply Kept.ite | with_reducible refine Kept.lit_slots (by with_reducible assumption) ?_
    | (with_reducible apply Kept.slots
       (first | with_reducible assumption | with_reducible apply State.setHmp_kept
              | with_reducible apply State.release_kept))
    | intro _ _ _ | intro _ _ | intro _ | split | dsimp only
    | with_reducible exact Kept.lit (by with_reducible assumption) | exact hkept | assumption
    | (with_reducible apply Kept.lit
       (first | with_reducible assumption | with_reducible apply State.setHmp_kept
              | with_reducible apply State.release_kept))

theorem State.doAppend_kept {s0 : State} {s : State} (h : Nat) (y : HSlot) (w : Nat) (hkept : Kept s0 s) :
    Kept s0 (State.doAppend s h y w) := by
  unfold State.doAppend
  repeat' first
    | with_reducible exact hkept | with_reducible assumption
    | (extract_lets +onlyGivenNames y'; refine (fun (_ : Kept s0 y') => ?_) ?_; clear_value y'; revert y'; intro _ _; rotate_left; dsimp only [y']; clear y'; rotate_left)
    | (extract_lets +onlyGivenNames y'; refine (fun (_ : Kept s0 y'.2) => ?_) ?_; clear_value y'; revert y'; intro _ _; rotate_left; dsimp only [y']; clear y'; rotate_left)
    | (extract_lets +onlyGivenNames y'; clear_value y'; revert y'; intro _)
    | with_reducible apply State.freeBytes_kept | with_reducible apply State.makeUnrev_kept
    | with_reducible apply State.ringWrite_kept | with_reducible apply State.modTally_kept
    | with_reducible apply State.modSub_kept | with_reducible apply State.retainSlot_kept
    | with_reducible apply Kept.of_snd (by with_reducible assumption) | with_reducible apply Kept.ite
    | with_reducible apply Kept.foldl | with_reducible apply Kept.foldl_fst
    | with_reducible apply Kept.foldl_snd | intro _ _ _ | intro _ _ | intro _ | split | dsimp only
    | with_reducible exact Kept.lit (by with_reducible assumption) | exact hkept | assumption
    | (with_reducible apply Kept.lit
       (first | with_reducible assumption | with_reducible apply State.freeBytes_kept
              | with_reducible apply State.makeUnrev_kept | with_reducible apply State.ringWrite_kept
              | with_reducible apply State.modTally_kept | with_reducible apply State.modSub_kept
              | with_reducible apply State.retainSlot_kept))

theorem State.tryAppend_kept {s0 : State} {s : State} (h : Nat) (hkept : Kept s0 s) :
    Kept s0 (State.tryAppend s h) := by
  unfold State.tryAppend
  repeat' first
    | with_reducible exact hkept | with_reducible assumption | with_reducible apply State.retainSlot_kept
    | with_reducible apply State.doAppend_kept | with_reducible apply Kept.ite | split | dsimp only
    | with_reducible exact Kept.lit (by with_reducible assumption) | exact hkept | assumption
    | (with_reducible apply Kept.lit
       (first | with_reducible assumption | with_reducible apply State.retainSlot_kept
              | with_reducible apply State.doAppend_kept))

theorem State.idleSync_kept {s0 : State} {s : State} (hkept : Kept s0 s) :
    Kept s0 (State.idleSync s) := by
  unfold State.idleSync
  repeat' first
    | with_reducible exact hkept | with_reducible assumption | with_reducible apply State.modTally_kept
    | with_reducible apply Kept.ite | intro _ _ _ | intro _ _ | intro _ | split | dsimp only
    | with_reducible exact Kept.lit (by with_reducible assumption) | exact hkept | assumption
    | (with_reducible apply Kept.lit
       (first | with_reducible assumption | with_reducible apply State.modTally_kept))

theorem State.refreshHold_kept {s0 : State} {s : State} (hkept : Kept s0 s) :
    Kept s0 (State.refreshHold s) := by
  unfold State.refreshHold
  repeat' first
    | with_reducible exact hkept | with_reducible assumption
    | (extract_lets +onlyGivenNames y'; refine (fun (_ : Kept s0 y') => ?_) ?_; clear_value y'; revert y'; intro _ _; rotate_left; dsimp only [y']; clear y'; rotate_left)
    | (extract_lets +onlyGivenNames y'; clear_value y'; revert y'; intro _)
    | with_reducible apply State.countUp_kept | with_reducible apply State.modTally_kept
    | with_reducible apply State.idleSync_kept | with_reducible apply Kept.ite | intro _ _ _ | intro _ _
    | intro _ | split | dsimp only | with_reducible exact Kept.lit (by with_reducible assumption) | exact hkept
    | assumption
    | (with_reducible apply Kept.lit
       (first | with_reducible assumption | with_reducible apply State.countUp_kept
              | with_reducible apply State.modTally_kept | with_reducible apply State.idleSync_kept))

theorem State.endHost_kept {s0 : State} {s : State} (u : Sub) (status : Nat) (hkept : Kept s0 s) :
    Kept s0 (State.endHost s u status) := by
  unfold State.endHost
  repeat' first
    | with_reducible exact hkept | with_reducible assumption | with_reducible apply State.endOpCycles_kept
    | with_reducible apply Kept.ite | split | dsimp only
    | with_reducible exact Kept.lit (by with_reducible assumption) | exact hkept | assumption
    | (with_reducible apply Kept.lit
       (first | with_reducible assumption | with_reducible apply State.endOpCycles_kept))

theorem State.profMasks_kept {s0 : State} {s : State} (x : Window) (masks i n : Nat) (hkept : Kept s0 s) :
    Kept s0 (State.profMasks s x masks i n) := by
  unfold State.profMasks
  repeat' first
    | with_reducible exact hkept | with_reducible assumption
    | (extract_lets +onlyGivenNames y'; refine (fun (_ : Kept s0 y') => ?_) ?_; clear_value y'; revert y'; intro _ _; rotate_left; dsimp only [y']; clear y'; rotate_left)
    | (extract_lets +onlyGivenNames y'; refine (fun (_ : Kept s0 y'.2) => ?_) ?_; clear_value y'; revert y'; intro _ _; rotate_left; dsimp only [y']; clear y'; rotate_left)
    | (extract_lets +onlyGivenNames y'; clear_value y'; revert y'; intro _)
    | with_reducible apply State.profAdds_kept
    | with_reducible apply Kept.ite | with_reducible apply Kept.foldl | with_reducible apply Kept.foldl_fst
    | with_reducible apply Kept.foldl_snd | intro _ _ _ | intro _ _ | intro _ | split | dsimp only
    | exact hkept | assumption

theorem State.applyMasks_kept {s0 : State} (x : Window) (ms : List (Bool × Bytes × Bytes)) (a0 : Nat) (a1 : Nat) {a2 : State} (hkept : Kept s0 a2) :
    Kept s0 (State.applyMasks x ms a0 a1 a2) := by
  induction a0 generalizing a2 a1 with
  | zero =>
    unfold State.applyMasks
    repeat' first
      | with_reducible exact hkept | with_reducible assumption
      | (extract_lets +onlyGivenNames y'; refine (fun (_ : Kept s0 y') => ?_) ?_; clear_value y'; revert y'; intro _ _; rotate_left; dsimp only [y']; clear y'; rotate_left)
      | (extract_lets +onlyGivenNames y'; clear_value y'; revert y'; intro _)
      | with_reducible apply State.setAcc_kept | split | dsimp only | exact hkept | assumption
  | succ k ih =>
    unfold State.applyMasks
    repeat' first
      | with_reducible exact hkept | with_reducible assumption | with_reducible apply ih
      | (extract_lets +onlyGivenNames y'; refine (fun (_ : Kept s0 y') => ?_) ?_; clear_value y'; revert y'; intro _ _; rotate_left; dsimp only [y']; clear y'; rotate_left)
      | (extract_lets +onlyGivenNames y'; clear_value y'; revert y'; intro _)
      | with_reducible apply State.setAcc_kept | split | dsimp only | exact hkept | assumption

theorem State.setRecEntry_kept {s0 : State} {s : State} (x : Window) (c kind : Nat) (applied : Bool) (hkept : Kept s0 s) :
    Kept s0 (State.setRecEntry s x c kind applied) := by
  unfold State.setRecEntry
  repeat' first
    | with_reducible exact hkept | with_reducible assumption | with_reducible apply State.modFolio_kept
    | exact Memory.wf_set _ _ (by assumption) | intro _ _ _ | intro _ _ | intro _ | dsimp only
    | with_reducible exact Kept.lit (by with_reducible assumption) | exact hkept | assumption | exact rfl
    | exact Nat.le_refl _
    | (with_reducible apply Kept.lit
       (first | with_reducible assumption | with_reducible apply State.modFolio_kept))

theorem State.dropGroup_kept {s0 : State} {s : State} (r : RecGroup) (hkept : Kept s0 s) :
    Kept s0 (State.dropGroup s r) := by
  unfold State.dropGroup
  repeat' first
    | with_reducible exact hkept | with_reducible assumption | with_reducible apply State.zeroise_kept
    | with_reducible apply State.modTally_kept | intro _ _ _ | intro _ _ | intro _ | dsimp only
    | with_reducible exact Kept.lit (by with_reducible assumption) | exact hkept | assumption
    | (with_reducible apply Kept.lit
       (first | with_reducible assumption | with_reducible apply State.zeroise_kept
              | with_reducible apply State.modTally_kept))

theorem State.finishGroup_kept {s0 : State} {s : State} (r : RecGroup) (hkept : Kept s0 s) :
    Kept s0 (State.finishGroup s r) := by
  unfold State.finishGroup
  repeat' first
    | with_reducible exact hkept | with_reducible assumption | with_reducible apply State.profMasks_kept
    | (extract_lets +onlyGivenNames y'; refine (fun (_ : Kept s0 y') => ?_) ?_; clear_value y'; revert y'; intro _ _; rotate_left; dsimp only [y']; clear y'; rotate_left)
    | (extract_lets +onlyGivenNames y'; clear_value y'; revert y'; intro _)
    | with_reducible apply State.applyMasks_kept | with_reducible apply State.setRecEntry_kept
    | with_reducible apply State.countUp_kept | with_reducible apply State.dropGroup_kept
    | with_reducible apply Kept.ite | split | dsimp only | exact hkept | assumption

theorem State.endWindow_kept {s0 : State} {s : State} (w : Nat) (x : WinState) (status : Nat) (hkept : Kept s0 s) :
    Kept s0 (State.endWindow s w x status) := by
  unfold State.endWindow
  repeat' first
    | with_reducible exact hkept | with_reducible assumption
    | (extract_lets +onlyGivenNames y'; refine (fun (_ : Kept s0 y') => ?_) ?_; clear_value y'; revert y'; intro _ _; rotate_left; dsimp only [y']; clear y'; rotate_left)
    | (extract_lets +onlyGivenNames y'; clear_value y'; revert y'; intro _)
    | with_reducible apply State.dropGroup_kept | with_reducible apply State.modTally_kept
    | with_reducible apply State.endHost_kept | with_reducible apply State.unbind_kept
    | with_reducible apply State.scrubHoard_kept | with_reducible apply State.modWin_kept
    | with_reducible apply State.stage_kept | with_reducible apply State.cancelOp_kept
    | with_reducible apply State.winGo_kept | with_reducible apply State.refreshHold_kept
    | with_reducible apply Kept.foldl | with_reducible apply Kept.foldl_fst
    | with_reducible apply Kept.foldl_snd | intro _ _ _ | intro _ _ | intro _ | dsimp only
    | with_reducible exact Kept.lit (by with_reducible assumption) | exact hkept | assumption
    | (with_reducible apply Kept.lit
       (first | with_reducible assumption | with_reducible apply State.dropGroup_kept
              | with_reducible apply State.modTally_kept | with_reducible apply State.endHost_kept
              | with_reducible apply State.unbind_kept | with_reducible apply State.scrubHoard_kept
              | with_reducible apply State.modWin_kept | with_reducible apply State.stage_kept
              | with_reducible apply State.cancelOp_kept | with_reducible apply State.winGo_kept
              | with_reducible apply State.refreshHold_kept))

theorem State.contaminate_kept {s0 : State} {s : State} (w : Nat) (hkept : Kept s0 s) :
    Kept s0 (State.contaminate s w) := by
  unfold State.contaminate
  repeat' first
    | with_reducible exact hkept | with_reducible assumption | with_reducible apply State.endWindow_kept
    | with_reducible apply State.winEvents_kept | dsimp only | exact hkept | assumption

theorem State.abandonGroups_kept {s0 : State} {s : State} (sel : RecGroup → Bool) (hkept : Kept s0 s) :
    Kept s0 (State.abandonGroups s sel) := by
  unfold State.abandonGroups
  repeat' first
    | with_reducible exact hkept | with_reducible assumption
    | (extract_lets +onlyGivenNames y'; refine (fun (_ : Kept s0 y') => ?_) ?_; clear_value y'; revert y'; intro _ _; rotate_left; dsimp only [y']; clear y'; rotate_left)
    | (extract_lets +onlyGivenNames y'; clear_value y'; revert y'; intro _)
    | with_reducible apply State.contaminate_kept | with_reducible apply State.dropGroup_kept
    | with_reducible apply Kept.ite | with_reducible apply Kept.foldl | with_reducible apply Kept.foldl_fst
    | with_reducible apply Kept.foldl_snd | intro _ _ _ | intro _ _ | intro _ | split | dsimp only
    | exact hkept | assumption

theorem State.settleGroups_kept {s0 : State} {s : State} (sel : RecGroup → Bool) (hkept : Kept s0 s) :
    Kept s0 (State.settleGroups s sel) := by
  unfold State.settleGroups
  repeat' first
    | with_reducible exact hkept | with_reducible assumption | with_reducible apply State.dropGroup_kept
    | with_reducible apply State.finishGroup_kept | with_reducible apply State.abandonGroups_kept
    | with_reducible apply Kept.ite | with_reducible apply Kept.foldl | with_reducible apply Kept.foldl_fst
    | with_reducible apply Kept.foldl_snd | intro _ _ _ | intro _ _ | intro _ | split | dsimp only
    | exact hkept | assumption

theorem State.discardWindow_kept {s0 : State} {s : State} (w : Nat) (hkept : Kept s0 s) :
    Kept s0 (State.discardWindow s w) := by
  unfold State.discardWindow
  repeat' first
    | with_reducible exact hkept | with_reducible assumption | with_reducible apply State.endWindow_kept
    | dsimp only | exact hkept | assumption

theorem State.freeWindow_kept {s0 : State} {s : State} (w : Nat) (hkept : Kept s0 s) :
    Kept s0 (State.freeWindow s w) := by
  unfold State.freeWindow
  repeat' first
    | with_reducible exact hkept | with_reducible assumption
    | (extract_lets +onlyGivenNames y'; refine (fun (_ : Kept s0 y') => ?_) ?_; clear_value y'; revert y'; intro _ _; rotate_left; dsimp only [y']; clear y'; rotate_left)
    | (extract_lets +onlyGivenNames y'; clear_value y'; revert y'; intro _)
    | with_reducible apply State.unbind_kept | with_reducible apply State.scrubHoard_kept
    | with_reducible apply State.setWin_kept
    | with_reducible refine Kept.lit_regs (by with_reducible assumption) ?_
    | (with_reducible apply Kept.regs
       (first | with_reducible assumption | with_reducible apply State.unbind_kept
              | with_reducible apply State.scrubHoard_kept | with_reducible apply State.setWin_kept))
    | exact Tab.wf_without _ (by assumption) | intro _ _ _ | intro _ _ | intro _ | dsimp only
    | with_reducible exact Kept.lit (by with_reducible assumption) | exact hkept | assumption
    | (with_reducible apply Kept.lit
       (first | with_reducible assumption | with_reducible apply State.unbind_kept
              | with_reducible apply State.scrubHoard_kept | with_reducible apply State.setWin_kept))

theorem State.openWindow_kept {s0 : State} {s : State} (w : Nat) (hkept : Kept s0 s) :
    Kept s0 (State.openWindow s w) := by
  unfold State.openWindow
  repeat' first
    | with_reducible exact hkept | with_reducible assumption
    | (extract_lets +onlyGivenNames y'; refine (fun (_ : Kept s0 y') => ?_) ?_; clear_value y'; revert y'; intro _ _; rotate_left; dsimp only [y']; clear y'; rotate_left)
    | (extract_lets +onlyGivenNames y'; refine (fun (_ : Kept s0 y'.1) => ?_) ?_; clear_value y'; revert y'; intro _ _; rotate_left; dsimp only [y']; clear y'; rotate_left)
    | (extract_lets +onlyGivenNames y'; clear_value y'; revert y'; intro _)
    | with_reducible apply State.setWin_kept | with_reducible apply State.takeFrames_kept
    | with_reducible apply State.modWin_kept | with_reducible apply State.winGo_kept
    | with_reducible apply Kept.foldl | with_reducible apply Kept.foldl_fst
    | with_reducible apply Kept.foldl_snd | intro _ _ _ | intro _ _ | intro _ | dsimp only
    | with_reducible exact Kept.lit (by with_reducible assumption) | exact hkept | assumption
    | (with_reducible apply Kept.lit
       (first | with_reducible assumption | with_reducible apply State.setWin_kept
              | with_reducible apply State.takeFrames_kept | with_reducible apply State.modWin_kept
              | with_reducible apply State.winGo_kept))

theorem State.closeWindow_kept {s0 : State} {s : State} (w : Nat) (hkept : Kept s0 s) :
    Kept s0 (State.closeWindow s w) := by
  unfold State.closeWindow
  repeat' first
    | with_reducible exact hkept | with_reducible assumption | with_reducible apply State.modWin_kept
    | with_reducible apply State.winGo_kept | intro _ _ _ | intro _ _ | intro _ | dsimp only
    | with_reducible exact Kept.lit (by with_reducible assumption) | exact hkept | assumption
    | (with_reducible apply Kept.lit
       (first | with_reducible assumption | with_reducible apply State.modWin_kept
              | with_reducible apply State.winGo_kept))

theorem State.openLate_kept {s0 : State} {s : State} (w : Nat) (hkept : Kept s0 s) :
    Kept s0 (State.openLate s w) := by
  unfold State.openLate
  repeat' first
    | with_reducible exact hkept | with_reducible assumption
    | (extract_lets +onlyGivenNames y'; refine (fun (_ : Kept s0 y') => ?_) ?_; clear_value y'; revert y'; intro _ _; rotate_left; dsimp only [y']; clear y'; rotate_left)
    | (extract_lets +onlyGivenNames y'; clear_value y'; revert y'; intro _)
    | with_reducible apply State.discardWindow_kept | with_reducible apply State.openWindow_kept
    | with_reducible apply Kept.ite | split | dsimp only | exact hkept | assumption

theorem State.openLateAll_kept {s0 : State} {s : State} (hkept : Kept s0 s) :
    Kept s0 (State.openLateAll s) := by
  unfold State.openLateAll
  repeat' first
    | with_reducible exact hkept | with_reducible assumption | with_reducible apply State.openLate_kept
    | with_reducible apply Kept.foldl | with_reducible apply Kept.foldl_fst
    | with_reducible apply Kept.foldl_snd | intro _ _ _ | intro _ _ | intro _ | dsimp only | exact hkept
    | assumption

theorem State.startRelease_kept {s0 : State} {s : State} (w : Nat) (hkept : Kept s0 s) :
    Kept s0 (State.startRelease s w) := by
  unfold State.startRelease
  repeat' first
    | with_reducible exact hkept | with_reducible assumption | with_reducible apply State.modWin_kept
    | intro _ _ _ | intro _ _ | intro _ | dsimp only
    | with_reducible exact Kept.lit (by with_reducible assumption) | exact hkept | assumption
    | (with_reducible apply Kept.lit
       (first | with_reducible assumption | with_reducible apply State.modWin_kept))

theorem State.enterRecovered_kept {s0 : State} {s : State} (w : Nat) (hkept : Kept s0 s) :
    Kept s0 (State.enterRecovered s w) := by
  unfold State.enterRecovered
  repeat' first
    | with_reducible exact hkept | with_reducible assumption
    | (extract_lets +onlyGivenNames y'; refine (fun (_ : Kept s0 y') => ?_) ?_; clear_value y'; revert y'; intro _ _; rotate_left; dsimp only [y']; clear y'; rotate_left)
    | (extract_lets +onlyGivenNames y'; clear_value y'; revert y'; intro _)
    | with_reducible apply State.modWin_kept | with_reducible apply State.vecEvents_kept
    | with_reducible apply State.setPair_kept | with_reducible apply State.startRelease_kept
    | with_reducible apply Kept.ite | intro _ _ _ | intro _ _ | intro _ | split | dsimp only
    | with_reducible exact Kept.lit (by with_reducible assumption) | exact hkept | assumption
    | (with_reducible apply Kept.lit
       (first | with_reducible assumption | with_reducible apply State.modWin_kept
              | with_reducible apply State.vecEvents_kept | with_reducible apply State.setPair_kept
              | with_reducible apply State.startRelease_kept))

theorem State.judgeSum_kept {s0 : State} {s : State} (w : Nat) (hkept : Kept s0 s) :
    Kept s0 (State.judgeSum s w) := by
  unfold State.judgeSum
  repeat' first
    | with_reducible exact hkept | with_reducible assumption
    | (extract_lets +onlyGivenNames y'; refine (fun (_ : Kept s0 y') => ?_) ?_; clear_value y'; revert y'; intro _ _; rotate_left; dsimp only [y']; clear y'; rotate_left)
    | (extract_lets +onlyGivenNames y'; refine (fun (_ : Kept s0 y'.1) => ?_) ?_; clear_value y'; revert y'; intro _ _; rotate_left; dsimp only [y']; clear y'; rotate_left)
    | (extract_lets +onlyGivenNames y'; clear_value y'; revert y'; intro _)
    | with_reducible apply State.endOpCycles_kept | with_reducible apply State.modWin_kept
    | with_reducible apply State.winGo_kept | with_reducible apply State.takeFrames_kept
    | with_reducible apply State.zeroHoard_kept | with_reducible apply State.enterRecovered_kept
    | with_reducible apply Kept.ite | with_reducible apply Kept.foldl | with_reducible apply Kept.foldl_fst
    | with_reducible apply Kept.foldl_snd | intro _ _ _ | intro _ _ | intro _ | split | dsimp only
    | with_reducible exact Kept.lit (by with_reducible assumption) | exact hkept | assumption
    | (with_reducible apply Kept.lit
       (first | with_reducible assumption | with_reducible apply State.endOpCycles_kept
              | with_reducible apply State.modWin_kept | with_reducible apply State.winGo_kept
              | with_reducible apply State.takeFrames_kept | with_reducible apply State.zeroHoard_kept
              | with_reducible apply State.enterRecovered_kept))

theorem State.checkSummed_kept {s0 : State} {s : State} (w : Nat) (hkept : Kept s0 s) :
    Kept s0 (State.checkSummed s w) := by
  unfold State.checkSummed
  repeat' first
    | with_reducible exact hkept | with_reducible assumption
    | (extract_lets +onlyGivenNames y'; refine (fun (_ : Kept s0 y') => ?_) ?_; clear_value y'; revert y'; intro _ _; rotate_left; dsimp only [y']; clear y'; rotate_left)
    | (extract_lets +onlyGivenNames y'; clear_value y'; revert y'; intro _)
    | with_reducible apply State.unbind_kept | with_reducible apply State.modWin_kept
    | with_reducible apply State.winEvents_kept | with_reducible apply State.judgeSum_kept
    | with_reducible apply Kept.ite | intro _ _ _ | intro _ _ | intro _ | split | dsimp only
    | with_reducible exact Kept.lit (by with_reducible assumption) | exact hkept | assumption
    | (with_reducible apply Kept.lit
       (first | with_reducible assumption | with_reducible apply State.unbind_kept
              | with_reducible apply State.modWin_kept | with_reducible apply State.winEvents_kept
              | with_reducible apply State.judgeSum_kept))

theorem State.abortSub_kept {s0 : State} {s : State} (w c reason : Nat) (hkept : Kept s0 s) :
    Kept s0 (State.abortSub s w c reason) := by
  unfold State.abortSub
  repeat' first
    | with_reducible exact hkept | with_reducible assumption
    | (extract_lets +onlyGivenNames y'; refine (fun (_ : Kept s0 y') => ?_) ?_; clear_value y'; revert y'; intro _ _; rotate_left; dsimp only [y']; clear y'; rotate_left)
    | (extract_lets +onlyGivenNames y'; clear_value y'; revert y'; intro _)
    | with_reducible apply State.modLedger_kept | with_reducible apply State.countUp_kept
    | with_reducible apply State.endHost_kept | with_reducible apply State.mapSlots_kept
    | with_reducible apply State.modSub_kept | with_reducible apply State.contaminate_kept
    | with_reducible apply State.releaseAll_kept | with_reducible apply State.refreshHold_kept
    | with_reducible apply Kept.ite | intro _ _ _ | intro _ _ | intro _ | split | dsimp only
    | with_reducible exact Kept.lit (by with_reducible assumption) | exact hkept | assumption
    | (with_reducible apply Kept.lit
       (first | with_reducible assumption | with_reducible apply State.modLedger_kept
              | with_reducible apply State.countUp_kept | with_reducible apply State.endHost_kept
              | with_reducible apply State.mapSlots_kept | with_reducible apply State.modSub_kept
              | with_reducible apply State.contaminate_kept | with_reducible apply State.releaseAll_kept
              | with_reducible apply State.refreshHold_kept))

theorem State.commitSub_kept {s0 : State} {s : State} (u : Sub) (hkept : Kept s0 s) :
    Kept s0 (State.commitSub s u) := by
  unfold State.commitSub
  repeat' first
    | with_reducible exact hkept | with_reducible assumption
    | (extract_lets +onlyGivenNames y'; refine (fun (_ : Kept s0 y') => ?_) ?_; clear_value y'; revert y'; intro _ _; rotate_left; dsimp only [y']; clear y'; rotate_left)
    | (extract_lets +onlyGivenNames y'; clear_value y'; revert y'; intro _)
    | with_reducible apply State.modLedger_kept | with_reducible apply State.countUp_kept
    | with_reducible apply State.endHost_kept | with_reducible apply State.dropSub_kept
    | with_reducible apply State.mapSlots_kept | with_reducible apply State.releaseAll_kept
    | with_reducible apply State.refreshHold_kept | with_reducible apply State.checkSummed_kept
    | with_reducible apply Kept.ite | intro _ _ _ | intro _ _ | intro _ | split | dsimp only
    | with_reducible exact Kept.lit (by with_reducible assumption) | exact hkept | assumption
    | (with_reducible apply Kept.lit
       (first | with_reducible assumption | with_reducible apply State.modLedger_kept
              | with_reducible apply State.countUp_kept | with_reducible apply State.endHost_kept
              | with_reducible apply State.dropSub_kept | with_reducible apply State.mapSlots_kept
              | with_reducible apply State.releaseAll_kept | with_reducible apply State.refreshHold_kept
              | with_reducible apply State.checkSummed_kept))

theorem State.judge_kept {s0 : State} {s : State} (w c : Nat) (hkept : Kept s0 s) :
    Kept s0 (State.judge s w c) := by
  unfold State.judge
  repeat' first
    | with_reducible exact hkept | with_reducible assumption | with_reducible apply State.abortSub_kept
    | with_reducible apply State.advanceToCycle_kept | with_reducible apply State.commitSub_kept
    | with_reducible apply Kept.ite | intro _ _ _ | intro _ _ | intro _ | split | dsimp only
    | with_reducible exact Kept.lit (by with_reducible assumption) | exact hkept | assumption
    | (with_reducible apply Kept.lit
       (first | with_reducible assumption | with_reducible apply State.abortSub_kept
              | with_reducible apply State.advanceToCycle_kept | with_reducible apply State.commitSub_kept))

theorem State.reverse_kept {s0 : State} {s : State} (u : Sub) (hkept : Kept s0 s) :
    Kept s0 (State.reverse s u) := by
  unfold State.reverse
  repeat' first
    | with_reducible exact hkept | with_reducible assumption
    | (extract_lets +onlyGivenNames y'; refine (fun (_ : Kept s0 y') => ?_) ?_; clear_value y'; revert y'; intro _ _; rotate_left; dsimp only [y']; clear y'; rotate_left)
    | (extract_lets +onlyGivenNames y'; clear_value y'; revert y'; intro _)
    | with_reducible apply State.contaminate_kept | with_reducible apply State.modLedger_kept
    | with_reducible apply State.addSegment_kept | with_reducible apply State.dropSub_kept
    | with_reducible apply State.mapSlots_kept | with_reducible apply State.releaseAll_kept
    | with_reducible apply State.refreshHold_kept | with_reducible apply State.checkSummed_kept
    | with_reducible apply Kept.ite | with_reducible apply Kept.foldl | with_reducible apply Kept.foldl_fst
    | with_reducible apply Kept.foldl_snd | intro _ _ _ | intro _ _ | intro _ | split | dsimp only
    | with_reducible exact Kept.lit (by with_reducible assumption) | exact hkept | assumption
    | (with_reducible apply Kept.lit
       (first | with_reducible assumption | with_reducible apply State.contaminate_kept
              | with_reducible apply State.modLedger_kept | with_reducible apply State.addSegment_kept
              | with_reducible apply State.dropSub_kept | with_reducible apply State.mapSlots_kept
              | with_reducible apply State.releaseAll_kept | with_reducible apply State.refreshHold_kept
              | with_reducible apply State.checkSummed_kept))

end Sys2Proof.Machine
end

