-- ==== Sys2Proof/Laws/KeptLinkTx.lean ====
section
/-!
SUPPORT. Laws/KeptLinkTx.lean: what the operations of Machine/LinkTx.lean keep of a state (Laws/Kept.lean).
-/
namespace Sys2Proof.Machine

theorem State.sendFrame_kept {s0 : State} {s : State} (i : Nat) (f : Bytes) (hkept : Kept s0 s) :
    Kept s0 (State.sendFrame s i f) := by
  unfold State.sendFrame
  repeat' first
    | with_reducible exact hkept | with_reducible assumption | with_reducible apply State.countUp_kept
    | with_reducible apply State.emit_kept | dsimp only | exact hkept | assumption

theorem State.advanceGen_kept {s0 : State} {s : State} (p i : Nat) (hkept : Kept s0 s) :
    Kept s0 (State.advanceGen s p i) := by
  unfold State.advanceGen
  repeat' first
    | with_reducible exact hkept | with_reducible assumption
    | (extract_lets +onlyGivenNames y'; refine (fun (_ : Kept s0 y') => ?_) ?_; clear_value y'; revert y'; intro _ _; rotate_left; dsimp only [y']; clear y'; rotate_left)
    | (extract_lets +onlyGivenNames y'; clear_value y'; revert y'; intro _)
    | with_reducible apply State.modLink_kept | with_reducible apply State.countUp_kept
    | with_reducible apply Kept.ite | intro _ _ _ | intro _ _ | intro _ | split | dsimp only
    | with_reducible exact Kept.lit (by with_reducible assumption) | exact hkept | assumption
    | (with_reducible apply Kept.lit
       (first | with_reducible assumption | with_reducible apply State.modLink_kept
              | with_reducible apply State.countUp_kept))

theorem State.checkRekey_kept {s0 : State} {s : State} (p i : Nat) (hkept : Kept s0 s) :
    Kept s0 (State.checkRekey s p i) := by
  unfold State.checkRekey
  repeat' first
    | with_reducible exact hkept | with_reducible assumption
    | (extract_lets +onlyGivenNames y'; refine (fun (_ : Kept s0 y') => ?_) ?_; clear_value y'; revert y'; intro _ _; rotate_left; dsimp only [y']; clear y'; rotate_left)
    | (extract_lets +onlyGivenNames y'; clear_value y'; revert y'; intro _)
    | with_reducible apply State.modLink_kept | with_reducible apply State.advanceGen_kept
    | with_reducible apply Kept.ite | intro _ _ _ | intro _ _ | intro _ | split | dsimp only
    | with_reducible exact Kept.lit (by with_reducible assumption) | exact hkept | assumption
    | (with_reducible apply Kept.lit
       (first | with_reducible assumption | with_reducible apply State.modLink_kept
              | with_reducible apply State.advanceGen_kept))

theorem State.putFrame_kept {s0 : State} {s : State} (p i gen seq try_ : Nat) (ackFrame : Bool) (m : TxMsg) (hkept : Kept s0 s) :
    Kept s0 (State.putFrame s p i gen seq try_ ackFrame m) := by
  unfold State.putFrame
  repeat' first
    | with_reducible exact hkept | with_reducible assumption
    | (extract_lets +onlyGivenNames y'; refine (fun (_ : Kept s0 y') => ?_) ?_; clear_value y'; revert y'; intro _ _; rotate_left; dsimp only [y']; clear y'; rotate_left)
    | (extract_lets +onlyGivenNames y'; clear_value y'; revert y'; intro _)
    | with_reducible apply State.modLink_kept | with_reducible apply State.sendFrame_kept
    | with_reducible apply Kept.ite | intro _ _ _ | intro _ _ | intro _ | split | dsimp only
    | with_reducible exact Kept.lit (by with_reducible assumption) | exact hkept | assumption
    | (with_reducible apply Kept.lit
       (first | with_reducible assumption | with_reducible apply State.modLink_kept
              | with_reducible apply State.sendFrame_kept))

theorem State.sendFirst_kept {s0 : State} {s : State} (p i : Nat) (m : TxMsg) (hkept : Kept s0 s) :
    Kept s0 (State.sendFirst s p i m) := by
  unfold State.sendFirst
  repeat' first
    | with_reducible exact hkept | with_reducible assumption
    | (extract_lets +onlyGivenNames y'; refine (fun (_ : Kept s0 y') => ?_) ?_; clear_value y'; revert y'; intro _ _; rotate_left; dsimp only [y']; clear y'; rotate_left)
    | (extract_lets +onlyGivenNames y'; clear_value y'; revert y'; intro _)
    | with_reducible apply State.putFrame_kept | with_reducible apply State.modLink_kept
    | with_reducible apply State.checkRekey_kept | intro _ _ _ | intro _ _ | intro _ | dsimp only
    | with_reducible exact Kept.lit (by with_reducible assumption) | exact hkept | assumption
    | (with_reducible apply Kept.lit
       (first | with_reducible assumption | with_reducible apply State.putFrame_kept
              | with_reducible apply State.modLink_kept | with_reducible apply State.checkRekey_kept))

theorem State.resend_kept {s0 : State} {s : State} (p i : Nat) (f : TxFrame) (hkept : Kept s0 s) :
    Kept s0 (State.resend s p i f) := by
  unfold State.resend
  repeat' first
    | with_reducible exact hkept | with_reducible assumption
    | (extract_lets +onlyGivenNames y'; refine (fun (_ : Kept s0 y') => ?_) ?_; clear_value y'; revert y'; intro _ _; rotate_left; dsimp only [y']; clear y'; rotate_left)
    | (extract_lets +onlyGivenNames y'; clear_value y'; revert y'; intro _)
    | with_reducible apply State.putFrame_kept | with_reducible apply State.countUp_kept
    | with_reducible apply State.modLink_kept | with_reducible apply Kept.ite | intro _ _ _ | intro _ _
    | intro _ | split | dsimp only | with_reducible exact Kept.lit (by with_reducible assumption) | exact hkept
    | assumption
    | (with_reducible apply Kept.lit
       (first | with_reducible assumption | with_reducible apply State.putFrame_kept
              | with_reducible apply State.countUp_kept | with_reducible apply State.modLink_kept))

theorem State.dealGrants_kept {s0 : State} {s : State} (p r : Nat) (hkept : Kept s0 s) :
    Kept s0 (State.dealGrants s p r) := by
  unfold State.dealGrants
  repeat' first
    | with_reducible exact hkept | with_reducible assumption
    | (extract_lets +onlyGivenNames y'; refine (fun (_ : Kept s0 y') => ?_) ?_; clear_value y'; revert y'; intro _ _; rotate_left; dsimp only [y']; clear y'; rotate_left)
    | (extract_lets +onlyGivenNames y'; clear_value y'; revert y'; intro _)
    | with_reducible apply State.modLink_kept | with_reducible apply State.modPart_kept
    | with_reducible apply Kept.ite | with_reducible apply Kept.foldl | with_reducible apply Kept.foldl_fst
    | with_reducible apply Kept.foldl_snd | intro _ _ _ | intro _ _ | intro _ | split | dsimp only
    | with_reducible exact Kept.lit (by with_reducible assumption) | exact hkept | assumption
    | (with_reducible apply Kept.lit
       (first | with_reducible assumption | with_reducible apply State.modLink_kept
              | with_reducible apply State.modPart_kept))

theorem State.sendAck_kept {s0 : State} {s : State} (p i : Nat) (hkept : Kept s0 s) :
    Kept s0 (State.sendAck s p i) := by
  unfold State.sendAck
  repeat' first
    | with_reducible exact hkept | with_reducible assumption
    | (extract_lets +onlyGivenNames y'; refine (fun (_ : Kept s0 y') => ?_) ?_; clear_value y'; revert y'; intro _ _; rotate_left; dsimp only [y']; clear y'; rotate_left)
    | (extract_lets +onlyGivenNames y'; clear_value y'; revert y'; intro _)
    | with_reducible apply State.dealGrants_kept | with_reducible apply State.putFrame_kept
    | with_reducible apply State.modLink_kept | with_reducible apply State.checkRekey_kept
    | with_reducible apply Kept.ite | with_reducible apply Kept.foldl | with_reducible apply Kept.foldl_fst
    | with_reducible apply Kept.foldl_snd | intro _ _ _ | intro _ _ | intro _ | split | dsimp only
    | with_reducible exact Kept.lit (by with_reducible assumption) | exact hkept | assumption
    | (with_reducible apply Kept.lit
       (first | with_reducible assumption | with_reducible apply State.dealGrants_kept
              | with_reducible apply State.putFrame_kept | with_reducible apply State.modLink_kept
              | with_reducible apply State.checkRekey_kept))

theorem State.sendNext_kept {s0 : State} {s : State} (p i : Nat) (a0 : Next) (hkept : Kept s0 s) :
    Kept s0 (State.sendNext s p i a0) := by
  cases a0 <;>
   (unfold State.sendNext
    repeat' first
     | with_reducible exact hkept | with_reducible assumption | with_reducible apply State.resend_kept
     | with_reducible apply State.modLink_kept | with_reducible apply State.sendFirst_kept | intro _ _ _
     | intro _ _ | intro _ | split | dsimp only | with_reducible exact Kept.lit (by with_reducible assumption)
     | exact hkept | assumption
     | (with_reducible apply Kept.lit
        (first | with_reducible assumption | with_reducible apply State.resend_kept
               | with_reducible apply State.modLink_kept | with_reducible apply State.sendFirst_kept)))

theorem State.queueCtl_kept {s0 : State} {s : State} (i : Nat) (m : CtlMsg) (hkept : Kept s0 s) :
    Kept s0 (State.queueCtl s i m) := by
  unfold State.queueCtl
  repeat' first
    | with_reducible exact hkept | with_reducible assumption | with_reducible apply State.modPort_kept
    | intro _ _ _ | intro _ _ | intro _ | dsimp only
    | with_reducible exact Kept.lit (by with_reducible assumption) | exact hkept | assumption
    | (with_reducible apply Kept.lit
       (first | with_reducible assumption | with_reducible apply State.modPort_kept))

theorem State.queueZero_kept {s0 : State} {s : State} (i : Nat) (addr : Bytes) (udp type flow : Nat) (body : Bytes) (hkept : Kept s0 s) :
    Kept s0 (State.queueZero s i addr udp type flow body) := by
  unfold State.queueZero
  repeat' first
    | with_reducible exact hkept | with_reducible assumption
    | (extract_lets +onlyGivenNames y'; refine (fun (_ : Kept s0 y') => ?_) ?_; clear_value y'; revert y'; intro _ _; rotate_left; dsimp only [y']; clear y'; rotate_left)
    | (extract_lets +onlyGivenNames y'; clear_value y'; revert y'; intro _)
    | with_reducible apply State.queueCtl_kept | with_reducible apply Kept.ite
    | with_reducible apply Kept.foldl | with_reducible apply Kept.foldl_fst
    | with_reducible apply Kept.foldl_snd | intro _ _ _ | intro _ _ | intro _ | split | dsimp only
    | exact hkept | assumption

theorem State.transmit_kept {s0 : State} {s : State} (port : Nat) (hkept : Kept s0 s) :
    Kept s0 (State.transmit s port) := by
  unfold State.transmit
  repeat' first
    | with_reducible exact hkept | with_reducible assumption
    | (extract_lets +onlyGivenNames y'; refine (fun (_ : Kept s0 y') => ?_) ?_; clear_value y'; revert y'; intro _ _; rotate_left; dsimp only [y']; clear y'; rotate_left)
    | (extract_lets +onlyGivenNames y'; clear_value y'; revert y'; intro _)
    | with_reducible apply State.modPort_kept | with_reducible apply State.sendFrame_kept
    | with_reducible apply State.sendNext_kept | with_reducible apply Kept.ite | intro _ _ _ | intro _ _
    | intro _ | split | dsimp only | with_reducible exact Kept.lit (by with_reducible assumption) | exact hkept
    | assumption
    | (with_reducible apply Kept.lit
       (first | with_reducible assumption | with_reducible apply State.modPort_kept
              | with_reducible apply State.sendFrame_kept | with_reducible apply State.sendNext_kept))

end Sys2Proof.Machine
end

