-- ==== Sys2Proof/Laws/KeptPhase.lean ====
section
/-!
SUPPORT. Laws/KeptPhase.lean: what the operations of Machine/Phase.lean keep of a state (Laws/Kept.lean).
-/
namespace Sys2Proof.Machine

theorem State.classErr_kept {s0 : State} {s : State} (p what cls old new : Nat) (hkept : Kept s0 s) :
    Kept s0 (State.classErr s p what cls old new) := by
  unfold State.classErr
  repeat' first
    | with_reducible exact hkept | with_reducible assumption | with_reducible apply State.addErr_kept
    | dsimp only | exact hkept | assumption

theorem State.modPlan_kept {s0 : State} {s : State} (p : Nat) (g : MovePlan → MovePlan) (hkept : Kept s0 s) :
    Kept s0 (State.modPlan s p g) := by
  unfold State.modPlan
  repeat' first
    | with_reducible exact hkept | with_reducible assumption | with_reducible apply State.modPart_kept
    | intro _ _ _ | intro _ _ | intro _ | dsimp only
    | with_reducible exact Kept.lit (by with_reducible assumption) | exact hkept | assumption
    | (with_reducible apply Kept.lit
       (first | with_reducible assumption | with_reducible apply State.modPart_kept))

theorem State.pinFolio_kept {s0 : State} {s : State} (p v : Nat) (hkept : Kept s0 s) :
    Kept s0 (State.pinFolio s p v) := by
  unfold State.pinFolio
  repeat' first
    | with_reducible exact hkept | with_reducible assumption
    | (extract_lets +onlyGivenNames y'; refine (fun (_ : Kept s0 y') => ?_) ?_; clear_value y'; revert y'; intro _ _; rotate_left; dsimp only [y']; clear y'; rotate_left)
    | ((fail_if_success (have := k_later)); extract_lets +onlyGivenNames y'; refine (fun (k_later : ∀ t', Kept s0 t' → Kept s0 (y' t')) => ?_) ?_; clear_value y'; revert y'; intro _ k_later; rotate_left; dsimp only [y']; clear y'; rotate_left)
    | ((fail_if_success (have := k_settled)); extract_lets +onlyGivenNames y'; refine (fun (k_settled : ∀ t', Kept s0 t' → Kept s0 (y' t')) => ?_) ?_; clear_value y'; revert y'; intro _ k_settled; rotate_left; dsimp only [y']; clear y'; rotate_left)
    | ((fail_if_success (have := k_pinned)); extract_lets +onlyGivenNames y'; refine (fun (k_pinned : ∀ t', Kept s0 t' → Kept s0 (y' t')) => ?_) ?_; clear_value y'; revert y'; intro _ k_pinned; rotate_left; dsimp only [y']; clear y'; rotate_left)
    | (extract_lets +onlyGivenNames y'; refine (fun (_ : y'.Kept s0) => ?_) ?_; clear_value y'; revert y'; intro _ _; rotate_left; dsimp only [y']; clear y'; rotate_left)
    | (extract_lets +onlyGivenNames y'; clear_value y'; revert y'; intro _) | with_reducible apply k_later
    | with_reducible apply k_settled | with_reducible apply k_pinned | with_reducible apply State.modPlan_kept
    | with_reducible apply State.modLeaf_kept | with_reducible apply State.finishScrub_kept
    | with_reducible apply State.allocFolio_kept | with_reducible apply State.startFetch_kept
    | with_reducible apply Prep.ok_kept | with_reducible apply Prep.wait_kept
    | with_reducible apply Prep.fail_kept | with_reducible apply Prep.of_ok (by with_reducible assumption)
    | with_reducible apply Prep.of_wait (by with_reducible assumption)
    | with_reducible apply Prep.of_fail (by with_reducible assumption) | with_reducible apply Kept.ite
    | intro _ _ _ | intro _ _ | intro _ | split | dsimp only
    | with_reducible exact Kept.lit (by with_reducible assumption) | exact hkept | assumption
    | (with_reducible apply Kept.lit
       (first | with_reducible assumption | with_reducible apply State.modPlan_kept
              | with_reducible apply State.modLeaf_kept | with_reducible apply State.finishScrub_kept
              | with_reducible apply State.allocFolio_kept | with_reducible apply State.startFetch_kept))

theorem State.phasePins_kept {s0 : State} (p : Nat) (rank : Option Nat) (m : PhaseMap) (c : ClassEnt) (old : Nat) (a0 : List Nat) {a1 : State} (hkept : Kept s0 a1) :
    Kept s0 (State.phasePins p rank m c old a0 a1) := by
  induction a0 generalizing a1 with
  | nil =>
    unfold State.phasePins
    repeat' first
      | with_reducible exact hkept | with_reducible assumption | with_reducible apply State.classErr_kept
      | with_reducible apply State.pinFolio_kept | with_reducible apply Kept.ite | split | dsimp only
      | with_reducible exact Kept.lit (by with_reducible assumption) | exact hkept | assumption
      | (with_reducible apply Kept.lit
         (first | with_reducible assumption | with_reducible apply State.classErr_kept
                | with_reducible apply State.pinFolio_kept))
  | cons k l ih =>
    unfold State.phasePins
    repeat' first
      | with_reducible exact hkept | with_reducible assumption | with_reducible apply ih
      | with_reducible apply State.classErr_kept | with_reducible apply State.pinFolio_kept
      | with_reducible apply Kept.ite | split | dsimp only
      | with_reducible exact Kept.lit (by with_reducible assumption) | exact hkept | assumption
      | (with_reducible apply Kept.lit
         (first | with_reducible assumption | with_reducible apply State.classErr_kept
                | with_reducible apply State.pinFolio_kept))

theorem State.openClassStreams_kept {s0 : State} (p : Nat) (rank : Option Nat) (old new : Nat) {s : State} (c : ClassEnt) (hkept : Kept s0 s) :
    Kept s0 (State.openClassStreams p rank old new s c) := by
  unfold State.openClassStreams
  repeat' first
    | with_reducible exact hkept | with_reducible assumption | with_reducible apply State.setStream_kept
    | with_reducible apply State.classErr_kept | with_reducible apply Kept.ite
    | with_reducible apply Kept.foldl | with_reducible apply Kept.foldl_fst
    | with_reducible apply Kept.foldl_snd | intro _ _ _ | intro _ _ | intro _ | split | dsimp only
    | with_reducible exact Kept.lit (by with_reducible assumption) | exact hkept | assumption
    | (with_reducible apply Kept.lit
       (first | with_reducible assumption | with_reducible apply State.setStream_kept
              | with_reducible apply State.classErr_kept))

theorem State.openClasses_kept {s0 : State} {s : State} (p old : Nat) (m : PhaseMap) (hkept : Kept s0 s) :
    Kept s0 (State.openClasses s p old m) := by
  unfold State.openClasses
  repeat' first
    | with_reducible exact hkept | with_reducible assumption
    | (extract_lets +onlyGivenNames y'; refine (fun (_ : Kept s0 y') => ?_) ?_; clear_value y'; revert y'; intro _ _; rotate_left; dsimp only [y']; clear y'; rotate_left)
    | (extract_lets +onlyGivenNames y'; clear_value y'; revert y'; intro _)
    | with_reducible apply State.phasePins_kept | with_reducible apply State.openClassStreams_kept
    | with_reducible apply Kept.foldl | with_reducible apply Kept.foldl_fst
    | with_reducible apply Kept.foldl_snd | intro _ _ _ | intro _ _ | intro _ | dsimp only | exact hkept
    | assumption

theorem State.openPhase_kept {s0 : State} {s : State} (p old : Nat) (hkept : Kept s0 s) :
    Kept s0 (State.openPhase s p old) := by
  unfold State.openPhase
  repeat' first
    | with_reducible exact hkept | with_reducible assumption
    | (extract_lets +onlyGivenNames y'; refine (fun (_ : Kept s0 y') => ?_) ?_; clear_value y'; revert y'; intro _ _; rotate_left; dsimp only [y']; clear y'; rotate_left)
    | (extract_lets +onlyGivenNames y'; clear_value y'; revert y'; intro _)
    | with_reducible apply State.setLeaf_kept | with_reducible apply State.setPair_kept
    | with_reducible apply State.openClasses_kept | with_reducible apply Kept.ite
    | with_reducible apply Kept.foldl | with_reducible apply Kept.foldl_fst
    | with_reducible apply Kept.foldl_snd | intro _ _ _ | intro _ _ | intro _ | split | dsimp only
    | with_reducible exact Kept.lit (by with_reducible assumption) | exact hkept | assumption
    | (with_reducible apply Kept.lit
       (first | with_reducible assumption | with_reducible apply State.setLeaf_kept
              | with_reducible apply State.setPair_kept | with_reducible apply State.openClasses_kept))

theorem State.openRank_kept {s0 : State} {s : State} (p : Nat) (hkept : Kept s0 s) :
    Kept s0 (State.openRank s p) := by
  unfold State.openRank
  repeat' first
    | with_reducible exact hkept | with_reducible assumption | with_reducible apply State.openClasses_kept
    | with_reducible apply Kept.ite | split | dsimp only
    | with_reducible exact Kept.lit (by with_reducible assumption) | exact hkept | assumption
    | (with_reducible apply Kept.lit
       (first | with_reducible assumption | with_reducible apply State.openClasses_kept))

theorem State.clearPhasePins_kept {s0 : State} {s : State} (p : Nat) (hkept : Kept s0 s) :
    Kept s0 (State.clearPhasePins s p) := by
  unfold State.clearPhasePins
  repeat' first
    | with_reducible exact hkept | with_reducible assumption | with_reducible apply State.modPlan_kept
    | with_reducible apply State.modFolio_kept | with_reducible apply Kept.ite | intro _ _ _ | intro _ _
    | intro _ | split | dsimp only | with_reducible exact Kept.lit (by with_reducible assumption) | exact hkept
    | assumption | exact rfl | exact Nat.le_refl _
    | (with_reducible apply Kept.lit
       (first | with_reducible assumption | with_reducible apply State.modPlan_kept
              | with_reducible apply State.modFolio_kept))

theorem State.sendFolio_kept {s0 : State} {s : State} (p peer v flow first parts : Nat) (hkept : Kept s0 s) :
    Kept s0 (State.sendFolio s p peer v flow first parts).1 := by
  unfold State.sendFolio
  repeat' first
    | with_reducible exact hkept | with_reducible assumption
    | (extract_lets +onlyGivenNames y'; refine (fun (_ : Kept s0 y') => ?_) ?_; clear_value y'; revert y'; intro _ _; rotate_left; dsimp only [y']; clear y'; rotate_left)
    | (extract_lets +onlyGivenNames y'; clear_value y'; revert y'; intro _)
    | with_reducible apply State.queueMsg_kept | with_reducible apply Kept.fst_ite
    | with_reducible apply Kept.ite | with_reducible apply Kept.foldl | with_reducible apply Kept.foldl_fst
    | with_reducible apply Kept.foldl_snd | intro _ _ _ | intro _ _ | intro _ | split | dsimp only
    | with_reducible exact Kept.lit (by with_reducible assumption) | exact hkept | assumption
    | (with_reducible apply Kept.lit
       (first | with_reducible assumption | with_reducible apply State.queueMsg_kept))

theorem State.refusePull_kept {s0 : State} {s : State} (p : Nat) (h : HeldPull) (gone : Bool) (hkept : Kept s0 s) :
    Kept s0 (State.refusePull s p h gone) := by
  unfold State.refusePull
  repeat' first
    | with_reducible exact hkept | with_reducible assumption | with_reducible apply State.queueMsg_kept
    | with_reducible apply Kept.ite | split | dsimp only | exact hkept | assumption

theorem State.pullOver_kept {s0 : State} {s : State} (p peer v : Nat) (hkept : Kept s0 s) :
    Kept s0 (State.pullOver s p peer v) := by
  unfold State.pullOver
  repeat' first
    | with_reducible exact hkept | with_reducible assumption | with_reducible apply State.modPlan_kept
    | intro _ _ _ | intro _ _ | intro _ | split | dsimp only
    | with_reducible exact Kept.lit (by with_reducible assumption) | exact hkept | assumption
    | (with_reducible apply Kept.lit
       (first | with_reducible assumption | with_reducible apply State.modPlan_kept))

theorem State.servePull_kept {s0 : State} {s : State} (p : Nat) (h : HeldPull) (hkept : Kept s0 s) :
    Kept s0 (State.servePull s p h) := by
  unfold State.servePull
  repeat' first
    | with_reducible exact hkept | with_reducible assumption
    | (extract_lets +onlyGivenNames y'; refine (fun (_ : Kept s0 y') => ?_) ?_; clear_value y'; revert y'; intro _ _; rotate_left; dsimp only [y']; clear y'; rotate_left)
    | (extract_lets +onlyGivenNames y'; refine (fun (_ : Kept s0 y'.1) => ?_) ?_; clear_value y'; revert y'; intro _ _; rotate_left; dsimp only [y']; clear y'; rotate_left)
    | (extract_lets +onlyGivenNames y'; clear_value y'; revert y'; intro _)
    | with_reducible apply State.sendFolio_kept | with_reducible apply State.pullOver_kept
    | with_reducible apply State.refusePull_kept
    | with_reducible apply Kept.of_fst (by with_reducible assumption) | with_reducible apply Kept.ite | split
    | dsimp only | with_reducible exact Kept.lit (by with_reducible assumption) | exact hkept | assumption
    | (with_reducible apply Kept.lit
       (first | with_reducible assumption | with_reducible apply State.sendFolio_kept
              | with_reducible apply State.pullOver_kept | with_reducible apply State.refusePull_kept))

theorem State.takePull_kept {s0 : State} {s : State} (p : Nat) (h : HeldPull) (hkept : Kept s0 s) :
    Kept s0 (State.takePull s p h) := by
  unfold State.takePull
  repeat' first
    | with_reducible exact hkept | with_reducible assumption
    | (extract_lets +onlyGivenNames y'; refine (fun (_ : Kept s0 y') => ?_) ?_; clear_value y'; revert y'; intro _ _; rotate_left; dsimp only [y']; clear y'; rotate_left)
    | (extract_lets +onlyGivenNames y'; clear_value y'; revert y'; intro _)
    | with_reducible apply State.servePull_kept | with_reducible apply State.refusePull_kept
    | with_reducible apply State.addErr_kept | with_reducible apply State.modPart_kept
    | with_reducible apply Kept.ite | intro _ _ _ | intro _ _ | intro _ | split | dsimp only
    | with_reducible exact Kept.lit (by with_reducible assumption) | exact hkept | assumption
    | (with_reducible apply Kept.lit
       (first | with_reducible assumption | with_reducible apply State.servePull_kept
              | with_reducible apply State.refusePull_kept | with_reducible apply State.addErr_kept
              | with_reducible apply State.modPart_kept))

theorem State.takeHeldPulls_kept {s0 : State} {s : State} (p : Nat) (hkept : Kept s0 s) :
    Kept s0 (State.takeHeldPulls s p) := by
  unfold State.takeHeldPulls
  repeat' first
    | with_reducible exact hkept | with_reducible assumption
    | (extract_lets +onlyGivenNames y'; refine (fun (_ : Kept s0 y') => ?_) ?_; clear_value y'; revert y'; intro _ _; rotate_left; dsimp only [y']; clear y'; rotate_left)
    | (extract_lets +onlyGivenNames y'; clear_value y'; revert y'; intro _)
    | with_reducible apply State.servePull_kept | with_reducible apply State.modPart_kept
    | with_reducible apply Kept.foldl | with_reducible apply Kept.foldl_fst
    | with_reducible apply Kept.foldl_snd | intro _ _ _ | intro _ _ | intro _ | dsimp only
    | with_reducible exact Kept.lit (by with_reducible assumption) | exact hkept | assumption
    | (with_reducible apply Kept.lit
       (first | with_reducible assumption | with_reducible apply State.servePull_kept
              | with_reducible apply State.modPart_kept))

theorem State.giveUp_kept {s0 : State} {s : State} (p v : Nat) (hkept : Kept s0 s) :
    Kept s0 (State.giveUp s p v) := by
  unfold State.giveUp
  repeat' first
    | with_reducible exact hkept | with_reducible assumption
    | (extract_lets +onlyGivenNames y'; refine (fun (_ : Kept s0 y') => ?_) ?_; clear_value y'; revert y'; intro _ _; rotate_left; dsimp only [y']; clear y'; rotate_left)
    | (extract_lets +onlyGivenNames y'; clear_value y'; revert y'; intro _)
    | with_reducible apply State.modPlan_kept | with_reducible apply State.dropCopy_kept
    | with_reducible apply State.setLeaf_kept | with_reducible apply State.toScrub_kept
    | with_reducible apply State.retireGens_kept | with_reducible apply Kept.ite | intro _ _ _ | intro _ _
    | intro _ | split | dsimp only | with_reducible exact Kept.lit (by with_reducible assumption) | exact hkept
    | assumption
    | (with_reducible apply Kept.lit
       (first | with_reducible assumption | with_reducible apply State.modPlan_kept
              | with_reducible apply State.dropCopy_kept | with_reducible apply State.setLeaf_kept
              | with_reducible apply State.toScrub_kept | with_reducible apply State.retireGens_kept))

theorem State.planMoves_kept {s0 : State} {s : State} (p rank : Nat) (old new : PhaseMap) (hkept : Kept s0 s) :
    Kept s0 (State.planMoves s p rank old new) := by
  unfold State.planMoves
  repeat' first
    | with_reducible exact hkept | with_reducible assumption
    | (extract_lets +onlyGivenNames y'; refine (fun (_ : Kept s0 y') => ?_) ?_; clear_value y'; revert y'; intro _ _; rotate_left; dsimp only [y']; clear y'; rotate_left)
    | (extract_lets +onlyGivenNames y'; clear_value y'; revert y'; intro _)
    | with_reducible apply State.modPlan_kept | with_reducible apply State.giveUp_kept
    | with_reducible apply Kept.ite | with_reducible apply Kept.foldl | with_reducible apply Kept.foldl_fst
    | with_reducible apply Kept.foldl_snd | intro _ _ _ | intro _ _ | intro _ | split | dsimp only
    | with_reducible exact Kept.lit (by with_reducible assumption) | exact hkept | assumption
    | (with_reducible apply Kept.lit
       (first | with_reducible assumption | with_reducible apply State.modPlan_kept
              | with_reducible apply State.giveUp_kept))

theorem State.startPull_kept {s0 : State} {s : State} (p v rank phase : Nat) (hkept : Kept s0 s) :
    Kept s0 (State.startPull s p v rank phase).1 := by
  unfold State.startPull
  repeat' first
    | with_reducible exact hkept | with_reducible assumption
    | (extract_lets +onlyGivenNames y'; refine (fun (_ : Kept s0 y') => ?_) ?_; clear_value y'; revert y'; intro _ _; rotate_left; dsimp only [y']; clear y'; rotate_left)
    | (extract_lets +onlyGivenNames y'; refine (fun (_ : Kept s0 y'.2) => ?_) ?_; clear_value y'; revert y'; intro _ _; rotate_left; dsimp only [y']; clear y'; rotate_left)
    | (extract_lets +onlyGivenNames y'; clear_value y'; revert y'; intro _)
    | with_reducible apply State.makeTable_kept | with_reducible apply State.takeFlow_kept
    | with_reducible apply State.queueMsg_kept | with_reducible apply State.setLUse_kept
    | with_reducible apply State.startPeer_kept
    | with_reducible apply Kept.of_snd (by with_reducible assumption) | with_reducible apply Kept.fst_ite
    | with_reducible apply Kept.ite | with_reducible apply Kept.foldl | with_reducible apply Kept.foldl_fst
    | with_reducible apply Kept.foldl_snd | intro _ _ _ | intro _ _ | intro _ | split | dsimp only
    | with_reducible exact Kept.lit (by with_reducible assumption) | exact hkept | assumption
    | (with_reducible apply Kept.lit
       (first | with_reducible assumption | with_reducible apply State.makeTable_kept
              | with_reducible apply State.takeFlow_kept | with_reducible apply State.queueMsg_kept
              | with_reducible apply State.setLUse_kept | with_reducible apply State.startPeer_kept))

theorem State.leaveBehind_kept {s0 : State} {s : State} (p v rank : Nat) (hkept : Kept s0 s) :
    Kept s0 (State.leaveBehind s p v rank) := by
  unfold State.leaveBehind
  repeat' first
    | with_reducible exact hkept | with_reducible assumption
    | (extract_lets +onlyGivenNames y'; refine (fun (_ : Kept s0 y') => ?_) ?_; clear_value y'; revert y'; intro _ _; rotate_left; dsimp only [y']; clear y'; rotate_left)
    | (extract_lets +onlyGivenNames y'; clear_value y'; revert y'; intro _)
    | with_reducible apply State.finishScrub_kept | with_reducible apply State.makeTable_kept
    | with_reducible apply State.setLeaf_kept | with_reducible apply State.modPlan_kept
    | with_reducible apply Kept.ite | with_reducible apply Kept.foldl | with_reducible apply Kept.foldl_fst
    | with_reducible apply Kept.foldl_snd | intro _ _ _ | intro _ _ | intro _ | split | dsimp only
    | with_reducible exact Kept.lit (by with_reducible assumption) | exact hkept | assumption
    | (with_reducible apply Kept.lit
       (first | with_reducible assumption | with_reducible apply State.finishScrub_kept
              | with_reducible apply State.makeTable_kept | with_reducible apply State.setLeaf_kept
              | with_reducible apply State.modPlan_kept))

theorem State.kickMoves_kept {s0 : State} {s : State} (p : Nat) (hkept : Kept s0 s) :
    Kept s0 (State.kickMoves s p) := by
  unfold State.kickMoves
  repeat' first
    | with_reducible exact hkept | with_reducible assumption
    | (extract_lets +onlyGivenNames y'; refine (fun (_ : Kept s0 y') => ?_) ?_; clear_value y'; revert y'; intro _ _; rotate_left; dsimp only [y']; clear y'; rotate_left)
    | (extract_lets +onlyGivenNames y'; refine (fun (_ : Kept s0 y'.1) => ?_) ?_; clear_value y'; revert y'; intro _ _; rotate_left; dsimp only [y']; clear y'; rotate_left)
    | ((fail_if_success (have := k_done)); extract_lets +onlyGivenNames y'; refine (fun (k_done : ∀ u', Kept s0 u' → Kept s0 (y' u')) => ?_) ?_; clear_value y'; revert y'; intro _ k_done; rotate_left; dsimp only [y']; clear y'; rotate_left)
    | (extract_lets +onlyGivenNames y'; clear_value y'; revert y'; intro _) | with_reducible apply k_done
    | with_reducible apply State.modPlan_kept | with_reducible apply State.takeHoard_kept
    | with_reducible apply State.setHUse_kept | with_reducible apply State.startMove_kept
    | with_reducible apply State.startPull_kept
    | with_reducible apply Kept.of_fst (by with_reducible assumption) | with_reducible apply Kept.ite
    | with_reducible apply Kept.foldl | with_reducible apply Kept.foldl_fst
    | with_reducible apply Kept.foldl_snd | intro _ _ _ | intro _ _ | intro _ | split | dsimp only
    | with_reducible exact Kept.lit (by with_reducible assumption) | exact hkept | assumption
    | (with_reducible apply Kept.lit
       (first | with_reducible assumption | with_reducible apply State.modPlan_kept
              | with_reducible apply State.takeHoard_kept | with_reducible apply State.setHUse_kept
              | with_reducible apply State.startMove_kept | with_reducible apply State.startPull_kept))

theorem State.keepPulling_kept {s0 : State} {s : State} (p : Nat) (hkept : Kept s0 s) :
    Kept s0 (State.keepPulling s p) := by
  unfold State.keepPulling
  repeat' first
    | with_reducible exact hkept | with_reducible assumption
    | (extract_lets +onlyGivenNames y'; refine (fun (_ : Kept s0 y') => ?_) ?_; clear_value y'; revert y'; intro _ _; rotate_left; dsimp only [y']; clear y'; rotate_left)
    | (extract_lets +onlyGivenNames y'; refine (fun (_ : Kept s0 y'.1) => ?_) ?_; clear_value y'; revert y'; intro _ _; rotate_left; dsimp only [y']; clear y'; rotate_left)
    | (extract_lets +onlyGivenNames y'; clear_value y'; revert y'; intro _)
    | with_reducible apply State.startPull_kept | with_reducible apply Kept.ite
    | with_reducible apply Kept.foldl | with_reducible apply Kept.foldl_fst
    | with_reducible apply Kept.foldl_snd | intro _ _ _ | intro _ _ | intro _ | split | dsimp only
    | exact hkept | assumption

theorem State.folioGoesOn_kept {s0 : State} {s : State} (p : Nat) (hkept : Kept s0 s) :
    Kept s0 (State.folioGoesOn s p) := by
  unfold State.folioGoesOn
  repeat' first
    | with_reducible exact hkept | with_reducible assumption
    | (extract_lets +onlyGivenNames y'; refine (fun (_ : Kept s0 y') => ?_) ?_; clear_value y'; revert y'; intro _ _; rotate_left; dsimp only [y']; clear y'; rotate_left)
    | (extract_lets +onlyGivenNames y'; clear_value y'; revert y'; intro _)
    | with_reducible apply State.giveUp_kept | with_reducible apply State.pinFolio_kept
    | with_reducible apply State.keepPulling_kept | with_reducible apply Kept.foldl
    | with_reducible apply Kept.foldl_fst | with_reducible apply Kept.foldl_snd | intro _ _ _ | intro _ _
    | intro _ | dsimp only | exact hkept | assumption

theorem State.foliosGoOn_kept {s0 : State} {s : State} (hkept : Kept s0 s) :
    Kept s0 (State.foliosGoOn s) := by
  unfold State.foliosGoOn
  repeat' first
    | with_reducible exact hkept | with_reducible assumption | with_reducible apply State.folioGoesOn_kept
    | with_reducible apply Kept.foldl | with_reducible apply Kept.foldl_fst
    | with_reducible apply Kept.foldl_snd | intro _ _ _ | intro _ _ | intro _ | dsimp only | exact hkept
    | assumption

theorem State.endSwitch_kept {s0 : State} {s : State} (p : Nat) (sw : Switch) (status info : Nat) (hkept : Kept s0 s) :
    Kept s0 (State.endSwitch s p sw status info) := by
  unfold State.endSwitch
  repeat' first
    | with_reducible exact hkept | with_reducible assumption
    | (extract_lets +onlyGivenNames y'; refine (fun (_ : Kept s0 y') => ?_) ?_; clear_value y'; revert y'; intro _ _; rotate_left; dsimp only [y']; clear y'; rotate_left)
    | (extract_lets +onlyGivenNames y'; clear_value y'; revert y'; intro _)
    | with_reducible apply State.immediate_kept | with_reducible apply State.setLastOk_kept
    | with_reducible apply State.modPart_kept | intro _ _ _ | intro _ _ | intro _ | dsimp only
    | with_reducible exact Kept.lit (by with_reducible assumption) | exact hkept | assumption
    | (with_reducible apply Kept.lit
       (first | with_reducible assumption | with_reducible apply State.immediate_kept
              | with_reducible apply State.setLastOk_kept | with_reducible apply State.modPart_kept))

theorem State.boundary_kept {s0 : State} {s : State} (p : Nat) (hkept : Kept s0 s) :
    Kept s0 (State.boundary s p) := by
  unfold State.boundary
  repeat' first
    | with_reducible exact hkept | with_reducible assumption
    | (extract_lets +onlyGivenNames y'; refine (fun (_ : Kept s0 y') => ?_) ?_; clear_value y'; revert y'; intro _ _; rotate_left; dsimp only [y']; clear y'; rotate_left)
    | (extract_lets +onlyGivenNames y'; clear_value y'; revert y'; intro _)
    | with_reducible apply State.substitute_kept | with_reducible apply State.closeStreams_kept
    | with_reducible apply State.clearPhasePins_kept | with_reducible apply State.setRegN_kept
    | with_reducible apply State.endSwitch_kept | with_reducible apply State.modPart_kept
    | with_reducible apply State.planMoves_kept | with_reducible apply State.kickMoves_kept
    | with_reducible apply State.takeHeldPulls_kept | with_reducible apply Kept.ite | intro _ _ _ | intro _ _
    | intro _ | split | dsimp only | with_reducible exact Kept.lit (by with_reducible assumption) | exact hkept
    | assumption
    | (with_reducible apply Kept.lit
       (first | with_reducible assumption | with_reducible apply State.substitute_kept
              | with_reducible apply State.closeStreams_kept | with_reducible apply State.clearPhasePins_kept
              | with_reducible apply State.setRegN_kept | with_reducible apply State.endSwitch_kept
              | with_reducible apply State.modPart_kept | with_reducible apply State.planMoves_kept
              | with_reducible apply State.kickMoves_kept | with_reducible apply State.takeHeldPulls_kept))

theorem State.checkDrained_kept {s0 : State} {s : State} (p : Nat) (hkept : Kept s0 s) :
    Kept s0 (State.checkDrained s p) := by
  unfold State.checkDrained
  repeat' first
    | with_reducible exact hkept | with_reducible assumption | with_reducible apply State.stage_kept
    | with_reducible apply State.boundary_kept | with_reducible apply Kept.ite | intro _ _ _ | intro _ _
    | intro _ | split | dsimp only | exact hkept | assumption

theorem State.tryOpen_kept {s0 : State} {s : State} (p : Nat) (hkept : Kept s0 s) :
    Kept s0 (State.tryOpen s p) := by
  unfold State.tryOpen
  repeat' first
    | with_reducible exact hkept | with_reducible assumption
    | (extract_lets +onlyGivenNames y'; refine (fun (_ : Kept s0 y') => ?_) ?_; clear_value y'; revert y'; intro _ _; rotate_left; dsimp only [y']; clear y'; rotate_left)
    | (extract_lets +onlyGivenNames y'; clear_value y'; revert y'; intro _)
    | with_reducible apply State.setRegN_kept | with_reducible apply State.modPart_kept
    | with_reducible apply State.openPhase_kept | with_reducible apply State.endSwitch_kept
    | with_reducible apply State.keepPulling_kept | with_reducible apply Kept.ite | intro _ _ _ | intro _ _
    | intro _ | split | dsimp only | with_reducible exact Kept.lit (by with_reducible assumption) | exact hkept
    | assumption
    | (with_reducible apply Kept.lit
       (first | with_reducible assumption | with_reducible apply State.setRegN_kept
              | with_reducible apply State.modPart_kept | with_reducible apply State.openPhase_kept
              | with_reducible apply State.endSwitch_kept | with_reducible apply State.keepPulling_kept))

end Sys2Proof.Machine
end

