-- ==== Sys2Proof/Laws/KeptRng.lean ====
section
/-!
SUPPORT. Laws/KeptRng.lean: what the operations of Machine/Rng.lean keep of a state (Laws/Kept.lean).
-/
namespace Sys2Proof.Machine

theorem State.modRng_kept {s0 : State} {s : State} (g : Rng → Rng) (hkept : Kept s0 s) :
    Kept s0 (State.modRng s g) := by
  unfold State.modRng
  repeat' first
    | with_reducible exact hkept | with_reducible assumption | dsimp only
    | with_reducible exact Kept.lit (by with_reducible assumption) | exact hkept | assumption

theorem State.rngRestart_kept {s0 : State} {s : State} (hkept : Kept s0 s) :
    Kept s0 (State.rngRestart s) := by
  unfold State.rngRestart
  repeat' first
    | with_reducible exact hkept | with_reducible assumption | with_reducible apply State.modRng_kept
    | intro _ _ _ | intro _ _ | intro _ | dsimp only | exact hkept | assumption

theorem State.rngTest_kept {s0 : State} {s : State} (req : Req) (v : W32) (hkept : Kept s0 s) :
    Kept s0 (State.rngTest s req v) := by
  unfold State.rngTest
  repeat' first
    | with_reducible exact hkept | with_reducible assumption
    | (extract_lets +onlyGivenNames y'; refine (fun (_ : Kept s0 y') => ?_) ?_; clear_value y'; revert y'; intro _ _; rotate_left; dsimp only [y']; clear y'; rotate_left)
    | (extract_lets +onlyGivenNames y'; clear_value y'; revert y'; intro _)
    | with_reducible apply State.modRng_kept | with_reducible apply State.rngRestart_kept
    | with_reducible apply State.regErr_kept | with_reducible apply Kept.ite | intro _ _ _ | intro _ _
    | intro _ | split | dsimp only | with_reducible exact Kept.lit (by with_reducible assumption) | exact hkept
    | assumption
    | (with_reducible apply Kept.lit
       (first | with_reducible assumption | with_reducible apply State.modRng_kept
              | with_reducible apply State.rngRestart_kept | with_reducible apply State.regErr_kept))

end Sys2Proof.Machine
end

