-- ==== Sys2Proof/Laws/KeptTally.lean ====
section
/-!
SUPPORT. Laws/KeptTally.lean: what the operations of Machine/Tally.lean keep of a state (Laws/Kept.lean).
-/
namespace Sys2Proof.Machine

theorem State.countDrop_kept {s0 : State} {s : State} (w : Option Nat) (stale : Bool) (hkept : Kept s0 s) :
    Kept s0 (State.countDrop s w stale) := by
  unfold State.countDrop
  repeat' first
    | with_reducible exact hkept | with_reducible assumption | with_reducible apply State.countUp_kept
    | with_reducible apply Kept.ite | split | dsimp only
    | with_reducible exact Kept.lit (by with_reducible assumption) | exact hkept | assumption
    | (with_reducible apply Kept.lit
       (first | with_reducible assumption | with_reducible apply State.countUp_kept))

theorem State.settleDue_kept {s0 : State} {s : State} (us : List Sub) (hkept : Kept s0 s) :
    Kept s0 (State.settleDue s us) := by
  unfold State.settleDue
  repeat' first
    | with_reducible exact hkept | with_reducible assumption | with_reducible apply State.judge_kept
    | with_reducible apply Kept.ite | with_reducible apply Kept.foldl | with_reducible apply Kept.foldl_fst
    | with_reducible apply Kept.foldl_snd | intro _ _ _ | intro _ _ | intro _ | split | dsimp only
    | exact hkept | assumption

theorem State.pushSeg_kept {s0 : State} {s : State} (g : Segm) (u : Sub) (hkept : Kept s0 s) :
    Kept s0 (State.pushSeg s g u) := by
  unfold State.pushSeg
  repeat' first
    | with_reducible exact hkept | with_reducible assumption
    | (extract_lets +onlyGivenNames y'; refine (fun (_ : Kept s0 y') => ?_) ?_; clear_value y'; revert y'; intro _ _; rotate_left; dsimp only [y']; clear y'; rotate_left)
    | (extract_lets +onlyGivenNames y'; clear_value y'; revert y'; intro _)
    | with_reducible apply State.modSub_kept | with_reducible apply State.modLedger_kept
    | with_reducible apply State.push_kept | with_reducible apply State.prof_kept
    | with_reducible apply State.idleSync_kept | with_reducible apply Kept.ite | intro _ _ _ | intro _ _
    | intro _ | split | dsimp only | with_reducible exact Kept.lit (by with_reducible assumption) | exact hkept
    | assumption
    | (with_reducible apply Kept.lit
       (first | with_reducible assumption | with_reducible apply State.modSub_kept
              | with_reducible apply State.modLedger_kept | with_reducible apply State.push_kept
              | with_reducible apply State.prof_kept | with_reducible apply State.idleSync_kept))

theorem State.openSub_kept {s0 : State} {s : State} (g : Segm) (w : Nat) (hkept : Kept s0 s) :
    Kept s0 (State.openSub s g w).2 := by
  unfold State.openSub
  repeat' first
    | with_reducible exact hkept | with_reducible assumption
    | (extract_lets +onlyGivenNames y'; refine (fun (_ : Kept s0 y') => ?_) ?_; clear_value y'; revert y'; intro _ _; rotate_left; dsimp only [y']; clear y'; rotate_left)
    | (extract_lets +onlyGivenNames y'; clear_value y'; revert y'; intro _)
    | with_reducible apply State.modLedger_kept | with_reducible apply State.modTally_kept
    | with_reducible apply State.countUp_kept | intro _ _ _ | intro _ _ | intro _ | dsimp only
    | with_reducible exact Kept.lit (by with_reducible assumption) | exact hkept | assumption
    | (with_reducible apply Kept.lit
       (first | with_reducible assumption | with_reducible apply State.modLedger_kept
              | with_reducible apply State.modTally_kept | with_reducible apply State.countUp_kept))

theorem State.offer_kept {s0 : State} {s : State} (g : Segm) (u : Sub) (fresh : Bool) (hkept : Kept s0 s) :
    Kept s0 (State.offer s g u fresh).1 := by
  unfold State.offer
  repeat' first
    | with_reducible exact hkept | with_reducible assumption
    | (extract_lets +onlyGivenNames y'; refine (fun (_ : Kept s0 y') => ?_) ?_; clear_value y'; revert y'; intro _ _; rotate_left; dsimp only [y']; clear y'; rotate_left)
    | (extract_lets +onlyGivenNames y'; refine (fun (_ : Kept s0 y'.2) => ?_) ?_; clear_value y'; revert y'; intro _ _; rotate_left; dsimp only [y']; clear y'; rotate_left)
    | ((fail_if_success (have := k_opened)); extract_lets +onlyGivenNames y'; refine (fun (k_opened : ∀ t', Kept s0 t' → Kept s0 (y' t')) => ?_) ?_; clear_value y'; revert y'; intro _ k_opened; rotate_left; dsimp only [y']; clear y'; rotate_left)
    | (extract_lets +onlyGivenNames y'; clear_value y'; revert y'; intro _) | with_reducible apply k_opened
    | with_reducible apply State.openSub_kept | with_reducible apply State.abortSub_kept
    | with_reducible apply State.overrun_kept | with_reducible apply State.pushSeg_kept
    | with_reducible apply Kept.fst_ite | with_reducible apply Kept.ite | intro _ _ _ | intro _ _ | intro _
    | split | dsimp only | exact hkept | assumption

theorem State.takeFirst_kept {s0 : State} {s : State} (g : Segm) (hkept : Kept s0 s) :
    Kept s0 (State.takeFirst s g).1 := by
  unfold State.takeFirst
  repeat' first
    | with_reducible exact hkept | with_reducible assumption
    | (extract_lets +onlyGivenNames y'; refine (fun (_ : Kept s0 y') => ?_) ?_; clear_value y'; revert y'; intro _ _; rotate_left; dsimp only [y']; clear y'; rotate_left)
    | (extract_lets +onlyGivenNames y'; refine (fun (_ : Kept s0 y'.1) => ?_) ?_; clear_value y'; revert y'; intro _ _; rotate_left; dsimp only [y']; clear y'; rotate_left)
    | (extract_lets +onlyGivenNames y'; clear_value y'; revert y'; intro _)
    | with_reducible apply State.countDrop_kept | with_reducible apply State.offer_kept
    | with_reducible apply Kept.of_fst (by with_reducible assumption) | with_reducible apply Kept.fst_ite
    | with_reducible apply Kept.ite | intro _ _ _ | intro _ _ | intro _ | split | dsimp only
    | with_reducible exact Kept.lit (by with_reducible assumption) | exact hkept | assumption
    | (with_reducible apply Kept.lit
       (first | with_reducible assumption | with_reducible apply State.countDrop_kept
              | with_reducible apply State.offer_kept))

theorem State.takeLater_kept {s0 : State} {s : State} (g : Segm) (hkept : Kept s0 s) :
    Kept s0 (State.takeLater s g).1 := by
  unfold State.takeLater
  repeat' first
    | with_reducible exact hkept | with_reducible assumption
    | (extract_lets +onlyGivenNames y'; refine (fun (_ : Kept s0 y') => ?_) ?_; clear_value y'; revert y'; intro _ _; rotate_left; dsimp only [y']; clear y'; rotate_left)
    | (extract_lets +onlyGivenNames y'; refine (fun (_ : Kept s0 y'.1) => ?_) ?_; clear_value y'; revert y'; intro _ _; rotate_left; dsimp only [y']; clear y'; rotate_left)
    | (extract_lets +onlyGivenNames y'; clear_value y'; revert y'; intro _)
    | with_reducible apply State.countDrop_kept | with_reducible apply State.abortSub_kept
    | with_reducible apply State.offer_kept | with_reducible apply Kept.of_fst (by with_reducible assumption)
    | with_reducible apply Kept.fst_ite | with_reducible apply Kept.ite | intro _ _ _ | intro _ _ | intro _
    | split | dsimp only | with_reducible exact Kept.lit (by with_reducible assumption) | exact hkept
    | assumption
    | (with_reducible apply Kept.lit
       (first | with_reducible assumption | with_reducible apply State.countDrop_kept
              | with_reducible apply State.abortSub_kept | with_reducible apply State.offer_kept))

theorem State.takeSeg_kept {s0 : State} {s : State} (g : Segm) (hkept : Kept s0 s) :
    Kept s0 (State.takeSeg s g).1 := by
  unfold State.takeSeg
  repeat' first
    | with_reducible exact hkept | with_reducible assumption
    | (extract_lets +onlyGivenNames y'; refine (fun (_ : Kept s0 y') => ?_) ?_; clear_value y'; revert y'; intro _ _; rotate_left; dsimp only [y']; clear y'; rotate_left)
    | (extract_lets +onlyGivenNames y'; refine (fun (_ : Kept s0 y'.1) => ?_) ?_; clear_value y'; revert y'; intro _ _; rotate_left; dsimp only [y']; clear y'; rotate_left)
    | (extract_lets +onlyGivenNames y'; clear_value y'; revert y'; intro _)
    | with_reducible apply State.settleDue_kept | with_reducible apply State.takeFirst_kept
    | with_reducible apply State.takeLater_kept | with_reducible apply Kept.fst_ite
    | with_reducible apply Kept.ite | split | dsimp only | exact hkept | assumption

theorem State.endWinOp_kept {s0 : State} {s : State} (o : Op) (w status : Nat) (hkept : Kept s0 s) :
    Kept s0 (State.endWinOp s o w status) := by
  unfold State.endWinOp
  repeat' first
    | with_reducible exact hkept | with_reducible assumption | with_reducible apply State.endOpCycles_kept
    | dsimp only | exact hkept | assumption

theorem State.endWinInfo_kept {s0 : State} {s : State} (o : Op) (w status info : Nat) (hkept : Kept s0 s) :
    Kept s0 (State.endWinInfo s o w status info) := by
  unfold State.endWinInfo
  repeat' first
    | with_reducible exact hkept | with_reducible assumption | with_reducible apply State.endOp_kept
    | dsimp only | exact hkept | assumption

theorem State.pickHampers_kept {s0 : State} (a0 : Nat) (a1 : Nat) {a2 : State} (a3 : Nat) (a4 : Nat) (hkept : Kept s0 a2) :
    Kept s0 (State.pickHampers a0 a1 a2 a3 a4).1 := by
  induction a0 generalizing a2 a1 a3 a4 with
  | zero =>
    unfold State.pickHampers
    repeat' first
      | with_reducible exact hkept | with_reducible assumption
      | (extract_lets +onlyGivenNames y'; refine (fun (_ : Kept s0 y') => ?_) ?_; clear_value y'; revert y'; intro _ _; rotate_left; dsimp only [y']; clear y'; rotate_left)
      | (extract_lets +onlyGivenNames y'; clear_value y'; revert y'; intro _)
      | with_reducible apply State.bindHamper_kept | with_reducible apply State.modWin_kept | intro _ _ _
      | intro _ _ | intro _ | split | dsimp only | with_reducible exact Kept.lit (by with_reducible assumption)
      | exact hkept | assumption
      | (with_reducible apply Kept.lit
         (first | with_reducible assumption | with_reducible apply State.bindHamper_kept
                | with_reducible apply State.modWin_kept))
  | succ k ih =>
    unfold State.pickHampers
    repeat' first
      | with_reducible exact hkept | with_reducible assumption | with_reducible apply ih
      | (extract_lets +onlyGivenNames y'; refine (fun (_ : Kept s0 y') => ?_) ?_; clear_value y'; revert y'; intro _ _; rotate_left; dsimp only [y']; clear y'; rotate_left)
      | (extract_lets +onlyGivenNames y'; clear_value y'; revert y'; intro _)
      | with_reducible apply State.bindHamper_kept | with_reducible apply State.modWin_kept | intro _ _ _
      | intro _ _ | intro _ | split | dsimp only | with_reducible exact Kept.lit (by with_reducible assumption)
      | exact hkept | assumption
      | (with_reducible apply Kept.lit
         (first | with_reducible assumption | with_reducible apply State.bindHamper_kept
                | with_reducible apply State.modWin_kept))

theorem State.defineWindow_kept {s0 : State} {s : State} (o : Op) (geo : Geometry) (index vector w : Nat) (hkept : Kept s0 s) :
    Kept s0 (State.defineWindow s o geo index vector w) := by
  unfold State.defineWindow
  repeat' first
    | with_reducible exact hkept | with_reducible assumption
    | (extract_lets +onlyGivenNames y'; refine (fun (_ : Kept s0 y') => ?_) ?_; clear_value y'; revert y'; intro _ _; rotate_left; dsimp only [y']; clear y'; rotate_left)
    | (extract_lets +onlyGivenNames y'; refine (fun (_ : Kept s0 y'.1) => ?_) ?_; clear_value y'; revert y'; intro _ _; rotate_left; dsimp only [y']; clear y'; rotate_left)
    | (extract_lets +onlyGivenNames y'; clear_value y'; revert y'; intro _)
    | with_reducible apply State.setWin_kept | with_reducible apply State.setRegN_kept
    | with_reducible apply State.pickHampers_kept | with_reducible apply State.takeFrames_kept
    | with_reducible apply State.zeroHoard_kept | with_reducible apply State.modWin_kept
    | with_reducible apply State.winEvents_kept | with_reducible apply State.endOp_kept
    | with_reducible apply Kept.ite | with_reducible refine Kept.lit_regs (by with_reducible assumption) ?_
    | (with_reducible apply Kept.regs
       (first | with_reducible assumption | with_reducible apply State.setWin_kept
              | with_reducible apply State.setRegN_kept | with_reducible apply State.pickHampers_kept
              | with_reducible apply State.takeFrames_kept | with_reducible apply State.zeroHoard_kept
              | with_reducible apply State.modWin_kept | with_reducible apply State.winEvents_kept
              | with_reducible apply State.endOp_kept))
    | exact Tab.wf_without _ (by assumption) | intro _ _ _ | intro _ _ | intro _ | split | dsimp only
    | with_reducible exact Kept.lit (by with_reducible assumption) | exact hkept | assumption
    | (with_reducible apply Kept.lit
       (first | with_reducible assumption | with_reducible apply State.setWin_kept
              | with_reducible apply State.setRegN_kept | with_reducible apply State.pickHampers_kept
              | with_reducible apply State.takeFrames_kept | with_reducible apply State.zeroHoard_kept
              | with_reducible apply State.modWin_kept | with_reducible apply State.winEvents_kept
              | with_reducible apply State.endOp_kept))

theorem State.windowDefineOp_kept {s0 : State} {s : State} (o : Op) (hkept : Kept s0 s) :
    Kept s0 (State.windowDefineOp s o) := by
  unfold State.windowDefineOp
  repeat' first
    | with_reducible exact hkept | with_reducible assumption
    | (extract_lets +onlyGivenNames y'; refine (fun (_ : Kept s0 y') => ?_) ?_; clear_value y'; revert y'; intro _ _; rotate_left; dsimp only [y']; clear y'; rotate_left)
    | (extract_lets +onlyGivenNames y'; refine (fun (_ : Kept s0 y'.2) => ?_) ?_; clear_value y'; revert y'; intro _ _; rotate_left; dsimp only [y']; clear y'; rotate_left)
    | (extract_lets +onlyGivenNames y'; clear_value y'; revert y'; intro _)
    | with_reducible apply State.refuseOp_kept | with_reducible apply State.free_kept
    | with_reducible apply State.defineWindow_kept
    | with_reducible apply Kept.of_snd (by with_reducible assumption) | with_reducible apply Kept.ite
    | intro _ _ _ | intro _ _ | intro _ | split | dsimp only
    | with_reducible exact Kept.lit (by with_reducible assumption) | exact hkept | assumption
    | (with_reducible apply Kept.lit
       (first | with_reducible assumption | with_reducible apply State.refuseOp_kept
              | with_reducible apply State.free_kept | with_reducible apply State.defineWindow_kept))

theorem State.winOp_kept {s0 : State} {s : State} (o : Op) (ok : Window → Bool) (body : Nat → State) (hkept : Kept s0 s) (hbody : ∀ x0, Kept s0 (body x0)) :
    Kept s0 (State.winOp s o ok body) := by
  unfold State.winOp
  repeat' first
    | with_reducible exact hkept | with_reducible assumption | with_reducible apply hbody
    | (extract_lets +onlyGivenNames y'; refine (fun (_ : Kept s0 y') => ?_) ?_; clear_value y'; revert y'; intro _ _; rotate_left; dsimp only [y']; clear y'; rotate_left)
    | (extract_lets +onlyGivenNames y'; clear_value y'; revert y'; intro _)
    | with_reducible apply State.refuseOp_kept | with_reducible apply Kept.ite | intro _ _ _ | intro _ _
    | intro _ | split | dsimp only | exact hkept | assumption

theorem State.windowOpenOp_kept {s0 : State} {s : State} (o : Op) (hkept : Kept s0 s) :
    Kept s0 (State.windowOpenOp s o) := by
  unfold State.windowOpenOp
  repeat' first
    | with_reducible exact hkept | with_reducible assumption | with_reducible apply State.winOp_kept
    | with_reducible apply State.modWin_kept | with_reducible apply State.openWindow_kept
    | with_reducible apply State.endWinOp_kept | with_reducible apply Kept.ite | intro _ _ _ | intro _ _
    | intro _ | split | dsimp only | with_reducible exact Kept.lit (by with_reducible assumption) | exact hkept
    | assumption
    | (with_reducible apply Kept.lit
       (first | with_reducible assumption | with_reducible apply State.winOp_kept
              | with_reducible apply State.modWin_kept | with_reducible apply State.openWindow_kept
              | with_reducible apply State.endWinOp_kept))

theorem State.windowCloseOp_kept {s0 : State} {s : State} (o : Op) (hkept : Kept s0 s) :
    Kept s0 (State.windowCloseOp s o) := by
  unfold State.windowCloseOp
  repeat' first
    | with_reducible exact hkept | with_reducible assumption | with_reducible apply State.winOp_kept
    | with_reducible apply State.modWin_kept | with_reducible apply State.closeWindow_kept
    | with_reducible apply State.endWinOp_kept | intro _ _ _ | intro _ _ | intro _ | dsimp only
    | with_reducible exact Kept.lit (by with_reducible assumption) | exact hkept | assumption
    | (with_reducible apply Kept.lit
       (first | with_reducible assumption | with_reducible apply State.winOp_kept
              | with_reducible apply State.modWin_kept | with_reducible apply State.closeWindow_kept
              | with_reducible apply State.endWinOp_kept))

theorem State.windowDiscardOp_kept {s0 : State} {s : State} (o : Op) (hkept : Kept s0 s) :
    Kept s0 (State.windowDiscardOp s o) := by
  unfold State.windowDiscardOp
  repeat' first
    | with_reducible exact hkept | with_reducible assumption | with_reducible apply State.winOp_kept
    | with_reducible apply State.discardWindow_kept | with_reducible apply State.endWinOp_kept
    | with_reducible apply Kept.ite | intro _ _ _ | intro _ _ | intro _ | split | dsimp only | exact hkept
    | assumption

theorem State.windowFreeOp_kept {s0 : State} {s : State} (o : Op) (hkept : Kept s0 s) :
    Kept s0 (State.windowFreeOp s o) := by
  unfold State.windowFreeOp
  repeat' first
    | with_reducible exact hkept | with_reducible assumption | with_reducible apply State.winOp_kept
    | with_reducible apply State.endWinOp_kept | with_reducible apply State.freeWindow_kept | intro _ _ _
    | intro _ _ | intro _ | dsimp only | exact hkept | assumption

theorem State.ledgerReadOp_kept {s0 : State} {s : State} (o : Op) (n : Nat) (addr : Window → Nat → Option Nat) (hkept : Kept s0 s) :
    Kept s0 (State.ledgerReadOp s o n addr) := by
  unfold State.ledgerReadOp
  repeat' first
    | with_reducible exact hkept | with_reducible assumption
    | (extract_lets +onlyGivenNames y'; refine (fun (_ : Kept s0 y') => ?_) ?_; clear_value y'; revert y'; intro _ _; rotate_left; dsimp only [y']; clear y'; rotate_left)
    | (extract_lets +onlyGivenNames y'; refine (fun (_ : y'.Kept s0) => ?_) ?_; clear_value y'; revert y'; intro _ _; rotate_left; dsimp only [y']; clear y'; rotate_left)
    | (extract_lets +onlyGivenNames y'; clear_value y'; revert y'; intro _)
    | with_reducible apply State.refuseOp_kept | with_reducible apply State.prepare_kept
    | with_reducible apply Prep.finish_kept | with_reducible apply State.writeVa_kept
    | with_reducible apply State.endWinInfo_kept | with_reducible apply Prep.ok_kept
    | with_reducible apply Prep.wait_kept | with_reducible apply Prep.fail_kept
    | with_reducible apply Prep.of_ok (by with_reducible assumption)
    | with_reducible apply Prep.of_wait (by with_reducible assumption)
    | with_reducible apply Prep.of_fail (by with_reducible assumption) | with_reducible apply Kept.ite
    | intro _ _ _ | intro _ _ | intro _ | split | dsimp only
    | with_reducible exact Kept.lit (by with_reducible assumption) | exact hkept | assumption
    | (with_reducible apply Kept.lit
       (first | with_reducible assumption | with_reducible apply State.refuseOp_kept
              | with_reducible apply State.prepare_kept | with_reducible apply Prep.finish_kept
              | with_reducible apply State.writeVa_kept | with_reducible apply State.endWinInfo_kept))

theorem State.tallyIngestOp_kept {s0 : State} {s : State} (o : Op) (hostOk : Bool) (hkept : Kept s0 s) :
    Kept s0 (State.tallyIngestOp s o hostOk) := by
  unfold State.tallyIngestOp
  repeat' first
    | with_reducible exact hkept | with_reducible assumption
    | (extract_lets +onlyGivenNames y'; refine (fun (_ : Kept s0 y') => ?_) ?_; clear_value y'; revert y'; intro _ _; rotate_left; dsimp only [y']; clear y'; rotate_left)
    | (extract_lets +onlyGivenNames y'; refine (fun (_ : Kept s0 y'.1) => ?_) ?_; clear_value y'; revert y'; intro _ _; rotate_left; dsimp only [y']; clear y'; rotate_left)
    | ((fail_if_success (have := k_fin)); extract_lets +onlyGivenNames y'; refine (fun (k_fin : ∀ st', Kept s0 (y' st')) => ?_) ?_; clear_value y'; revert y'; intro _ k_fin; rotate_left; dsimp only [y']; clear y'; rotate_left)
    | (extract_lets +onlyGivenNames y'; clear_value y'; revert y'; intro _) | with_reducible apply k_fin
    | with_reducible apply State.refuseOp_kept | with_reducible apply State.takeSeg_kept
    | with_reducible apply State.endWinOp_kept | with_reducible apply State.overrun_kept
    | with_reducible apply Kept.of_fst (by with_reducible assumption) | with_reducible apply Kept.ite
    | intro _ _ _ | intro _ _ | intro _ | split | dsimp only
    | with_reducible exact Kept.lit (by with_reducible assumption) | exact hkept | assumption
    | (with_reducible apply Kept.lit
       (first | with_reducible assumption | with_reducible apply State.refuseOp_kept
              | with_reducible apply State.takeSeg_kept | with_reducible apply State.endWinOp_kept
              | with_reducible apply State.overrun_kept))

theorem State.heldByTime_kept {s0 : State} {s : State} (w : Nat) (hkept : Kept s0 s) :
    Kept s0 (State.heldByTime s w) := by
  unfold State.heldByTime
  repeat' first
    | with_reducible exact hkept | with_reducible assumption | with_reducible apply State.addErr_kept
    | dsimp only | exact hkept | assumption

theorem State.endGrace_kept {s0 : State} {s : State} (w : Nat) (hkept : Kept s0 s) :
    Kept s0 (State.endGrace s w) := by
  unfold State.endGrace
  repeat' first
    | with_reducible exact hkept | with_reducible assumption
    | (extract_lets +onlyGivenNames y'; refine (fun (_ : Kept s0 y') => ?_) ?_; clear_value y'; revert y'; intro _ _; rotate_left; dsimp only [y']; clear y'; rotate_left)
    | ((fail_if_success (have := k_mine)); extract_lets +onlyGivenNames y'; refine (fun (k_mine : ∀ t', Kept s0 t' → Kept s0 (y' t')) => ?_) ?_; clear_value y'; revert y'; intro _ k_mine; rotate_left; dsimp only [y']; clear y'; rotate_left)
    | (extract_lets +onlyGivenNames y'; clear_value y'; revert y'; intro _) | with_reducible apply k_mine
    | with_reducible apply State.judge_kept | with_reducible apply State.abortSub_kept
    | with_reducible apply State.modWin_kept | with_reducible apply State.winGo_kept
    | with_reducible apply State.handOver_kept | with_reducible apply State.release_kept
    | with_reducible apply State.checkSummed_kept | with_reducible apply Kept.ite
    | with_reducible apply Kept.foldl | with_reducible apply Kept.foldl_fst
    | with_reducible apply Kept.foldl_snd | intro _ _ _ | intro _ _ | intro _ | split | dsimp only
    | with_reducible exact Kept.lit (by with_reducible assumption) | exact hkept | assumption
    | (with_reducible apply Kept.lit
       (first | with_reducible assumption | with_reducible apply State.judge_kept
              | with_reducible apply State.abortSub_kept | with_reducible apply State.modWin_kept
              | with_reducible apply State.winGo_kept | with_reducible apply State.handOver_kept
              | with_reducible apply State.release_kept | with_reducible apply State.checkSummed_kept))

end Sys2Proof.Machine
end

