-- ==== Sys2Proof/Laws/KeptLinks.lean ====
section
/-!
SUPPORT. Laws/KeptLinks.lean: what the operations of Machine/Links.lean keep of a state (Laws/Kept.lean).
-/
namespace Sys2Proof.Machine

theorem State.stranger_kept {s0 : State} {s : State} (i : Nat) (addr : Bytes) (job reason : Nat) (hkept : Kept s0 s) :
    Kept s0 (State.stranger s i addr job reason) := by
  unfold State.stranger
  repeat' first
    | with_reducible exact hkept | with_reducible assumption
    | (extract_lets +onlyGivenNames y'; refine (fun (_ : Kept s0 y') => ?_) ?_; clear_value y'; revert y'; intro _ _; rotate_left; dsimp only [y']; clear y'; rotate_left)
    | (extract_lets +onlyGivenNames y'; clear_value y'; revert y'; intro _)
    | with_reducible apply State.modPort_kept | with_reducible apply State.countUp_kept
    | with_reducible apply State.setEvents_kept | with_reducible apply State.addErr_kept
    | with_reducible apply Kept.ite | intro _ _ _ | intro _ _ | intro _ | split | dsimp only
    | with_reducible exact Kept.lit (by with_reducible assumption) | exact hkept | assumption
    | (with_reducible apply Kept.lit
       (first | with_reducible assumption | with_reducible apply State.modPort_kept
              | with_reducible apply State.countUp_kept | with_reducible apply State.setEvents_kept
              | with_reducible apply State.addErr_kept))

theorem State.zeroRate_kept {s0 : State} {s : State} (i : Nat) (hkept : Kept s0 s) :
    Kept s0 (State.zeroRate s i).1 := by
  unfold State.zeroRate
  repeat' first
    | with_reducible exact hkept | with_reducible assumption
    | (extract_lets +onlyGivenNames y'; refine (fun (_ : Kept s0 y') => ?_) ?_; clear_value y'; revert y'; intro _ _; rotate_left; dsimp only [y']; clear y'; rotate_left)
    | (extract_lets +onlyGivenNames y'; clear_value y'; revert y'; intro _)
    | with_reducible apply State.modPort_kept | with_reducible apply Kept.fst_ite
    | with_reducible apply Kept.ite | intro _ _ _ | intro _ _ | intro _ | split | dsimp only
    | with_reducible exact Kept.lit (by with_reducible assumption) | exact hkept | assumption
    | (with_reducible apply Kept.lit
       (first | with_reducible assumption | with_reducible apply State.modPort_kept))

theorem State.takeSubmit_kept {s0 : State} {s : State} (p i stamp : Nat) (b : Bytes) (hkept : Kept s0 s) :
    Kept s0 (State.takeSubmit s p i stamp b).1 := by
  unfold State.takeSubmit
  repeat' first
    | with_reducible exact hkept | with_reducible assumption
    | (extract_lets +onlyGivenNames y'; refine (fun (_ : Kept s0 y') => ?_) ?_; clear_value y'; revert y'; intro _ _; rotate_left; dsimp only [y']; clear y'; rotate_left)
    | (extract_lets +onlyGivenNames y'; refine (fun (_ : Kept s0 y'.1) => ?_) ?_; clear_value y'; revert y'; intro _ _; rotate_left; dsimp only [y']; clear y'; rotate_left)
    | (extract_lets +onlyGivenNames y'; clear_value y'; revert y'; intro _)
    | with_reducible apply State.takeSeg_kept | with_reducible apply State.overrun_kept
    | with_reducible apply State.modLink_kept | with_reducible apply Kept.of_fst (by with_reducible assumption)
    | with_reducible apply Kept.fst_ite | with_reducible apply Kept.ite | intro _ _ _ | intro _ _ | intro _
    | split | dsimp only | with_reducible exact Kept.lit (by with_reducible assumption) | exact hkept
    | assumption
    | (with_reducible apply Kept.lit
       (first | with_reducible assumption | with_reducible apply State.takeSeg_kept
              | with_reducible apply State.overrun_kept | with_reducible apply State.modLink_kept))

theorem State.takeFetch_kept {s0 : State} {s : State} (p i flow : Nat) (b : Bytes) (hkept : Kept s0 s) :
    Kept s0 (State.takeFetch s p i flow b) := by
  unfold State.takeFetch
  repeat' first
    | with_reducible exact hkept | with_reducible assumption
    | (extract_lets +onlyGivenNames y'; refine (fun (_ : Kept s0 y') => ?_) ?_; clear_value y'; revert y'; intro _ _; rotate_left; dsimp only [y']; clear y'; rotate_left)
    | (extract_lets +onlyGivenNames y'; refine (fun (_ : Kept s0 y'.1) => ?_) ?_; clear_value y'; revert y'; intro _ _; rotate_left; dsimp only [y']; clear y'; rotate_left)
    | (extract_lets +onlyGivenNames y'; clear_value y'; revert y'; intro _)
    | with_reducible apply State.sendFolio_kept | with_reducible apply Kept.ite | split | dsimp only
    | exact hkept | assumption

theorem State.pullFails_kept {s0 : State} {s : State} (m : Move) (hkept : Kept s0 s) :
    Kept s0 (State.pullFails s m) := by
  unfold State.pullFails
  repeat' first
    | with_reducible exact hkept | with_reducible assumption
    | (extract_lets +onlyGivenNames y'; refine (fun (_ : Kept s0 y') => ?_) ?_; clear_value y'; revert y'; intro _ _; rotate_left; dsimp only [y']; clear y'; rotate_left)
    | (extract_lets +onlyGivenNames y'; clear_value y'; revert y'; intro _)
    | with_reducible apply State.leaveBehind_kept | intro _ _ _ | intro _ _ | intro _ | split | dsimp only
    | with_reducible exact Kept.lit (by with_reducible assumption) | exact hkept | assumption
    | (with_reducible apply Kept.lit
       (first | with_reducible assumption | with_reducible apply State.leaveBehind_kept))

theorem State.pullRefused_kept {s0 : State} {s : State} (m : Move) (phase : Nat) (hkept : Kept s0 s) :
    Kept s0 (State.pullRefused s m phase) := by
  unfold State.pullRefused
  repeat' first
    | with_reducible exact hkept | with_reducible assumption
    | (extract_lets +onlyGivenNames y'; refine (fun (_ : Kept s0 y') => ?_) ?_; clear_value y'; revert y'; intro _ _; rotate_left; dsimp only [y']; clear y'; rotate_left)
    | (extract_lets +onlyGivenNames y'; clear_value y'; revert y'; intro _)
    | with_reducible apply State.abandonMove_kept | with_reducible apply State.pullFails_kept
    | with_reducible apply State.dropCopy_kept | with_reducible apply State.setLeaf_kept
    | with_reducible apply State.modPart_kept | with_reducible apply Kept.ite | intro _ _ _ | intro _ _
    | intro _ | split | dsimp only | with_reducible exact Kept.lit (by with_reducible assumption) | exact hkept
    | assumption
    | (with_reducible apply Kept.lit
       (first | with_reducible assumption | with_reducible apply State.abandonMove_kept
              | with_reducible apply State.pullFails_kept | with_reducible apply State.dropCopy_kept
              | with_reducible apply State.setLeaf_kept | with_reducible apply State.modPart_kept))

theorem State.takeFolio_kept {s0 : State} {s : State} (p i flow : Nat) (b : Bytes) (hkept : Kept s0 s) :
    Kept s0 (State.takeFolio s p i flow b) := by
  unfold State.takeFolio
  repeat' first
    | with_reducible exact hkept | with_reducible assumption
    | (extract_lets +onlyGivenNames y'; refine (fun (_ : Kept s0 y') => ?_) ?_; clear_value y'; revert y'; intro _ _; rotate_left; dsimp only [y']; clear y'; rotate_left)
    | (extract_lets +onlyGivenNames y'; clear_value y'; revert y'; intro _)
    | with_reducible apply State.abandonMove_kept | with_reducible apply State.setLeaf_kept
    | with_reducible apply State.modPart_kept | with_reducible apply State.modFolio_kept
    | with_reducible apply State.modMove_kept | with_reducible apply State.lpddrSeal_kept
    | with_reducible apply Kept.ite | exact Memory.wf_write _ _ (by assumption)
    | exact Memory.wf_zero _ _ (by assumption) | intro _ _ _ | intro _ _ | intro _ | split | dsimp only
    | with_reducible exact Kept.lit (by with_reducible assumption) | exact hkept | assumption | exact rfl
    | exact Nat.le_refl _
    | (with_reducible apply Kept.lit
       (first | with_reducible assumption | with_reducible apply State.abandonMove_kept
              | with_reducible apply State.setLeaf_kept | with_reducible apply State.modPart_kept
              | with_reducible apply State.modFolio_kept | with_reducible apply State.modMove_kept
              | with_reducible apply State.lpddrSeal_kept))

theorem State.takeMove_kept {s0 : State} {s : State} (p i flow : Nat) (b : Bytes) (hkept : Kept s0 s) :
    Kept s0 (State.takeMove s p i flow b) := by
  unfold State.takeMove
  repeat' first
    | with_reducible exact hkept | with_reducible assumption
    | (extract_lets +onlyGivenNames y'; refine (fun (_ : Kept s0 y') => ?_) ?_; clear_value y'; revert y'; intro _ _; rotate_left; dsimp only [y']; clear y'; rotate_left)
    | (extract_lets +onlyGivenNames y'; clear_value y'; revert y'; intro _)
    | with_reducible apply State.takePull_kept | with_reducible apply State.modPart_kept
    | with_reducible apply State.giveUp_kept | with_reducible apply State.pullRefused_kept
    | with_reducible apply Kept.ite | intro _ _ _ | intro _ _ | intro _ | split | dsimp only
    | with_reducible exact Kept.lit (by with_reducible assumption) | exact hkept | assumption
    | (with_reducible apply Kept.lit
       (first | with_reducible assumption | with_reducible apply State.takePull_kept
              | with_reducible apply State.modPart_kept | with_reducible apply State.giveUp_kept
              | with_reducible apply State.pullRefused_kept))

theorem State.accepted_kept {s0 : State} {s : State} (p i port : Nat) (h : RxHeld) (hkept : Kept s0 s) :
    Kept s0 (State.accepted s p i port h) := by
  unfold State.accepted
  repeat' first
    | with_reducible exact hkept | with_reducible assumption
    | (extract_lets +onlyGivenNames y'; refine (fun (_ : Kept s0 y') => ?_) ?_; clear_value y'; revert y'; intro _ _; rotate_left; dsimp only [y']; clear y'; rotate_left)
    | (extract_lets +onlyGivenNames y'; clear_value y'; revert y'; intro _)
    | with_reducible apply State.modLink_kept | with_reducible apply State.sendAck_kept
    | with_reducible apply Kept.ite | intro _ _ _ | intro _ _ | intro _ | split | dsimp only
    | with_reducible exact Kept.lit (by with_reducible assumption) | exact hkept | assumption
    | (with_reducible apply Kept.lit
       (first | with_reducible assumption | with_reducible apply State.modLink_kept
              | with_reducible apply State.sendAck_kept))

theorem State.consume_kept {s0 : State} {s : State} (p i : Nat) (h : RxHeld) (msg : Bytes) (hkept : Kept s0 s) :
    Kept s0 (State.consume s p i h msg).1 := by
  unfold State.consume
  repeat' first
    | with_reducible exact hkept | with_reducible assumption | with_reducible apply State.takeSubmit_kept
    | with_reducible apply State.takeFetch_kept | with_reducible apply State.takeFolio_kept
    | with_reducible apply State.takeMove_kept
    | with_reducible apply Kept.of_fst (by with_reducible assumption) | split | dsimp only
    | with_reducible exact Kept.lit (by with_reducible assumption) | exact hkept | assumption
    | (with_reducible apply Kept.lit
       (first | with_reducible assumption | with_reducible apply State.takeSubmit_kept
              | with_reducible apply State.takeFetch_kept | with_reducible apply State.takeFolio_kept
              | with_reducible apply State.takeMove_kept))

theorem State.deliver_kept {s0 : State} {s : State} (p i : Nat) (h : RxHeld) (hkept : Kept s0 s) :
    Kept s0 (State.deliver s p i h).1 := by
  unfold State.deliver
  repeat' first
    | with_reducible exact hkept | with_reducible assumption
    | (extract_lets +onlyGivenNames y'; refine (fun (_ : Kept s0 y') => ?_) ?_; clear_value y'; revert y'; intro _ _; rotate_left; dsimp only [y']; clear y'; rotate_left)
    | (extract_lets +onlyGivenNames y'; refine (fun (_ : Kept s0 y'.1) => ?_) ?_; clear_value y'; revert y'; intro _ _; rotate_left; dsimp only [y']; clear y'; rotate_left)
    | (extract_lets +onlyGivenNames y'; clear_value y'; revert y'; intro _)
    | with_reducible apply State.modLink_kept | with_reducible apply State.consume_kept
    | with_reducible apply Kept.fst_ite | with_reducible apply Kept.ite | intro _ _ _ | intro _ _ | intro _
    | split | dsimp only | with_reducible exact Kept.lit (by with_reducible assumption) | exact hkept
    | assumption
    | (with_reducible apply Kept.lit
       (first | with_reducible assumption | with_reducible apply State.modLink_kept
              | with_reducible apply State.consume_kept))

theorem State.drain_kept {s0 : State} (p i port : Nat) (a0 : Nat) {a1 : State} (hkept : Kept s0 a1) :
    Kept s0 (State.drain p i port a0 a1) := by
  induction a0 generalizing a1 with
  | zero =>
    unfold State.drain
    repeat' first
      | with_reducible exact hkept | with_reducible assumption
      | (extract_lets +onlyGivenNames y'; refine (fun (_ : Kept s0 y') => ?_) ?_; clear_value y'; revert y'; intro _ _; rotate_left; dsimp only [y']; clear y'; rotate_left)
      | (extract_lets +onlyGivenNames y'; refine (fun (_ : Kept s0 y'.1) => ?_) ?_; clear_value y'; revert y'; intro _ _; rotate_left; dsimp only [y']; clear y'; rotate_left)
      | (extract_lets +onlyGivenNames y'; clear_value y'; revert y'; intro _)
      | with_reducible apply State.modLink_kept | with_reducible apply State.deliver_kept
      | with_reducible apply State.accepted_kept
      | with_reducible apply Kept.of_fst (by with_reducible assumption) | intro _ _ _ | intro _ _ | intro _
      | split | dsimp only | with_reducible exact Kept.lit (by with_reducible assumption) | exact hkept
      | assumption
      | (with_reducible apply Kept.lit
         (first | with_reducible assumption | with_reducible apply State.modLink_kept
                | with_reducible apply State.deliver_kept | with_reducible apply State.accepted_kept))
  | succ k ih =>
    unfold State.drain
    repeat' first
      | with_reducible exact hkept | with_reducible assumption | with_reducible apply ih
      | (extract_lets +onlyGivenNames y'; refine (fun (_ : Kept s0 y') => ?_) ?_; clear_value y'; revert y'; intro _ _; rotate_left; dsimp only [y']; clear y'; rotate_left)
      | (extract_lets +onlyGivenNames y'; refine (fun (_ : Kept s0 y'.1) => ?_) ?_; clear_value y'; revert y'; intro _ _; rotate_left; dsimp only [y']; clear y'; rotate_left)
      | (extract_lets +onlyGivenNames y'; clear_value y'; revert y'; intro _)
      | with_reducible apply State.modLink_kept | with_reducible apply State.deliver_kept
      | with_reducible apply State.accepted_kept
      | with_reducible apply Kept.of_fst (by with_reducible assumption) | intro _ _ _ | intro _ _ | intro _
      | split | dsimp only | with_reducible exact Kept.lit (by with_reducible assumption) | exact hkept
      | assumption
      | (with_reducible apply Kept.lit
         (first | with_reducible assumption | with_reducible apply State.modLink_kept
                | with_reducible apply State.deliver_kept | with_reducible apply State.accepted_kept))

theorem State.ackAgain_kept {s0 : State} {s : State} (p i : Nat) (hkept : Kept s0 s) :
    Kept s0 (State.ackAgain s p i) := by
  unfold State.ackAgain
  repeat' first
    | with_reducible exact hkept | with_reducible assumption
    | (extract_lets +onlyGivenNames y'; refine (fun (_ : Kept s0 y') => ?_) ?_; clear_value y'; revert y'; intro _ _; rotate_left; dsimp only [y']; clear y'; rotate_left)
    | (extract_lets +onlyGivenNames y'; clear_value y'; revert y'; intro _)
    | with_reducible apply State.modLink_kept | with_reducible apply State.sendAck_kept
    | with_reducible apply Kept.ite | intro _ _ _ | intro _ _ | intro _ | split | dsimp only
    | with_reducible exact Kept.lit (by with_reducible assumption) | exact hkept | assumption
    | (with_reducible apply Kept.lit
       (first | with_reducible assumption | with_reducible apply State.modLink_kept
              | with_reducible apply State.sendAck_kept))

theorem State.inOrder_kept {s0 : State} {s : State} (p i port : Nat) (h : RxHeld) (hkept : Kept s0 s) :
    Kept s0 (State.inOrder s p i port h) := by
  unfold State.inOrder
  repeat' first
    | with_reducible exact hkept | with_reducible assumption
    | (extract_lets +onlyGivenNames y'; refine (fun (_ : Kept s0 y') => ?_) ?_; clear_value y'; revert y'; intro _ _; rotate_left; dsimp only [y']; clear y'; rotate_left)
    | (extract_lets +onlyGivenNames y'; refine (fun (_ : Kept s0 y'.1) => ?_) ?_; clear_value y'; revert y'; intro _ _; rotate_left; dsimp only [y']; clear y'; rotate_left)
    | (extract_lets +onlyGivenNames y'; clear_value y'; revert y'; intro _)
    | with_reducible apply State.ackAgain_kept | with_reducible apply State.countUp_kept
    | with_reducible apply State.deliver_kept | with_reducible apply State.drain_kept
    | with_reducible apply State.accepted_kept | with_reducible apply State.modLink_kept
    | with_reducible apply Kept.of_fst (by with_reducible assumption) | with_reducible apply Kept.ite
    | intro _ _ _ | intro _ _ | intro _ | split | dsimp only
    | with_reducible exact Kept.lit (by with_reducible assumption) | exact hkept | assumption
    | (with_reducible apply Kept.lit
       (first | with_reducible assumption | with_reducible apply State.ackAgain_kept
              | with_reducible apply State.countUp_kept | with_reducible apply State.deliver_kept
              | with_reducible apply State.drain_kept | with_reducible apply State.accepted_kept
              | with_reducible apply State.modLink_kept))

theorem State.takeAck_kept {s0 : State} {s : State} (p i : Nat) (h : Ryt) (hkept : Kept s0 s) :
    Kept s0 (State.takeAck s p i h) := by
  unfold State.takeAck
  repeat' first
    | with_reducible exact hkept | with_reducible assumption | with_reducible apply State.modLink_kept
    | with_reducible apply State.advanceGen_kept | with_reducible apply Kept.ite | intro _ _ _ | intro _ _
    | intro _ | split | dsimp only | with_reducible exact Kept.lit (by with_reducible assumption) | exact hkept
    | assumption
    | (with_reducible apply Kept.lit
       (first | with_reducible assumption | with_reducible apply State.modLink_kept
              | with_reducible apply State.advanceGen_kept))

theorem State.nextGen_kept {s0 : State} {s : State} (p i : Nat) (hkept : Kept s0 s) :
    Kept s0 (State.nextGen s p i) := by
  unfold State.nextGen
  repeat' first
    | with_reducible exact hkept | with_reducible assumption | with_reducible apply State.modLink_kept
    | intro _ _ _ | intro _ _ | intro _ | dsimp only
    | with_reducible exact Kept.lit (by with_reducible assumption) | exact hkept | assumption
    | (with_reducible apply Kept.lit
       (first | with_reducible assumption | with_reducible apply State.modLink_kept))

theorem State.folioTagFails_kept {s0 : State} {s : State} (p i flow : Nat) (hkept : Kept s0 s) :
    Kept s0 (State.folioTagFails s p i flow) := by
  unfold State.folioTagFails
  repeat' first
    | with_reducible exact hkept | with_reducible assumption
    | (extract_lets +onlyGivenNames y'; refine (fun (_ : Kept s0 y') => ?_) ?_; clear_value y'; revert y'; intro _ _; rotate_left; dsimp only [y']; clear y'; rotate_left)
    | (extract_lets +onlyGivenNames y'; refine (fun (_ : Kept s0 y'.2) => ?_) ?_; clear_value y'; revert y'; intro _ _; rotate_left; dsimp only [y']; clear y'; rotate_left)
    | (extract_lets +onlyGivenNames y'; clear_value y'; revert y'; intro _)
    | with_reducible apply State.takeFlow_kept | with_reducible apply State.queueMsg_kept
    | with_reducible apply State.modMove_kept | with_reducible apply State.abandonMove_kept
    | with_reducible apply State.failTags_kept | with_reducible apply State.pullFails_kept
    | with_reducible apply Kept.of_snd (by with_reducible assumption) | with_reducible apply Kept.ite
    | intro _ _ _ | intro _ _ | intro _ | split | dsimp only
    | with_reducible exact Kept.lit (by with_reducible assumption) | exact hkept | assumption
    | (with_reducible apply Kept.lit
       (first | with_reducible assumption | with_reducible apply State.takeFlow_kept
              | with_reducible apply State.queueMsg_kept | with_reducible apply State.modMove_kept
              | with_reducible apply State.abandonMove_kept | with_reducible apply State.failTags_kept
              | with_reducible apply State.pullFails_kept))

theorem State.rxJob_kept {s0 : State} {r0 s : State} (port p : Nat) (e : Peer) (h : Ryt) (payload : Bytes) (want : Bytes → Bool) (hkept : Kept s0 r0) (hkept1 : Kept s0 s) :
    Kept s0 (State.rxJob r0 s port p e h payload want) := by
  unfold State.rxJob
  repeat' first
    | with_reducible exact hkept | with_reducible assumption
    | (extract_lets +onlyGivenNames y'; refine (fun (_ : Kept s0 y') => ?_) ?_; clear_value y'; revert y'; intro _ _; rotate_left; dsimp only [y']; clear y'; rotate_left)
    | (extract_lets +onlyGivenNames y'; clear_value y'; revert y'; intro _)
    | with_reducible apply State.countUp_kept | with_reducible apply State.folioTagFails_kept
    | with_reducible apply State.nextGen_kept | with_reducible apply State.takeAck_kept
    | with_reducible apply State.ackAgain_kept | with_reducible apply State.inOrder_kept
    | with_reducible apply Kept.ite | split | dsimp only
    | with_reducible exact Kept.lit (by with_reducible assumption) | exact hkept | assumption
    | (with_reducible apply Kept.lit
       (first | with_reducible assumption | with_reducible apply State.countUp_kept
              | with_reducible apply State.folioTagFails_kept | with_reducible apply State.nextGen_kept
              | with_reducible apply State.takeAck_kept | with_reducible apply State.ackAgain_kept
              | with_reducible apply State.inOrder_kept))

/-- The state with which a received frame goes on keeps what is asked. -/
def RxFrame.Kept (s0 : State) : RxFrame → Prop
  | .dropped t => Machine.Kept s0 t
  | .ryt t _ _ => Machine.Kept s0 t

theorem RxFrame.dropped_kept {s0 t : State} (h : Machine.Kept s0 t) : (RxFrame.dropped t).Kept s0 := h

theorem RxFrame.ryt_kept {s0 t : State} (u : RxUdp) (r : Ryt) (h : Machine.Kept s0 t) : (RxFrame.ryt t u r).Kept s0 := h

theorem RxFrame.ite_kept {s0 : State} {p : Prop} [Decidable p] {a b : RxFrame} (h : a.Kept s0) (k : b.Kept s0) :
    (if p then a else b).Kept s0 := by split <;> assumption

theorem RxFrame.of_dropped {s0 t : State} {x : RxFrame} (e : x = .dropped t) (h : x.Kept s0) : Machine.Kept s0 t := by
  subst e; exact h

theorem RxFrame.of_ryt {s0 t : State} {x : RxFrame} {u : RxUdp} {r : Ryt} (e : x = .ryt t u r) (h : x.Kept s0) :
    Machine.Kept s0 t := by
  subst e; exact h

theorem State.rxFrame_kept {s0 : State} {s : State} (port : Nat) (f : Bytes) (hkept : Kept s0 s) :
    (State.rxFrame s port f).Kept s0 := by
  unfold State.rxFrame
  repeat' first
    | with_reducible exact hkept | with_reducible assumption
    | (extract_lets +onlyGivenNames y'; refine (fun (_ : Kept s0 y') => ?_) ?_; clear_value y'; revert y'; intro _ _; rotate_left; dsimp only [y']; clear y'; rotate_left)
    | (extract_lets +onlyGivenNames y'; clear_value y'; revert y'; intro _)
    | with_reducible apply State.countUp_kept | with_reducible apply RxFrame.dropped_kept
    | with_reducible apply RxFrame.ryt_kept | with_reducible apply RxFrame.ite_kept
    | with_reducible apply Kept.ite | split | dsimp only
    | with_reducible exact Kept.lit (by with_reducible assumption) | exact hkept | assumption
    | (with_reducible apply Kept.lit
       (first | with_reducible assumption | with_reducible apply State.countUp_kept))

theorem State.lateSegment_kept {s0 : State} {s : State} (r : Removal) (port : Nat) (addr : Bytes) (h : Ryt) (payload : Bytes) (hkept : Kept s0 s) :
    Kept s0 (State.lateSegment s r port addr h payload) := by
  unfold State.lateSegment
  repeat' first
    | with_reducible exact hkept | with_reducible assumption | with_reducible apply State.stranger_kept
    | with_reducible apply State.countUp_kept | with_reducible apply Kept.ite | intro _ _ _ | intro _ _
    | intro _ | split | dsimp only | with_reducible exact Kept.lit (by with_reducible assumption) | exact hkept
    | assumption
    | (with_reducible apply Kept.lit
       (first | with_reducible assumption | with_reducible apply State.stranger_kept
              | with_reducible apply State.countUp_kept))

theorem State.rxMessage_kept {s0 : State} {s : State} (port : Nat) (f : Bytes) (type : Nat) (want : Bytes → Bool) (hkept : Kept s0 s) :
    Kept s0 (State.rxMessage s port f type want) := by
  unfold State.rxMessage
  repeat' first
    | with_reducible exact hkept | with_reducible assumption | with_reducible apply State.rxFrame_kept
    | with_reducible apply State.lateSegment_kept | with_reducible apply State.stranger_kept
    | with_reducible apply State.rxJob_kept
    | with_reducible apply RxFrame.of_dropped (by with_reducible assumption)
    | with_reducible apply RxFrame.of_ryt (by with_reducible assumption) | with_reducible apply Kept.ite
    | intro _ _ _ | intro _ _ | intro _ | split | dsimp only
    | with_reducible exact Kept.lit (by with_reducible assumption) | exact hkept | assumption
    | (with_reducible apply Kept.lit
       (first | with_reducible assumption | with_reducible apply State.rxFrame_kept
              | with_reducible apply State.lateSegment_kept | with_reducible apply State.stranger_kept
              | with_reducible apply State.rxJob_kept))

theorem State.notZero_kept {s0 : State} {s : State} (port : Nat) (u : RxUdp) (h : Ryt) (hkept : Kept s0 s) :
    Kept s0 (State.notZero s port u h) := by
  unfold State.notZero
  split
  · exact State.stranger_kept _ _ _ _ hkept
  · split
    · exact State.countUp_kept _ _ hkept
    · exact State.stranger_kept _ _ _ _ hkept

theorem State.rxZero_kept {s0 : State} {s : State} (port : Nat) (f : Bytes) (type : Nat) (body : State → RxUdp → Ryt → Bytes → State) (hkept : Kept s0 s) (hbody : ∀ x0 x1 x2 x3, Kept s0 x0 → Kept s0 (body x0 x1 x2 x3)) :
    Kept s0 (State.rxZero s port f type body) := by
  unfold State.rxZero
  repeat' first
    | with_reducible exact hkept | with_reducible assumption | with_reducible apply hbody
    | (extract_lets +onlyGivenNames y'; refine (fun (_ : Kept s0 y') => ?_) ?_; clear_value y'; revert y'; intro _ _; rotate_left; dsimp only [y']; clear y'; rotate_left)
    | (extract_lets +onlyGivenNames y'; refine (fun (_ : Kept s0 y'.1) => ?_) ?_; clear_value y'; revert y'; intro _ _; rotate_left; dsimp only [y']; clear y'; rotate_left)
    | (extract_lets +onlyGivenNames y'; clear_value y'; revert y'; intro _)
    | with_reducible apply State.rxFrame_kept | with_reducible apply State.zeroRate_kept | with_reducible apply State.notZero_kept
    | with_reducible apply State.stranger_kept | with_reducible apply State.countUp_kept
    | with_reducible apply State.modPort_kept
    | with_reducible apply RxFrame.of_dropped (by with_reducible assumption)
    | with_reducible apply RxFrame.of_ryt (by with_reducible assumption)
    | with_reducible apply Kept.of_fst (by with_reducible assumption) | with_reducible apply Kept.ite
    | intro _ _ _ | intro _ _ | intro _ | split | dsimp only
    | with_reducible exact Kept.lit (by with_reducible assumption) | exact hkept | assumption
    | (with_reducible apply Kept.lit
       (first | with_reducible assumption | with_reducible apply State.rxFrame_kept
              | with_reducible apply State.zeroRate_kept | with_reducible apply State.stranger_kept
              | with_reducible apply State.countUp_kept | with_reducible apply State.modPort_kept))

theorem State.streamFails_kept {s0 : State} {s : State} (p i : Nat) (hkept : Kept s0 s) :
    Kept s0 (State.streamFails s p i) := by
  unfold State.streamFails
  repeat' first
    | with_reducible exact hkept | with_reducible assumption
    | (extract_lets +onlyGivenNames y'; refine (fun (_ : Kept s0 y') => ?_) ?_; clear_value y'; revert y'; intro _ _; rotate_left; dsimp only [y']; clear y'; rotate_left)
    | (extract_lets +onlyGivenNames y'; clear_value y'; revert y'; intro _)
    | with_reducible apply State.modLink_kept | with_reducible apply State.countUp_kept
    | with_reducible apply State.loseMove_kept | with_reducible apply State.pullFails_kept
    | with_reducible apply Kept.foldl | with_reducible apply Kept.foldl_fst
    | with_reducible apply Kept.foldl_snd | intro _ _ _ | intro _ _ | intro _ | dsimp only
    | with_reducible exact Kept.lit (by with_reducible assumption) | exact hkept | assumption
    | (with_reducible apply Kept.lit
       (first | with_reducible assumption | with_reducible apply State.modLink_kept
              | with_reducible apply State.countUp_kept | with_reducible apply State.loseMove_kept
              | with_reducible apply State.pullFails_kept))

theorem State.retryFrame_kept {s0 : State} {s : State} (p i : Nat) (f : TxFrame) (hkept : Kept s0 s) :
    Kept s0 (State.retryFrame s p i f) := by
  unfold State.retryFrame
  repeat' first
    | with_reducible exact hkept | with_reducible assumption | with_reducible apply State.modLink_kept
    | with_reducible apply State.resend_kept | with_reducible apply Kept.ite | intro _ _ _ | intro _ _
    | intro _ | split | dsimp only | with_reducible exact Kept.lit (by with_reducible assumption) | exact hkept
    | assumption
    | (with_reducible apply Kept.lit
       (first | with_reducible assumption | with_reducible apply State.modLink_kept
              | with_reducible apply State.resend_kept))

theorem State.rekeyAll_kept {s0 : State} {s : State} (p : Nat) (hkept : Kept s0 s) :
    Kept s0 (State.rekeyAll s p) := by
  unfold State.rekeyAll
  repeat' first
    | with_reducible exact hkept | with_reducible assumption | with_reducible apply State.modLink_kept
    | with_reducible apply State.advanceGen_kept | with_reducible apply Kept.ite
    | with_reducible apply Kept.foldl | with_reducible apply Kept.foldl_fst
    | with_reducible apply Kept.foldl_snd | intro _ _ _ | intro _ _ | intro _ | split | dsimp only
    | with_reducible exact Kept.lit (by with_reducible assumption) | exact hkept | assumption
    | (with_reducible apply Kept.lit
       (first | with_reducible assumption | with_reducible apply State.modLink_kept
              | with_reducible apply State.advanceGen_kept))

theorem State.rekeyNow_kept {s0 : State} {s : State} (p : Nat) (hkept : Kept s0 s) :
    Kept s0 (State.rekeyNow s p) := by
  unfold State.rekeyNow
  repeat' first
    | with_reducible exact hkept | with_reducible assumption | with_reducible apply State.modPart_kept
    | with_reducible apply State.rekeyAll_kept | intro _ _ _ | intro _ _ | intro _ | dsimp only
    | with_reducible exact Kept.lit (by with_reducible assumption) | exact hkept | assumption
    | (with_reducible apply Kept.lit
       (first | with_reducible assumption | with_reducible apply State.modPart_kept
              | with_reducible apply State.rekeyAll_kept))

theorem State.resolveArp_kept {s0 s t : State} {port : Nat} {ent : PortEnt} {x : RxEth}
    (e : s.resolveArp port ent x = some t) (kept : Kept s0 s) : Kept s0 t := by
  unfold State.resolveArp at e
  dsimp only at e
  split at e
  · cases e
  · split at e
    · split at e <;> cases e
      · exact State.queueCtl_kept _ _ kept
      · exact kept
    · split at e <;> cases e
      · exact State.modPort_kept _ _ kept
      · exact kept
    · cases e

theorem State.resolveNd_kept {s0 s t : State} {port : Nat} {ent : PortEnt} {x : RxEth}
    (e : s.resolveNd port ent x = some t) (kept : Kept s0 s) : Kept s0 t := by
  unfold State.resolveNd at e
  dsimp only at e
  split at e
  · cases e
  · split at e
    · cases e
    · split at e
      · split at e <;> cases e
        · exact State.queueCtl_kept _ _ kept
        · exact kept
      · split at e <;> cases e
        · exact State.modPort_kept _ _ kept
        · exact kept
      · cases e

theorem State.train_kept {s0 : State} {s : State} (i : Nat) (hkept : Kept s0 s) :
    Kept s0 (State.train s i) := by
  unfold State.train
  repeat' first
    | with_reducible exact hkept | with_reducible assumption
    | (extract_lets +onlyGivenNames y'; refine (fun (_ : Kept s0 y') => ?_) ?_; clear_value y'; revert y'; intro _ _; rotate_left; dsimp only [y']; clear y'; rotate_left)
    | (extract_lets +onlyGivenNames y'; clear_value y'; revert y'; intro _)
    | with_reducible apply State.setEvents_kept | with_reducible apply State.modPort_kept
    | with_reducible apply Kept.ite | intro _ _ _ | intro _ _ | intro _ | split | dsimp only
    | with_reducible exact Kept.lit (by with_reducible assumption) | exact hkept | assumption
    | (with_reducible apply Kept.lit
       (first | with_reducible assumption | with_reducible apply State.setEvents_kept
              | with_reducible apply State.modPort_kept))

theorem State.laneFails_kept {s0 : State} {s : State} (i k : Nat) (hkept : Kept s0 s) :
    Kept s0 (State.laneFails s i k) := by
  unfold State.laneFails
  repeat' first
    | with_reducible exact hkept | with_reducible assumption
    | (extract_lets +onlyGivenNames y'; refine (fun (_ : Kept s0 y') => ?_) ?_; clear_value y'; revert y'; intro _ _; rotate_left; dsimp only [y']; clear y'; rotate_left)
    | (extract_lets +onlyGivenNames y'; refine (fun (_ : Kept s0 y'.2) => ?_) ?_; clear_value y'; revert y'; intro _ _; rotate_left; dsimp only [y']; clear y'; rotate_left)
    | (extract_lets +onlyGivenNames y'; clear_value y'; revert y'; intro _)
    | with_reducible apply State.modPort_kept | with_reducible apply State.setEvents_kept
    | with_reducible apply State.free_kept | with_reducible apply State.addErr_kept
    | with_reducible apply State.train_kept | with_reducible apply Kept.ite | intro _ _ _ | intro _ _ | intro _
    | split | dsimp only | with_reducible exact Kept.lit (by with_reducible assumption) | exact hkept
    | assumption
    | (with_reducible apply Kept.lit
       (first | with_reducible assumption | with_reducible apply State.modPort_kept
              | with_reducible apply State.setEvents_kept | with_reducible apply State.free_kept
              | with_reducible apply State.addErr_kept | with_reducible apply State.train_kept))

theorem State.retrain_kept {s0 : State} {s : State} (req : Req) (i : Nat) (hkept : Kept s0 s) :
    Kept s0 (State.retrain s req i) := by
  unfold State.retrain
  repeat' first
    | with_reducible exact hkept | with_reducible assumption | with_reducible apply State.modPort_kept
    | with_reducible apply State.train_kept | with_reducible apply Kept.ite | intro _ _ _ | intro _ _ | intro _
    | split | dsimp only | with_reducible exact Kept.lit (by with_reducible assumption) | exact hkept
    | assumption
    | (with_reducible apply Kept.lit
       (first | with_reducible assumption | with_reducible apply State.modPort_kept
              | with_reducible apply State.train_kept))

end Sys2Proof.Machine
end

