-- ==== Sys2Proof/Laws/KeptAdmit.lean ====
section
/-!
SUPPORT. Laws/KeptAdmit.lean: what the operations of Machine/Admit.lean keep of a state (Laws/Kept.lean).
-/
namespace Sys2Proof.Machine

theorem State.modAdm_kept {s0 : State} {s : State} (p : Nat) (g : Admission → Admission) (hkept : Kept s0 s) :
    Kept s0 (State.modAdm s p g) := by
  unfold State.modAdm
  repeat' first
    | with_reducible exact hkept | with_reducible assumption | with_reducible apply State.modPart_kept
    | intro _ _ _ | intro _ _ | intro _ | dsimp only
    | with_reducible exact Kept.lit (by with_reducible assumption) | exact hkept | assumption
    | (with_reducible apply Kept.lit
       (first | with_reducible assumption | with_reducible apply State.modPart_kept))

theorem State.dropReplies_kept {s0 : State} {s : State} (p : Nat) (hkept : Kept s0 s) :
    Kept s0 (State.dropReplies s p) := by
  unfold State.dropReplies
  repeat' first
    | with_reducible exact hkept | with_reducible assumption | with_reducible apply State.modRng_kept
    | intro _ _ _ | intro _ _ | intro _ | split | dsimp only
    | with_reducible exact Kept.lit (by with_reducible assumption) | exact hkept | assumption
    | (with_reducible apply Kept.lit
       (first | with_reducible assumption | with_reducible apply State.modRng_kept))

theorem State.refuseHello_kept {s0 : State} {s : State} (port : Nat) (src : Bytes) (udp : Nat) (status : Nat) (hkept : Kept s0 s) :
    Kept s0 (State.refuseHello s port src udp status) := by
  unfold State.refuseHello
  repeat' first
    | with_reducible exact hkept | with_reducible assumption | with_reducible apply State.queueZero_kept
    | dsimp only | exact hkept | assumption

theorem State.helloReply_kept {s0 : State} {s : State} (p port : Nat) (src : Bytes) (udp : Nat) (h rnd : Bytes) (hkept : Kept s0 s) :
    Kept s0 (State.helloReply s p port src udp h rnd) := by
  unfold State.helloReply
  repeat' first
    | with_reducible exact hkept | with_reducible assumption
    | (extract_lets +onlyGivenNames y'; refine (fun (_ : Kept s0 y') => ?_) ?_; clear_value y'; revert y'; intro _ _; rotate_left; dsimp only [y']; clear y'; rotate_left)
    | (extract_lets +onlyGivenNames y'; clear_value y'; revert y'; intro _)
    | with_reducible apply State.modAdm_kept | with_reducible apply State.queueZero_kept
    | with_reducible apply State.refuseHello_kept | intro _ _ _ | intro _ _ | intro _ | split | dsimp only
    | with_reducible exact Kept.lit (by with_reducible assumption) | exact hkept | assumption
    | (with_reducible apply Kept.lit
       (first | with_reducible assumption | with_reducible apply State.modAdm_kept
              | with_reducible apply State.queueZero_kept | with_reducible apply State.refuseHello_kept))

theorem State.takeHello_kept {s0 : State} {s : State} (port : Nat) (u : RxUdp) (h : Bytes) (hkept : Kept s0 s) :
    Kept s0 (State.takeHello s port u h) := by
  unfold State.takeHello
  repeat' first
    | with_reducible exact hkept | with_reducible assumption
    | (extract_lets +onlyGivenNames y'; refine (fun (_ : Kept s0 y') => ?_) ?_; clear_value y'; revert y'; intro _ _; rotate_left; dsimp only [y']; clear y'; rotate_left)
    | (extract_lets +onlyGivenNames y'; refine (fun (_ : Kept s0 y'.2) => ?_) ?_; clear_value y'; revert y'; intro _ _; rotate_left; dsimp only [y']; clear y'; rotate_left)
    | (extract_lets +onlyGivenNames y'; clear_value y'; revert y'; intro _)
    | with_reducible apply State.refuseHello_kept | with_reducible apply State.modAdm_kept
    | with_reducible apply State.dropReplies_kept | with_reducible apply State.draw_kept
    | with_reducible apply State.helloReply_kept | with_reducible apply State.rngWait_kept
    | with_reducible apply Kept.of_snd (by with_reducible assumption) | with_reducible apply Kept.ite
    | intro _ _ _ | intro _ _ | intro _ | split | dsimp only
    | with_reducible exact Kept.lit (by with_reducible assumption) | exact hkept | assumption
    | (with_reducible apply Kept.lit
       (first | with_reducible assumption | with_reducible apply State.refuseHello_kept
              | with_reducible apply State.modAdm_kept | with_reducible apply State.dropReplies_kept
              | with_reducible apply State.draw_kept | with_reducible apply State.helloReply_kept
              | with_reducible apply State.rngWait_kept))

theorem State.sendResult_kept {s0 : State} {s : State} (a : Admission) (status : Nat) (hkept : Kept s0 s) :
    Kept s0 (State.sendResult s a status) := by
  unfold State.sendResult
  repeat' first
    | with_reducible exact hkept | with_reducible assumption
    | (extract_lets +onlyGivenNames y'; refine (fun (_ : Kept s0 y') => ?_) ?_; clear_value y'; revert y'; intro _ _; rotate_left; dsimp only [y']; clear y'; rotate_left)
    | (extract_lets +onlyGivenNames y'; clear_value y'; revert y'; intro _)
    | with_reducible apply State.queueZero_kept | dsimp only | exact hkept | assumption

theorem State.admitFails_kept {s0 : State} {s : State} (p status : Nat) (hkept : Kept s0 s) :
    Kept s0 (State.admitFails s p status) := by
  unfold State.admitFails
  repeat' first
    | with_reducible exact hkept | with_reducible assumption
    | (extract_lets +onlyGivenNames y'; refine (fun (_ : Kept s0 y') => ?_) ?_; clear_value y'; revert y'; intro _ _; rotate_left; dsimp only [y']; clear y'; rotate_left)
    | (extract_lets +onlyGivenNames y'; clear_value y'; revert y'; intro _)
    | with_reducible apply State.modAdm_kept | with_reducible apply State.sendResult_kept | intro _ _ _
    | intro _ _ | intro _ | dsimp only | with_reducible exact Kept.lit (by with_reducible assumption)
    | exact hkept | assumption
    | (with_reducible apply Kept.lit
       (first | with_reducible assumption | with_reducible apply State.modAdm_kept
              | with_reducible apply State.sendResult_kept))

theorem State.admitPart_kept {s0 : State} {s : State} (p own : Nat) (jms : Bytes) (es : List Peer) (hkept : Kept s0 s) :
    Kept s0 (State.admitPart s p own jms es) := by
  unfold State.admitPart
  repeat' first
    | with_reducible exact hkept | with_reducible assumption
    | (extract_lets +onlyGivenNames y'; refine (fun (_ : Kept s0 y') => ?_) ?_; clear_value y'; revert y'; intro _ _; rotate_left; dsimp only [y']; clear y'; rotate_left)
    | (extract_lets +onlyGivenNames y'; clear_value y'; revert y'; intro _)
    | with_reducible apply State.installKey_kept | with_reducible apply State.dropLinks_kept
    | with_reducible apply State.modPart_kept | with_reducible apply State.openRank_kept
    | with_reducible apply State.sendResult_kept | intro _ _ _ | intro _ _ | intro _ | dsimp only
    | with_reducible exact Kept.lit (by with_reducible assumption) | exact hkept | assumption
    | (with_reducible apply Kept.lit
       (first | with_reducible assumption | with_reducible apply State.installKey_kept
              | with_reducible apply State.dropLinks_kept | with_reducible apply State.modPart_kept
              | with_reducible apply State.openRank_kept | with_reducible apply State.sendResult_kept))

theorem State.takeConfirm_kept {s0 : State} {s : State} (port : Nat) (c : Bytes) (hkept : Kept s0 s) :
    Kept s0 (State.takeConfirm s port c) := by
  unfold State.takeConfirm
  repeat' first
    | with_reducible exact hkept | with_reducible assumption
    | (extract_lets +onlyGivenNames y'; refine (fun (_ : Kept s0 y') => ?_) ?_; clear_value y'; revert y'; intro _ _; rotate_left; dsimp only [y']; clear y'; rotate_left)
    | (extract_lets +onlyGivenNames y'; clear_value y'; revert y'; intro _)
    | with_reducible apply State.countUp_kept | with_reducible apply State.admitFails_kept
    | with_reducible apply State.admitPart_kept | with_reducible apply Kept.ite | intro _ _ _ | intro _ _
    | intro _ | split | dsimp only | with_reducible exact Kept.lit (by with_reducible assumption) | exact hkept
    | assumption
    | (with_reducible apply Kept.lit
       (first | with_reducible assumption | with_reducible apply State.countUp_kept
              | with_reducible apply State.admitFails_kept | with_reducible apply State.admitPart_kept))

end Sys2Proof.Machine
end

