-- ==== Sys2Proof/Laws/KeptSched.lean ====
section
/-!
SUPPORT. Laws/KeptSched.lean: what the operations of Machine/Sched.lean keep of a state (Laws/Kept.lean).
-/
namespace Sys2Proof.Machine

theorem State.slotPart_kept {s0 : State} (f off : Nat) {s : State} (bs : Bytes) (hkept : Kept s0 s) :
    Kept s0 (State.slotPart f off s bs) := by
  unfold State.slotPart
  repeat' first
    | with_reducible exact hkept | with_reducible assumption | with_reducible apply State.modFunc_kept
    | with_reducible apply Kept.ite | with_reducible refine Kept.lit_slots (by with_reducible assumption) ?_
    | (with_reducible apply Kept.slots
       (first | with_reducible assumption | with_reducible apply State.modFunc_kept))
    | exact Memory.wf_write _ _ (by assumption) | intro _ _ _ | intro _ _ | intro _ | split | dsimp only
    | with_reducible exact Kept.lit (by with_reducible assumption) | exact hkept | assumption
    | (with_reducible apply Kept.lit
       (first | with_reducible assumption | with_reducible apply State.modFunc_kept))

theorem State.slotWriteN_kept {s0 : State} (f : Nat) (a0 : Nat) (a1 : Nat) {a2 : State} (a3 : Bytes) (hkept : Kept s0 a2) :
    Kept s0 (State.slotWriteN f a0 a1 a2 a3) := by
  induction a0 generalizing a2 a1 a3 with
  | zero =>
    unfold State.slotWriteN
    repeat' first
      | with_reducible exact hkept | with_reducible assumption
      | (extract_lets +onlyGivenNames y'; refine (fun (_ : Kept s0 y') => ?_) ?_; clear_value y'; revert y'; intro _ _; rotate_left; dsimp only [y']; clear y'; rotate_left)
      | (extract_lets +onlyGivenNames y'; clear_value y'; revert y'; intro _)
      | with_reducible apply State.slotPart_kept | with_reducible apply Kept.ite | split | dsimp only
      | exact hkept | assumption
  | succ k ih =>
    unfold State.slotWriteN
    repeat' first
      | with_reducible exact hkept | with_reducible assumption | with_reducible apply ih
      | (extract_lets +onlyGivenNames y'; refine (fun (_ : Kept s0 y') => ?_) ?_; clear_value y'; revert y'; intro _ _; rotate_left; dsimp only [y']; clear y'; rotate_left)
      | (extract_lets +onlyGivenNames y'; clear_value y'; revert y'; intro _)
      | with_reducible apply State.slotPart_kept | with_reducible apply Kept.ite | split | dsimp only
      | exact hkept | assumption

theorem State.takeDesc_kept {s0 : State} {s : State} (f i : Nat) (d : Bytes) (hkept : Kept s0 s) :
    Kept s0 (State.takeDesc s f i d) := by
  unfold State.takeDesc
  repeat' first
    | with_reducible exact hkept | with_reducible assumption
    | (extract_lets +onlyGivenNames y'; refine (fun (_ : Kept s0 y') => ?_) ?_; clear_value y'; revert y'; intro _ _; rotate_left; dsimp only [y']; clear y'; rotate_left)
    | (extract_lets +onlyGivenNames y'; clear_value y'; revert y'; intro _)
    | with_reducible apply State.modFunc_kept | with_reducible apply State.failHeld_kept
    | with_reducible refine Kept.lit_slots (by with_reducible assumption) ?_
    | (with_reducible apply Kept.slots
       (first | with_reducible assumption | with_reducible apply State.modFunc_kept
              | with_reducible apply State.failHeld_kept))
    | exact Memory.wf_set _ _ (by assumption) | intro _ _ _ | intro _ _ | intro _ | split | dsimp only
    | with_reducible exact Kept.lit (by with_reducible assumption) | exact hkept | assumption
    | (with_reducible apply Kept.lit
       (first | with_reducible assumption | with_reducible apply State.modFunc_kept
              | with_reducible apply State.failHeld_kept))

theorem State.fetchAhead_kept {s0 : State} (o : Op) {s : State} (v : Nat) (hkept : Kept s0 s) :
    Kept s0 (State.fetchAhead o s v) := by
  unfold State.fetchAhead
  repeat' first
    | with_reducible exact hkept | with_reducible assumption | with_reducible apply State.prof_kept
    | (extract_lets +onlyGivenNames y'; refine (fun (_ : Kept s0 y') => ?_) ?_; clear_value y'; revert y'; intro _ _; rotate_left; dsimp only [y']; clear y'; rotate_left)
    | (extract_lets +onlyGivenNames y'; refine (fun (_ : y'.Kept s0) => ?_) ?_; clear_value y'; revert y'; intro _ _; rotate_left; dsimp only [y']; clear y'; rotate_left)
    | (extract_lets +onlyGivenNames y'; clear_value y'; revert y'; intro _)
    | with_reducible apply State.startFetch_kept | with_reducible apply Prep.ok_kept
    | with_reducible apply Prep.wait_kept | with_reducible apply Prep.fail_kept
    | with_reducible apply Prep.of_ok (by with_reducible assumption)
    | with_reducible apply Prep.of_wait (by with_reducible assumption)
    | with_reducible apply Prep.of_fail (by with_reducible assumption) | with_reducible apply Kept.ite | split
    | dsimp only | with_reducible exact Kept.lit (by with_reducible assumption) | exact hkept | assumption
    | (with_reducible apply Kept.lit
       (first | with_reducible assumption | with_reducible apply State.prof_kept | with_reducible apply State.startFetch_kept))

theorem State.stageAhead_kept {s0 : State} {s : State} (p l : Nat) (hkept : Kept s0 s) :
    Kept s0 (State.stageAhead s p l) := by
  unfold State.stageAhead
  repeat' first
    | with_reducible exact hkept | with_reducible assumption
    | (extract_lets +onlyGivenNames y'; refine (fun (_ : Kept s0 y') => ?_) ?_; clear_value y'; revert y'; intro _ _; rotate_left; dsimp only [y']; clear y'; rotate_left)
    | (extract_lets +onlyGivenNames y'; clear_value y'; revert y'; intro _)
    | with_reducible apply State.stage_kept | with_reducible apply State.fetchAhead_kept
    | with_reducible apply Kept.foldl | with_reducible apply Kept.foldl_fst
    | with_reducible apply Kept.foldl_snd | intro _ _ _ | intro _ _ | intro _ | dsimp only | exact hkept
    | assumption

theorem State.admitHeld_kept {s0 : State} {s : State} (f : Nat) (h : Held) (hkept : Kept s0 s) :
    Kept s0 (State.admitHeld s f h) := by
  unfold State.admitHeld
  repeat' first
    | with_reducible exact hkept | with_reducible assumption
    | (extract_lets +onlyGivenNames y'; refine (fun (_ : Kept s0 y') => ?_) ?_; clear_value y'; revert y'; intro _ _; rotate_left; dsimp only [y']; clear y'; rotate_left)
    | (extract_lets +onlyGivenNames y'; clear_value y'; revert y'; intro _)
    | with_reducible apply State.modFunc_kept | with_reducible apply State.failHeld_kept
    | with_reducible apply State.prof_kept | with_reducible apply State.cancelAfter_kept
    | with_reducible apply State.cascade_kept | with_reducible apply State.stageAhead_kept
    | with_reducible apply Kept.ite | intro _ _ _ | intro _ _ | intro _ | split | dsimp only
    | with_reducible exact Kept.lit (by with_reducible assumption) | exact hkept | assumption
    | (with_reducible apply Kept.lit
       (first | with_reducible assumption | with_reducible apply State.modFunc_kept
              | with_reducible apply State.failHeld_kept | with_reducible apply State.prof_kept
              | with_reducible apply State.cancelAfter_kept | with_reducible apply State.cascade_kept
              | with_reducible apply State.stageAhead_kept))

theorem State.ringMsg_kept {s0 : State} {s : State} (f r : Nat) (hkept : Kept s0 s) :
    Kept s0 (State.ringMsg s f r) := by
  unfold State.ringMsg
  repeat' first
    | with_reducible exact hkept | with_reducible assumption | with_reducible apply State.sendMsix_kept
    | with_reducible apply State.modRing_kept | intro _ _ _ | intro _ _ | intro _ | dsimp only
    | with_reducible exact Kept.lit (by with_reducible assumption) | exact hkept | assumption
    | (with_reducible apply Kept.lit
       (first | with_reducible assumption | with_reducible apply State.sendMsix_kept
              | with_reducible apply State.modRing_kept))

theorem State.writeRecord_kept {s0 : State} {s : State} (f r : Nat) (x : PendRec) (hkept : Kept s0 s) :
    Kept s0 (State.writeRecord s f r x) := by
  unfold State.writeRecord
  repeat' first
    | with_reducible exact hkept | with_reducible assumption
    | (extract_lets +onlyGivenNames y'; refine (fun (_ : Kept s0 y') => ?_) ?_; clear_value y'; revert y'; intro _ _; rotate_left; dsimp only [y']; clear y'; rotate_left)
    | (extract_lets +onlyGivenNames y'; clear_value y'; revert y'; intro _)
    | with_reducible apply State.freeEntry_kept | with_reducible apply State.setRegN_kept
    | with_reducible apply State.modRing_kept | with_reducible apply State.ringMsg_kept
    | with_reducible apply Kept.ite | with_reducible refine Kept.lit_hostMem (by with_reducible assumption) ?_
    | (with_reducible apply Kept.hostMem
       (first | with_reducible assumption | with_reducible apply State.freeEntry_kept
              | with_reducible apply State.setRegN_kept | with_reducible apply State.modRing_kept
              | with_reducible apply State.ringMsg_kept))
    | exact Memory.wf_write _ _ (by assumption) | intro _ _ _ | intro _ _ | intro _ | split | dsimp only
    | with_reducible exact Kept.lit (by with_reducible assumption) | exact hkept | assumption
    | (with_reducible apply Kept.lit
       (first | with_reducible assumption | with_reducible apply State.freeEntry_kept
              | with_reducible apply State.setRegN_kept | with_reducible apply State.modRing_kept
              | with_reducible apply State.ringMsg_kept))

theorem State.cancelScope_kept {s0 : State} {s : State} (p : Nat) (d : Bytes) (hkept : Kept s0 s) :
    Kept s0 (State.cancelScope s p d).1 := by
  unfold State.cancelScope
  repeat' first
    | with_reducible exact hkept | with_reducible assumption
    | (extract_lets +onlyGivenNames y'; refine (fun (_ : Kept s0 y') => ?_) ?_; clear_value y'; revert y'; intro _ _; rotate_left; dsimp only [y']; clear y'; rotate_left)
    | (extract_lets +onlyGivenNames y'; refine (fun (_ : Kept s0 y'.1) => ?_) ?_; clear_value y'; revert y'; intro _ _; rotate_left; dsimp only [y']; clear y'; rotate_left)
    | (extract_lets +onlyGivenNames y'; clear_value y'; revert y'; intro _)
    | with_reducible apply State.settleGroups_kept | with_reducible apply State.cancelPart_kept
    | with_reducible apply State.stage_kept | with_reducible apply State.cancelOp_kept
    | with_reducible apply Kept.of_fst (by with_reducible assumption) | with_reducible apply Kept.fst_ite
    | with_reducible apply Kept.ite | intro _ _ _ | intro _ _ | intro _ | split | dsimp only
    | with_reducible exact Kept.lit (by with_reducible assumption) | exact hkept | assumption
    | (with_reducible apply Kept.lit
       (first | with_reducible assumption | with_reducible apply State.settleGroups_kept
              | with_reducible apply State.cancelPart_kept | with_reducible apply State.stage_kept
              | with_reducible apply State.cancelOp_kept))

theorem State.cancelFunc_kept {s0 : State} {s : State} (f : Nat) (hkept : Kept s0 s) :
    Kept s0 (State.cancelFunc s f) := by
  unfold State.cancelFunc
  repeat' first
    | with_reducible exact hkept | with_reducible assumption | with_reducible apply State.settleGroups_kept
    | with_reducible apply State.cancelPart_kept | with_reducible apply State.substituteIdle_kept
    | with_reducible apply State.checkDrained_kept
    | with_reducible apply Kept.of_fst (by with_reducible assumption) | intro _ _ _ | intro _ _ | intro _
    | split | dsimp only | with_reducible exact Kept.lit (by with_reducible assumption) | exact hkept
    | assumption
    | (with_reducible apply Kept.lit
       (first | with_reducible assumption | with_reducible apply State.settleGroups_kept
              | with_reducible apply State.cancelPart_kept | with_reducible apply State.substituteIdle_kept
              | with_reducible apply State.checkDrained_kept))

theorem State.cqCfg_kept {s0 : State} {s : State} (req : Req) (f r : Nat) (v : W32) (hkept : Kept s0 s) :
    Kept s0 (State.cqCfg s req f r v) := by
  unfold State.cqCfg
  repeat' first
    | with_reducible exact hkept | with_reducible assumption
    | (extract_lets +onlyGivenNames y'; refine (fun (_ : Kept s0 y') => ?_) ?_; clear_value y'; revert y'; intro _ _; rotate_left; dsimp only [y']; clear y'; rotate_left)
    | (extract_lets +onlyGivenNames y'; clear_value y'; revert y'; intro _)
    | with_reducible apply State.regErrOf_kept | with_reducible apply State.regErr_kept | with_reducible apply State.setReg_kept
    | with_reducible apply State.setRegN_kept | with_reducible apply State.modRing_kept
    | with_reducible apply Kept.ite | intro _ _ _ | intro _ _ | intro _ | split | dsimp only | exact hkept
    | assumption

theorem State.winSet_kept {s0 : State} {s : State} (f : Nat) (on : Bool) (hkept : Kept s0 s) :
    Kept s0 (State.winSet s f on) := by
  unfold State.winSet
  repeat' first
    | with_reducible exact hkept | with_reducible assumption | with_reducible apply State.setRegN_kept
    | with_reducible apply Kept.ite | split | dsimp only | exact hkept | assumption

theorem State.winClear_kept {s0 : State} {s : State} (f : Nat) (kept : Kept s0 s) :
    Kept s0 (State.winClear s f) := by
  unfold State.winClear
  split
  · exact kept
  · dsimp only
    apply State.modFunc_kept
    refine Kept.slots kept (fun w => ?_)
    exact Memory.wf_foldl _ _ (fun _ _ w => Memory.wf_set _ _ w) w

end Sys2Proof.Machine
end

