-- ==== Sys2Proof/Laws/KeptHoard.lean ====
section
/-!
SUPPORT. Laws/KeptHoard.lean: what the operations of Machine/Hoard.lean keep of a state (Laws/Kept.lean).
-/
namespace Sys2Proof.Machine

theorem State.hoardCe_kept {s0 : State} {s : State} (hkept : Kept s0 s) :
    Kept s0 (State.hoardCe s) := by
  unfold State.hoardCe
  repeat' first
    | with_reducible exact hkept | with_reducible assumption | with_reducible apply State.modFolio_kept
    | intro _ _ _ | intro _ _ | intro _ | dsimp only
    | with_reducible exact Kept.lit (by with_reducible assumption) | exact hkept | assumption | exact rfl
    | exact Nat.le_refl _
    | (with_reducible apply Kept.lit
       (first | with_reducible assumption | with_reducible apply State.modFolio_kept))

theorem State.hoardErr_kept {s0 : State} {s : State} (status frame row word : Nat) (hkept : Kept s0 s) :
    Kept s0 (State.hoardErr s status frame row word) := by
  unfold State.hoardErr
  repeat' first
    | with_reducible exact hkept | with_reducible assumption | with_reducible apply State.addErr_kept
    | dsimp only | exact hkept | assumption

theorem State.flagHoard_kept {s0 : State} {s : State} (hkept : Kept s0 s) :
    Kept s0 (State.flagHoard s) := by
  unfold State.flagHoard
  repeat' first
    | with_reducible exact hkept | with_reducible assumption
    | (extract_lets +onlyGivenNames y'; refine (fun (_ : Kept s0 y') => ?_) ?_; clear_value y'; revert y'; intro _ _; rotate_left; dsimp only [y']; clear y'; rotate_left)
    | (extract_lets +onlyGivenNames y'; clear_value y'; revert y'; intro _)
    | with_reducible apply State.modPart_kept | with_reducible apply Kept.ite | with_reducible apply Kept.foldl
    | with_reducible apply Kept.foldl_fst | with_reducible apply Kept.foldl_snd | intro _ _ _ | intro _ _
    | intro _ | split | dsimp only | with_reducible exact Kept.lit (by with_reducible assumption) | exact hkept
    | assumption
    | (with_reducible apply Kept.lit
       (first | with_reducible assumption | with_reducible apply State.modPart_kept))

theorem State.replaceFrame_kept {s0 : State} {s : State} (f g : Nat) (r : Region) (hkept : Kept s0 s) :
    Kept s0 (State.replaceFrame s f g r) := by
  unfold State.replaceFrame
  repeat' first
    | with_reducible exact hkept | with_reducible assumption
    | (extract_lets +onlyGivenNames y'; refine (fun (_ : Kept s0 y') => ?_) ?_; clear_value y'; revert y'; intro _ _; rotate_left; dsimp only [y']; clear y'; rotate_left)
    | (extract_lets +onlyGivenNames y'; clear_value y'; revert y'; intro _)
    | with_reducible apply State.modFolio_kept | with_reducible apply State.setHUse_kept
    | with_reducible apply State.modWin_kept | with_reducible apply State.modTally_kept
    | with_reducible apply Kept.ite | with_reducible apply Kept.foldl | with_reducible apply Kept.foldl_fst
    | with_reducible apply Kept.foldl_snd | exact Memory.wf_copy _ _ _ _ (by assumption) | intro _ _ _
    | intro _ _ | intro _ | split | dsimp only | with_reducible exact Kept.lit (by with_reducible assumption)
    | exact hkept | assumption | exact rfl | exact Nat.le_refl _
    | (with_reducible apply Kept.lit
       (first | with_reducible assumption | with_reducible apply State.modFolio_kept
              | with_reducible apply State.setHUse_kept | with_reducible apply State.modWin_kept
              | with_reducible apply State.modTally_kept))

theorem State.leaveRetired_kept {s0 : State} {s : State} (p v f : Nat) (hkept : Kept s0 s) :
    Kept s0 (State.leaveRetired s p v f) := by
  unfold State.leaveRetired
  repeat' first
    | with_reducible exact hkept | with_reducible assumption
    | (extract_lets +onlyGivenNames y'; refine (fun (_ : Kept s0 y') => ?_) ?_; clear_value y'; revert y'; intro _ _; rotate_left; dsimp only [y']; clear y'; rotate_left)
    | (extract_lets +onlyGivenNames y'; clear_value y'; revert y'; intro _)
    | with_reducible apply State.dropCopy_kept
    | with_reducible apply State.modFolio_kept | with_reducible apply State.setHUse_kept
    | with_reducible apply State.setLeaf_kept | with_reducible apply State.retireFolio_kept
    | with_reducible apply Kept.ite | exact Memory.wf_copy _ _ _ _ (by assumption) | intro _ _ _ | intro _ _
    | intro _ | split | dsimp only | with_reducible exact Kept.lit (by with_reducible assumption) | exact hkept
    | assumption | exact rfl | exact Nat.le_refl _
    | (with_reducible apply Kept.lit
       (first | with_reducible assumption | with_reducible apply State.dropCopy_kept | with_reducible apply State.modFolio_kept
              | with_reducible apply State.setHUse_kept | with_reducible apply State.setLeaf_kept
              | with_reducible apply State.retireFolio_kept))

theorem State.evacuate_kept {s0 : State} {s : State} (p v f : Nat) (hkept : Kept s0 s) :
    Kept s0 (State.evacuate s p v f) := by
  unfold State.evacuate
  repeat' first
    | with_reducible exact hkept
    | with_reducible apply State.leaveRetired_kept | with_reducible apply State.failTags_kept
    | with_reducible apply State.applyHeld_kept | with_reducible apply State.abandonMove_kept
    | with_reducible apply State.setHUse_kept | split | dsimp only

theorem State.retireFrame_kept {s0 : State} {s : State} (f : Nat) (hkept : Kept s0 s) :
    Kept s0 (State.retireFrame s f) := by
  unfold State.retireFrame
  repeat' first
    | with_reducible exact hkept | with_reducible assumption
    | (extract_lets +onlyGivenNames y'; refine (fun (_ : Kept s0 y') => ?_) ?_; clear_value y'; revert y'; intro _ _; rotate_left; dsimp only [y']; clear y'; rotate_left)
    | (extract_lets +onlyGivenNames y'; refine (fun (_ : Kept s0 y'.2) => ?_) ?_; clear_value y'; revert y'; intro _ _; rotate_left; dsimp only [y']; clear y'; rotate_left)
    | (extract_lets +onlyGivenNames y'; clear_value y'; revert y'; intro _)
    | with_reducible apply State.evacuate_kept | with_reducible apply State.zeroFrame_kept
    | with_reducible apply State.replaceFrame_kept | with_reducible apply State.free_kept
    | with_reducible apply State.setHUse_kept | with_reducible apply State.modFolio_kept
    | with_reducible apply State.hoardErr_kept | with_reducible apply State.flagHoard_kept
    | with_reducible apply Kept.of_snd (by with_reducible assumption) | with_reducible apply Kept.ite
    | intro _ _ _ | intro _ _ | intro _ | split | dsimp only
    | with_reducible exact Kept.lit (by with_reducible assumption) | exact hkept | assumption | exact rfl
    | exact Nat.le_refl _
    | (with_reducible apply Kept.lit
       (first | with_reducible assumption | with_reducible apply State.evacuate_kept
              | with_reducible apply State.zeroFrame_kept | with_reducible apply State.replaceFrame_kept
              | with_reducible apply State.free_kept | with_reducible apply State.setHUse_kept
              | with_reducible apply State.modFolio_kept | with_reducible apply State.hoardErr_kept
              | with_reducible apply State.flagHoard_kept))

theorem State.loseWord_kept {s0 : State} {s : State} (f w : Nat) (hkept : Kept s0 s) :
    Kept s0 (State.loseWord s f w) := by
  unfold State.loseWord
  repeat' first
    | with_reducible exact hkept | with_reducible assumption
    | (extract_lets +onlyGivenNames y'; refine (fun (_ : Kept s0 y') => ?_) ?_; clear_value y'; revert y'; intro _ _; rotate_left; dsimp only [y']; clear y'; rotate_left)
    | ((fail_if_success (have := k_zeroed)); extract_lets +onlyGivenNames y'; refine (fun (k_zeroed : ∀ t', Kept s0 t' → Kept s0 (y' t')) => ?_) ?_; clear_value y'; revert y'; intro _ k_zeroed; rotate_left; dsimp only [y']; clear y'; rotate_left)
    | (extract_lets +onlyGivenNames y'; clear_value y'; revert y'; intro _) | with_reducible apply k_zeroed
    | with_reducible apply State.modFolio_kept | with_reducible apply State.abandonMove_kept
    | with_reducible apply State.failTags_kept | with_reducible apply State.loseMove_kept
    | with_reducible apply State.retireFolio_kept | with_reducible apply State.contaminate_kept
    | with_reducible apply Kept.ite | exact Memory.wf_write _ _ (by assumption)
    | exact Memory.wf_zero _ _ (by assumption) | intro _ _ _ | intro _ _ | intro _ | split | dsimp only
    | with_reducible exact Kept.lit (by with_reducible assumption) | exact hkept | assumption | exact rfl
    | exact Nat.le_refl _
    | (with_reducible apply Kept.lit
       (first | with_reducible assumption | with_reducible apply State.modFolio_kept
              | with_reducible apply State.abandonMove_kept | with_reducible apply State.failTags_kept
              | with_reducible apply State.loseMove_kept | with_reducible apply State.retireFolio_kept
              | with_reducible apply State.contaminate_kept))

theorem State.repairRow_kept {s0 : State} {s : State} (f row : Nat) (hkept : Kept s0 s) :
    Kept s0 (State.repairRow s f row) := by
  unfold State.repairRow
  repeat' first
    | with_reducible exact hkept | with_reducible assumption
    | (extract_lets +onlyGivenNames y'; refine (fun (_ : Kept s0 y') => ?_) ?_; clear_value y'; revert y'; intro _ _; rotate_left; dsimp only [y']; clear y'; rotate_left)
    | (extract_lets +onlyGivenNames y'; clear_value y'; revert y'; intro _)
    | with_reducible apply State.modFolio_kept | with_reducible apply State.retireFrame_kept
    | with_reducible apply Kept.ite | intro _ _ _ | intro _ _ | intro _ | split | dsimp only
    | with_reducible exact Kept.lit (by with_reducible assumption) | exact hkept | assumption | exact rfl
    | exact Nat.le_refl _
    | (with_reducible apply Kept.lit
       (first | with_reducible assumption | with_reducible apply State.modFolio_kept
              | with_reducible apply State.retireFrame_kept))

theorem State.declareFrame_kept {s0 : State} {s : State} (f : Nat) (hkept : Kept s0 s) :
    Kept s0 (State.declareFrame s f) := by
  unfold State.declareFrame
  repeat' first
    | with_reducible exact hkept | with_reducible assumption | with_reducible apply State.markReach_kept
    | with_reducible apply Kept.ite | with_reducible apply Kept.foldl | with_reducible apply Kept.foldl_fst
    | with_reducible apply Kept.foldl_snd | intro _ _ _ | intro _ _ | intro _ | split | dsimp only
    | with_reducible exact Kept.lit (by with_reducible assumption) | exact hkept | assumption
    | (with_reducible apply Kept.lit
       (first | with_reducible assumption | with_reducible apply State.markReach_kept))

end Sys2Proof.Machine
end

