-- ==== Sys2Proof/Laws/KeptHost.lean ====
section
/-!
SUPPORT. Laws/KeptHost.lean: what the operations of Machine/Host.lean keep of a state (Laws/Kept.lean).
-/
namespace Sys2Proof.Machine

theorem State.dmaInOp_kept {s0 : State} {s : State} (o : Op) (hostOk : Bool) (hkept : Kept s0 s) :
    Kept s0 (State.dmaInOp s o hostOk) := by
  unfold State.dmaInOp
  repeat' first
    | with_reducible exact hkept | with_reducible assumption
    | (extract_lets +onlyGivenNames y'; refine (fun (_ : Kept s0 y') => ?_) ?_; clear_value y'; revert y'; intro _ _; rotate_left; dsimp only [y']; clear y'; rotate_left)
    | (extract_lets +onlyGivenNames y'; refine (fun (_ : y'.Kept s0) => ?_) ?_; clear_value y'; revert y'; intro _ _; rotate_left; dsimp only [y']; clear y'; rotate_left)
    | (extract_lets +onlyGivenNames y'; clear_value y'; revert y'; intro _)
    | with_reducible apply State.refuseOp_kept | with_reducible apply State.prepare_kept
    | with_reducible apply Prep.finish_kept | with_reducible apply State.writeVa_kept
    | with_reducible apply State.endOpCycles_kept | with_reducible apply Prep.ok_kept
    | with_reducible apply Prep.wait_kept | with_reducible apply Prep.fail_kept
    | with_reducible apply Prep.of_ok (by with_reducible assumption)
    | with_reducible apply Prep.of_wait (by with_reducible assumption)
    | with_reducible apply Prep.of_fail (by with_reducible assumption) | with_reducible apply Kept.ite
    | intro _ _ _ | intro _ _ | intro _ | split | dsimp only | exact hkept | assumption

theorem State.dmaOutOp_kept {s0 : State} {s : State} (o : Op) (hostOk : Bool) (hkept : Kept s0 s) :
    Kept s0 (State.dmaOutOp s o hostOk) := by
  unfold State.dmaOutOp
  repeat' first
    | with_reducible exact hkept | with_reducible assumption
    | (extract_lets +onlyGivenNames y'; refine (fun (_ : Kept s0 y') => ?_) ?_; clear_value y'; revert y'; intro _ _; rotate_left; dsimp only [y']; clear y'; rotate_left)
    | (extract_lets +onlyGivenNames y'; refine (fun (_ : y'.Kept s0) => ?_) ?_; clear_value y'; revert y'; intro _ _; rotate_left; dsimp only [y']; clear y'; rotate_left)
    | (extract_lets +onlyGivenNames y'; clear_value y'; revert y'; intro _)
    | with_reducible apply State.refuseOp_kept | with_reducible apply State.prepare_kept
    | with_reducible apply Prep.finish_kept | with_reducible apply State.endOpCycles_kept
    | with_reducible apply Prep.ok_kept | with_reducible apply Prep.wait_kept
    | with_reducible apply Prep.fail_kept | with_reducible apply Prep.of_ok (by with_reducible assumption)
    | with_reducible apply Prep.of_wait (by with_reducible assumption)
    | with_reducible apply Prep.of_fail (by with_reducible assumption) | with_reducible apply Kept.ite
    | with_reducible refine Kept.lit_hostMem (by with_reducible assumption) ?_
    | (with_reducible apply Kept.hostMem
       (first | with_reducible assumption | with_reducible apply State.refuseOp_kept
              | with_reducible apply State.prepare_kept | with_reducible apply Prep.finish_kept
              | with_reducible apply State.endOpCycles_kept))
    | exact Memory.wf_write _ _ (by assumption) | intro _ _ _ | intro _ _ | intro _ | split | dsimp only
    | with_reducible exact Kept.lit (by with_reducible assumption) | exact hkept | assumption
    | (with_reducible apply Kept.lit
       (first | with_reducible assumption | with_reducible apply State.refuseOp_kept
              | with_reducible apply State.prepare_kept | with_reducible apply Prep.finish_kept
              | with_reducible apply State.endOpCycles_kept))

theorem State.afterCancel_kept {s0 : State} {s : State} (f : Nat) (hkept : Kept s0 s) :
    Kept s0 (State.afterCancel s f) := by
  unfold State.afterCancel
  repeat' first
    | with_reducible exact hkept | with_reducible assumption | with_reducible apply State.substituteIdle_kept
    | with_reducible apply State.checkDrained_kept | split | dsimp only
    | with_reducible exact Kept.lit (by with_reducible assumption) | exact hkept | assumption
    | (with_reducible apply Kept.lit
       (first | with_reducible assumption | with_reducible apply State.substituteIdle_kept
              | with_reducible apply State.checkDrained_kept))

theorem State.bmeOff_kept {s0 : State} {s : State} (f : Nat) (hkept : Kept s0 s) :
    Kept s0 (State.bmeOff s f) := by
  unfold State.bmeOff
  repeat' first
    | with_reducible exact hkept | with_reducible assumption
    | (extract_lets +onlyGivenNames y'; refine (fun (_ : Kept s0 y') => ?_) ?_; clear_value y'; revert y'; intro _ _; rotate_left; dsimp only [y']; clear y'; rotate_left)
    | (extract_lets +onlyGivenNames y'; clear_value y'; revert y'; intro _)
    | with_reducible apply State.modFunc_kept | with_reducible apply State.cancelOp_kept
    | with_reducible apply State.afterCancel_kept | with_reducible apply Kept.foldl
    | with_reducible apply Kept.foldl_fst | with_reducible apply Kept.foldl_snd | intro _ _ _ | intro _ _
    | intro _ | dsimp only | with_reducible exact Kept.lit (by with_reducible assumption) | exact hkept
    | assumption
    | (with_reducible apply Kept.lit
       (first | with_reducible assumption | with_reducible apply State.modFunc_kept
              | with_reducible apply State.cancelOp_kept | with_reducible apply State.afterCancel_kept))

theorem State.bmeOn_kept {s0 : State} {s : State} (f : Nat) (hkept : Kept s0 s) :
    Kept s0 (State.bmeOn s f) := by
  unfold State.bmeOn
  repeat' first
    | with_reducible exact hkept | with_reducible assumption
    | (extract_lets +onlyGivenNames y'; refine (fun (_ : Kept s0 y') => ?_) ?_; clear_value y'; revert y'; intro _ _; rotate_left; dsimp only [y']; clear y'; rotate_left)
    | (extract_lets +onlyGivenNames y'; clear_value y'; revert y'; intro _)
    | with_reducible apply State.sendMsix_kept | with_reducible apply State.modFunc_kept
    | with_reducible apply Kept.foldl | with_reducible apply Kept.foldl_fst
    | with_reducible apply Kept.foldl_snd | intro _ _ _ | intro _ _ | intro _ | dsimp only
    | with_reducible exact Kept.lit (by with_reducible assumption) | exact hkept | assumption
    | (with_reducible apply Kept.lit
       (first | with_reducible assumption | with_reducible apply State.sendMsix_kept
              | with_reducible apply State.modFunc_kept))

theorem State.dropRecs_kept {s0 : State} {s : State} (f : Nat) (hkept : Kept s0 s) :
    Kept s0 (State.dropRecs s f) := by
  unfold State.dropRecs
  repeat' first
    | with_reducible exact hkept | with_reducible assumption
    | (extract_lets +onlyGivenNames y'; refine (fun (_ : Kept s0 y') => ?_) ?_; clear_value y'; revert y'; intro _ _; rotate_left; dsimp only [y']; clear y'; rotate_left)
    | (extract_lets +onlyGivenNames y'; clear_value y'; revert y'; intro _)
    | with_reducible apply State.freeEntry_kept | with_reducible apply Kept.ite
    | with_reducible apply Kept.foldl | with_reducible apply Kept.foldl_fst
    | with_reducible apply Kept.foldl_snd | intro _ _ _ | intro _ _ | intro _ | split | dsimp only
    | with_reducible exact Kept.lit (by with_reducible assumption) | exact hkept | assumption
    | (with_reducible apply Kept.lit
       (first | with_reducible assumption | with_reducible apply State.freeEntry_kept))

theorem State.tdiLeave_kept {s0 : State} {s : State} (f : Nat) (dst : Tdi) (hkept : Kept s0 s) :
    Kept s0 (State.tdiLeave s f dst) := by
  unfold State.tdiLeave
  repeat' first
    | with_reducible exact hkept | with_reducible assumption
    | (extract_lets +onlyGivenNames y'; refine (fun (_ : Kept s0 y') => ?_) ?_; clear_value y'; revert y'; intro _ _; rotate_left; dsimp only [y']; clear y'; rotate_left)
    | (extract_lets +onlyGivenNames y'; clear_value y'; revert y'; intro _)
    | with_reducible apply State.modFunc_kept | with_reducible apply State.dropRecs_kept
    | with_reducible apply State.cancelFunc_kept | with_reducible apply Kept.ite | intro _ _ _ | intro _ _
    | intro _ | split | dsimp only | with_reducible exact Kept.lit (by with_reducible assumption) | exact hkept
    | assumption
    | (with_reducible apply Kept.lit
       (first | with_reducible assumption | with_reducible apply State.modFunc_kept
              | with_reducible apply State.dropRecs_kept | with_reducible apply State.cancelFunc_kept))

theorem State.tdiError_kept {s0 : State} {s : State} (f status : Nat) (hkept : Kept s0 s) :
    Kept s0 (State.tdiError s f status) := by
  unfold State.tdiError
  repeat' first
    | with_reducible exact hkept | with_reducible assumption | with_reducible apply State.addErr_kept
    | with_reducible apply State.tdiLeave_kept | with_reducible apply Kept.ite | split | dsimp only
    | exact hkept | assumption

theorem State.tdiLock_kept {s0 : State} {s : State} (f : Nat) (hkept : Kept s0 s) :
    Kept s0 (State.tdiLock s f).2 := by
  unfold State.tdiLock
  repeat' first
    | with_reducible exact hkept | with_reducible assumption | with_reducible apply State.modFunc_kept
    | with_reducible apply Kept.snd_ite | with_reducible apply Kept.ite | intro _ _ _ | intro _ _ | intro _
    | split | dsimp only | with_reducible exact Kept.lit (by with_reducible assumption) | exact hkept
    | assumption
    | (with_reducible apply Kept.lit
       (first | with_reducible assumption | with_reducible apply State.modFunc_kept))

theorem State.tdiStart_kept {s0 : State} {s : State} (f : Nat) (hkept : Kept s0 s) :
    Kept s0 (State.tdiStart s f).2 := by
  unfold State.tdiStart
  repeat' first
    | with_reducible exact hkept | with_reducible assumption
    | (extract_lets +onlyGivenNames y'; refine (fun (_ : Kept s0 y') => ?_) ?_; clear_value y'; revert y'; intro _ _; rotate_left; dsimp only [y']; clear y'; rotate_left)
    | (extract_lets +onlyGivenNames y'; clear_value y'; revert y'; intro _)
    | with_reducible apply State.modFunc_kept | with_reducible apply Kept.snd_ite
    | with_reducible apply Kept.ite | intro _ _ _ | intro _ _ | intro _ | split | dsimp only
    | with_reducible exact Kept.lit (by with_reducible assumption) | exact hkept | assumption
    | (with_reducible apply Kept.lit
       (first | with_reducible assumption | with_reducible apply State.modFunc_kept))

theorem State.tdiStop_kept {s0 : State} {s : State} (f : Nat) (hkept : Kept s0 s) :
    Kept s0 (State.tdiStop s f).2 := by
  unfold State.tdiStop
  repeat' first
    | with_reducible exact hkept | with_reducible assumption | with_reducible apply State.tdiLeave_kept
    | with_reducible apply State.modFunc_kept | with_reducible apply Kept.snd_ite
    | with_reducible apply Kept.ite | intro _ _ _ | intro _ _ | intro _ | split | dsimp only
    | with_reducible exact Kept.lit (by with_reducible assumption) | exact hkept | assumption
    | (with_reducible apply Kept.lit
       (first | with_reducible assumption | with_reducible apply State.tdiLeave_kept
              | with_reducible apply State.modFunc_kept))

theorem State.checkStreams_kept {s0 : State} {s t : State} (hkept : Kept s0 s) (hkept1 : Kept s0 t) :
    Kept s0 (State.checkStreams s t) := by
  unfold State.checkStreams
  repeat' first
    | with_reducible exact hkept | with_reducible assumption | with_reducible apply State.tdiError_kept
    | with_reducible apply Kept.ite | with_reducible apply Kept.foldl | with_reducible apply Kept.foldl_fst
    | with_reducible apply Kept.foldl_snd | intro _ _ _ | intro _ _ | intro _ | split | dsimp only
    | exact hkept | assumption

theorem State.setIde_kept {s0 : State} {s : State} (i : Nat) (on : Bool) (hkept : Kept s0 s) :
    Kept s0 (State.setIde s i on) := by
  unfold State.setIde
  repeat' first
    | with_reducible exact hkept | with_reducible assumption | with_reducible apply State.checkStreams_kept
    | intro _ _ _ | intro _ _ | intro _ | dsimp only
    | with_reducible exact Kept.lit (by with_reducible assumption) | exact hkept | assumption
    | (with_reducible apply Kept.lit
       (first | with_reducible assumption | with_reducible apply State.checkStreams_kept))

theorem State.programIde_kept {s0 : State} {s : State} (f i key : Nat) (hkept : Kept s0 s) :
    Kept s0 (State.programIde s f i key) := by
  unfold State.programIde
  repeat' first
    | with_reducible exact hkept | with_reducible assumption
    | (extract_lets +onlyGivenNames y'; refine (fun (_ : Kept s0 y') => ?_) ?_; clear_value y'; revert y'; intro _ _; rotate_left; dsimp only [y']; clear y'; rotate_left)
    | (extract_lets +onlyGivenNames y'; clear_value y'; revert y'; intro _)
    | with_reducible apply State.modFunc_kept | with_reducible apply State.checkStreams_kept
    | with_reducible apply Kept.ite | intro _ _ _ | intro _ _ | intro _ | split | dsimp only
    | with_reducible exact Kept.lit (by with_reducible assumption) | exact hkept | assumption
    | (with_reducible apply Kept.lit
       (first | with_reducible assumption | with_reducible apply State.modFunc_kept
              | with_reducible apply State.checkStreams_kept))

theorem State.resetFunc_kept {s0 : State} {s : State} (f : Nat) (hkept : Kept s0 s) :
    Kept s0 (State.resetFunc s f) := by
  unfold State.resetFunc
  repeat' first
    | with_reducible exact hkept | with_reducible assumption
    | (extract_lets +onlyGivenNames y'; refine (fun (_ : Kept s0 y') => ?_) ?_; clear_value y'; revert y'; intro _ _; rotate_left; dsimp only [y']; clear y'; rotate_left)
    | (extract_lets +onlyGivenNames y'; clear_value y'; revert y'; intro _)
    | with_reducible apply State.winClear_kept | with_reducible apply State.modFunc_kept
    | with_reducible apply Kept.ite | with_reducible refine Kept.lit_regs (by with_reducible assumption) ?_
    | (with_reducible apply Kept.regs
       (first | with_reducible assumption | with_reducible apply State.winClear_kept
              | with_reducible apply State.modFunc_kept))
    | exact Tab.wf_without _ (by assumption) | intro _ _ _ | intro _ _ | intro _ | split | dsimp only
    | with_reducible exact Kept.lit (by with_reducible assumption) | exact hkept | assumption
    | (with_reducible apply Kept.lit
       (first | with_reducible assumption | with_reducible apply State.winClear_kept
              | with_reducible apply State.modFunc_kept))

theorem State.configRead_kept {s0 : State} {s : State} (f off : Nat) (hkept : Kept s0 s) :
    Kept s0 (State.configRead s f off).2 := by
  unfold State.configRead
  repeat' first
    | with_reducible exact hkept | with_reducible assumption
    | (extract_lets +onlyGivenNames y'; refine (fun (_ : Kept s0 y') => ?_) ?_; clear_value y'; revert y'; intro _ _; rotate_left; dsimp only [y']; clear y'; rotate_left)
    | (extract_lets +onlyGivenNames y'; refine (fun (_ : Kept s0 y'.2) => ?_) ?_; clear_value y'; revert y'; intro _ _; rotate_left; dsimp only [y']; clear y'; rotate_left)
    | (extract_lets +onlyGivenNames y'; clear_value y'; revert y'; intro _)
    | with_reducible apply State.free_kept | with_reducible apply Kept.snd_ite | with_reducible apply Kept.ite
    | split | dsimp only | exact hkept | assumption

theorem State.setNumVfs_kept {s0 : State} {s : State} (n : Nat) (hkept : Kept s0 s) :
    Kept s0 (State.setNumVfs s n) := by
  unfold State.setNumVfs
  repeat' first
    | with_reducible exact hkept | with_reducible assumption | with_reducible apply State.tdiError_kept
    | with_reducible apply Kept.foldl | with_reducible apply Kept.foldl_fst
    | with_reducible apply Kept.foldl_snd | intro _ _ _ | intro _ _ | intro _ | dsimp only
    | with_reducible exact Kept.lit (by with_reducible assumption) | exact hkept | assumption
    | (with_reducible apply Kept.lit
       (first | with_reducible assumption | with_reducible apply State.tdiError_kept))

theorem State.configWrite_kept {s0 : State} {s : State} (f off : Nat) (v : W32) (hkept : Kept s0 s) :
    Kept s0 (State.configWrite s f off v) := by
  unfold State.configWrite
  repeat' first
    | with_reducible exact hkept | with_reducible assumption | with_reducible apply State.setNumVfs_kept
    | with_reducible apply State.bmeOn_kept | with_reducible apply State.bmeOff_kept
    | with_reducible apply Kept.ite | split | dsimp only | exact hkept | assumption

end Sys2Proof.Machine
end

