-- ==== Sys2Proof/Laws/KeptStrongbox.lean ====
section
/-!
SUPPORT. Laws/KeptStrongbox.lean: what the operations of Machine/Strongbox.lean keep of a state (Laws/Kept.lean).
-/
namespace Sys2Proof.Machine

theorem State.setMbx_kept {s0 : State} {s : State} (m : Mbx) (x : Mailbox) (hkept : Kept s0 s) :
    Kept s0 (State.setMbx s m x) := by
  unfold State.setMbx
  repeat' first
    | with_reducible exact hkept | with_reducible assumption | with_reducible apply State.modSbox_kept
    | intro _ _ _ | intro _ _ | intro _ | split | dsimp only
    | with_reducible exact Kept.lit (by with_reducible assumption) | exact hkept | assumption | exact rfl
    | exact Nat.le_refl _
    | (with_reducible apply Kept.lit
       (first | with_reducible assumption | with_reducible apply State.modSbox_kept))

theorem State.mbxEnd_kept {s0 : State} {s : State} (m : Mbx) (status : Nat) (out : Bytes) (hkept : Kept s0 s) :
    Kept s0 (State.mbxEnd s m status out) := by
  unfold State.mbxEnd
  repeat' first
    | with_reducible exact hkept | with_reducible assumption | with_reducible apply State.setMbx_kept
    | dsimp only | with_reducible exact Kept.lit (by with_reducible assumption) | exact hkept | assumption
    | (with_reducible apply Kept.lit
       (first | with_reducible assumption | with_reducible apply State.setMbx_kept))

theorem State.mbxStatus_kept {s0 : State} {s : State} (m : Mbx) (status : Nat) (hkept : Kept s0 s) :
    Kept s0 (State.mbxStatus s m status) := by
  unfold State.mbxStatus
  repeat' first
    | with_reducible exact hkept | with_reducible assumption | with_reducible apply State.mbxEnd_kept
    | dsimp only | exact hkept | assumption

theorem State.runMbx_kept {s0 : State} {s : State} (m : Mbx) (oc : Nat) (body : Mailbox → State) (hkept : Kept s0 s) (hbody : ∀ x0, Kept s0 (body x0)) :
    Kept s0 (State.runMbx s m oc body) := by
  unfold State.runMbx
  repeat' first
    | with_reducible exact hkept | with_reducible assumption | with_reducible apply hbody
    | (extract_lets +onlyGivenNames y'; refine (fun (_ : Kept s0 y') => ?_) ?_; clear_value y'; revert y'; intro _ _; rotate_left; dsimp only [y']; clear y'; rotate_left)
    | (extract_lets +onlyGivenNames y'; clear_value y'; revert y'; intro _)
    | with_reducible apply State.mbxStatus_kept | with_reducible apply Kept.ite | intro _ _ _ | intro _ _
    | intro _ | split | dsimp only | exact hkept | assumption

theorem State.mbxRandom_kept {s0 : State} {s : State} (m : Mbx) {body : State} (hkept : Kept s0 s) (hkept1 : Kept s0 body) :
    Kept s0 (State.mbxRandom s m body) := by
  unfold State.mbxRandom
  repeat' first
    | with_reducible exact hkept | with_reducible assumption | with_reducible apply State.mbxStatus_kept
    | with_reducible apply State.setMbx_kept | with_reducible apply State.rngWait_kept
    | with_reducible apply Kept.ite | split | dsimp only
    | with_reducible exact Kept.lit (by with_reducible assumption) | exact hkept | assumption
    | (with_reducible apply Kept.lit
       (first | with_reducible assumption | with_reducible apply State.mbxStatus_kept
              | with_reducible apply State.setMbx_kept | with_reducible apply State.rngWait_kept))

theorem State.mramPut_kept {s0 : State} {s : State} (i attr : Nat) (key : Bytes) (g : Bytes → Bytes) (hkept : Kept s0 s) :
    Kept s0 (State.mramPut s i attr key g) := by
  unfold State.mramPut
  repeat' first
    | with_reducible exact hkept | with_reducible assumption
    | (extract_lets +onlyGivenNames y'; refine (fun (_ : Kept s0 y') => ?_) ?_; clear_value y'; revert y'; intro _ _; rotate_left; dsimp only [y']; clear y'; rotate_left)
    | (extract_lets +onlyGivenNames y'; clear_value y'; revert y'; intro _)
    | with_reducible apply State.modSbox_kept | intro _ _ _ | intro _ _ | intro _ | split | dsimp only
    | with_reducible exact Kept.lit (by with_reducible assumption) | exact hkept | assumption | exact rfl
    | exact Nat.le_refl _
    | (with_reducible apply Kept.lit
       (first | with_reducible assumption | with_reducible apply State.modSbox_kept))

theorem State.mramWrite_kept {s0 : State} {s : State} (i attr : Nat) (key : Bytes) (hkept : Kept s0 s) :
    Kept s0 (State.mramWrite s i attr key) := by
  unfold State.mramWrite
  repeat' first
    | with_reducible exact hkept | with_reducible assumption | with_reducible apply State.mramPut_kept
    | dsimp only | exact hkept | assumption

theorem State.mramSpoil_kept {s0 : State} {s : State} (k : KeySlot) (i : Nat) (hkept : Kept s0 s) :
    Kept s0 (State.mramSpoil s k i) := by
  unfold State.mramSpoil
  repeat' first
    | with_reducible exact hkept | with_reducible assumption | with_reducible apply State.mramPut_kept
    | intro _ _ _ | intro _ _ | intro _ | dsimp only | exact hkept | assumption

theorem State.persist_kept {s0 : State} {s : State} (i : Nat) (hkept : Kept s0 s) :
    Kept s0 (State.persist s i) := by
  unfold State.persist
  repeat' first
    | with_reducible exact hkept | with_reducible assumption | with_reducible apply State.mramWrite_kept
    | with_reducible apply Kept.ite | split | dsimp only | exact hkept | assumption

theorem State.zeroiseSlot_kept {s0 : State} {s : State} (i : Nat) (hkept : Kept s0 s) :
    Kept s0 (State.zeroiseSlot s i) := by
  unfold State.zeroiseSlot
  repeat' first
    | with_reducible exact hkept | with_reducible assumption
    | (extract_lets +onlyGivenNames y'; refine (fun (_ : Kept s0 y') => ?_) ?_; clear_value y'; revert y'; intro _ _; rotate_left; dsimp only [y']; clear y'; rotate_left)
    | (extract_lets +onlyGivenNames y'; clear_value y'; revert y'; intro _)
    | with_reducible apply State.zeroise_kept | with_reducible apply State.persist_kept | dsimp only
    | exact hkept | assumption

theorem State.putKey_kept {s0 : State} {s : State} (i attr : Nat) (key : Bytes) (hkept : Kept s0 s) :
    Kept s0 (State.putKey s i attr key) := by
  unfold State.putKey
  repeat' first
    | with_reducible exact hkept | with_reducible assumption | with_reducible apply State.installKey_kept
    | with_reducible apply State.persist_kept | dsimp only | exact hkept | assumption

theorem State.putKeyEnd_kept {s0 : State} {s : State} (m : Mbx) (readBack : Bool) (i attr : Nat) (key : Bytes) (hkept : Kept s0 s) :
    Kept s0 (State.putKeyEnd s m readBack i attr key) := by
  unfold State.putKeyEnd
  repeat' first
    | with_reducible exact hkept | with_reducible assumption | with_reducible apply State.mramSpoil_kept
    | with_reducible apply State.installKey_kept | with_reducible apply State.mbxStatus_kept
    | with_reducible apply State.putKey_kept | with_reducible apply Kept.ite | split | dsimp only | exact hkept
    | assumption

theorem State.keyWriteRun_kept {s0 : State} {s : State} (m : Mbx) (readBack : Bool) (x : Mailbox) (hkept : Kept s0 s) :
    Kept s0 (State.keyWriteRun s m readBack x) := by
  unfold State.keyWriteRun
  repeat' first
    | with_reducible exact hkept | with_reducible assumption
    | (extract_lets +onlyGivenNames y'; refine (fun (_ : Kept s0 y') => ?_) ?_; clear_value y'; revert y'; intro _ _; rotate_left; dsimp only [y']; clear y'; rotate_left)
    | (extract_lets +onlyGivenNames y'; clear_value y'; revert y'; intro _)
    | with_reducible apply State.mbxStatus_kept | with_reducible apply State.putKeyEnd_kept
    | with_reducible apply Kept.ite | split | dsimp only | exact hkept | assumption

theorem State.keyDeriveRun_kept {s0 : State} {s : State} (m : Mbx) (readBack : Bool) (x : Mailbox) (hkept : Kept s0 s) :
    Kept s0 (State.keyDeriveRun s m readBack x) := by
  unfold State.keyDeriveRun
  repeat' first
    | with_reducible exact hkept | with_reducible assumption
    | (extract_lets +onlyGivenNames y'; refine (fun (_ : Kept s0 y') => ?_) ?_; clear_value y'; revert y'; intro _ _; rotate_left; dsimp only [y']; clear y'; rotate_left)
    | (extract_lets +onlyGivenNames y'; clear_value y'; revert y'; intro _)
    | with_reducible apply State.mbxStatus_kept | with_reducible apply State.putKeyEnd_kept
    | with_reducible apply Kept.ite | split | dsimp only
    | with_reducible exact Kept.lit (by with_reducible assumption) | exact hkept | assumption
    | (with_reducible apply Kept.lit
       (first | with_reducible assumption | with_reducible apply State.mbxStatus_kept
              | with_reducible apply State.putKeyEnd_kept))

theorem State.keyWrapRun_kept {s0 : State} {s : State} (m : Mbx) (x : Mailbox) (hkept : Kept s0 s) :
    Kept s0 (State.keyWrapRun s m x) := by
  unfold State.keyWrapRun
  repeat' first
    | with_reducible exact hkept | with_reducible assumption
    | (extract_lets +onlyGivenNames y'; refine (fun (_ : Kept s0 y') => ?_) ?_; clear_value y'; revert y'; intro _ _; rotate_left; dsimp only [y']; clear y'; rotate_left)
    | (extract_lets +onlyGivenNames y'; refine (fun (_ : Kept s0 y'.2) => ?_) ?_; clear_value y'; revert y'; intro _ _; rotate_left; dsimp only [y']; clear y'; rotate_left)
    | (extract_lets +onlyGivenNames y'; clear_value y'; revert y'; intro _)
    | with_reducible apply State.mbxStatus_kept | with_reducible apply State.draw_kept
    | with_reducible apply State.mbxRandom_kept | with_reducible apply State.mbxEnd_kept
    | with_reducible apply Kept.ite | split | dsimp only | exact hkept | assumption

theorem State.keyUnwrapRun_kept {s0 : State} {s : State} (m : Mbx) (readBack : Bool) (x : Mailbox) (hkept : Kept s0 s) :
    Kept s0 (State.keyUnwrapRun s m readBack x) := by
  unfold State.keyUnwrapRun
  repeat' first
    | with_reducible exact hkept | with_reducible assumption
    | (extract_lets +onlyGivenNames y'; refine (fun (_ : Kept s0 y') => ?_) ?_; clear_value y'; revert y'; intro _ _; rotate_left; dsimp only [y']; clear y'; rotate_left)
    | (extract_lets +onlyGivenNames y'; clear_value y'; revert y'; intro _)
    | with_reducible apply State.mbxStatus_kept | with_reducible apply State.putKeyEnd_kept
    | with_reducible apply Kept.ite | split | dsimp only
    | with_reducible exact Kept.lit (by with_reducible assumption) | exact hkept | assumption
    | (with_reducible apply Kept.lit
       (first | with_reducible assumption | with_reducible apply State.mbxStatus_kept
              | with_reducible apply State.putKeyEnd_kept))

theorem State.dropDeadLinks_kept {s0 : State} {s : State} (hkept : Kept s0 s) :
    Kept s0 (State.dropDeadLinks s) := by
  unfold State.dropDeadLinks
  repeat' first
    | with_reducible exact hkept | with_reducible assumption | with_reducible apply State.dropLinks_kept
    | with_reducible apply Kept.ite | with_reducible apply Kept.foldl | with_reducible apply Kept.foldl_fst
    | with_reducible apply Kept.foldl_snd | intro _ _ _ | intro _ _ | intro _ | split | dsimp only
    | exact hkept | assumption

theorem State.keyOrphanRun_kept {s0 : State} {s : State} (m : Mbx) (x : Mailbox) (hkept : Kept s0 s) :
    Kept s0 (State.keyOrphanRun s m x) := by
  unfold State.keyOrphanRun
  repeat' first
    | with_reducible exact hkept | with_reducible assumption | with_reducible apply State.mbxStatus_kept
    | with_reducible apply State.orphan_kept | with_reducible apply State.dropDeadLinks_kept
    | with_reducible apply Kept.ite | split | dsimp only | exact hkept | assumption

theorem State.keyZeroiseRun_kept {s0 : State} {s : State} (m : Mbx) (readBack : Bool) (x : Mailbox) (hkept : Kept s0 s) :
    Kept s0 (State.keyZeroiseRun s m readBack x) := by
  unfold State.keyZeroiseRun
  repeat' first
    | with_reducible exact hkept | with_reducible assumption
    | (extract_lets +onlyGivenNames y'; refine (fun (_ : Kept s0 y') => ?_) ?_; clear_value y'; revert y'; intro _ _; rotate_left; dsimp only [y']; clear y'; rotate_left)
    | (extract_lets +onlyGivenNames y'; clear_value y'; revert y'; intro _)
    | with_reducible apply State.mbxStatus_kept | with_reducible apply State.orphan_kept
    | with_reducible apply State.mramSpoil_kept | with_reducible apply State.zeroise_kept
    | with_reducible apply State.dropDeadLinks_kept | with_reducible apply State.zeroiseSlot_kept
    | with_reducible apply Kept.ite | with_reducible apply Kept.foldl | with_reducible apply Kept.foldl_fst
    | with_reducible apply Kept.foldl_snd | intro _ _ _ | intro _ _ | intro _ | split | dsimp only
    | exact hkept | assumption

theorem State.keyInfoRun_kept {s0 : State} {s : State} (m : Mbx) (x : Mailbox) (hkept : Kept s0 s) :
    Kept s0 (State.keyInfoRun s m x) := by
  unfold State.keyInfoRun
  repeat' first
    | with_reducible exact hkept | with_reducible assumption
    | (extract_lets +onlyGivenNames y'; refine (fun (_ : Kept s0 y') => ?_) ?_; clear_value y'; revert y'; intro _ _; rotate_left; dsimp only [y']; clear y'; rotate_left)
    | (extract_lets +onlyGivenNames y'; clear_value y'; revert y'; intro _)
    | with_reducible apply State.mbxStatus_kept | with_reducible apply State.setMbx_kept
    | with_reducible apply Kept.ite | split | dsimp only
    | with_reducible exact Kept.lit (by with_reducible assumption) | exact hkept | assumption
    | (with_reducible apply Kept.lit
       (first | with_reducible assumption | with_reducible apply State.mbxStatus_kept
              | with_reducible apply State.setMbx_kept))

theorem State.signRun_kept {s0 : State} {s : State} (m : Mbx) (x : Mailbox) (hkept : Kept s0 s) :
    Kept s0 (State.signRun s m x) := by
  unfold State.signRun
  repeat' first
    | with_reducible exact hkept | with_reducible assumption
    | (extract_lets +onlyGivenNames y'; refine (fun (_ : Kept s0 y') => ?_) ?_; clear_value y'; revert y'; intro _ _; rotate_left; dsimp only [y']; clear y'; rotate_left)
    | (extract_lets +onlyGivenNames y'; clear_value y'; revert y'; intro _)
    | with_reducible apply State.mbxStatus_kept | with_reducible apply State.mbxEnd_kept
    | with_reducible apply Kept.ite | split | dsimp only | exact hkept | assumption

theorem State.memRotateRun_kept {s0 : State} {s : State} (m : Mbx) (x : Mailbox) (hkept : Kept s0 s) :
    Kept s0 (State.memRotateRun s m x) := by
  unfold State.memRotateRun
  repeat' first
    | with_reducible exact hkept | with_reducible assumption
    | (extract_lets +onlyGivenNames y'; refine (fun (_ : Kept s0 y') => ?_) ?_; clear_value y'; revert y'; intro _ _; rotate_left; dsimp only [y']; clear y'; rotate_left)
    | (extract_lets +onlyGivenNames y'; refine (fun (_ : Kept s0 y'.2) => ?_) ?_; clear_value y'; revert y'; intro _ _; rotate_left; dsimp only [y']; clear y'; rotate_left)
    | (extract_lets +onlyGivenNames y'; clear_value y'; revert y'; intro _)
    | with_reducible apply State.mbxStatus_kept | with_reducible apply State.draw_kept
    | with_reducible apply State.putKey_kept | with_reducible apply State.modPart_kept
    | with_reducible apply State.mbxRandom_kept | with_reducible apply State.retireGens_kept
    | with_reducible apply State.modFolio_kept | with_reducible apply Kept.ite | intro _ _ _ | intro _ _
    | intro _ | split | dsimp only | with_reducible exact Kept.lit (by with_reducible assumption) | exact hkept
    | assumption | exact rfl | exact Nat.le_refl _
    | (with_reducible apply Kept.lit
       (first | with_reducible assumption | with_reducible apply State.mbxStatus_kept
              | with_reducible apply State.draw_kept | with_reducible apply State.putKey_kept
              | with_reducible apply State.modPart_kept | with_reducible apply State.mbxRandom_kept
              | with_reducible apply State.retireGens_kept | with_reducible apply State.modFolio_kept))

theorem State.tamperReadRun_kept {s0 : State} {s : State} (m : Mbx) (x : Mailbox) (hkept : Kept s0 s) :
    Kept s0 (State.tamperReadRun s m x) := by
  unfold State.tamperReadRun
  repeat' first
    | with_reducible exact hkept | with_reducible assumption | with_reducible apply State.mbxEnd_kept
    | intro _ _ _ | intro _ _ | intro _ | dsimp only | exact hkept | assumption

end Sys2Proof.Machine
end

