-- ==== Sys2Proof/Laws/KeptRecovery.lean ====
section
/-!
SUPPORT. Laws/KeptRecovery.lean: what the operations of Machine/Recovery.lean keep of a state (Laws/Kept.lean).
-/
namespace Sys2Proof.Machine

theorem State.finishGroups_kept {s0 : State} {s : State} (o : Op) (hkept : Kept s0 s) :
    Kept s0 (State.finishGroups s o) := by
  unfold State.finishGroups
  repeat' first
    | with_reducible exact hkept | with_reducible assumption | with_reducible apply State.finishGroup_kept
    | with_reducible apply Kept.foldl | with_reducible apply Kept.foldl_fst
    | with_reducible apply Kept.foldl_snd | intro _ _ _ | intro _ _ | intro _ | dsimp only | exact hkept
    | assumption

theorem State.recoverEnd_kept {s0 : State} {s : State} (o : Op) (w total : Nat) (hkept : Kept s0 s) :
    Kept s0 (State.recoverEnd s o w total) := by
  unfold State.recoverEnd
  repeat' first
    | with_reducible exact hkept | with_reducible assumption | with_reducible apply State.endWinInfo_kept
    | with_reducible apply Kept.ite | split | dsimp only | exact hkept | assumption

/-- The state with which a group is begun or refused. -/
def GroupStart.state : GroupStart → State
  | .next t => t
  | .wait t => t
  | .fail t _ => t

/-- A slot filled, and the groups of Tally changed with it. -/
theorem State.startGroup_kept {s0 s : State} (o : Op) (w : Nat) (pair : Bool) (index : Nat) (bs : Bytes)
    (h : Kept s0 s) : Kept s0 (State.startGroup s o w pair index bs).state := by
  have k (kind : Nat) := State.setRecEntry_kept (s.win w) (readGroup pair bs).contributor kind false h
  unfold State.startGroup
  cases pair <;> dsimp only
  all_goals
    repeat' split
    all_goals dsimp only [GroupStart.state]
    all_goals first
      | with_reducible exact h
      | with_reducible exact k _
      | with_reducible exact State.countUp_kept _ _ h
      | with_reducible exact State.modTally_kept _ (State.installKey_kept _ _ _ (k _))

theorem State.startGroups_kept {s0 : State} (pair : Bool) (w : Nat) (gs : List Bytes) (finish : Bool) (n : Nat) (o : Op)
    {s : State} (h : Kept s0 s) : Kept s0 (State.startGroups pair w gs finish n o s) := by
  induction n generalizing s o with
  | zero => exact h
  | succ n ih =>
    unfold State.startGroups
    split
    · exact h
    · rename_i bs _
      have k := State.startGroup_kept o w pair o.progress bs h
      split
      · rename_i e; rw [e] at k; exact k
      · rename_i e; rw [e] at k; exact State.endWinInfo_kept _ _ _ _ (State.finishGroups_kept _ k)
      · rename_i e
        rw [e] at k
        dsimp only
        apply ih
        apply State.modOp_kept
        split
        · exact State.finishGroups_kept _ k
        · exact k

theorem State.stepGroup_kept {s0 : State} {s : State} (o : Op) (index n : Nat) (hkept : Kept s0 s) :
    Kept s0 (State.stepGroup s o index n) := by
  unfold State.stepGroup
  repeat' first
    | with_reducible exact hkept | with_reducible assumption | with_reducible apply State.profMasks_kept
    | (extract_lets +onlyGivenNames y'; refine (fun (_ : Kept s0 y') => ?_) ?_; clear_value y'; revert y'; intro _ _; rotate_left; dsimp only [y']; clear y'; rotate_left)
    | (extract_lets +onlyGivenNames y'; clear_value y'; revert y'; intro _)
    | with_reducible apply State.finishGroup_kept | with_reducible apply State.applyMasks_kept
    | with_reducible apply State.modTally_kept | with_reducible apply Kept.ite | intro _ _ _ | intro _ _
    | intro _ | split | dsimp only | with_reducible exact Kept.lit (by with_reducible assumption) | exact hkept
    | assumption
    | (with_reducible apply Kept.lit
       (first | with_reducible assumption | with_reducible apply State.profMasks_kept | with_reducible apply State.finishGroup_kept
              | with_reducible apply State.applyMasks_kept | with_reducible apply State.modTally_kept))

theorem State.recoverGo_kept {s0 : State} {s : State} (o : Op) (w : Nat) (pair : Bool) (gs : List Bytes) (a0 : RecGo) (hkept : Kept s0 s) :
    Kept s0 (State.recoverGo s o w pair gs a0) := by
  cases a0 <;>
   (unfold State.recoverGo
    repeat' first
     | with_reducible exact hkept | with_reducible assumption | with_reducible apply State.startGroups_kept
     | with_reducible apply State.finishGroups_kept | with_reducible apply State.recoverEnd_kept
     | with_reducible apply State.stepGroup_kept | split | dsimp only | exact hkept | assumption)

theorem State.recoverOp_kept {s0 : State} (pair : Bool) (go : RecGo) {s : State} (o : Op) (hkept : Kept s0 s) :
    Kept s0 (State.recoverOp pair go s o) := by
  unfold State.recoverOp
  repeat' first
    | with_reducible exact hkept | with_reducible assumption
    | (extract_lets +onlyGivenNames y'; refine (fun (_ : Kept s0 y') => ?_) ?_; clear_value y'; revert y'; intro _ _; rotate_left; dsimp only [y']; clear y'; rotate_left)
    | (extract_lets +onlyGivenNames y'; refine (fun (_ : y'.Kept s0) => ?_) ?_; clear_value y'; revert y'; intro _ _; rotate_left; dsimp only [y']; clear y'; rotate_left)
    | (extract_lets +onlyGivenNames y'; clear_value y'; revert y'; intro _)
    | with_reducible apply State.refuseOp_kept | with_reducible apply State.endWinOp_kept
    | with_reducible apply State.abandonGroups_kept | with_reducible apply State.prepare_kept
    | with_reducible apply Prep.finish_kept | with_reducible apply State.endWinInfo_kept
    | with_reducible apply State.recoverGo_kept | with_reducible apply Prep.ok_kept
    | with_reducible apply Prep.wait_kept | with_reducible apply Prep.fail_kept
    | with_reducible apply Prep.of_ok (by with_reducible assumption)
    | with_reducible apply Prep.of_wait (by with_reducible assumption)
    | with_reducible apply Prep.of_fail (by with_reducible assumption) | with_reducible apply Kept.ite
    | intro _ _ _ | intro _ _ | intro _ | split | dsimp only
    | with_reducible exact Kept.lit (by with_reducible assumption) | exact hkept | assumption
    | (with_reducible apply Kept.lit
       (first | with_reducible assumption | with_reducible apply State.refuseOp_kept
              | with_reducible apply State.endWinOp_kept | with_reducible apply State.abandonGroups_kept
              | with_reducible apply State.prepare_kept | with_reducible apply Prep.finish_kept
              | with_reducible apply State.endWinInfo_kept | with_reducible apply State.recoverGo_kept))

theorem State.recoverFinishOp_kept {s0 : State} {s : State} (o : Op) (hkept : Kept s0 s) :
    Kept s0 (State.recoverFinishOp s o) := by
  unfold State.recoverFinishOp
  repeat' first
    | with_reducible exact hkept | with_reducible assumption
    | (extract_lets +onlyGivenNames y'; refine (fun (_ : Kept s0 y') => ?_) ?_; clear_value y'; revert y'; intro _ _; rotate_left; dsimp only [y']; clear y'; rotate_left)
    | (extract_lets +onlyGivenNames y'; clear_value y'; revert y'; intro _)
    | with_reducible apply State.refuseOp_kept | with_reducible apply State.endWinOp_kept
    | with_reducible apply State.endWinInfo_kept | with_reducible apply State.enterRecovered_kept
    | with_reducible apply Kept.ite | split | dsimp only | exact hkept | assumption

theorem State.releaseOp_kept {s0 : State} {s : State} (o : Op) (hkept : Kept s0 s) :
    Kept s0 (State.releaseOp s o) := by
  unfold State.releaseOp
  repeat' first
    | with_reducible exact hkept | with_reducible assumption | with_reducible apply State.winOp_kept
    | with_reducible apply State.startRelease_kept | with_reducible apply State.endWinOp_kept | intro _ _ _
    | intro _ _ | intro _ | dsimp only | exact hkept | assumption

theorem State.timedRelease_kept {s0 : State} {s : State} (w : Nat) (hkept : Kept s0 s) :
    Kept s0 (State.timedRelease s w) := by
  unfold State.timedRelease
  repeat' first
    | with_reducible exact hkept | with_reducible assumption
    | (extract_lets +onlyGivenNames y'; refine (fun (_ : Kept s0 y') => ?_) ?_; clear_value y'; revert y'; intro _ _; rotate_left; dsimp only [y']; clear y'; rotate_left)
    | (extract_lets +onlyGivenNames y'; clear_value y'; revert y'; intro _)
    | with_reducible apply State.startRelease_kept | with_reducible apply Kept.ite | split | dsimp only
    | exact hkept | assumption

theorem State.copySum_kept {s0 : State} (x : Window) (bs : Bytes) (a0 : Nat) (a1 : Nat) {a2 : State} (hkept : Kept s0 a2) :
    (State.copySum x bs a0 a1 a2).Kept s0 := by
  induction a0 generalizing a2 a1 with
  | zero =>
    unfold State.copySum
    repeat' first
      | with_reducible exact hkept | with_reducible assumption
      | (extract_lets +onlyGivenNames y'; refine (fun (_ : Kept s0 y') => ?_) ?_; clear_value y'; revert y'; intro _ _; rotate_left; dsimp only [y']; clear y'; rotate_left)
      | (extract_lets +onlyGivenNames y'; refine (fun (_ : y'.Kept s0) => ?_) ?_; clear_value y'; revert y'; intro _ _; rotate_left; dsimp only [y']; clear y'; rotate_left)
      | (extract_lets +onlyGivenNames y'; clear_value y'; revert y'; intro _)
      | with_reducible apply State.prepare_kept | with_reducible apply State.writeVa_kept
      | with_reducible apply Prep.ok_kept | with_reducible apply Prep.wait_kept
      | with_reducible apply Prep.fail_kept | with_reducible apply Prep.of_ok (by with_reducible assumption)
      | with_reducible apply Prep.of_wait (by with_reducible assumption)
      | with_reducible apply Prep.of_fail (by with_reducible assumption) | split | dsimp only
      | with_reducible exact Kept.lit (by with_reducible assumption) | exact hkept | assumption
      | (with_reducible apply Kept.lit
         (first | with_reducible assumption | with_reducible apply State.prepare_kept
                | with_reducible apply State.writeVa_kept))
  | succ k ih =>
    unfold State.copySum
    repeat' first
      | with_reducible exact hkept | with_reducible assumption | with_reducible apply ih
      | (extract_lets +onlyGivenNames y'; refine (fun (_ : Kept s0 y') => ?_) ?_; clear_value y'; revert y'; intro _ _; rotate_left; dsimp only [y']; clear y'; rotate_left)
      | (extract_lets +onlyGivenNames y'; refine (fun (_ : y'.Kept s0) => ?_) ?_; clear_value y'; revert y'; intro _ _; rotate_left; dsimp only [y']; clear y'; rotate_left)
      | (extract_lets +onlyGivenNames y'; clear_value y'; revert y'; intro _)
      | with_reducible apply State.prepare_kept | with_reducible apply State.writeVa_kept
      | with_reducible apply Prep.ok_kept | with_reducible apply Prep.wait_kept
      | with_reducible apply Prep.fail_kept | with_reducible apply Prep.of_ok (by with_reducible assumption)
      | with_reducible apply Prep.of_wait (by with_reducible assumption)
      | with_reducible apply Prep.of_fail (by with_reducible assumption) | split | dsimp only
      | with_reducible exact Kept.lit (by with_reducible assumption) | exact hkept | assumption
      | (with_reducible apply Kept.lit
         (first | with_reducible assumption | with_reducible apply State.prepare_kept
                | with_reducible apply State.writeVa_kept))

end Sys2Proof.Machine
end

