-- ==== Sys2Proof/Laws/KeptTime.lean ====
section
/-!
SUPPORT. Laws/KeptTime.lean: what the operations of Machine/Time.lean keep of a state (Laws/Kept.lean).
-/
namespace Sys2Proof.Machine

theorem State.modFt_kept {s0 : State} {s : State} (g : FtSt → FtSt) (hkept : Kept s0 s) :
    Kept s0 (State.modFt s g) := by
  unfold State.modFt
  repeat' first
    | with_reducible exact hkept | with_reducible assumption | dsimp only
    | with_reducible exact Kept.lit (by with_reducible assumption) | exact hkept | assumption

theorem State.ftEvents_kept {s0 : State} {s : State} (mask : Nat) (hkept : Kept s0 s) :
    Kept s0 (State.ftEvents s mask) := by
  unfold State.ftEvents
  repeat' first
    | with_reducible exact hkept | with_reducible assumption | with_reducible apply State.setEvents_kept
    | dsimp only | exact hkept | assumption

theorem State.runTimed_kept {s0 : State} {s : State} (a0 : Timed) (hkept : Kept s0 s) :
    Kept s0 (State.runTimed s a0) := by
  cases a0 <;>
   (unfold State.runTimed
    repeat' first
     | with_reducible exact hkept | with_reducible assumption | with_reducible apply State.openLate_kept
     | with_reducible apply State.closeWindow_kept | with_reducible apply State.timedRelease_kept
     | with_reducible apply State.rekeyNow_kept | with_reducible apply Kept.ite | split | dsimp only
     | exact hkept | assumption)

theorem State.runDue_kept {s0 : State} {s : State} (hkept : Kept s0 s) :
    Kept s0 (State.runDue s) := by
  unfold State.runDue
  repeat' first
    | with_reducible exact hkept | with_reducible assumption | with_reducible apply State.runTimed_kept
    | with_reducible apply Kept.foldl | with_reducible apply Kept.foldl_fst
    | with_reducible apply Kept.foldl_snd | intro _ _ _ | intro _ _ | intro _ | dsimp only | exact hkept
    | assumption

theorem State.ftUnlock_kept {s0 : State} {s : State} (hkept : Kept s0 s) :
    Kept s0 (State.ftUnlock s) := by
  unfold State.ftUnlock
  repeat' first
    | with_reducible exact hkept | with_reducible assumption
    | (extract_lets +onlyGivenNames y'; refine (fun (_ : Kept s0 y') => ?_) ?_; clear_value y'; revert y'; intro _ _; rotate_left; dsimp only [y']; clear y'; rotate_left)
    | (extract_lets +onlyGivenNames y'; clear_value y'; revert y'; intro _)
    | with_reducible apply State.addErr_kept | with_reducible apply State.modFt_kept
    | with_reducible apply State.ftEvents_kept | with_reducible apply State.emit_kept
    | with_reducible apply Kept.ite | intro _ _ _ | intro _ _ | intro _ | split | dsimp only
    | with_reducible exact Kept.lit (by with_reducible assumption) | exact hkept | assumption
    | (with_reducible apply Kept.lit
       (first | with_reducible assumption | with_reducible apply State.addErr_kept
              | with_reducible apply State.modFt_kept | with_reducible apply State.ftEvents_kept
              | with_reducible apply State.emit_kept))

theorem State.ftLock_kept {s0 : State} {s : State} (hkept : Kept s0 s) :
    Kept s0 (State.ftLock s) := by
  unfold State.ftLock
  repeat' first
    | with_reducible exact hkept | with_reducible assumption
    | (extract_lets +onlyGivenNames y'; refine (fun (_ : Kept s0 y') => ?_) ?_; clear_value y'; revert y'; intro _ _; rotate_left; dsimp only [y']; clear y'; rotate_left)
    | (extract_lets +onlyGivenNames y'; clear_value y'; revert y'; intro _)
    | with_reducible apply State.modFt_kept | with_reducible apply State.ftEvents_kept
    | with_reducible apply State.runDue_kept | with_reducible apply Kept.ite | intro _ _ _ | intro _ _
    | intro _ | split | dsimp only | with_reducible exact Kept.lit (by with_reducible assumption) | exact hkept
    | assumption
    | (with_reducible apply Kept.lit
       (first | with_reducible assumption | with_reducible apply State.modFt_kept
              | with_reducible apply State.ftEvents_kept | with_reducible apply State.runDue_kept))

theorem State.ftLose_kept {s0 : State} {s : State} (hkept : Kept s0 s) :
    Kept s0 (State.ftLose s) := by
  unfold State.ftLose
  repeat' first
    | with_reducible exact hkept | with_reducible assumption
    | (extract_lets +onlyGivenNames y'; refine (fun (_ : Kept s0 y') => ?_) ?_; clear_value y'; revert y'; intro _ _; rotate_left; dsimp only [y']; clear y'; rotate_left)
    | (extract_lets +onlyGivenNames y'; clear_value y'; revert y'; intro _)
    | with_reducible apply State.modFt_kept | with_reducible apply State.ftEvents_kept
    | with_reducible apply Kept.ite | intro _ _ _ | intro _ _ | intro _ | split | dsimp only
    | with_reducible exact Kept.lit (by with_reducible assumption) | exact hkept | assumption
    | (with_reducible apply Kept.lit
       (first | with_reducible assumption | with_reducible apply State.modFt_kept
              | with_reducible apply State.ftEvents_kept))

theorem State.ftStep_kept {s0 : State} {s : State} (off : Int) (hkept : Kept s0 s) :
    Kept s0 (State.ftStep s off) := by
  unfold State.ftStep
  repeat' first
    | with_reducible exact hkept | with_reducible assumption
    | (extract_lets +onlyGivenNames y'; refine (fun (_ : Kept s0 y') => ?_) ?_; clear_value y'; revert y'; intro _ _; rotate_left; dsimp only [y']; clear y'; rotate_left)
    | (extract_lets +onlyGivenNames y'; clear_value y'; revert y'; intro _)
    | with_reducible apply State.modFt_kept | with_reducible apply State.ftEvents_kept
    | with_reducible apply State.runDue_kept | with_reducible apply State.ftUnlock_kept
    | with_reducible apply Kept.ite | intro _ _ _ | intro _ _ | intro _ | split | dsimp only
    | with_reducible exact Kept.lit (by with_reducible assumption) | exact hkept | assumption
    | (with_reducible apply Kept.lit
       (first | with_reducible assumption | with_reducible apply State.modFt_kept
              | with_reducible apply State.ftEvents_kept | with_reducible apply State.runDue_kept
              | with_reducible apply State.ftUnlock_kept))

theorem State.ftUpdate_kept {s0 : State} {s : State} (off : Int) (hkept : Kept s0 s) :
    Kept s0 (State.ftUpdate s off) := by
  unfold State.ftUpdate
  repeat' first
    | with_reducible exact hkept | with_reducible assumption
    | (extract_lets +onlyGivenNames y'; refine (fun (_ : Kept s0 y') => ?_) ?_; clear_value y'; revert y'; intro _ _; rotate_left; dsimp only [y']; clear y'; rotate_left)
    | (extract_lets +onlyGivenNames y'; clear_value y'; revert y'; intro _)
    | with_reducible apply State.modFt_kept | with_reducible apply State.ftStep_kept
    | with_reducible apply State.ftUnlock_kept | with_reducible apply State.ftLock_kept
    | with_reducible apply Kept.ite | intro _ _ _ | intro _ _ | intro _ | split | dsimp only
    | with_reducible exact Kept.lit (by with_reducible assumption) | exact hkept | assumption
    | (with_reducible apply Kept.lit
       (first | with_reducible assumption | with_reducible apply State.modFt_kept
              | with_reducible apply State.ftStep_kept | with_reducible apply State.ftUnlock_kept
              | with_reducible apply State.ftLock_kept))

theorem State.ftHold_kept {s0 : State} {s : State} (hkept : Kept s0 s) :
    Kept s0 (State.ftHold s) := by
  unfold State.ftHold
  repeat' first
    | with_reducible exact hkept | with_reducible assumption
    | (extract_lets +onlyGivenNames y'; refine (fun (_ : Kept s0 y') => ?_) ?_; clear_value y'; revert y'; intro _ _; rotate_left; dsimp only [y']; clear y'; rotate_left)
    | (extract_lets +onlyGivenNames y'; clear_value y'; revert y'; intro _)
    | with_reducible apply State.modFt_kept | with_reducible apply Kept.ite | intro _ _ _ | intro _ _ | intro _
    | split | dsimp only | with_reducible exact Kept.lit (by with_reducible assumption) | exact hkept
    | assumption
    | (with_reducible apply Kept.lit
       (first | with_reducible assumption | with_reducible apply State.modFt_kept))

theorem State.ftClear_kept {s0 : State} {s : State} (hkept : Kept s0 s) :
    Kept s0 (State.ftClear s) := by
  unfold State.ftClear
  repeat' first
    | with_reducible exact hkept | with_reducible assumption
    | (extract_lets +onlyGivenNames y'; refine (fun (_ : Kept s0 y') => ?_) ?_; clear_value y'; revert y'; intro _ _; rotate_left; dsimp only [y']; clear y'; rotate_left)
    | (extract_lets +onlyGivenNames y'; clear_value y'; revert y'; intro _)
    | with_reducible apply State.modFt_kept | with_reducible apply State.ftEvents_kept
    | with_reducible apply Kept.ite | intro _ _ _ | intro _ _ | intro _ | split | dsimp only
    | with_reducible exact Kept.lit (by with_reducible assumption) | exact hkept | assumption
    | (with_reducible apply Kept.lit
       (first | with_reducible assumption | with_reducible apply State.modFt_kept
              | with_reducible apply State.ftEvents_kept))

theorem State.ppsEdge_kept {s0 : State} {s : State} (hkept : Kept s0 s) :
    Kept s0 (State.ppsEdge s) := by
  unfold State.ppsEdge
  repeat' first
    | with_reducible exact hkept | with_reducible assumption
    | (extract_lets +onlyGivenNames y'; refine (fun (_ : Kept s0 y') => ?_) ?_; clear_value y'; revert y'; intro _ _; rotate_left; dsimp only [y']; clear y'; rotate_left)
    | (extract_lets +onlyGivenNames y'; clear_value y'; revert y'; intro _)
    | with_reducible apply State.modFt_kept | with_reducible apply State.ftUpdate_kept
    | with_reducible apply State.ftLose_kept | with_reducible apply Kept.ite | intro _ _ _ | intro _ _
    | intro _ | split | dsimp only | with_reducible exact Kept.lit (by with_reducible assumption) | exact hkept
    | assumption
    | (with_reducible apply Kept.lit
       (first | with_reducible assumption | with_reducible apply State.modFt_kept
              | with_reducible apply State.ftUpdate_kept | with_reducible apply State.ftLose_kept))

theorem State.takeTod_kept {s0 : State} {s : State} (sec seq : Nat) (hkept : Kept s0 s) :
    Kept s0 (State.takeTod s sec seq) := by
  unfold State.takeTod
  repeat' first
    | with_reducible exact hkept | with_reducible assumption
    | (extract_lets +onlyGivenNames y'; refine (fun (_ : Kept s0 y') => ?_) ?_; clear_value y'; revert y'; intro _ _; rotate_left; dsimp only [y']; clear y'; rotate_left)
    | (extract_lets +onlyGivenNames y'; clear_value y'; revert y'; intro _)
    | with_reducible apply State.modFt_kept | with_reducible apply State.setRegN_kept
    | with_reducible apply Kept.ite | intro _ _ _ | intro _ _ | intro _ | split | dsimp only
    | with_reducible exact Kept.lit (by with_reducible assumption) | exact hkept | assumption
    | (with_reducible apply Kept.lit
       (first | with_reducible assumption | with_reducible apply State.modFt_kept
              | with_reducible apply State.setRegN_kept))

theorem State.newMaster_kept {s0 : State} {s : State} (gm : Option Announce) (self : Bool) (hkept : Kept s0 s) :
    Kept s0 (State.newMaster s gm self) := by
  unfold State.newMaster
  repeat' first
    | with_reducible exact hkept | with_reducible assumption
    | (extract_lets +onlyGivenNames y'; refine (fun (_ : Kept s0 y') => ?_) ?_; clear_value y'; revert y'; intro _ _; rotate_left; dsimp only [y']; clear y'; rotate_left)
    | (extract_lets +onlyGivenNames y'; clear_value y'; revert y'; intro _)
    | with_reducible apply State.modFt_kept | with_reducible apply State.ftEvents_kept
    | with_reducible apply State.ftLose_kept | with_reducible apply Kept.ite | intro _ _ _ | intro _ _
    | intro _ | split | dsimp only | with_reducible exact Kept.lit (by with_reducible assumption) | exact hkept
    | assumption
    | (with_reducible apply Kept.lit
       (first | with_reducible assumption | with_reducible apply State.modFt_kept
              | with_reducible apply State.ftEvents_kept | with_reducible apply State.ftLose_kept))

theorem State.bmca_kept {s0 : State} {s : State} (hkept : Kept s0 s) :
    Kept s0 (State.bmca s) := by
  unfold State.bmca
  repeat' first
    | with_reducible exact hkept | with_reducible assumption | with_reducible apply State.newMaster_kept
    | with_reducible apply State.modFt_kept | with_reducible apply Kept.ite | intro _ _ _ | intro _ _ | intro _
    | split | dsimp only | with_reducible exact Kept.lit (by with_reducible assumption) | exact hkept
    | assumption
    | (with_reducible apply Kept.lit
       (first | with_reducible assumption | with_reducible apply State.newMaster_kept
              | with_reducible apply State.modFt_kept))

theorem State.announceTimeout_kept {s0 : State} {s : State} (hkept : Kept s0 s) :
    Kept s0 (State.announceTimeout s) := by
  unfold State.announceTimeout
  repeat' first
    | with_reducible exact hkept | with_reducible assumption | with_reducible apply State.modFt_kept
    | with_reducible apply State.newMaster_kept | intro _ _ _ | intro _ _ | intro _ | dsimp only
    | with_reducible exact Kept.lit (by with_reducible assumption) | exact hkept | assumption
    | (with_reducible apply Kept.lit
       (first | with_reducible assumption | with_reducible apply State.modFt_kept
              | with_reducible apply State.newMaster_kept))

theorem State.takeAnnounce_kept {s0 : State} {s : State} (a : Announce) (alternate : Bool) (hkept : Kept s0 s) :
    Kept s0 (State.takeAnnounce s a alternate) := by
  unfold State.takeAnnounce
  repeat' first
    | with_reducible exact hkept | with_reducible assumption
    | (extract_lets +onlyGivenNames y'; refine (fun (_ : Kept s0 y') => ?_) ?_; clear_value y'; revert y'; intro _ _; rotate_left; dsimp only [y']; clear y'; rotate_left)
    | (extract_lets +onlyGivenNames y'; clear_value y'; revert y'; intro _)
    | with_reducible apply State.modFt_kept | with_reducible apply State.bmca_kept
    | with_reducible apply Kept.ite | intro _ _ _ | intro _ _ | intro _ | split | dsimp only
    | with_reducible exact Kept.lit (by with_reducible assumption) | exact hkept | assumption
    | (with_reducible apply Kept.lit
       (first | with_reducible assumption | with_reducible apply State.modFt_kept
              | with_reducible apply State.bmca_kept))

theorem State.syncUpdate_kept {s0 : State} {s : State} (t1 t2 : Int) (hkept : Kept s0 s) :
    Kept s0 (State.syncUpdate s t1 t2) := by
  unfold State.syncUpdate
  repeat' first
    | with_reducible exact hkept | with_reducible assumption | with_reducible apply State.modFt_kept
    | with_reducible apply State.ftUpdate_kept | intro _ _ _ | intro _ _ | intro _ | dsimp only
    | with_reducible exact Kept.lit (by with_reducible assumption) | exact hkept | assumption
    | (with_reducible apply Kept.lit
       (first | with_reducible assumption | with_reducible apply State.modFt_kept
              | with_reducible apply State.ftUpdate_kept))

theorem State.takePtp_kept {s0 : State} {s : State} (b : Bytes) (hkept : Kept s0 s) :
    Kept s0 (State.takePtp s b) := by
  unfold State.takePtp
  repeat' first
    | with_reducible exact hkept | with_reducible assumption
    | (extract_lets +onlyGivenNames y'; refine (fun (_ : Kept s0 y') => ?_) ?_; clear_value y'; revert y'; intro _ _; rotate_left; dsimp only [y']; clear y'; rotate_left)
    | (extract_lets +onlyGivenNames y'; clear_value y'; revert y'; intro _)
    | with_reducible apply State.countUp_kept | with_reducible apply State.modFt_kept
    | with_reducible apply State.syncUpdate_kept | with_reducible apply State.takeAnnounce_kept
    | with_reducible apply Kept.ite | intro _ _ _ | intro _ _ | intro _ | split | dsimp only
    | with_reducible exact Kept.lit (by with_reducible assumption) | exact hkept | assumption
    | (with_reducible apply Kept.lit
       (first | with_reducible assumption | with_reducible apply State.countUp_kept
              | with_reducible apply State.modFt_kept | with_reducible apply State.syncUpdate_kept
              | with_reducible apply State.takeAnnounce_kept))

theorem State.rxPtpFrame_kept {s0 : State} {s : State} (port : Nat) (f : Bytes) (hkept : Kept s0 s) :
    Kept s0 (State.rxPtpFrame s port f) := by
  unfold State.rxPtpFrame
  repeat' first
    | with_reducible exact hkept | with_reducible assumption
    | (extract_lets +onlyGivenNames y'; refine (fun (_ : Kept s0 y') => ?_) ?_; clear_value y'; revert y'; intro _ _; rotate_left; dsimp only [y']; clear y'; rotate_left)
    | (extract_lets +onlyGivenNames y'; clear_value y'; revert y'; intro _)
    | with_reducible apply State.countUp_kept | with_reducible apply State.takePtp_kept
    | with_reducible apply Kept.ite | split | dsimp only
    | with_reducible exact Kept.lit (by with_reducible assumption) | exact hkept | assumption
    | (with_reducible apply Kept.lit
       (first | with_reducible assumption | with_reducible apply State.countUp_kept
              | with_reducible apply State.takePtp_kept))

theorem State.sendPtp_kept {s0 : State} {s : State} (b : Bytes) (hkept : Kept s0 s) :
    Kept s0 (State.sendPtp s b) := by
  unfold State.sendPtp
  repeat' first
    | with_reducible exact hkept | with_reducible assumption
    | (extract_lets +onlyGivenNames y'; refine (fun (_ : Kept s0 y') => ?_) ?_; clear_value y'; revert y'; intro _ _; rotate_left; dsimp only [y']; clear y'; rotate_left)
    | (extract_lets +onlyGivenNames y'; clear_value y'; revert y'; intro _)
    | with_reducible apply State.sendFrame_kept | split | dsimp only
    | with_reducible exact Kept.lit (by with_reducible assumption) | exact hkept | assumption
    | (with_reducible apply Kept.lit
       (first | with_reducible assumption | with_reducible apply State.sendFrame_kept))

theorem State.ptpSend_kept {s0 : State} {s : State} (kind : Nat) (hkept : Kept s0 s) :
    Kept s0 (State.ptpSend s kind) := by
  unfold State.ptpSend
  repeat' first
    | with_reducible exact hkept | with_reducible assumption
    | (extract_lets +onlyGivenNames y'; refine (fun (_ : Kept s0 y') => ?_) ?_; clear_value y'; revert y'; intro _ _; rotate_left; dsimp only [y']; clear y'; rotate_left)
    | (extract_lets +onlyGivenNames y'; clear_value y'; revert y'; intro _)
    | with_reducible apply State.modFt_kept | with_reducible apply State.sendPtp_kept
    | with_reducible apply Kept.ite | intro _ _ _ | intro _ _ | intro _ | split | dsimp only
    | with_reducible exact Kept.lit (by with_reducible assumption) | exact hkept | assumption
    | (with_reducible apply Kept.lit
       (first | with_reducible assumption | with_reducible apply State.modFt_kept
              | with_reducible apply State.sendPtp_kept))

end Sys2Proof.Machine
end

