-- ==== Sys2Proof/Laws/KeptRegOps.lean ====
section
/-!
SUPPORT. Laws/KeptRegOps.lean: what the operations of Machine/RegOps.lean keep of a state (Laws/Kept.lean).
-/
namespace Sys2Proof.Machine

theorem State.setSeed_kept {s0 : State} {s : State} (p v : Nat) (hkept : Kept s0 s) :
    Kept s0 (State.setSeed s p v) := by
  unfold State.setSeed
  repeat' first
    | with_reducible exact hkept | with_reducible assumption | with_reducible apply State.setPair_kept
    | with_reducible apply Kept.foldl | with_reducible apply Kept.foldl_fst
    | with_reducible apply Kept.foldl_snd | intro _ _ _ | intro _ _ | intro _ | dsimp only | exact hkept
    | assumption

theorem State.takeLo_kept {s0 : State} {s : State} (lo : Nat) (stored : W32) (hkept : Kept s0 s) :
    Kept s0 (State.takeLo s lo stored).2 := by
  unfold State.takeLo
  repeat' first
    | with_reducible exact hkept | with_reducible assumption | intro _ _ _ | intro _ _ | intro _ | dsimp only
    | with_reducible exact Kept.lit (by with_reducible assumption) | exact hkept | assumption

theorem State.putStream_kept {s0 : State} {s : State} (r : RegRow) (c i : Nat) (v : W32) (hkept : Kept s0 s) :
    Kept s0 (State.putStream s r c i v) := by
  unfold State.putStream
  repeat' first
    | with_reducible exact hkept | with_reducible assumption
    | (extract_lets +onlyGivenNames y'; refine (fun (_ : Kept s0 y') => ?_) ?_; clear_value y'; revert y'; intro _ _; rotate_left; dsimp only [y']; clear y'; rotate_left)
    | (extract_lets +onlyGivenNames y'; refine (fun (_ : Kept s0 y'.2) => ?_) ?_; clear_value y'; revert y'; intro _ _; rotate_left; dsimp only [y']; clear y'; rotate_left)
    | (extract_lets +onlyGivenNames y'; clear_value y'; revert y'; intro _)
    | with_reducible apply State.setStream_kept | with_reducible apply State.takeLo_kept
    | with_reducible apply Kept.ite | split | dsimp only
    | with_reducible exact Kept.lit (by with_reducible assumption) | exact hkept | assumption
    | (with_reducible apply Kept.lit
       (first | with_reducible assumption | with_reducible apply State.setStream_kept
              | with_reducible apply State.takeLo_kept))

theorem State.ppsGate_kept {s0 : State} {s : State} (hkept : Kept s0 s) :
    Kept s0 (State.ppsGate s) := by
  unfold State.ppsGate
  repeat' first
    | with_reducible exact hkept | with_reducible assumption | with_reducible apply State.modFt_kept
    | with_reducible apply State.emit_kept | with_reducible apply Kept.ite | intro _ _ _ | intro _ _ | intro _
    | split | dsimp only | with_reducible exact Kept.lit (by with_reducible assumption) | exact hkept
    | assumption
    | (with_reducible apply Kept.lit
       (first | with_reducible assumption | with_reducible apply State.modFt_kept
              | with_reducible apply State.emit_kept))

theorem State.putRwl_kept {s0 : State} {s : State} (off : Nat) (r : RegRow) (ix : List Nat) (v : W32) (hkept : Kept s0 s) :
    Kept s0 (State.putRwl s off r ix v) := by
  unfold State.putRwl
  repeat' first
    | with_reducible exact hkept | with_reducible assumption
    | (extract_lets +onlyGivenNames y'; refine (fun (_ : Kept s0 y') => ?_) ?_; clear_value y'; revert y'; intro _ _; rotate_left; dsimp only [y']; clear y'; rotate_left)
    | (extract_lets +onlyGivenNames y'; refine (fun (_ : Kept s0 y'.2) => ?_) ?_; clear_value y'; revert y'; intro _ _; rotate_left; dsimp only [y']; clear y'; rotate_left)
    | (extract_lets +onlyGivenNames y'; clear_value y'; revert y'; intro _)
    | with_reducible apply State.putStream_kept | with_reducible apply State.setReg_kept
    | with_reducible apply State.modCore_kept | with_reducible apply State.takeLo_kept
    | with_reducible apply State.setSeed_kept | with_reducible apply State.setPair_kept
    | with_reducible apply State.ftHold_kept | with_reducible apply State.ppsGate_kept
    | with_reducible apply State.refreshHold_kept
    | with_reducible apply Kept.of_snd (by with_reducible assumption) | with_reducible apply Kept.ite
    | intro _ _ _ | intro _ _ | intro _ | split | dsimp only
    | with_reducible exact Kept.lit (by with_reducible assumption) | exact hkept | assumption
    | (with_reducible apply Kept.lit
       (first | with_reducible assumption | with_reducible apply State.putStream_kept
              | with_reducible apply State.setReg_kept | with_reducible apply State.modCore_kept
              | with_reducible apply State.takeLo_kept | with_reducible apply State.setSeed_kept
              | with_reducible apply State.setPair_kept | with_reducible apply State.ftHold_kept
              | with_reducible apply State.ppsGate_kept | with_reducible apply State.refreshHold_kept))

theorem State.markExpert_kept {s0 : State} {s : State} (o : Nat × List Nat) (hkept : Kept s0 s) :
    Kept s0 (State.markExpert s o) := by
  unfold State.markExpert
  repeat' first
    | with_reducible exact hkept | with_reducible assumption | with_reducible apply State.modPart_kept
    | with_reducible apply Kept.foldl | with_reducible apply Kept.foldl_fst
    | with_reducible apply Kept.foldl_snd | intro _ _ _ | intro _ _ | intro _ | dsimp only
    | with_reducible exact Kept.lit (by with_reducible assumption) | exact hkept | assumption
    | (with_reducible apply Kept.lit
       (first | with_reducible assumption | with_reducible apply State.modPart_kept))

theorem State.rwlWrite_kept {s0 : State} {s : State} (req : Req) (off : Nat) (v : W32) (hkept : Kept s0 s) :
    Kept s0 (State.rwlWrite s req off v) := by
  unfold State.rwlWrite
  repeat' first
    | with_reducible exact hkept | with_reducible assumption
    | (extract_lets +onlyGivenNames y'; refine (fun (_ : Kept s0 y') => ?_) ?_; clear_value y'; revert y'; intro _ _; rotate_left; dsimp only [y']; clear y'; rotate_left)
    | (extract_lets +onlyGivenNames y'; clear_value y'; revert y'; intro _)
    | with_reducible apply State.regErrOf_kept | with_reducible apply State.modPart_kept
    | with_reducible apply State.putRwl_kept | with_reducible apply State.markExpert_kept
    | with_reducible apply Kept.ite | intro _ _ _ | intro _ _ | intro _ | split | dsimp only
    | with_reducible exact Kept.lit (by with_reducible assumption) | exact hkept | assumption
    | (with_reducible apply Kept.lit
       (first | with_reducible assumption | with_reducible apply State.regErrOf_kept
              | with_reducible apply State.modPart_kept | with_reducible apply State.putRwl_kept
              | with_reducible apply State.markExpert_kept))

theorem State.applyHeldRwl_kept {s0 : State} {s : State} (p : Nat) (hkept : Kept s0 s) :
    Kept s0 (State.applyHeldRwl s p) := by
  unfold State.applyHeldRwl
  repeat' first
    | with_reducible exact hkept | with_reducible assumption
    | (extract_lets +onlyGivenNames y'; refine (fun (_ : Kept s0 y') => ?_) ?_; clear_value y'; revert y'; intro _ _; rotate_left; dsimp only [y']; clear y'; rotate_left)
    | (extract_lets +onlyGivenNames y'; clear_value y'; revert y'; intro _)
    | with_reducible apply State.putRwl_kept | with_reducible apply State.markExpert_kept
    | with_reducible apply State.modPart_kept | with_reducible apply Kept.ite | with_reducible apply Kept.foldl
    | with_reducible apply Kept.foldl_fst | with_reducible apply Kept.foldl_snd | intro _ _ _ | intro _ _
    | intro _ | split | dsimp only | with_reducible exact Kept.lit (by with_reducible assumption) | exact hkept
    | assumption
    | (with_reducible apply Kept.lit
       (first | with_reducible assumption | with_reducible apply State.putRwl_kept
              | with_reducible apply State.markExpert_kept | with_reducible apply State.modPart_kept))

theorem State.resetRwl_kept {s0 : State} {s : State} (p : Nat) (kept : List Nat) (hkept : Kept s0 s) :
    Kept s0 (State.resetRwl s p kept) := by
  unfold State.resetRwl
  repeat' first
    | with_reducible exact hkept | with_reducible assumption
    | (extract_lets +onlyGivenNames y'; refine (fun (_ : Kept s0 y') => ?_) ?_; clear_value y'; revert y'; intro _ _; rotate_left; dsimp only [y']; clear y'; rotate_left)
    | (extract_lets +onlyGivenNames y'; clear_value y'; revert y'; intro _)
    | with_reducible apply State.modCore_kept | with_reducible apply State.setReg_kept
    | with_reducible apply State.modFolio_kept | with_reducible apply Kept.ite
    | with_reducible apply Kept.foldl | with_reducible apply Kept.foldl_fst
    | with_reducible apply Kept.foldl_snd | intro _ _ _ | intro _ _ | intro _ | split | dsimp only
    | with_reducible exact Kept.lit (by with_reducible assumption) | exact hkept | assumption | exact rfl
    | exact Nat.le_refl _
    | (with_reducible apply Kept.lit
       (first | with_reducible assumption | with_reducible apply State.modCore_kept
              | with_reducible apply State.setReg_kept | with_reducible apply State.modFolio_kept))

theorem State.override_kept {s0 : State} {s : State} (p : Nat) (off v : Nat) (hkept : Kept s0 s) :
    Kept s0 (State.override s p off v) := by
  unfold State.override
  repeat' first
    | with_reducible exact hkept | with_reducible assumption
    | (extract_lets +onlyGivenNames y'; refine (fun (_ : Kept s0 y') => ?_) ?_; clear_value y'; revert y'; intro _ _; rotate_left; dsimp only [y']; clear y'; rotate_left)
    | (extract_lets +onlyGivenNames y'; clear_value y'; revert y'; intro _)
    | with_reducible apply State.addErr_kept | with_reducible apply State.putRwl_kept
    | with_reducible apply State.markExpert_kept | with_reducible apply Kept.ite | intro _ _ _ | intro _ _
    | intro _ | split | dsimp only | with_reducible exact Kept.lit (by with_reducible assumption) | exact hkept
    | assumption
    | (with_reducible apply Kept.lit
       (first | with_reducible assumption | with_reducible apply State.addErr_kept
              | with_reducible apply State.putRwl_kept | with_reducible apply State.markExpert_kept))

end Sys2Proof.Machine
end

