-- ==== Sys2Proof/Laws/KeptDebug.lean ====
section
/-!
SUPPORT. Laws/KeptDebug.lean: what the operations of Machine/Debug.lean keep of a state (Laws/Kept.lean).
-/
namespace Sys2Proof.Machine

theorem State.setMux_kept {s0 : State} {s : State} (v : W32) (hkept : Kept s0 s) :
    Kept s0 (State.setMux s v) := by
  unfold State.setMux
  repeat' first
    | with_reducible exact hkept | with_reducible assumption
    | (extract_lets +onlyGivenNames y'; refine (fun (_ : Kept s0 y') => ?_) ?_; clear_value y'; revert y'; intro _ _; rotate_left; dsimp only [y']; clear y'; rotate_left)
    | (extract_lets +onlyGivenNames y'; clear_value y'; revert y'; intro _)
    | with_reducible apply State.setReg_kept | with_reducible apply State.markSince_kept
    | with_reducible apply State.emit_kept | with_reducible apply Kept.ite | split | dsimp only | exact hkept
    | assumption

theorem State.muxWrite_kept {s0 : State} {s : State} (req : Req) (v : W32) (hkept : Kept s0 s) :
    Kept s0 (State.muxWrite s req v) := by
  unfold State.muxWrite
  repeat' first
    | with_reducible exact hkept | with_reducible assumption | with_reducible apply State.regErr_kept
    | with_reducible apply State.setMux_kept | with_reducible apply Kept.ite | split | dsimp only | exact hkept
    | assumption

theorem State.profZero_kept {s0 : State} {s : State} (hkept : Kept s0 s) :
    Kept s0 (State.profZero s) := by
  unfold State.profZero
  repeat' first
    | with_reducible exact hkept | with_reducible assumption
    | (extract_lets +onlyGivenNames y'; refine (fun (_ : Kept s0 y') => ?_) ?_; clear_value y'; revert y'; intro _ _; rotate_left; dsimp only [y']; clear y'; rotate_left)
    | (extract_lets +onlyGivenNames y'; clear_value y'; revert y'; intro _)
    | with_reducible refine Kept.lit_regs (by with_reducible assumption) ?_
    | (with_reducible apply Kept.regs
       (first | with_reducible assumption))
    | exact Tab.wf_without _ (by assumption) | intro _ _ _ | intro _ _ | intro _ | dsimp only
    | with_reducible exact Kept.lit (by with_reducible assumption) | exact hkept | assumption

theorem State.writeSnapshot_kept {s0 : State} {s : State} (mask p : Nat) (hkept : Kept s0 s) :
    Kept s0 (State.writeSnapshot s mask p) := by
  unfold State.writeSnapshot
  repeat' first
    | with_reducible exact hkept | with_reducible assumption | with_reducible apply State.prepare_kept
    | with_reducible apply State.writeVa_kept | with_reducible apply State.addErr_kept
    | with_reducible apply Prep.ok_kept | with_reducible apply Prep.wait_kept
    | with_reducible apply Prep.fail_kept | with_reducible apply Prep.of_ok (by with_reducible assumption)
    | with_reducible apply Prep.of_wait (by with_reducible assumption)
    | with_reducible apply Prep.of_fail (by with_reducible assumption) | split | dsimp only
    | with_reducible exact Kept.lit (by with_reducible assumption) | exact hkept | assumption
    | (with_reducible apply Kept.lit
       (first | with_reducible assumption | with_reducible apply State.prepare_kept
              | with_reducible apply State.writeVa_kept | with_reducible apply State.addErr_kept))

theorem State.setJtag_kept {s0 : State} {s : State} (ins : Nat) (hkept : Kept s0 s) :
    Kept s0 (State.setJtag s ins) := by
  unfold State.setJtag
  repeat' first
    | with_reducible exact hkept | with_reducible assumption
    | (extract_lets +onlyGivenNames y'; refine (fun (_ : Kept s0 y') => ?_) ?_; clear_value y'; revert y'; intro _ _; rotate_left; dsimp only [y']; clear y'; rotate_left)
    | (extract_lets +onlyGivenNames y'; clear_value y'; revert y'; intro _)
    | with_reducible apply State.markSince_kept | dsimp only
    | with_reducible exact Kept.lit (by with_reducible assumption) | exact hkept | assumption
    | (with_reducible apply Kept.lit
       (first | with_reducible assumption | with_reducible apply State.markSince_kept))

end Sys2Proof.Machine
end

