-- ==== Sys2Proof/Laws/KeptPoly.lean ====
section
/-!
SUPPORT. Laws/KeptPoly.lean: what the operations of Machine/Poly.lean keep of a state (Laws/Kept.lean).
-/
namespace Sys2Proof.Machine

theorem State.setPolySlot_kept {s0 : State} {s : State} (i : Nat) (x : Option PolySlot) (hkept : Kept s0 s) :
    Kept s0 (State.setPolySlot s i x) := by
  unfold State.setPolySlot
  repeat' first
    | with_reducible exact hkept | with_reducible assumption | with_reducible apply Prep.poly_kept
    | intro _ _ _ | intro _ _ | intro _ | dsimp only
    | with_reducible exact Kept.lit (by with_reducible assumption) | exact hkept | assumption
    | (with_reducible apply Kept.lit
       (first | with_reducible assumption | with_reducible apply Prep.poly_kept))

theorem State.freePolySlots_kept {s0 : State} {s : State} (p : Nat) (hkept : Kept s0 s) :
    Kept s0 (State.freePolySlots s p) := by
  unfold State.freePolySlots
  repeat' first
    | with_reducible exact hkept | with_reducible assumption | with_reducible apply Prep.poly_kept
    | intro _ _ _ | intro _ _ | intro _ | split | dsimp only
    | with_reducible exact Kept.lit (by with_reducible assumption) | exact hkept | assumption
    | (with_reducible apply Kept.lit
       (first | with_reducible assumption | with_reducible apply Prep.poly_kept))

theorem State.count16_kept {s0 : State} {s : State} (off : Nat) (hi : Bool) (hkept : Kept s0 s) :
    Kept s0 (State.count16 s off hi) := by
  unfold State.count16
  repeat' first
    | with_reducible exact hkept | with_reducible assumption
    | (extract_lets +onlyGivenNames y'; refine (fun (_ : Kept s0 y') => ?_) ?_; clear_value y'; revert y'; intro _ _; rotate_left; dsimp only [y']; clear y'; rotate_left)
    | (extract_lets +onlyGivenNames y'; clear_value y'; revert y'; intro _)
    | with_reducible apply State.setRegN_kept | with_reducible apply Kept.ite | split | dsimp only
    | exact hkept | assumption

theorem State.countEngine_kept {s0 : State} {s : State} (e p n : Nat) (hkept : Kept s0 s) :
    Kept s0 (State.countEngine s e p n) := by
  unfold State.countEngine
  repeat' first
    | with_reducible exact hkept | with_reducible assumption | with_reducible apply State.prof_kept | with_reducible apply State.setPair_kept
    | with_reducible apply Kept.ite | split | dsimp only | exact hkept | assumption

theorem State.useLimbs_kept {s0 : State} {s : State} (e : Nat) (hkept : Kept s0 s) :
    Kept s0 (State.useLimbs s e) := by
  unfold State.useLimbs
  repeat' first
    | with_reducible exact hkept | with_reducible assumption | with_reducible apply Kept.ite | intro _ _ _
    | intro _ _ | intro _ | split | dsimp only | with_reducible exact Kept.lit (by with_reducible assumption)
    | exact hkept | assumption

theorem State.endPoly_kept {s0 : State} {s : State} (o : Op) (status flags : Nat) (info : Option Nat) (hkept : Kept s0 s) :
    Kept s0 (State.endPoly s o status flags info) := by
  unfold State.endPoly
  repeat' first
    | with_reducible exact hkept | with_reducible assumption
    | (extract_lets +onlyGivenNames y'; refine (fun (_ : Kept s0 y') => ?_) ?_; clear_value y'; revert y'; intro _ _; rotate_left; dsimp only [y']; clear y'; rotate_left)
    | (extract_lets +onlyGivenNames y'; clear_value y'; revert y'; intro _)
    | with_reducible apply State.countEngine_kept | with_reducible apply State.useLimbs_kept
    | with_reducible apply State.count16_kept | with_reducible apply State.endOp_kept
    | with_reducible apply State.endOpCycles_kept | with_reducible apply Kept.ite | split | dsimp only
    | with_reducible exact Kept.lit (by with_reducible assumption) | exact hkept | assumption
    | (with_reducible apply Kept.lit
       (first | with_reducible assumption | with_reducible apply State.countEngine_kept
              | with_reducible apply State.useLimbs_kept | with_reducible apply State.count16_kept
              | with_reducible apply State.endOp_kept | with_reducible apply State.endOpCycles_kept))

theorem Prep.poly_kept {s0 : State} {r : Prep} (o : Op) (work : State → State) (hr : r.Kept s0) (hwork : ∀ x0, Machine.Kept s0 x0 → Machine.Kept s0 (work x0)) :
    Machine.Kept s0 (Prep.poly r o work) := by
  unfold Prep.poly
  repeat' first
    | with_reducible exact hkept | with_reducible assumption | with_reducible apply hwork
    | with_reducible apply State.endPoly_kept | with_reducible apply Prep.ok_kept
    | with_reducible apply Prep.wait_kept | with_reducible apply Prep.fail_kept
    | with_reducible apply Prep.of_ok (by with_reducible assumption)
    | with_reducible apply Prep.of_wait (by with_reducible assumption)
    | with_reducible apply Prep.of_fail (by with_reducible assumption) | intro _ _ _ | intro _ _ | intro _
    | split | dsimp only | with_reducible exact Kept.lit (by with_reducible assumption) | exact hkept
    | assumption
    | (with_reducible apply Kept.lit
       (first | with_reducible assumption | with_reducible apply State.endPoly_kept))

theorem State.countMismatch_kept {s0 : State} {s : State} (o : Op) (hkept : Kept s0 s) :
    Kept s0 (State.countMismatch s o) := by
  unfold State.countMismatch
  repeat' first
    | with_reducible exact hkept | with_reducible assumption | with_reducible apply State.count16_kept
    | with_reducible apply Kept.ite | split | dsimp only | exact hkept | assumption

theorem State.countKeyFault_kept {s0 : State} {s : State} (o : Op) (st : Nat) (hkept : Kept s0 s) :
    Kept s0 (State.countKeyFault s o st) := by
  unfold State.countKeyFault
  repeat' first
    | with_reducible exact hkept | with_reducible assumption | with_reducible apply State.countMismatch_kept
    | with_reducible apply State.count16_kept | with_reducible apply Kept.ite | split | dsimp only
    | exact hkept | assumption

theorem State.ranInside_kept {s0 : State} {s : State} (p : Nat) (hkept : Kept s0 s) :
    Kept s0 (State.ranInside s p).2 := by
  unfold State.ranInside
  repeat' first
    | with_reducible exact hkept | with_reducible assumption | with_reducible apply State.profOpen_kept
    | (extract_lets +onlyGivenNames y'; refine (fun (_ : Kept s0 y') => ?_) ?_; clear_value y'; revert y'; intro _ _; rotate_left; dsimp only [y']; clear y'; rotate_left)
    | (extract_lets +onlyGivenNames y'; refine (fun (_ : Kept s0 y'.2) => ?_) ?_; clear_value y'; revert y'; intro _ _; rotate_left; dsimp only [y']; clear y'; rotate_left)
    | (extract_lets +onlyGivenNames y'; clear_value y'; revert y'; intro _)
    | with_reducible apply State.free_kept | with_reducible apply State.countEngine_kept
    | with_reducible apply Kept.foldl | with_reducible apply Kept.foldl_fst
    | with_reducible apply Kept.foldl_snd | intro _ _ _ | intro _ _ | intro _ | dsimp only | exact hkept
    | assumption

theorem State.freeMany_kept {s0 : State} {s : State} (n : Nat) (hkept : Kept s0 s) :
    Kept s0 (State.freeMany s n).2 := by
  unfold State.freeMany
  repeat' first
    | with_reducible exact hkept | with_reducible assumption | intro _ _ _ | intro _ _ | intro _ | dsimp only
    | with_reducible exact Kept.lit (by with_reducible assumption) | exact hkept | assumption

theorem State.clearValid_kept {s0 : State} {s : State} (o : Op) (dst : Nat) (hkept : Kept s0 s) :
    Kept s0 (State.clearValid s o dst) := by
  unfold State.clearValid
  repeat' first
    | with_reducible exact hkept | with_reducible assumption
    | (extract_lets +onlyGivenNames y'; refine (fun (_ : Kept s0 y') => ?_) ?_; clear_value y'; revert y'; intro _ _; rotate_left; dsimp only [y']; clear y'; rotate_left)
    | (extract_lets +onlyGivenNames y'; clear_value y'; revert y'; intro _)
    | with_reducible apply State.writeVa_kept | dsimp only | exact hkept | assumption

theorem State.keyCorrupt_kept {s0 : State} {s : State} (o : Op) (block : Nat) (dst : Nat) (ranges : List VRange) (hkept : Kept s0 s) :
    Kept s0 (State.keyCorrupt s o block dst ranges) := by
  unfold State.keyCorrupt
  repeat' first
    | with_reducible exact hkept | with_reducible assumption
    | (extract_lets +onlyGivenNames y'; refine (fun (_ : Kept s0 y') => ?_) ?_; clear_value y'; revert y'; intro _ _; rotate_left; dsimp only [y']; clear y'; rotate_left)
    | (extract_lets +onlyGivenNames y'; refine (fun (_ : Kept s0 y'.2) => ?_) ?_; clear_value y'; revert y'; intro _ _; rotate_left; dsimp only [y']; clear y'; rotate_left)
    | (extract_lets +onlyGivenNames y'; clear_value y'; revert y'; intro _)
    | with_reducible apply State.countKeyFault_kept | with_reducible apply State.free_kept
    | with_reducible apply State.freeMany_kept | with_reducible apply State.writeVa_kept
    | with_reducible apply State.clearValid_kept | with_reducible apply State.endPoly_kept
    | with_reducible apply Kept.ite | with_reducible apply Kept.foldl | with_reducible apply Kept.foldl_fst
    | with_reducible apply Kept.foldl_snd | intro _ _ _ | intro _ _ | intro _ | split | dsimp only
    | exact hkept | assumption

theorem State.borrow_kept {s0 : State} (p c : Nat) (a0 : Nat) (a1 : List Nat) {a2 : State} (hkept : Kept s0 a2) :
    (State.borrow p c a0 a1 a2).Kept s0 := by
  induction a0 generalizing a2 a1 with
  | zero =>
    unfold State.borrow
    repeat' first
      | with_reducible exact hkept | with_reducible assumption | with_reducible apply State.setHUse_kept
      | with_reducible apply State.free_kept | with_reducible apply State.takeHoard_kept
      | with_reducible apply Prep.ok_kept | with_reducible apply Prep.wait_kept
      | with_reducible apply Prep.fail_kept | with_reducible apply Prep.of_ok (by with_reducible assumption)
      | with_reducible apply Prep.of_wait (by with_reducible assumption)
      | with_reducible apply Prep.of_fail (by with_reducible assumption)
      | with_reducible apply Kept.of_fst (by with_reducible assumption)
      | with_reducible apply Kept.of_snd (by with_reducible assumption) | with_reducible apply Kept.foldl
      | with_reducible apply Kept.foldl_fst | with_reducible apply Kept.foldl_snd | intro _ _ _ | intro _ _
      | intro _ | split | dsimp only | with_reducible exact Kept.lit (by with_reducible assumption)
      | exact hkept | assumption
      | (with_reducible apply Kept.lit
         (first | with_reducible assumption | with_reducible apply State.setHUse_kept
                | with_reducible apply State.free_kept | with_reducible apply State.takeHoard_kept))
  | succ k ih =>
    unfold State.borrow
    repeat' first
      | with_reducible exact hkept | with_reducible assumption | with_reducible apply ih
      | with_reducible apply State.setHUse_kept | with_reducible apply State.free_kept
      | with_reducible apply State.takeHoard_kept | with_reducible apply Prep.ok_kept
      | with_reducible apply Prep.wait_kept | with_reducible apply Prep.fail_kept
      | with_reducible apply Prep.of_ok (by with_reducible assumption)
      | with_reducible apply Prep.of_wait (by with_reducible assumption)
      | with_reducible apply Prep.of_fail (by with_reducible assumption)
      | with_reducible apply Kept.of_fst (by with_reducible assumption)
      | with_reducible apply Kept.of_snd (by with_reducible assumption) | with_reducible apply Kept.foldl
      | with_reducible apply Kept.foldl_fst | with_reducible apply Kept.foldl_snd | intro _ _ _ | intro _ _
      | intro _ | split | dsimp only | with_reducible exact Kept.lit (by with_reducible assumption)
      | exact hkept | assumption
      | (with_reducible apply Kept.lit
         (first | with_reducible assumption | with_reducible apply State.setHUse_kept
                | with_reducible apply State.free_kept | with_reducible apply State.takeHoard_kept))

theorem State.openLimbs_kept {s0 : State} {s : State} (x : PolySlot) (polys level : Nat) (hkept : Kept s0 s) :
    Kept s0 (State.openLimbs s x polys level).2 := by
  unfold State.openLimbs
  repeat' first
    | with_reducible exact hkept | with_reducible assumption
    | (extract_lets +onlyGivenNames y'; refine (fun (_ : Kept s0 y') => ?_) ?_; clear_value y'; revert y'; intro _ _; rotate_left; dsimp only [y']; clear y'; rotate_left)
    | (extract_lets +onlyGivenNames y'; refine (fun (_ : Kept s0 y'.2) => ?_) ?_; clear_value y'; revert y'; intro _ _; rotate_left; dsimp only [y']; clear y'; rotate_left)
    | (extract_lets +onlyGivenNames y'; clear_value y'; revert y'; intro _)
    | with_reducible apply State.freeMany_kept | intro _ _ _ | intro _ _ | intro _ | dsimp only | exact hkept
    | assumption

theorem State.writeCt_kept {s0 : State} {s : State} (o : Op) (x : PolySlot) (data : Nat) (e : Est) (ls : List (List Limb)) (hkept : Kept s0 s) :
    Kept s0 (State.writeCt s o x data e ls) := by
  unfold State.writeCt
  repeat' first
    | with_reducible exact hkept | with_reducible assumption
    | (extract_lets +onlyGivenNames y'; refine (fun (_ : Kept s0 y') => ?_) ?_; clear_value y'; revert y'; intro _ _; rotate_left; dsimp only [y']; clear y'; rotate_left)
    | (extract_lets +onlyGivenNames y'; clear_value y'; revert y'; intro _)
    | with_reducible apply State.writeVa_kept | with_reducible apply Kept.foldl
    | with_reducible apply Kept.foldl_fst | with_reducible apply Kept.foldl_snd | intro _ _ _ | intro _ _
    | intro _ | dsimp only | exact hkept | assumption

theorem State.runPoly_kept {s0 : State} {s : State} (o : Op) (r : PolyRule) (x : PolySlot) (a b : Ct) (data : Nat) (fresh : Bool) (hkept : Kept s0 s) :
    Kept s0 (State.runPoly s o r x a b data fresh) := by
  unfold State.runPoly
  repeat' first
    | with_reducible exact hkept | with_reducible assumption | with_reducible apply State.prof_kept
    | (extract_lets +onlyGivenNames y'; refine (fun (_ : Kept s0 y') => ?_) ?_; clear_value y'; revert y'; intro _ _; rotate_left; dsimp only [y']; clear y'; rotate_left)
    | (extract_lets +onlyGivenNames y'; refine (fun (_ : Kept s0 y'.2) => ?_) ?_; clear_value y'; revert y'; intro _ _; rotate_left; dsimp only [y']; clear y'; rotate_left)
    | (extract_lets +onlyGivenNames y'; refine (fun (_ : y'.Kept s0) => ?_) ?_; clear_value y'; revert y'; intro _ _; rotate_left; dsimp only [y']; clear y'; rotate_left)
    | (extract_lets +onlyGivenNames y'; clear_value y'; revert y'; intro _)
    | with_reducible apply State.prepare_kept | with_reducible apply Prep.andThen_kept
    | with_reducible apply State.borrow_kept | with_reducible apply Prep.poly_kept
    | with_reducible apply State.keyCorrupt_kept | with_reducible apply State.openLimbs_kept
    | with_reducible apply State.writeCt_kept | with_reducible apply State.count16_kept
    | with_reducible apply State.endPoly_kept | with_reducible apply Prep.ok_kept
    | with_reducible apply Prep.wait_kept | with_reducible apply Prep.fail_kept
    | with_reducible apply Prep.of_ok (by with_reducible assumption)
    | with_reducible apply Prep.of_wait (by with_reducible assumption)
    | with_reducible apply Prep.of_fail (by with_reducible assumption)
    | with_reducible apply Kept.of_snd (by with_reducible assumption) | with_reducible apply Kept.ite
    | with_reducible apply Kept.foldl | with_reducible apply Kept.foldl_fst
    | with_reducible apply Kept.foldl_snd | intro _ _ _ | intro _ _ | intro _ | split | dsimp only
    | with_reducible exact Kept.lit (by with_reducible assumption) | exact hkept | assumption
    | (with_reducible apply Kept.lit
       (first | with_reducible assumption | with_reducible apply State.prof_kept | with_reducible apply State.prepare_kept
              | with_reducible apply Prep.andThen_kept | with_reducible apply State.borrow_kept
              | with_reducible apply Prep.poly_kept | with_reducible apply State.keyCorrupt_kept
              | with_reducible apply State.openLimbs_kept | with_reducible apply State.writeCt_kept
              | with_reducible apply State.count16_kept | with_reducible apply State.endPoly_kept))

theorem State.judgePoly_kept {s0 : State} {s : State} (o : Op) (r : PolyRule) (x : PolySlot) (a b : Ct) (data : Nat) (hkept : Kept s0 s) :
    Kept s0 (State.judgePoly s o r x a b data) := by
  unfold State.judgePoly
  repeat' first
    | with_reducible exact hkept | with_reducible assumption
    | (extract_lets +onlyGivenNames y'; refine (fun (_ : Kept s0 y') => ?_) ?_; clear_value y'; revert y'; intro _ _; rotate_left; dsimp only [y']; clear y'; rotate_left)
    | (extract_lets +onlyGivenNames y'; refine (fun (_ : Kept s0 y'.2) => ?_) ?_; clear_value y'; revert y'; intro _ _; rotate_left; dsimp only [y']; clear y'; rotate_left)
    | (extract_lets +onlyGivenNames y'; refine (fun (_ : y'.Kept s0) => ?_) ?_; clear_value y'; revert y'; intro _ _; rotate_left; dsimp only [y']; clear y'; rotate_left)
    | (extract_lets +onlyGivenNames y'; clear_value y'; revert y'; intro _)
    | with_reducible apply State.runPoly_kept | with_reducible apply State.endPoly_kept
    | with_reducible apply State.prepare_kept | with_reducible apply Prep.poly_kept
    | with_reducible apply State.countKeyFault_kept | with_reducible apply State.ranInside_kept
    | with_reducible apply State.count16_kept | with_reducible apply Prep.ok_kept
    | with_reducible apply Prep.wait_kept | with_reducible apply Prep.fail_kept
    | with_reducible apply Prep.of_ok (by with_reducible assumption)
    | with_reducible apply Prep.of_wait (by with_reducible assumption)
    | with_reducible apply Prep.of_fail (by with_reducible assumption)
    | with_reducible apply Kept.of_snd (by with_reducible assumption) | with_reducible apply Kept.ite
    | with_reducible apply Kept.foldl | with_reducible apply Kept.foldl_fst
    | with_reducible apply Kept.foldl_snd | intro _ _ _ | intro _ _ | intro _ | split | dsimp only
    | with_reducible exact Kept.lit (by with_reducible assumption) | exact hkept | assumption
    | (with_reducible apply Kept.lit
       (first | with_reducible assumption | with_reducible apply State.runPoly_kept
              | with_reducible apply State.endPoly_kept | with_reducible apply State.prepare_kept
              | with_reducible apply Prep.poly_kept | with_reducible apply State.countKeyFault_kept
              | with_reducible apply State.ranInside_kept | with_reducible apply State.count16_kept))

theorem State.ctOp_kept {s0 : State} {s : State} (o : Op) (r : PolyRule) (hkept : Kept s0 s) :
    Kept s0 (State.ctOp s o r) := by
  unfold State.ctOp
  repeat' first
    | with_reducible exact hkept | with_reducible assumption
    | (extract_lets +onlyGivenNames y'; refine (fun (_ : Kept s0 y') => ?_) ?_; clear_value y'; revert y'; intro _ _; rotate_left; dsimp only [y']; clear y'; rotate_left)
    | (extract_lets +onlyGivenNames y'; refine (fun (_ : y'.Kept s0) => ?_) ?_; clear_value y'; revert y'; intro _ _; rotate_left; dsimp only [y']; clear y'; rotate_left)
    | (extract_lets +onlyGivenNames y'; clear_value y'; revert y'; intro _)
    | with_reducible apply State.endPoly_kept | with_reducible apply State.prepare_kept
    | with_reducible apply Prep.poly_kept | with_reducible apply State.countMismatch_kept
    | with_reducible apply State.judgePoly_kept | with_reducible apply State.countKeyFault_kept
    | with_reducible apply Prep.ok_kept | with_reducible apply Prep.wait_kept
    | with_reducible apply Prep.fail_kept | with_reducible apply Prep.of_ok (by with_reducible assumption)
    | with_reducible apply Prep.of_wait (by with_reducible assumption)
    | with_reducible apply Prep.of_fail (by with_reducible assumption) | with_reducible apply Kept.ite
    | intro _ _ _ | intro _ _ | intro _ | split | dsimp only
    | with_reducible exact Kept.lit (by with_reducible assumption) | exact hkept | assumption
    | (with_reducible apply Kept.lit
       (first | with_reducible assumption | with_reducible apply State.endPoly_kept
              | with_reducible apply State.prepare_kept | with_reducible apply Prep.poly_kept
              | with_reducible apply State.countMismatch_kept | with_reducible apply State.judgePoly_kept
              | with_reducible apply State.countKeyFault_kept))

theorem State.limbMulAdd_kept {s0 : State} {s : State} (o : Op) (hkept : Kept s0 s) :
    Kept s0 (State.limbMulAdd s o) := by
  unfold State.limbMulAdd
  repeat' first
    | with_reducible exact hkept | with_reducible assumption
    | (extract_lets +onlyGivenNames y'; refine (fun (_ : Kept s0 y') => ?_) ?_; clear_value y'; revert y'; intro _ _; rotate_left; dsimp only [y']; clear y'; rotate_left)
    | (extract_lets +onlyGivenNames y'; refine (fun (_ : y'.Kept s0) => ?_) ?_; clear_value y'; revert y'; intro _ _; rotate_left; dsimp only [y']; clear y'; rotate_left)
    | (extract_lets +onlyGivenNames y'; clear_value y'; revert y'; intro _)
    | with_reducible apply State.endPoly_kept | with_reducible apply State.prepare_kept
    | with_reducible apply Prep.poly_kept | with_reducible apply State.writeVa_kept
    | with_reducible apply Prep.ok_kept | with_reducible apply Prep.wait_kept
    | with_reducible apply Prep.fail_kept | with_reducible apply Prep.of_ok (by with_reducible assumption)
    | with_reducible apply Prep.of_wait (by with_reducible assumption)
    | with_reducible apply Prep.of_fail (by with_reducible assumption) | with_reducible apply Kept.ite
    | with_reducible apply Kept.foldl | with_reducible apply Kept.foldl_fst
    | with_reducible apply Kept.foldl_snd | intro _ _ _ | intro _ _ | intro _ | split | dsimp only
    | with_reducible exact Kept.lit (by with_reducible assumption) | exact hkept | assumption
    | (with_reducible apply Kept.lit
       (first | with_reducible assumption | with_reducible apply State.endPoly_kept
              | with_reducible apply State.prepare_kept | with_reducible apply Prep.poly_kept
              | with_reducible apply State.writeVa_kept))

theorem State.loadParams_kept {s0 : State} {s : State} (o : Op) (b pub : Bytes) (hkept : Kept s0 s) :
    Kept s0 (State.loadParams s o b pub) := by
  unfold State.loadParams
  repeat' first
    | with_reducible exact hkept | with_reducible assumption
    | (extract_lets +onlyGivenNames y'; refine (fun (_ : Kept s0 y') => ?_) ?_; clear_value y'; revert y'; intro _ _; rotate_left; dsimp only [y']; clear y'; rotate_left)
    | (extract_lets +onlyGivenNames y'; clear_value y'; revert y'; intro _)
    | with_reducible apply State.endPoly_kept | with_reducible apply Prep.poly_kept
    | with_reducible apply State.setPolySlot_kept | with_reducible apply Kept.ite | intro _ _ _ | intro _ _
    | intro _ | split | dsimp only | with_reducible exact Kept.lit (by with_reducible assumption) | exact hkept
    | assumption
    | (with_reducible apply Kept.lit
       (first | with_reducible assumption | with_reducible apply State.endPoly_kept
              | with_reducible apply Prep.poly_kept | with_reducible apply State.setPolySlot_kept))

theorem State.paramLoadOp_kept {s0 : State} {s : State} (o : Op) (hkept : Kept s0 s) :
    Kept s0 (State.paramLoadOp s o) := by
  unfold State.paramLoadOp
  repeat' first
    | with_reducible exact hkept | with_reducible assumption
    | (extract_lets +onlyGivenNames y'; refine (fun (_ : Kept s0 y') => ?_) ?_; clear_value y'; revert y'; intro _ _; rotate_left; dsimp only [y']; clear y'; rotate_left)
    | (extract_lets +onlyGivenNames y'; refine (fun (_ : y'.Kept s0) => ?_) ?_; clear_value y'; revert y'; intro _ _; rotate_left; dsimp only [y']; clear y'; rotate_left)
    | (extract_lets +onlyGivenNames y'; clear_value y'; revert y'; intro _)
    | with_reducible apply State.endPoly_kept | with_reducible apply State.prepare_kept
    | with_reducible apply Prep.poly_kept | with_reducible apply State.loadParams_kept
    | with_reducible apply Prep.ok_kept | with_reducible apply Prep.wait_kept
    | with_reducible apply Prep.fail_kept | with_reducible apply Prep.of_ok (by with_reducible assumption)
    | with_reducible apply Prep.of_wait (by with_reducible assumption)
    | with_reducible apply Prep.of_fail (by with_reducible assumption) | with_reducible apply Kept.ite
    | intro _ _ _ | intro _ _ | intro _ | split | dsimp only
    | with_reducible exact Kept.lit (by with_reducible assumption) | exact hkept | assumption
    | (with_reducible apply Kept.lit
       (first | with_reducible assumption | with_reducible apply State.endPoly_kept
              | with_reducible apply State.prepare_kept | with_reducible apply Prep.poly_kept
              | with_reducible apply State.loadParams_kept))

theorem State.paramDropOp_kept {s0 : State} {s : State} (o : Op) (hkept : Kept s0 s) :
    Kept s0 (State.paramDropOp s o) := by
  unfold State.paramDropOp
  repeat' first
    | with_reducible exact hkept | with_reducible assumption
    | (extract_lets +onlyGivenNames y'; refine (fun (_ : Kept s0 y') => ?_) ?_; clear_value y'; revert y'; intro _ _; rotate_left; dsimp only [y']; clear y'; rotate_left)
    | (extract_lets +onlyGivenNames y'; clear_value y'; revert y'; intro _)
    | with_reducible apply State.endPoly_kept | with_reducible apply State.setPolySlot_kept
    | with_reducible apply Kept.ite | split | dsimp only
    | with_reducible exact Kept.lit (by with_reducible assumption) | exact hkept | assumption
    | (with_reducible apply Kept.lit
       (first | with_reducible assumption | with_reducible apply State.endPoly_kept
              | with_reducible apply State.setPolySlot_kept))

theorem State.keyBindOp_kept {s0 : State} {s : State} (o : Op) (hkept : Kept s0 s) :
    Kept s0 (State.keyBindOp s o) := by
  unfold State.keyBindOp
  repeat' first
    | with_reducible exact hkept | with_reducible assumption
    | (extract_lets +onlyGivenNames y'; refine (fun (_ : Kept s0 y') => ?_) ?_; clear_value y'; revert y'; intro _ _; rotate_left; dsimp only [y']; clear y'; rotate_left)
    | (extract_lets +onlyGivenNames y'; refine (fun (_ : y'.Kept s0) => ?_) ?_; clear_value y'; revert y'; intro _ _; rotate_left; dsimp only [y']; clear y'; rotate_left)
    | (extract_lets +onlyGivenNames y'; clear_value y'; revert y'; intro _)
    | with_reducible apply State.endPoly_kept | with_reducible apply State.prepare_kept
    | with_reducible apply Prep.poly_kept | with_reducible apply State.countKeyFault_kept
    | with_reducible apply State.setPolySlot_kept | with_reducible apply Prep.ok_kept
    | with_reducible apply Prep.wait_kept | with_reducible apply Prep.fail_kept
    | with_reducible apply Prep.of_ok (by with_reducible assumption)
    | with_reducible apply Prep.of_wait (by with_reducible assumption)
    | with_reducible apply Prep.of_fail (by with_reducible assumption) | with_reducible apply Kept.ite
    | intro _ _ _ | intro _ _ | intro _ | split | dsimp only
    | with_reducible exact Kept.lit (by with_reducible assumption) | exact hkept | assumption
    | (with_reducible apply Kept.lit
       (first | with_reducible assumption | with_reducible apply State.endPoly_kept
              | with_reducible apply State.prepare_kept | with_reducible apply Prep.poly_kept
              | with_reducible apply State.countKeyFault_kept | with_reducible apply State.setPolySlot_kept))

theorem State.macroFails_kept {s0 : State} {s : State} (o : Op) (status : Nat) (block : Option Nat) (hkept : Kept s0 s) :
    Kept s0 (State.macroFails s o status block) := by
  unfold State.macroFails
  repeat' first
    | with_reducible exact hkept | with_reducible assumption
    | (extract_lets +onlyGivenNames y'; refine (fun (_ : Kept s0 y') => ?_) ?_; clear_value y'; revert y'; intro _ _; rotate_left; dsimp only [y']; clear y'; rotate_left)
    | (extract_lets +onlyGivenNames y'; refine (fun (_ : Kept s0 y'.2) => ?_) ?_; clear_value y'; revert y'; intro _ _; rotate_left; dsimp only [y']; clear y'; rotate_left)
    | (extract_lets +onlyGivenNames y'; clear_value y'; revert y'; intro _)
    | with_reducible apply State.countKeyFault_kept | with_reducible apply State.ranInside_kept
    | with_reducible apply State.clearValid_kept | with_reducible apply State.endPoly_kept | dsimp only
    | exact hkept | assumption

theorem State.macroDone_kept {s0 : State} {s : State} (o : Op) (x : PolySlot) (a : Ct) (data id : Nat) (hkept : Kept s0 s) :
    Kept s0 (State.macroDone s o x a data id) := by
  unfold State.macroDone
  repeat' first
    | with_reducible exact hkept | with_reducible assumption
    | (extract_lets +onlyGivenNames y'; refine (fun (_ : Kept s0 y') => ?_) ?_; clear_value y'; revert y'; intro _ _; rotate_left; dsimp only [y']; clear y'; rotate_left)
    | (extract_lets +onlyGivenNames y'; refine (fun (_ : Kept s0 y'.2) => ?_) ?_; clear_value y'; revert y'; intro _ _; rotate_left; dsimp only [y']; clear y'; rotate_left)
    | (extract_lets +onlyGivenNames y'; refine (fun (_ : y'.Kept s0) => ?_) ?_; clear_value y'; revert y'; intro _ _; rotate_left; dsimp only [y']; clear y'; rotate_left)
    | (extract_lets +onlyGivenNames y'; clear_value y'; revert y'; intro _)
    | with_reducible apply State.freeMany_kept | with_reducible apply State.prepare_kept
    | with_reducible apply Prep.poly_kept | with_reducible apply State.macroFails_kept
    | with_reducible apply State.openLimbs_kept | with_reducible apply State.writeCt_kept
    | with_reducible apply State.ranInside_kept | with_reducible apply State.endPoly_kept
    | with_reducible apply Prep.ok_kept | with_reducible apply Prep.wait_kept
    | with_reducible apply Prep.fail_kept | with_reducible apply Prep.of_ok (by with_reducible assumption)
    | with_reducible apply Prep.of_wait (by with_reducible assumption)
    | with_reducible apply Prep.of_fail (by with_reducible assumption)
    | with_reducible apply Kept.of_snd (by with_reducible assumption) | with_reducible apply Kept.ite
    | intro _ _ _ | intro _ _ | intro _ | split | dsimp only
    | with_reducible exact Kept.lit (by with_reducible assumption) | exact hkept | assumption
    | (with_reducible apply Kept.lit
       (first | with_reducible assumption | with_reducible apply State.freeMany_kept
              | with_reducible apply State.prepare_kept | with_reducible apply Prep.poly_kept
              | with_reducible apply State.macroFails_kept | with_reducible apply State.openLimbs_kept
              | with_reducible apply State.writeCt_kept | with_reducible apply State.ranInside_kept
              | with_reducible apply State.endPoly_kept))

theorem State.tripleRun_kept {s0 : State} {s : State} (o : Op) (x : PolySlot) (a : Ct) (data : Nat) (rnd : Bytes) (hkept : Kept s0 s) :
    Kept s0 (State.tripleRun s o x a data rnd) := by
  unfold State.tripleRun
  repeat' first
    | with_reducible exact hkept | with_reducible assumption | with_reducible apply State.prepare_kept
    | with_reducible apply Prep.poly_kept | with_reducible apply State.writeVa_kept
    | with_reducible apply State.macroDone_kept | with_reducible apply Prep.ok_kept
    | with_reducible apply Prep.wait_kept | with_reducible apply Prep.fail_kept
    | with_reducible apply Prep.of_ok (by with_reducible assumption)
    | with_reducible apply Prep.of_wait (by with_reducible assumption)
    | with_reducible apply Prep.of_fail (by with_reducible assumption) | intro _ _ _ | intro _ _ | intro _
    | dsimp only | exact hkept | assumption

theorem State.macroRun_kept {s0 : State} {s : State} (o : Op) (going : Bool) (hkept : Kept s0 s) :
    Kept s0 (State.macroRun s o going) := by
  unfold State.macroRun
  repeat' first
    | with_reducible exact hkept | with_reducible assumption
    | (extract_lets +onlyGivenNames y'; refine (fun (_ : Kept s0 y') => ?_) ?_; clear_value y'; revert y'; intro _ _; rotate_left; dsimp only [y']; clear y'; rotate_left)
    | (extract_lets +onlyGivenNames y'; refine (fun (_ : Kept s0 y'.2) => ?_) ?_; clear_value y'; revert y'; intro _ _; rotate_left; dsimp only [y']; clear y'; rotate_left)
    | (extract_lets +onlyGivenNames y'; refine (fun (_ : y'.Kept s0) => ?_) ?_; clear_value y'; revert y'; intro _ _; rotate_left; dsimp only [y']; clear y'; rotate_left)
    | (extract_lets +onlyGivenNames y'; clear_value y'; revert y'; intro _)
    | with_reducible apply State.boundary_kept | with_reducible apply State.endPoly_kept
    | with_reducible apply State.prepare_kept | with_reducible apply Prep.poly_kept
    | with_reducible apply State.countMismatch_kept | with_reducible apply State.macroFails_kept
    | with_reducible apply State.macroDone_kept | with_reducible apply State.draw_kept
    | with_reducible apply State.tripleRun_kept | with_reducible apply State.rngWait_kept
    | with_reducible apply Prep.ok_kept | with_reducible apply Prep.wait_kept
    | with_reducible apply Prep.fail_kept | with_reducible apply Prep.of_ok (by with_reducible assumption)
    | with_reducible apply Prep.of_wait (by with_reducible assumption)
    | with_reducible apply Prep.of_fail (by with_reducible assumption)
    | with_reducible apply Kept.of_snd (by with_reducible assumption) | with_reducible apply Kept.ite
    | intro _ _ _ | intro _ _ | intro _ | split | dsimp only
    | with_reducible exact Kept.lit (by with_reducible assumption) | exact hkept | assumption
    | (with_reducible apply Kept.lit
       (first | with_reducible assumption | with_reducible apply State.boundary_kept
              | with_reducible apply State.endPoly_kept | with_reducible apply State.prepare_kept
              | with_reducible apply Prep.poly_kept | with_reducible apply State.countMismatch_kept
              | with_reducible apply State.macroFails_kept | with_reducible apply State.macroDone_kept
              | with_reducible apply State.draw_kept | with_reducible apply State.tripleRun_kept
              | with_reducible apply State.rngWait_kept))

end Sys2Proof.Machine
end

