-- ==== Sys2Proof/Laws/KeptCharter.lean ====
section
/-!
SUPPORT. Laws/KeptCharter.lean: what the operations of Machine/Charter.lean keep of a state (Laws/Kept.lean).
-/
namespace Sys2Proof.Machine

theorem State.saveCharter_kept {s0 : State} {s : State} (img : Bytes) (hkept : Kept s0 s) :
    Kept s0 (State.saveCharter s img) := by
  unfold State.saveCharter
  repeat' first
    | with_reducible exact hkept | with_reducible assumption | with_reducible apply State.modMgmt_kept
    | with_reducible apply Kept.ite | intro _ _ _ | intro _ _ | intro _ | split | dsimp only
    | with_reducible exact Kept.lit (by with_reducible assumption) | exact hkept | assumption | exact rfl
    | exact Nat.le_refl _
    | (with_reducible apply Kept.lit
       (first | with_reducible assumption | with_reducible apply State.modMgmt_kept))

theorem State.loadReport_kept {s0 : State} {s : State} (f code : Nat) (mute : Bool) (part : Option Nat) (status : Nat) (e : LoadErr) (hkept : Kept s0 s) :
    Kept s0 (State.loadReport s f code mute part status e) := by
  unfold State.loadReport
  repeat' first
    | with_reducible exact hkept | with_reducible assumption
    | (extract_lets +onlyGivenNames y'; refine (fun (_ : Kept s0 y') => ?_) ?_; clear_value y'; revert y'; intro _ _; rotate_left; dsimp only [y']; clear y'; rotate_left)
    | (extract_lets +onlyGivenNames y'; clear_value y'; revert y'; intro _)
    | with_reducible apply State.setRegN_kept | with_reducible apply State.addErr_kept
    | with_reducible apply State.sendMsix_kept | with_reducible apply Kept.ite | split | dsimp only
    | exact hkept | assumption

theorem State.endLoad_kept {s0 : State} {s : State} (status : Nat) (r : LoadReason) (hkept : Kept s0 s) :
    Kept s0 (State.endLoad s status r) := by
  unfold State.endLoad
  repeat' first
    | with_reducible exact hkept | with_reducible assumption
    | (extract_lets +onlyGivenNames y'; refine (fun (_ : Kept s0 y') => ?_) ?_; clear_value y'; revert y'; intro _ _; rotate_left; dsimp only [y']; clear y'; rotate_left)
    | (extract_lets +onlyGivenNames y'; clear_value y'; revert y'; intro _)
    | with_reducible apply State.applyHeldRwl_kept | with_reducible apply State.modPart_kept
    | with_reducible apply State.loadReport_kept | with_reducible apply State.openLateAll_kept
    | with_reducible apply State.idleSync_kept | intro _ _ _ | intro _ _ | intro _ | split | dsimp only
    | with_reducible exact Kept.lit (by with_reducible assumption) | exact hkept | assumption
    | (with_reducible apply Kept.lit
       (first | with_reducible assumption | with_reducible apply State.applyHeldRwl_kept
              | with_reducible apply State.modPart_kept | with_reducible apply State.loadReport_kept
              | with_reducible apply State.openLateAll_kept | with_reducible apply State.idleSync_kept))

theorem State.refuseLoad_kept {s0 : State} {s : State} (req : Req) (part : Option Nat) (e : LoadErr) (hkept : Kept s0 s) :
    Kept s0 (State.refuseLoad s req part e) := by
  unfold State.refuseLoad
  repeat' first
    | with_reducible exact hkept | with_reducible assumption | with_reducible apply State.addErr_kept
    | with_reducible apply State.loadReport_kept | with_reducible apply Kept.ite | split | dsimp only
    | exact hkept | assumption

theorem State.startLoad_kept {s0 s : State} (req : Req) (c : Charter) (part : Nat) (img : Bytes) (wait : Bool)
    (pauses : List Nat) (h : Kept s0 s) : Kept s0 (State.startLoad s req c part img wait pauses) := by
  unfold State.startLoad
  dsimp only
  exact Kept.lit (State.setRegN_kept _ _ h)

theorem State.loadDevice_kept {s0 : State} {s : State} (req : Req) (img : Bytes) (len : Nat) (hkept : Kept s0 s) :
    Kept s0 (State.loadDevice s req img len) := by
  unfold State.loadDevice
  repeat' first
    | with_reducible exact hkept | with_reducible assumption | with_reducible apply State.refuseLoad_kept
    | with_reducible apply State.startLoad_kept | intro _ _ _ | intro _ _ | intro _ | split | dsimp only
    | with_reducible exact Kept.lit (by with_reducible assumption) | exact hkept | assumption
    | (with_reducible apply Kept.lit
       (first | with_reducible assumption | with_reducible apply State.refuseLoad_kept
              | with_reducible apply State.startLoad_kept))

theorem State.loadDev_kept {s0 : State} {s : State} (req : Req) (hkept : Kept s0 s) :
    Kept s0 (State.loadDev s req) := by
  unfold State.loadDev
  repeat' first
    | with_reducible exact hkept | with_reducible assumption
    | (extract_lets +onlyGivenNames y'; refine (fun (_ : Kept s0 y') => ?_) ?_; clear_value y'; revert y'; intro _ _; rotate_left; dsimp only [y']; clear y'; rotate_left)
    | (extract_lets +onlyGivenNames y'; clear_value y'; revert y'; intro _)
    | with_reducible apply State.refuseLoad_kept | with_reducible apply State.loadDevice_kept
    | with_reducible apply Kept.ite | split | dsimp only | exact hkept | assumption

theorem State.loadJob_kept {s0 : State} {s : State} (req : Req) (part : Nat) (hkept : Kept s0 s) :
    Kept s0 (State.loadJob s req part) := by
  unfold State.loadJob
  repeat' first
    | with_reducible exact hkept | with_reducible assumption
    | (extract_lets +onlyGivenNames y'; refine (fun (_ : Kept s0 y') => ?_) ?_; clear_value y'; revert y'; intro _ _; rotate_left; dsimp only [y']; clear y'; rotate_left)
    | (extract_lets +onlyGivenNames y'; clear_value y'; revert y'; intro _)
    | with_reducible apply State.refuseLoad_kept | with_reducible apply State.startLoad_kept
    | with_reducible apply Kept.ite | split | dsimp only
    | with_reducible exact Kept.lit (by with_reducible assumption) | exact hkept | assumption
    | (with_reducible apply Kept.lit
       (first | with_reducible assumption | with_reducible apply State.refuseLoad_kept
              | with_reducible apply State.startLoad_kept))

theorem State.leaveFrame_kept {s0 : State} {s : State} (p v f : Nat) (hkept : Kept s0 s) :
    Kept s0 (State.leaveFrame s p v f) := by
  unfold State.leaveFrame
  repeat' first
    | with_reducible exact hkept | with_reducible assumption | with_reducible apply State.evacuate_kept
    | with_reducible apply State.commitMove_kept | with_reducible apply State.dropCopy_kept
    | with_reducible apply State.startWriteback_kept (by with_reducible assumption)
    | with_reducible apply Kept.ite | split | dsimp only
    | with_reducible exact Kept.lit (by with_reducible assumption) | exact hkept | assumption
    | (with_reducible apply Kept.lit
       (first | with_reducible assumption | with_reducible apply State.evacuate_kept
              | with_reducible apply State.commitMove_kept | with_reducible apply State.dropCopy_kept))

theorem State.applySplit_kept {s0 : State} {s : State} (old : HoardSplit) (hkept : Kept s0 s) :
    Kept s0 (State.applySplit s old) := by
  unfold State.applySplit
  repeat' first
    | with_reducible exact hkept | with_reducible assumption
    | (extract_lets +onlyGivenNames y'; refine (fun (_ : Kept s0 y') => ?_) ?_; clear_value y'; revert y'; intro _ _; rotate_left; dsimp only [y']; clear y'; rotate_left)
    | (extract_lets +onlyGivenNames y'; refine (fun (_ : Kept s0 y'.2) => ?_) ?_; clear_value y'; revert y'; intro _ _; rotate_left; dsimp only [y']; clear y'; rotate_left)
    | (extract_lets +onlyGivenNames y'; clear_value y'; revert y'; intro _)
    | with_reducible apply State.modFolio_kept | with_reducible apply State.modTally_kept
    | with_reducible apply State.leaveFrame_kept | with_reducible apply State.setHUse_kept
    | with_reducible apply State.free_kept | with_reducible apply State.scrubHoard_kept
    | with_reducible apply Kept.of_snd (by with_reducible assumption) | with_reducible apply Kept.ite
    | with_reducible apply Kept.foldl | with_reducible apply Kept.foldl_fst
    | with_reducible apply Kept.foldl_snd | intro _ _ _ | intro _ _ | intro _ | split | dsimp only
    | with_reducible exact Kept.lit (by with_reducible assumption) | exact hkept | assumption | exact rfl
    | exact Nat.le_refl _
    | (with_reducible apply Kept.lit
       (first | with_reducible assumption | with_reducible apply State.modFolio_kept
              | with_reducible apply State.modTally_kept | with_reducible apply State.leaveFrame_kept
              | with_reducible apply State.setHUse_kept | with_reducible apply State.free_kept
              | with_reducible apply State.scrubHoard_kept))

theorem State.applyPorts_kept {s0 : State} {s : State} (old : Option PortPlan) (hkept : Kept s0 s) :
    Kept s0 (State.applyPorts s old) := by
  unfold State.applyPorts
  repeat' first
    | with_reducible exact hkept | with_reducible assumption
    | (extract_lets +onlyGivenNames y'; refine (fun (_ : Kept s0 y') => ?_) ?_; clear_value y'; revert y'; intro _ _; rotate_left; dsimp only [y']; clear y'; rotate_left)
    | (extract_lets +onlyGivenNames y'; clear_value y'; revert y'; intro _)
    | with_reducible apply State.modPort_kept | with_reducible apply State.train_kept
    | with_reducible apply Kept.ite | with_reducible apply Kept.foldl | with_reducible apply Kept.foldl_fst
    | with_reducible apply Kept.foldl_snd | intro _ _ _ | intro _ _ | intro _ | split | dsimp only
    | with_reducible exact Kept.lit (by with_reducible assumption) | exact hkept | assumption
    | (with_reducible apply Kept.lit
       (first | with_reducible assumption | with_reducible apply State.modPort_kept
              | with_reducible apply State.train_kept))

theorem State.applyTime_kept {s0 : State} {s : State} (old : Option TimeSource) (hkept : Kept s0 s) :
    Kept s0 (State.applyTime s old) := by
  unfold State.applyTime
  repeat' first
    | with_reducible exact hkept | with_reducible assumption
    | (extract_lets +onlyGivenNames y'; refine (fun (_ : Kept s0 y') => ?_) ?_; clear_value y'; revert y'; intro _ _; rotate_left; dsimp only [y']; clear y'; rotate_left)
    | (extract_lets +onlyGivenNames y'; clear_value y'; revert y'; intro _)
    | with_reducible apply State.setRegN_kept | with_reducible apply State.ftHold_kept
    | with_reducible apply State.ftClear_kept | with_reducible apply State.modFt_kept
    | with_reducible apply Kept.ite | intro _ _ _ | intro _ _ | intro _ | split | dsimp only
    | with_reducible exact Kept.lit (by with_reducible assumption) | exact hkept | assumption
    | (with_reducible apply Kept.lit
       (first | with_reducible assumption | with_reducible apply State.setRegN_kept
              | with_reducible apply State.ftHold_kept | with_reducible apply State.ftClear_kept
              | with_reducible apply State.modFt_kept))

theorem State.applyTamper_kept {s0 : State} {s : State} (hkept : Kept s0 s) :
    Kept s0 (State.applyTamper s) := by
  unfold State.applyTamper
  repeat' first
    | with_reducible exact hkept | with_reducible assumption
    | (extract_lets +onlyGivenNames y'; refine (fun (_ : Kept s0 y') => ?_) ?_; clear_value y'; revert y'; intro _ _; rotate_left; dsimp only [y']; clear y'; rotate_left)
    | (extract_lets +onlyGivenNames y'; clear_value y'; revert y'; intro _)
    | with_reducible apply State.setRegN_kept | with_reducible apply State.modSbox_kept | intro _ _ _
    | intro _ _ | intro _ | dsimp only | with_reducible exact Kept.lit (by with_reducible assumption)
    | exact hkept | assumption | exact rfl | exact Nat.le_refl _
    | (with_reducible apply Kept.lit
       (first | with_reducible assumption | with_reducible apply State.setRegN_kept
              | with_reducible apply State.modSbox_kept))

theorem State.dropPart_kept {s0 : State} {s : State} (p : Nat) (hkept : Kept s0 s) :
    Kept s0 (State.dropPart s p) := by
  unfold State.dropPart
  repeat' first
    | with_reducible exact hkept | with_reducible assumption | with_reducible apply State.destroyPart_kept
    | with_reducible apply State.setPart_kept | dsimp only | exact hkept | assumption

theorem State.endDegraded_kept {s0 : State} {s : State} (hkept : Kept s0 s) :
    Kept s0 (State.endDegraded s) := by
  unfold State.endDegraded
  repeat' first
    | with_reducible exact hkept | with_reducible assumption | with_reducible apply State.modPart_kept
    | with_reducible apply State.flagHoard_kept | with_reducible apply State.flagLpddr_kept
    | with_reducible apply Kept.foldl | with_reducible apply Kept.foldl_fst
    | with_reducible apply Kept.foldl_snd | intro _ _ _ | intro _ _ | intro _ | dsimp only
    | with_reducible exact Kept.lit (by with_reducible assumption) | exact hkept | assumption
    | (with_reducible apply Kept.lit
       (first | with_reducible assumption | with_reducible apply State.modPart_kept
              | with_reducible apply State.flagHoard_kept | with_reducible apply State.flagLpddr_kept))

theorem State.applyDevice_kept {s0 : State} {s : State} (c : DevCharter) (img : Bytes) (hkept : Kept s0 s) :
    Kept s0 (State.applyDevice s c img) := by
  unfold State.applyDevice
  repeat' first
    | with_reducible exact hkept | with_reducible assumption
    | (extract_lets +onlyGivenNames y'; refine (fun (_ : Kept s0 y') => ?_) ?_; clear_value y'; revert y'; intro _ _; rotate_left; dsimp only [y']; clear y'; rotate_left)
    | (extract_lets +onlyGivenNames y'; clear_value y'; revert y'; intro _)
    | with_reducible apply State.dropPart_kept | with_reducible apply State.drawPartKeys_kept
    | with_reducible apply State.applySplit_kept | with_reducible apply State.modFolio_kept
    | with_reducible apply State.applyPorts_kept | with_reducible apply State.applyTime_kept
    | with_reducible apply State.applyTamper_kept | with_reducible apply State.setMux_kept
    | with_reducible apply State.modFt_kept | with_reducible apply State.endDegraded_kept
    | with_reducible apply State.modPart_kept | with_reducible apply State.saveCharter_kept
    | with_reducible apply Kept.ite | with_reducible apply Kept.foldl | with_reducible apply Kept.foldl_fst
    | with_reducible apply Kept.foldl_snd | intro _ _ _ | intro _ _ | intro _ | split | dsimp only
    | with_reducible exact Kept.lit (by with_reducible assumption) | exact hkept | assumption | exact rfl
    | exact Nat.le_refl _
    | (with_reducible apply Kept.lit
       (first | with_reducible assumption | with_reducible apply State.dropPart_kept
              | with_reducible apply State.drawPartKeys_kept | with_reducible apply State.applySplit_kept
              | with_reducible apply State.modFolio_kept | with_reducible apply State.applyPorts_kept
              | with_reducible apply State.applyTime_kept | with_reducible apply State.applyTamper_kept
              | with_reducible apply State.setMux_kept | with_reducible apply State.modFt_kept
              | with_reducible apply State.endDegraded_kept | with_reducible apply State.modPart_kept
              | with_reducible apply State.saveCharter_kept))

theorem State.endAdmission_kept {s0 : State} {s : State} (p : Nat) (hkept : Kept s0 s) :
    Kept s0 (State.endAdmission s p) := by
  unfold State.endAdmission
  repeat' first
    | with_reducible exact hkept | with_reducible assumption | with_reducible apply State.orphan_kept
    | with_reducible apply State.dropLinks_kept | with_reducible apply State.dropReplies_kept
    | with_reducible apply State.modPart_kept | intro _ _ _ | intro _ _ | intro _ | dsimp only
    | with_reducible exact Kept.lit (by with_reducible assumption) | exact hkept | assumption
    | (with_reducible apply Kept.lit
       (first | with_reducible assumption | with_reducible apply State.orphan_kept
              | with_reducible apply State.dropLinks_kept | with_reducible apply State.dropReplies_kept
              | with_reducible apply State.modPart_kept))

theorem State.applyJob_kept {s0 : State} {s : State} (p : Nat) (c : JobCharter) (hkept : Kept s0 s) :
    Kept s0 (State.applyJob s p c) := by
  unfold State.applyJob
  repeat' first
    | with_reducible exact hkept | with_reducible assumption
    | (extract_lets +onlyGivenNames y'; refine (fun (_ : Kept s0 y') => ?_) ?_; clear_value y'; revert y'; intro _ _; rotate_left; dsimp only [y']; clear y'; rotate_left)
    | (extract_lets +onlyGivenNames y'; clear_value y'; revert y'; intro _)
    | with_reducible apply State.forgetTags_kept | with_reducible apply State.abandonMove_kept
    | with_reducible apply State.failTags_kept | with_reducible apply State.endAdmission_kept
    | with_reducible apply State.resetRwl_kept | with_reducible apply State.freeWindow_kept
    | with_reducible apply State.closeStreams_kept | with_reducible apply State.freePolySlots_kept
    | with_reducible apply State.clearPhasePins_kept | with_reducible apply State.setSeed_kept
    | with_reducible apply State.modPart_kept | with_reducible apply State.openPhase_kept
    | with_reducible apply State.override_kept | with_reducible apply Kept.ite
    | with_reducible apply Kept.foldl | with_reducible apply Kept.foldl_fst
    | with_reducible apply Kept.foldl_snd | intro _ _ _ | intro _ _ | intro _ | split | dsimp only
    | with_reducible exact Kept.lit (by with_reducible assumption) | exact hkept | assumption
    | (with_reducible apply Kept.lit
       (first | with_reducible assumption | with_reducible apply State.forgetTags_kept
              | with_reducible apply State.abandonMove_kept | with_reducible apply State.failTags_kept
              | with_reducible apply State.endAdmission_kept | with_reducible apply State.resetRwl_kept
              | with_reducible apply State.freeWindow_kept | with_reducible apply State.closeStreams_kept
              | with_reducible apply State.freePolySlots_kept | with_reducible apply State.clearPhasePins_kept
              | with_reducible apply State.setSeed_kept | with_reducible apply State.modPart_kept
              | with_reducible apply State.openPhase_kept | with_reducible apply State.override_kept))

theorem State.applyLoad_kept {s0 : State} {s : State} (l : Load) (p : Option Nat) (hkept : Kept s0 s) :
    Kept s0 (State.applyLoad s l p) := by
  unfold State.applyLoad
  repeat' first
    | with_reducible exact hkept | with_reducible assumption | with_reducible apply State.applyJob_kept
    | with_reducible apply State.applyDevice_kept | with_reducible apply State.endDegraded_kept
    | with_reducible apply Kept.ite | intro _ _ _ | intro _ _ | intro _ | split | dsimp only
    | with_reducible exact Kept.lit (by with_reducible assumption) | exact hkept | assumption
    | (with_reducible apply Kept.lit
       (first | with_reducible assumption | with_reducible apply State.applyJob_kept
              | with_reducible apply State.applyDevice_kept | with_reducible apply State.endDegraded_kept))

theorem State.resume_kept {s0 : State} {s : State} (p : Nat) (hkept : Kept s0 s) :
    Kept s0 (State.resume s p) := by
  unfold State.resume
  repeat' first
    | with_reducible exact hkept | with_reducible assumption | with_reducible apply State.applyHeldRwl_kept
    | with_reducible apply State.substitute_kept | with_reducible apply State.modPart_kept
    | with_reducible apply State.idleSync_kept | intro _ _ _ | intro _ _ | intro _ | dsimp only
    | with_reducible exact Kept.lit (by with_reducible assumption) | exact hkept | assumption
    | (with_reducible apply Kept.lit
       (first | with_reducible assumption | with_reducible apply State.applyHeldRwl_kept
              | with_reducible apply State.substitute_kept | with_reducible apply State.modPart_kept
              | with_reducible apply State.idleSync_kept))

theorem State.charterApply_kept {s0 : State} {s : State} (hkept : Kept s0 s) :
    Kept s0 (State.charterApply s) := by
  unfold State.charterApply
  repeat' first
    | with_reducible exact hkept | with_reducible assumption
    | (extract_lets +onlyGivenNames y'; refine (fun (_ : Kept s0 y') => ?_) ?_; clear_value y'; revert y'; intro _ _; rotate_left; dsimp only [y']; clear y'; rotate_left)
    | (extract_lets +onlyGivenNames y'; clear_value y'; revert y'; intro _)
    | with_reducible apply State.applyLoad_kept | with_reducible apply State.resume_kept
    | with_reducible apply State.endLoad_kept | with_reducible apply Kept.ite | split | dsimp only
    | with_reducible exact Kept.lit (by with_reducible assumption) | exact hkept | assumption
    | (with_reducible apply Kept.lit
       (first | with_reducible assumption | with_reducible apply State.applyLoad_kept
              | with_reducible apply State.resume_kept | with_reducible apply State.endLoad_kept))

theorem State.setCount_kept {s0 : State} {s : State} (off n : Nat) (hkept : Kept s0 s) :
    Kept s0 (State.setCount s off n) := by
  unfold State.setCount
  repeat' first
    | with_reducible exact hkept | with_reducible assumption | with_reducible apply State.setRegN_kept
    | dsimp only | exact hkept | assumption

theorem State.removeOps_kept {s0 : State} {s : State} (p : Nat) (hkept : Kept s0 s) :
    Kept s0 (State.removeOps s p) := by
  unfold State.removeOps
  repeat' first
    | with_reducible exact hkept | with_reducible assumption
    | (extract_lets +onlyGivenNames y'; refine (fun (_ : Kept s0 y') => ?_) ?_; clear_value y'; revert y'; intro _ _; rotate_left; dsimp only [y']; clear y'; rotate_left)
    | (extract_lets +onlyGivenNames y'; clear_value y'; revert y'; intro _)
    | with_reducible apply State.cancelOp_kept | with_reducible apply State.setCount_kept
    | with_reducible apply Kept.foldl | with_reducible apply Kept.foldl_fst
    | with_reducible apply Kept.foldl_snd | intro _ _ _ | intro _ _ | intro _ | dsimp only | exact hkept
    | assumption

theorem State.stopMoves_kept {s0 : State} {s : State} (p : Nat) (hkept : Kept s0 s) :
    Kept s0 (State.stopMoves s p) := by
  unfold State.stopMoves
  repeat' first
    | with_reducible exact hkept | with_reducible assumption | with_reducible apply State.abandonMove_kept
    | with_reducible apply Kept.foldl | with_reducible apply Kept.foldl_fst
    | with_reducible apply Kept.foldl_snd | intro _ _ _ | intro _ _ | intro _ | dsimp only | exact hkept
    | assumption

theorem State.removeWindows_kept {s0 : State} {s : State} (p held : Nat) (hkept : Kept s0 s) :
    Kept s0 (State.removeWindows s p held) := by
  unfold State.removeWindows
  repeat' first
    | with_reducible exact hkept | with_reducible assumption
    | (extract_lets +onlyGivenNames y'; refine (fun (_ : Kept s0 y') => ?_) ?_; clear_value y'; revert y'; intro _ _; rotate_left; dsimp only [y']; clear y'; rotate_left)
    | (extract_lets +onlyGivenNames y'; clear_value y'; revert y'; intro _)
    | with_reducible apply State.discardWindow_kept | with_reducible apply State.ringForget_kept
    | with_reducible apply State.setCount_kept | with_reducible apply Kept.foldl
    | with_reducible apply Kept.foldl_fst | with_reducible apply Kept.foldl_snd
    | with_reducible refine Kept.lit_slots (by with_reducible assumption) ?_
    | (with_reducible apply Kept.slots
       (first | with_reducible assumption | with_reducible apply State.discardWindow_kept
              | with_reducible apply State.ringForget_kept | with_reducible apply State.setCount_kept))
    | intro _ _ _ | intro _ _ | intro _ | dsimp only | exact hkept | assumption

theorem State.removeFolios_kept {s0 : State} {s : State} (p : Nat) (hkept : Kept s0 s) :
    Kept s0 (State.removeFolios s p) := by
  unfold State.removeFolios
  repeat' first
    | with_reducible exact hkept | with_reducible assumption
    | (extract_lets +onlyGivenNames y'; refine (fun (_ : Kept s0 y') => ?_) ?_; clear_value y'; revert y'; intro _ _; rotate_left; dsimp only [y']; clear y'; rotate_left)
    | (extract_lets +onlyGivenNames y'; clear_value y'; revert y'; intro _)
    | with_reducible apply State.toScrub_kept | with_reducible apply State.setLUse_kept
    | with_reducible apply State.modFolio_kept | with_reducible apply State.setCount_kept
    | with_reducible apply Kept.foldl | with_reducible apply Kept.foldl_fst
    | with_reducible apply Kept.foldl_snd | intro _ _ _ | intro _ _ | intro _ | dsimp only
    | with_reducible exact Kept.lit (by with_reducible assumption) | exact hkept | assumption | exact rfl
    | exact Nat.le_refl _
    | (with_reducible apply Kept.lit
       (first | with_reducible assumption | with_reducible apply State.toScrub_kept
              | with_reducible apply State.setLUse_kept | with_reducible apply State.modFolio_kept
              | with_reducible apply State.setCount_kept))

theorem State.loadWithoutKeys_kept {s0 : State} {s : State} (p : Nat) (hkept : Kept s0 s) :
    Kept s0 (State.loadWithoutKeys s p) := by
  unfold State.loadWithoutKeys
  repeat' first
    | with_reducible exact hkept | with_reducible assumption
    | (extract_lets +onlyGivenNames y'; refine (fun (_ : Kept s0 y') => ?_) ?_; clear_value y'; revert y'; intro _ _; rotate_left; dsimp only [y']; clear y'; rotate_left)
    | (extract_lets +onlyGivenNames y'; clear_value y'; revert y'; intro _)
    | with_reducible apply State.setRegN_kept | with_reducible apply State.addErr_kept
    | with_reducible apply State.openLateAll_kept | with_reducible apply State.sendMsix_kept
    | with_reducible apply Kept.ite | split | dsimp only
    | with_reducible exact Kept.lit (by with_reducible assumption) | exact hkept | assumption
    | (with_reducible apply Kept.lit
       (first | with_reducible assumption | with_reducible apply State.setRegN_kept
              | with_reducible apply State.addErr_kept | with_reducible apply State.openLateAll_kept
              | with_reducible apply State.sendMsix_kept))

theorem State.finishRemoval_kept {s0 : State} {s : State} (r : Removal) (forced : Bool) (hkept : Kept s0 s) :
    Kept s0 (State.finishRemoval s r forced) := by
  unfold State.finishRemoval
  repeat' first
    | with_reducible exact hkept | with_reducible assumption
    | (extract_lets +onlyGivenNames y'; refine (fun (_ : Kept s0 y') => ?_) ?_; clear_value y'; revert y'; intro _ _; rotate_left; dsimp only [y']; clear y'; rotate_left)
    | (extract_lets +onlyGivenNames y'; clear_value y'; revert y'; intro _)
    | with_reducible apply State.setRegN_kept | with_reducible apply State.setCount_kept
    | with_reducible apply State.resetRwl_kept | with_reducible apply State.modFunc_kept
    | with_reducible apply State.failHeld_kept | with_reducible apply State.drawPartKeys_kept
    | with_reducible apply State.loadWithoutKeys_kept | with_reducible apply State.raise_kept
    | with_reducible apply Kept.ite | intro _ _ _ | intro _ _ | intro _ | split | dsimp only
    | with_reducible exact Kept.lit (by with_reducible assumption) | exact hkept | assumption
    | (with_reducible apply Kept.lit
       (first | with_reducible assumption | with_reducible apply State.setRegN_kept
              | with_reducible apply State.setCount_kept | with_reducible apply State.resetRwl_kept
              | with_reducible apply State.modFunc_kept | with_reducible apply State.failHeld_kept
              | with_reducible apply State.drawPartKeys_kept | with_reducible apply State.loadWithoutKeys_kept
              | with_reducible apply State.raise_kept))

theorem State.refuseHeld_kept {s0 : State} {s : State} (p : Nat) (hkept : Kept s0 s) :
    Kept s0 (State.refuseHeld s p) := by
  unfold State.refuseHeld
  repeat' first
    | with_reducible exact hkept | with_reducible assumption | with_reducible apply State.sendFirst_kept
    | with_reducible apply Kept.ite | with_reducible apply Kept.foldl | with_reducible apply Kept.foldl_fst
    | with_reducible apply Kept.foldl_snd | intro _ _ _ | intro _ _ | intro _ | split | dsimp only
    | exact hkept | assumption

theorem State.startRemoval_kept {s0 : State} {s : State} (p : Nat) (hkept : Kept s0 s) :
    Kept s0 (State.startRemoval s p) := by
  unfold State.startRemoval
  repeat' first
    | with_reducible exact hkept | with_reducible assumption
    | (extract_lets +onlyGivenNames y'; refine (fun (_ : Kept s0 y') => ?_) ?_; clear_value y'; revert y'; intro _ _; rotate_left; dsimp only [y']; clear y'; rotate_left)
    | (extract_lets +onlyGivenNames y'; clear_value y'; revert y'; intro _)
    | with_reducible apply State.endLoad_kept | with_reducible apply State.setRegN_kept
    | with_reducible apply State.endSwitch_kept | with_reducible apply State.removeOps_kept
    | with_reducible apply State.setCount_kept | with_reducible apply State.tdiError_kept
    | with_reducible apply State.stopMoves_kept | with_reducible apply State.refuseHeld_kept
    | with_reducible apply State.destroyPart_kept | with_reducible apply State.endAdmission_kept
    | with_reducible apply State.removeWindows_kept | with_reducible apply State.freePolySlots_kept
    | with_reducible apply State.closeStreams_kept | with_reducible apply State.removeFolios_kept
    | with_reducible apply State.modPart_kept | with_reducible apply State.finishRemoval_kept
    | with_reducible apply Kept.ite | intro _ _ _ | intro _ _ | intro _ | split | dsimp only
    | with_reducible exact Kept.lit (by with_reducible assumption) | exact hkept | assumption
    | (with_reducible apply Kept.lit
       (first | with_reducible assumption | with_reducible apply State.endLoad_kept
              | with_reducible apply State.setRegN_kept | with_reducible apply State.endSwitch_kept
              | with_reducible apply State.removeOps_kept | with_reducible apply State.setCount_kept
              | with_reducible apply State.tdiError_kept | with_reducible apply State.stopMoves_kept
              | with_reducible apply State.refuseHeld_kept | with_reducible apply State.destroyPart_kept
              | with_reducible apply State.endAdmission_kept | with_reducible apply State.removeWindows_kept
              | with_reducible apply State.freePolySlots_kept | with_reducible apply State.closeStreams_kept
              | with_reducible apply State.removeFolios_kept | with_reducible apply State.modPart_kept
              | with_reducible apply State.finishRemoval_kept))

theorem State.removeTenant_kept {s0 : State} {s : State} (req : Req) (p : Nat) (hkept : Kept s0 s) :
    Kept s0 (State.removeTenant s req p) := by
  unfold State.removeTenant
  repeat' first
    | with_reducible exact hkept | with_reducible assumption | with_reducible apply State.addErr_kept
    | with_reducible apply State.startRemoval_kept | with_reducible apply Kept.ite | split | dsimp only
    | exact hkept | assumption

theorem State.removalDone_kept {s0 : State} {s : State} (hkept : Kept s0 s) :
    Kept s0 (State.removalDone s) := by
  unfold State.removalDone
  repeat' first
    | with_reducible exact hkept | with_reducible assumption | with_reducible apply State.finishRemoval_kept
    | with_reducible apply Kept.ite | split | dsimp only
    | with_reducible exact Kept.lit (by with_reducible assumption) | exact hkept | assumption
    | (with_reducible apply Kept.lit
       (first | with_reducible assumption | with_reducible apply State.finishRemoval_kept))

theorem State.removalForce_kept {s0 : State} {s : State} (hkept : Kept s0 s) :
    Kept s0 (State.removalForce s) := by
  unfold State.removalForce
  repeat' first
    | with_reducible exact hkept | with_reducible assumption
    | (extract_lets +onlyGivenNames y'; refine (fun (_ : Kept s0 y') => ?_) ?_; clear_value y'; revert y'; intro _ _; rotate_left; dsimp only [y']; clear y'; rotate_left)
    | (extract_lets +onlyGivenNames y'; clear_value y'; revert y'; intro _)
    | with_reducible apply State.advanceToCycle_kept | with_reducible apply State.finishRemoval_kept
    | with_reducible apply State.setCount_kept | with_reducible apply Kept.ite | intro _ _ _ | intro _ _
    | intro _ | split | dsimp only | with_reducible exact Kept.lit (by with_reducible assumption) | exact hkept
    | assumption
    | (with_reducible apply Kept.lit
       (first | with_reducible assumption | with_reducible apply State.advanceToCycle_kept
              | with_reducible apply State.finishRemoval_kept | with_reducible apply State.setCount_kept))

end Sys2Proof.Machine
end

