-- ==== Sys2Proof/Laws/KeptCompute.lean ====
section
/-!
SUPPORT. Laws/KeptCompute.lean: what the operations of Machine/Compute.lean keep of a state (Laws/Kept.lean).
-/
namespace Sys2Proof.Machine

theorem State.result_kept {s0 : State} {s : State} (o : Op) (i a : Nat) (bs : Bytes) (hkept : Kept s0 s) :
    Kept s0 (State.result s o i a bs) := by
  unfold State.result
  repeat' first
    | with_reducible exact hkept | with_reducible assumption | with_reducible apply State.writeVa_kept
    | with_reducible apply Kept.ite | with_reducible refine Kept.lit_scratch (by with_reducible assumption) ?_
    | (with_reducible apply Kept.scratch
       (first | with_reducible assumption | with_reducible apply State.writeVa_kept))
    | exact Memory.wf_write _ _ (by assumption) | intro _ _ _ | intro _ _ | intro _ | split | dsimp only
    | with_reducible exact Kept.lit (by with_reducible assumption) | exact hkept | assumption
    | (with_reducible apply Kept.lit
       (first | with_reducible assumption | with_reducible apply State.writeVa_kept))

theorem State.stage_kept {s0 s : State} (i : Nat) (bs : Bytes) (h : Kept s0 s) : Kept s0 (State.stage s i bs) := by
  unfold State.stage
  dsimp only
  split
  · exact h
  · exact (State.free_kept h).scratch fun w => Memory.wf_write _ _ (Memory.wf_write _ _ w)

theorem State.stageIf_kept {s0 : State} {s : State} (i a : Nat) (bs : Bytes) (hkept : Kept s0 s) :
    Kept s0 (State.stageIf s i a bs) := by
  unfold State.stageIf
  repeat' first
    | with_reducible exact hkept | with_reducible assumption | with_reducible apply State.stage_kept
    | with_reducible apply Kept.ite | split | dsimp only | exact hkept | assumption

theorem State.resultTile_kept {s0 : State} {s : State} (o : Op) (i a : Nat) (bs : Bytes) (hkept : Kept s0 s) :
    Kept s0 (State.resultTile s o i a bs) := by
  unfold State.resultTile
  repeat' first
    | with_reducible exact hkept | with_reducible assumption | with_reducible apply State.stageIf_kept
    | with_reducible apply State.result_kept | dsimp only | exact hkept | assumption

theorem State.putCtxWords_kept {s0 s : State} (i x n : Nat) (ws : List W64) (h : Kept s0 s) :
    Kept s0 (State.putCtxWords s i x n ws) := by
  unfold State.putCtxWords
  exact h.scratch fun w => Memory.wf_foldl _ _ (fun _ _ k => Memory.wf_write _ _ k) w

theorem State.scratchCorrected_kept {s0 : State} {s : State} (i n : Nat) (hkept : Kept s0 s) :
    Kept s0 (State.scratchCorrected s i n) := by
  unfold State.scratchCorrected
  repeat' first
    | with_reducible exact hkept | with_reducible assumption | with_reducible apply State.modCore_kept
    | intro _ _ _ | intro _ _ | intro _ | dsimp only
    | with_reducible exact Kept.lit (by with_reducible assumption) | exact hkept | assumption
    | (with_reducible apply Kept.lit
       (first | with_reducible assumption | with_reducible apply State.modCore_kept))

theorem State.scratchDouble_kept {s0 : State} {s : State} (i line : Nat) (fail : State → State) (hkept : Kept s0 s) (hfail : ∀ x0, Kept s0 x0 → Kept s0 (fail x0)) :
    Kept s0 (State.scratchDouble s i line fail) := by
  unfold State.scratchDouble
  repeat' first
    | with_reducible exact hkept | with_reducible assumption | with_reducible apply hfail
    | (extract_lets +onlyGivenNames y'; refine (fun (_ : Kept s0 y') => ?_) ?_; clear_value y'; revert y'; intro _ _; rotate_left; dsimp only [y']; clear y'; rotate_left)
    | (extract_lets +onlyGivenNames y'; clear_value y'; revert y'; intro _)
    | with_reducible apply State.modCore_kept | with_reducible apply State.failCore_kept
    | with_reducible apply State.addErr_kept | with_reducible apply Kept.ite | intro _ _ _ | intro _ _
    | intro _ | split | dsimp only | with_reducible exact Kept.lit (by with_reducible assumption) | exact hkept
    | assumption
    | (with_reducible apply Kept.lit
       (first | with_reducible assumption | with_reducible apply State.modCore_kept
              | with_reducible apply State.failCore_kept | with_reducible apply State.addErr_kept))

theorem State.withErr_kept {s0 : State} {s : State} (i : Nat) (err : ScratchErr) (work : State → State) (part : Nat → State → State) (fail : State → State) (hkept : Kept s0 s) (hwork : ∀ x0, Kept s0 x0 → Kept s0 (work x0)) (hpart : ∀ x0 x1, Kept s0 x1 → Kept s0 (part x0 x1)) (hfail : ∀ x0, Kept s0 x0 → Kept s0 (fail x0)) :
    Kept s0 (State.withErr s i err work part fail) := by
  unfold State.withErr
  repeat' first
    | with_reducible exact hkept | with_reducible assumption | with_reducible apply hfail
    | with_reducible apply hpart | with_reducible apply hwork
    | with_reducible apply State.scratchCorrected_kept | with_reducible apply State.scratchDouble_kept
    | with_reducible apply State.drain_kept | intro _ _ _ | intro _ _ | intro _ | split | dsimp only
    | with_reducible exact Kept.lit (by with_reducible assumption) | exact hkept | assumption
    | (with_reducible apply Kept.lit
       (first | with_reducible assumption | with_reducible apply State.scratchCorrected_kept
              | with_reducible apply State.scratchDouble_kept | with_reducible apply State.drain_kept))

theorem State.countFolds_kept {s0 : State} {s : State} (p i n : Nat) (hkept : Kept s0 s) :
    Kept s0 (State.countFolds s p i n) := by
  unfold State.countFolds
  repeat' first
    | with_reducible exact hkept | with_reducible assumption
    | (extract_lets +onlyGivenNames y'; refine (fun (_ : Kept s0 y') => ?_) ?_; clear_value y'; revert y'; intro _ _; rotate_left; dsimp only [y']; clear y'; rotate_left)
    | (extract_lets +onlyGivenNames y'; clear_value y'; revert y'; intro _)
    | with_reducible apply State.setPair_kept | with_reducible apply State.prof_kept | dsimp only | exact hkept
    | assumption

theorem State.failChain_kept {s0 : State} {s : State} (o : Op) (i status : Nat) (hkept : Kept s0 s) :
    Kept s0 (State.failChain s o i status) := by
  unfold State.failChain
  repeat' first
    | with_reducible exact hkept | with_reducible assumption
    | (extract_lets +onlyGivenNames y'; refine (fun (_ : Kept s0 y') => ?_) ?_; clear_value y'; revert y'; intro _ _; rotate_left; dsimp only [y']; clear y'; rotate_left)
    | (extract_lets +onlyGivenNames y'; clear_value y'; revert y'; intro _)
    | with_reducible apply State.endOpCycles_kept | with_reducible apply State.setCtx_kept
    | with_reducible apply Kept.ite | split | dsimp only | exact hkept | assumption

theorem State.mmaTrace_kept {s0 : State} {s : State} (p i : Nat) (d : Bytes) (words : List W64) (hkept : Kept s0 s) :
    Kept s0 (State.mmaTrace s p i d words) := by
  unfold State.mmaTrace
  repeat' first
    | with_reducible exact hkept | with_reducible assumption
    | (extract_lets +onlyGivenNames y'; refine (fun (_ : Kept s0 y') => ?_) ?_; clear_value y'; revert y'; intro _ _; rotate_left; dsimp only [y']; clear y'; rotate_left)
    | (extract_lets +onlyGivenNames y'; clear_value y'; revert y'; intro _)
    | with_reducible apply State.stageIf_kept | with_reducible apply State.modCore_kept | intro _ _ _
    | intro _ _ | intro _ | dsimp only | with_reducible exact Kept.lit (by with_reducible assumption)
    | exact hkept | assumption
    | (with_reducible apply Kept.lit
       (first | with_reducible assumption | with_reducible apply State.stageIf_kept
              | with_reducible apply State.modCore_kept))

theorem State.mmaWork_kept {s0 : State} (o : Op) (i : Nat) {s : State} (hkept : Kept s0 s) :
    Kept s0 (State.mmaWork o i s) := by
  unfold State.mmaWork
  repeat' first
    | with_reducible exact hkept | with_reducible assumption
    | (extract_lets +onlyGivenNames y'; refine (fun (_ : Kept s0 y') => ?_) ?_; clear_value y'; revert y'; intro _ _; rotate_left; dsimp only [y']; clear y'; rotate_left)
    | (extract_lets +onlyGivenNames y'; clear_value y'; revert y'; intro _)
    | with_reducible apply State.mmaTrace_kept | with_reducible apply State.countFolds_kept
    | with_reducible apply State.putCtxWords_kept | with_reducible apply State.setCtx_kept
    | with_reducible apply State.resultTile_kept | with_reducible apply State.endOpCycles_kept
    | with_reducible apply Kept.ite | split | dsimp only | exact hkept | assumption

theorem State.mmaPart_kept {s0 : State} (o : Op) (i w : Nat) {s : State} (hkept : Kept s0 s) :
    Kept s0 (State.mmaPart o i w s) := by
  unfold State.mmaPart
  repeat' first
    | with_reducible exact hkept | with_reducible assumption | with_reducible apply State.result_kept
    | with_reducible apply Kept.ite | split | dsimp only | exact hkept | assumption

theorem Prep.finishChain_kept {s0 : State} {r : Prep} (o : Op) (i : Nat) (work : State → State) (hr : r.Kept s0) (hwork : ∀ x0, Machine.Kept s0 x0 → Machine.Kept s0 (work x0)) :
    Machine.Kept s0 (Prep.finishChain r o i work) := by
  unfold Prep.finishChain
  repeat' first
    | with_reducible exact hkept | with_reducible assumption | with_reducible apply hwork
    | with_reducible apply State.failChain_kept | with_reducible apply Prep.ok_kept
    | with_reducible apply Prep.wait_kept | with_reducible apply Prep.fail_kept
    | with_reducible apply Prep.of_ok (by with_reducible assumption)
    | with_reducible apply Prep.of_wait (by with_reducible assumption)
    | with_reducible apply Prep.of_fail (by with_reducible assumption) | intro _ _ _ | intro _ _ | intro _
    | split | dsimp only | with_reducible exact Kept.lit (by with_reducible assumption) | exact hkept
    | assumption
    | (with_reducible apply Kept.lit
       (first | with_reducible assumption | with_reducible apply State.failChain_kept))

theorem State.mmaOn_kept {s0 : State} {s : State} (o : Op) (i : Nat) (err : ScratchErr) (hkept : Kept s0 s) :
    Kept s0 (State.mmaOn s o i err) := by
  unfold State.mmaOn
  repeat' first
    | with_reducible exact hkept | with_reducible assumption
    | (extract_lets +onlyGivenNames y'; refine (fun (_ : Kept s0 y') => ?_) ?_; clear_value y'; revert y'; intro _ _; rotate_left; dsimp only [y']; clear y'; rotate_left)
    | (extract_lets +onlyGivenNames y'; refine (fun (_ : y'.Kept s0) => ?_) ?_; clear_value y'; revert y'; intro _ _; rotate_left; dsimp only [y']; clear y'; rotate_left)
    | (extract_lets +onlyGivenNames y'; clear_value y'; revert y'; intro _)
    | with_reducible apply State.endOpCycles_kept | with_reducible apply State.failChain_kept
    | with_reducible apply State.prepare_kept | with_reducible apply Prep.finishChain_kept
    | with_reducible apply State.withErr_kept | with_reducible apply State.mmaWork_kept
    | with_reducible apply State.mmaPart_kept | with_reducible apply Prep.ok_kept
    | with_reducible apply Prep.wait_kept | with_reducible apply Prep.fail_kept
    | with_reducible apply Prep.of_ok (by with_reducible assumption)
    | with_reducible apply Prep.of_wait (by with_reducible assumption)
    | with_reducible apply Prep.of_fail (by with_reducible assumption) | with_reducible apply Kept.ite
    | intro _ _ _ | intro _ _ | intro _ | split | dsimp only
    | with_reducible exact Kept.lit (by with_reducible assumption) | exact hkept | assumption
    | (with_reducible apply Kept.lit
       (first | with_reducible assumption | with_reducible apply State.endOpCycles_kept
              | with_reducible apply State.failChain_kept | with_reducible apply State.prepare_kept
              | with_reducible apply Prep.finishChain_kept | with_reducible apply State.withErr_kept
              | with_reducible apply State.mmaWork_kept | with_reducible apply State.mmaPart_kept))

theorem State.onCore_kept {s0 : State} {s : State} (o : Op) (body : Nat → State) (hkept : Kept s0 s) (hbody : ∀ x0, Kept s0 (body x0)) :
    Kept s0 (State.onCore s o body) := by
  unfold State.onCore
  repeat' first
    | with_reducible exact hkept | with_reducible assumption | with_reducible apply hbody | intro _ _ _
    | intro _ _ | intro _ | split | dsimp only | with_reducible exact Kept.lit (by with_reducible assumption)
    | exact hkept | assumption

theorem State.exportWork_kept {s0 : State} (o : Op) (i : Nat) {s : State} (hkept : Kept s0 s) :
    Kept s0 (State.exportWork o i s) := by
  unfold State.exportWork
  repeat' first
    | with_reducible exact hkept | with_reducible assumption
    | (extract_lets +onlyGivenNames y'; refine (fun (_ : Kept s0 y') => ?_) ?_; clear_value y'; revert y'; intro _ _; rotate_left; dsimp only [y']; clear y'; rotate_left)
    | (extract_lets +onlyGivenNames y'; clear_value y'; revert y'; intro _)
    | with_reducible apply State.countFolds_kept | with_reducible apply State.putCtxWords_kept
    | with_reducible apply State.setCtx_kept | with_reducible apply State.result_kept
    | with_reducible apply State.endOpCycles_kept | with_reducible apply Kept.ite | split | dsimp only
    | with_reducible exact Kept.lit (by with_reducible assumption) | exact hkept | assumption
    | (with_reducible apply Kept.lit
       (first | with_reducible assumption | with_reducible apply State.countFolds_kept
              | with_reducible apply State.putCtxWords_kept | with_reducible apply State.setCtx_kept
              | with_reducible apply State.result_kept | with_reducible apply State.endOpCycles_kept))

theorem State.exportPart_kept {s0 : State} (o : Op) (i w : Nat) {s : State} (hkept : Kept s0 s) :
    Kept s0 (State.exportPart o i w s) := by
  unfold State.exportPart
  repeat' first
    | with_reducible exact hkept | with_reducible assumption
    | (extract_lets +onlyGivenNames y'; refine (fun (_ : Kept s0 y') => ?_) ?_; clear_value y'; revert y'; intro _ _; rotate_left; dsimp only [y']; clear y'; rotate_left)
    | (extract_lets +onlyGivenNames y'; clear_value y'; revert y'; intro _)
    | with_reducible apply State.result_kept | split | dsimp only
    | with_reducible exact Kept.lit (by with_reducible assumption) | exact hkept | assumption
    | (with_reducible apply Kept.lit
       (first | with_reducible assumption | with_reducible apply State.result_kept))

theorem State.exportOn_kept {s0 : State} {s : State} (o : Op) (i : Nat) (err : ScratchErr) (hkept : Kept s0 s) :
    Kept s0 (State.exportOn s o i err) := by
  unfold State.exportOn
  repeat' first
    | with_reducible exact hkept | with_reducible assumption
    | (extract_lets +onlyGivenNames y'; refine (fun (_ : Kept s0 y') => ?_) ?_; clear_value y'; revert y'; intro _ _; rotate_left; dsimp only [y']; clear y'; rotate_left)
    | (extract_lets +onlyGivenNames y'; refine (fun (_ : y'.Kept s0) => ?_) ?_; clear_value y'; revert y'; intro _ _; rotate_left; dsimp only [y']; clear y'; rotate_left)
    | (extract_lets +onlyGivenNames y'; clear_value y'; revert y'; intro _)
    | with_reducible apply State.endOpCycles_kept | with_reducible apply State.failChain_kept
    | with_reducible apply State.prepare_kept | with_reducible apply Prep.finishChain_kept
    | with_reducible apply State.withErr_kept | with_reducible apply State.exportWork_kept
    | with_reducible apply State.exportPart_kept | with_reducible apply Prep.ok_kept
    | with_reducible apply Prep.wait_kept | with_reducible apply Prep.fail_kept
    | with_reducible apply Prep.of_ok (by with_reducible assumption)
    | with_reducible apply Prep.of_wait (by with_reducible assumption)
    | with_reducible apply Prep.of_fail (by with_reducible assumption) | with_reducible apply Kept.ite
    | intro _ _ _ | intro _ _ | intro _ | split | dsimp only
    | with_reducible exact Kept.lit (by with_reducible assumption) | exact hkept | assumption
    | (with_reducible apply Kept.lit
       (first | with_reducible assumption | with_reducible apply State.endOpCycles_kept
              | with_reducible apply State.failChain_kept | with_reducible apply State.prepare_kept
              | with_reducible apply Prep.finishChain_kept | with_reducible apply State.withErr_kept
              | with_reducible apply State.exportWork_kept | with_reducible apply State.exportPart_kept))

theorem State.settleWork_kept {s0 : State} (o : Op) (i : Nat) (hs : List Bytes) {s : State} (hkept : Kept s0 s) :
    Kept s0 (State.settleWork o i hs s) := by
  unfold State.settleWork
  repeat' first
    | with_reducible exact hkept | with_reducible assumption
    | (extract_lets +onlyGivenNames y'; refine (fun (_ : Kept s0 y') => ?_) ?_; clear_value y'; revert y'; intro _ _; rotate_left; dsimp only [y']; clear y'; rotate_left)
    | (extract_lets +onlyGivenNames y'; clear_value y'; revert y'; intro _)
    | with_reducible apply State.stageIf_kept | with_reducible apply State.countFolds_kept
    | with_reducible apply State.resultTile_kept | with_reducible apply State.endOpCycles_kept
    | with_reducible apply Kept.ite | with_reducible apply Kept.foldl | with_reducible apply Kept.foldl_fst
    | with_reducible apply Kept.foldl_snd | intro _ _ _ | intro _ _ | intro _ | split | dsimp only
    | exact hkept | assumption

theorem State.settleRead_kept {s0 : State} (o : Op) (i : Nat) (err : ScratchErr) {s : State} (hkept : Kept s0 s) :
    Kept s0 (State.settleRead o i err s) := by
  unfold State.settleRead
  repeat' first
    | with_reducible exact hkept | with_reducible assumption
    | (extract_lets +onlyGivenNames y'; refine (fun (_ : Kept s0 y') => ?_) ?_; clear_value y'; revert y'; intro _ _; rotate_left; dsimp only [y']; clear y'; rotate_left)
    | (extract_lets +onlyGivenNames y'; refine (fun (_ : y'.Kept s0) => ?_) ?_; clear_value y'; revert y'; intro _ _; rotate_left; dsimp only [y']; clear y'; rotate_left)
    | (extract_lets +onlyGivenNames y'; clear_value y'; revert y'; intro _)
    | with_reducible apply State.endOpCycles_kept | with_reducible apply State.prepare_kept
    | with_reducible apply Prep.finish_kept | with_reducible apply State.withErr_kept
    | with_reducible apply State.settleWork_kept | with_reducible apply State.result_kept
    | with_reducible apply Prep.ok_kept | with_reducible apply Prep.wait_kept
    | with_reducible apply Prep.fail_kept | with_reducible apply Prep.of_ok (by with_reducible assumption)
    | with_reducible apply Prep.of_wait (by with_reducible assumption)
    | with_reducible apply Prep.of_fail (by with_reducible assumption) | with_reducible apply Kept.ite
    | intro _ _ _ | intro _ _ | intro _ | split | dsimp only | exact hkept | assumption

theorem State.settleOn_kept {s0 : State} {s : State} (o : Op) (i : Nat) (err : ScratchErr) (hkept : Kept s0 s) :
    Kept s0 (State.settleOn s o i err) := by
  unfold State.settleOn
  repeat' first
    | with_reducible exact hkept | with_reducible assumption
    | (extract_lets +onlyGivenNames y'; refine (fun (_ : Kept s0 y') => ?_) ?_; clear_value y'; revert y'; intro _ _; rotate_left; dsimp only [y']; clear y'; rotate_left)
    | (extract_lets +onlyGivenNames y'; refine (fun (_ : y'.Kept s0) => ?_) ?_; clear_value y'; revert y'; intro _ _; rotate_left; dsimp only [y']; clear y'; rotate_left)
    | (extract_lets +onlyGivenNames y'; clear_value y'; revert y'; intro _)
    | with_reducible apply State.endOpCycles_kept | with_reducible apply State.prepare_kept
    | with_reducible apply Prep.finish_kept | with_reducible apply State.settleRead_kept
    | with_reducible apply Prep.ok_kept | with_reducible apply Prep.wait_kept
    | with_reducible apply Prep.fail_kept | with_reducible apply Prep.of_ok (by with_reducible assumption)
    | with_reducible apply Prep.of_wait (by with_reducible assumption)
    | with_reducible apply Prep.of_fail (by with_reducible assumption) | with_reducible apply Kept.ite | split
    | dsimp only | exact hkept | assumption

end Sys2Proof.Machine
end

