-- ==== Sys2Proof/Laws/KeptSpdm.lean ====
section
/-!
SUPPORT. Laws/KeptSpdm.lean: what the operations of Machine/Spdm.lean keep of a state (Laws/Kept.lean).
-/
namespace Sys2Proof.Machine

theorem State.spdmSend_kept {s0 : State} {s : State} (f : Nat) (b : Bytes) (hkept : Kept s0 s) :
    Kept s0 (State.spdmSend s f b) := by
  unfold State.spdmSend
  repeat' first
    | with_reducible exact hkept | with_reducible assumption | with_reducible apply State.emit_kept
    | with_reducible apply Kept.ite | split | dsimp only | exact hkept | assumption

theorem State.spdm_kept {s0 : State} {s : State} (f : Nat) (msg : Bytes) (code version : Nat) (body : State → Bytes × State) (hkept : Kept s0 s) (hbody : ∀ x0, Kept s0 x0 → Kept s0 (body x0).2) :
    Kept s0 (State.spdm s f msg code version body) := by
  unfold State.spdm
  repeat' first
    | with_reducible exact hkept | with_reducible assumption | with_reducible apply hbody
    | (extract_lets +onlyGivenNames y'; refine (fun (_ : Kept s0 y') => ?_) ?_; clear_value y'; revert y'; intro _ _; rotate_left; dsimp only [y']; clear y'; rotate_left)
    | (extract_lets +onlyGivenNames y'; refine (fun (_ : Kept s0 y'.2) => ?_) ?_; clear_value y'; revert y'; intro _ _; rotate_left; dsimp only [y']; clear y'; rotate_left)
    | (extract_lets +onlyGivenNames y'; clear_value y'; revert y'; intro _)
    | with_reducible apply State.spdmSend_kept | with_reducible apply Kept.ite | intro _ _ _ | intro _ _
    | intro _ | split | dsimp only | exact hkept | assumption

theorem State.withAlias_kept {s0 : State} {s : State} (body : Nat → Bytes × State) (hkept : Kept s0 s) (hbody : ∀ x0, Kept s0 (body x0).2) :
    Kept s0 (State.withAlias s body).2 := by
  unfold State.withAlias
  repeat' first
    | with_reducible exact hkept | with_reducible assumption | with_reducible apply hbody | intro _ _ _
    | intro _ _ | intro _ | split | dsimp only | with_reducible exact Kept.lit (by with_reducible assumption)
    | exact hkept | assumption

theorem unexpected_kept {s0 : State} {s : State} (hkept : Kept s0 s) :
    Kept s0 (unexpected s).2 := by
  unfold unexpected
  repeat' first
    | with_reducible exact hkept | with_reducible assumption | dsimp only | exact hkept | assumption

theorem State.spdmVersion_kept {s0 : State} {s : State} (f : Nat) (msg : Bytes) (hkept : Kept s0 s) :
    Kept s0 (State.spdmVersion s f msg).2 := by
  unfold State.spdmVersion
  repeat' first
    | with_reducible exact hkept | with_reducible assumption
    | (extract_lets +onlyGivenNames y'; refine (fun (_ : Kept s0 y') => ?_) ?_; clear_value y'; revert y'; intro _ _; rotate_left; dsimp only [y']; clear y'; rotate_left)
    | (extract_lets +onlyGivenNames y'; clear_value y'; revert y'; intro _)
    | with_reducible apply State.modFunc_kept | intro _ _ _ | intro _ _ | intro _ | dsimp only
    | with_reducible exact Kept.lit (by with_reducible assumption) | exact hkept | assumption
    | (with_reducible apply Kept.lit
       (first | with_reducible assumption | with_reducible apply State.modFunc_kept))

theorem State.spdmCapabilities_kept {s0 : State} {s : State} (f : Nat) (msg : Bytes) (hkept : Kept s0 s) :
    Kept s0 (State.spdmCapabilities s f msg).2 := by
  unfold State.spdmCapabilities
  repeat' first
    | with_reducible exact hkept | with_reducible assumption
    | (extract_lets +onlyGivenNames y'; refine (fun (_ : Kept s0 y') => ?_) ?_; clear_value y'; revert y'; intro _ _; rotate_left; dsimp only [y']; clear y'; rotate_left)
    | (extract_lets +onlyGivenNames y'; refine (fun (_ : Kept s0 y'.2) => ?_) ?_; clear_value y'; revert y'; intro _ _; rotate_left; dsimp only [y']; clear y'; rotate_left)
    | (extract_lets +onlyGivenNames y'; clear_value y'; revert y'; intro _)
    | with_reducible apply State.modFunc_kept | with_reducible apply unexpected_kept
    | with_reducible apply Kept.snd_ite | with_reducible apply Kept.ite | intro _ _ _ | intro _ _ | intro _
    | split | dsimp only | with_reducible exact Kept.lit (by with_reducible assumption) | exact hkept
    | assumption
    | (with_reducible apply Kept.lit
       (first | with_reducible assumption | with_reducible apply State.modFunc_kept
              | with_reducible apply unexpected_kept))

theorem State.spdmAlgorithms_kept {s0 : State} {s : State} (f : Nat) (msg : Bytes) (hkept : Kept s0 s) :
    Kept s0 (State.spdmAlgorithms s f msg).2 := by
  unfold State.spdmAlgorithms
  repeat' first
    | with_reducible exact hkept | with_reducible assumption
    | (extract_lets +onlyGivenNames y'; refine (fun (_ : Kept s0 y') => ?_) ?_; clear_value y'; revert y'; intro _ _; rotate_left; dsimp only [y']; clear y'; rotate_left)
    | (extract_lets +onlyGivenNames y'; refine (fun (_ : Kept s0 y'.2) => ?_) ?_; clear_value y'; revert y'; intro _ _; rotate_left; dsimp only [y']; clear y'; rotate_left)
    | (extract_lets +onlyGivenNames y'; clear_value y'; revert y'; intro _)
    | with_reducible apply State.modFunc_kept | with_reducible apply unexpected_kept
    | with_reducible apply Kept.snd_ite | with_reducible apply Kept.ite | intro _ _ _ | intro _ _ | intro _
    | split | dsimp only | with_reducible exact Kept.lit (by with_reducible assumption) | exact hkept
    | assumption
    | (with_reducible apply Kept.lit
       (first | with_reducible assumption | with_reducible apply State.modFunc_kept
              | with_reducible apply unexpected_kept))

theorem State.spdmDigests_kept {s0 : State} {s : State} (f : Nat) (msg : Bytes) (hkept : Kept s0 s) :
    Kept s0 (State.spdmDigests s f msg).2 := by
  unfold State.spdmDigests
  repeat' first
    | with_reducible exact hkept | with_reducible assumption
    | (extract_lets +onlyGivenNames y'; refine (fun (_ : Kept s0 y') => ?_) ?_; clear_value y'; revert y'; intro _ _; rotate_left; dsimp only [y']; clear y'; rotate_left)
    | (extract_lets +onlyGivenNames y'; refine (fun (_ : Kept s0 y'.2) => ?_) ?_; clear_value y'; revert y'; intro _ _; rotate_left; dsimp only [y']; clear y'; rotate_left)
    | (extract_lets +onlyGivenNames y'; clear_value y'; revert y'; intro _)
    | with_reducible apply State.modFunc_kept | with_reducible apply unexpected_kept
    | with_reducible apply Kept.snd_ite | with_reducible apply Kept.ite | intro _ _ _ | intro _ _ | intro _
    | split | dsimp only | with_reducible exact Kept.lit (by with_reducible assumption) | exact hkept
    | assumption
    | (with_reducible apply Kept.lit
       (first | with_reducible assumption | with_reducible apply State.modFunc_kept
              | with_reducible apply unexpected_kept))

theorem State.spdmCertificate_kept {s0 : State} {s : State} (f : Nat) (msg : Bytes) (hkept : Kept s0 s) :
    Kept s0 (State.spdmCertificate s f msg).2 := by
  unfold State.spdmCertificate
  repeat' first
    | with_reducible exact hkept | with_reducible assumption
    | (extract_lets +onlyGivenNames y'; refine (fun (_ : Kept s0 y') => ?_) ?_; clear_value y'; revert y'; intro _ _; rotate_left; dsimp only [y']; clear y'; rotate_left)
    | (extract_lets +onlyGivenNames y'; refine (fun (_ : Kept s0 y'.2) => ?_) ?_; clear_value y'; revert y'; intro _ _; rotate_left; dsimp only [y']; clear y'; rotate_left)
    | (extract_lets +onlyGivenNames y'; clear_value y'; revert y'; intro _)
    | with_reducible apply State.modFunc_kept | with_reducible apply unexpected_kept
    | with_reducible apply Kept.snd_ite | with_reducible apply Kept.ite | intro _ _ _ | intro _ _ | intro _
    | split | dsimp only | with_reducible exact Kept.lit (by with_reducible assumption) | exact hkept
    | assumption
    | (with_reducible apply Kept.lit
       (first | with_reducible assumption | with_reducible apply State.modFunc_kept
              | with_reducible apply unexpected_kept))

theorem State.spdmChallenge_kept {s0 : State} {s : State} (f : Nat) (msg : Bytes) (hkept : Kept s0 s) :
    Kept s0 (State.spdmChallenge s f msg).2 := by
  unfold State.spdmChallenge
  repeat' first
    | with_reducible exact hkept | with_reducible assumption
    | (extract_lets +onlyGivenNames y'; refine (fun (_ : Kept s0 y') => ?_) ?_; clear_value y'; revert y'; intro _ _; rotate_left; dsimp only [y']; clear y'; rotate_left)
    | (extract_lets +onlyGivenNames y'; refine (fun (_ : Kept s0 y'.2) => ?_) ?_; clear_value y'; revert y'; intro _ _; rotate_left; dsimp only [y']; clear y'; rotate_left)
    | (extract_lets +onlyGivenNames y'; clear_value y'; revert y'; intro _)
    | with_reducible apply State.withAlias_kept | with_reducible apply State.freeBytes_kept
    | with_reducible apply State.modFunc_kept | with_reducible apply unexpected_kept
    | with_reducible apply Kept.snd_ite | with_reducible apply Kept.ite | intro _ _ _ | intro _ _ | intro _
    | split | dsimp only | with_reducible exact Kept.lit (by with_reducible assumption) | exact hkept
    | assumption
    | (with_reducible apply Kept.lit
       (first | with_reducible assumption | with_reducible apply State.withAlias_kept
              | with_reducible apply State.freeBytes_kept | with_reducible apply State.modFunc_kept
              | with_reducible apply unexpected_kept))

theorem State.spdmMeasurements_kept {s0 : State} {s : State} (f : Nat) (msg : Bytes) (hkept : Kept s0 s) :
    Kept s0 (State.spdmMeasurements s f msg).2 := by
  unfold State.spdmMeasurements
  repeat' first
    | with_reducible exact hkept | with_reducible assumption
    | (extract_lets +onlyGivenNames y'; refine (fun (_ : Kept s0 y') => ?_) ?_; clear_value y'; revert y'; intro _ _; rotate_left; dsimp only [y']; clear y'; rotate_left)
    | (extract_lets +onlyGivenNames y'; refine (fun (_ : Kept s0 y'.2) => ?_) ?_; clear_value y'; revert y'; intro _ _; rotate_left; dsimp only [y']; clear y'; rotate_left)
    | (extract_lets +onlyGivenNames y'; clear_value y'; revert y'; intro _)
    | with_reducible apply State.withAlias_kept | with_reducible apply State.freeBytes_kept
    | with_reducible apply State.modFunc_kept | with_reducible apply unexpected_kept
    | with_reducible apply Kept.snd_ite | with_reducible apply Kept.ite | intro _ _ _ | intro _ _ | intro _
    | split | dsimp only | with_reducible exact Kept.lit (by with_reducible assumption) | exact hkept
    | assumption
    | (with_reducible apply Kept.lit
       (first | with_reducible assumption | with_reducible apply State.withAlias_kept
              | with_reducible apply State.freeBytes_kept | with_reducible apply State.modFunc_kept
              | with_reducible apply unexpected_kept))

theorem State.kexReply_kept {s0 : State} {s : State} (f : Nat) (msg rnd : Bytes) (hkept : Kept s0 s) :
    Kept s0 (State.kexReply s f msg rnd).2 := by
  unfold State.kexReply
  repeat' first
    | with_reducible exact hkept | with_reducible assumption
    | (extract_lets +onlyGivenNames y'; refine (fun (_ : Kept s0 y') => ?_) ?_; clear_value y'; revert y'; intro _ _; rotate_left; dsimp only [y']; clear y'; rotate_left)
    | (extract_lets +onlyGivenNames y'; refine (fun (_ : Kept s0 y'.2) => ?_) ?_; clear_value y'; revert y'; intro _ _; rotate_left; dsimp only [y']; clear y'; rotate_left)
    | (extract_lets +onlyGivenNames y'; clear_value y'; revert y'; intro _)
    | with_reducible apply State.withAlias_kept | with_reducible apply State.modFunc_kept
    | with_reducible apply Kept.of_snd (by with_reducible assumption) | with_reducible apply Kept.foldl
    | with_reducible apply Kept.foldl_fst | with_reducible apply Kept.foldl_snd | intro _ _ _ | intro _ _
    | intro _ | split | dsimp only | with_reducible exact Kept.lit (by with_reducible assumption) | exact hkept
    | assumption
    | (with_reducible apply Kept.lit
       (first | with_reducible assumption | with_reducible apply State.withAlias_kept
              | with_reducible apply State.modFunc_kept))

theorem State.keyExchange_kept {s0 : State} {s : State} (f : Nat) (msg : Bytes) (hkept : Kept s0 s) :
    Kept s0 (State.keyExchange s f msg) := by
  unfold State.keyExchange
  repeat' first
    | with_reducible exact hkept | with_reducible assumption
    | (extract_lets +onlyGivenNames y'; refine (fun (_ : Kept s0 y') => ?_) ?_; clear_value y'; revert y'; intro _ _; rotate_left; dsimp only [y']; clear y'; rotate_left)
    | (extract_lets +onlyGivenNames y'; refine (fun (_ : Kept s0 y'.2) => ?_) ?_; clear_value y'; revert y'; intro _ _; rotate_left; dsimp only [y']; clear y'; rotate_left)
    | (extract_lets +onlyGivenNames y'; clear_value y'; revert y'; intro _)
    | with_reducible apply State.spdmSend_kept | with_reducible apply State.draw_kept
    | with_reducible apply State.kexReply_kept | with_reducible apply State.rngWait_kept
    | with_reducible apply Kept.ite | split | dsimp only | exact hkept | assumption

theorem State.inSession_kept {s0 : State} {s : State} (f sess : Nat) (hs : Bool) (body : SpdmSession → Bytes × State) (hkept : Kept s0 s) (hbody : ∀ x0, Kept s0 (body x0).2) :
    Kept s0 (State.inSession s f sess hs body).2 := by
  unfold State.inSession
  repeat' first
    | with_reducible exact hkept | with_reducible assumption | with_reducible apply hbody
    | with_reducible apply unexpected_kept | with_reducible apply Kept.of_snd (by with_reducible assumption)
    | with_reducible apply Kept.snd_ite | with_reducible apply Kept.ite | intro _ _ _ | intro _ _ | intro _
    | split | dsimp only | with_reducible exact Kept.lit (by with_reducible assumption) | exact hkept
    | assumption
    | (with_reducible apply Kept.lit
       (first | with_reducible assumption | with_reducible apply unexpected_kept))

theorem State.modSession_kept {s0 : State} {s : State} (f sess : Nat) (g : SpdmSession → SpdmSession) (hkept : Kept s0 s) :
    Kept s0 (State.modSession s f sess g) := by
  unfold State.modSession
  repeat' first
    | with_reducible exact hkept | with_reducible assumption | with_reducible apply State.modFunc_kept
    | with_reducible apply Kept.ite | intro _ _ _ | intro _ _ | intro _ | split | dsimp only
    | with_reducible exact Kept.lit (by with_reducible assumption) | exact hkept | assumption
    | (with_reducible apply Kept.lit
       (first | with_reducible assumption | with_reducible apply State.modFunc_kept))

theorem State.dropSession_kept {s0 : State} {s : State} (f sess : Nat) (hkept : Kept s0 s) :
    Kept s0 (State.dropSession s f sess) := by
  unfold State.dropSession
  repeat' first
    | with_reducible exact hkept | with_reducible assumption | with_reducible apply State.modFunc_kept
    | intro _ _ _ | intro _ _ | intro _ | dsimp only
    | with_reducible exact Kept.lit (by with_reducible assumption) | exact hkept | assumption
    | (with_reducible apply Kept.lit
       (first | with_reducible assumption | with_reducible apply State.modFunc_kept))

theorem State.spdmFinish_kept {s0 : State} {s : State} (f sess : Nat) (msg : Bytes) (hkept : Kept s0 s) :
    Kept s0 (State.spdmFinish s f sess msg).2 := by
  unfold State.spdmFinish
  repeat' first
    | with_reducible exact hkept | with_reducible assumption
    | (extract_lets +onlyGivenNames y'; refine (fun (_ : Kept s0 y') => ?_) ?_; clear_value y'; revert y'; intro _ _; rotate_left; dsimp only [y']; clear y'; rotate_left)
    | (extract_lets +onlyGivenNames y'; refine (fun (_ : Kept s0 y'.2) => ?_) ?_; clear_value y'; revert y'; intro _ _; rotate_left; dsimp only [y']; clear y'; rotate_left)
    | (extract_lets +onlyGivenNames y'; clear_value y'; revert y'; intro _)
    | with_reducible apply State.inSession_kept | with_reducible apply State.dropSession_kept
    | with_reducible apply State.modSession_kept | with_reducible apply Kept.snd_ite
    | with_reducible apply Kept.ite | intro _ _ _ | intro _ _ | intro _ | split | dsimp only
    | with_reducible exact Kept.lit (by with_reducible assumption) | exact hkept | assumption
    | (with_reducible apply Kept.lit
       (first | with_reducible assumption | with_reducible apply State.inSession_kept
              | with_reducible apply State.dropSession_kept | with_reducible apply State.modSession_kept))

theorem State.spdmHeartbeat_kept {s0 : State} {s : State} (f sess : Nat) (hkept : Kept s0 s) :
    Kept s0 (State.spdmHeartbeat s f sess).2 := by
  unfold State.spdmHeartbeat
  repeat' first
    | with_reducible exact hkept | with_reducible assumption | with_reducible apply State.inSession_kept
    | intro _ _ _ | intro _ _ | intro _ | dsimp only | exact hkept | assumption

theorem State.spdmKeyUpdate_kept {s0 : State} {s : State} (f sess : Nat) (msg : Bytes) (hkept : Kept s0 s) :
    Kept s0 (State.spdmKeyUpdate s f sess msg).2 := by
  unfold State.spdmKeyUpdate
  repeat' first
    | with_reducible exact hkept | with_reducible assumption
    | (extract_lets +onlyGivenNames y'; refine (fun (_ : Kept s0 y') => ?_) ?_; clear_value y'; revert y'; intro _ _; rotate_left; dsimp only [y']; clear y'; rotate_left)
    | (extract_lets +onlyGivenNames y'; refine (fun (_ : Kept s0 y'.2) => ?_) ?_; clear_value y'; revert y'; intro _ _; rotate_left; dsimp only [y']; clear y'; rotate_left)
    | (extract_lets +onlyGivenNames y'; clear_value y'; revert y'; intro _)
    | with_reducible apply State.inSession_kept | with_reducible apply State.modSession_kept
    | with_reducible apply Kept.snd_ite | with_reducible apply Kept.ite | intro _ _ _ | intro _ _ | intro _
    | split | dsimp only | with_reducible exact Kept.lit (by with_reducible assumption) | exact hkept
    | assumption
    | (with_reducible apply Kept.lit
       (first | with_reducible assumption | with_reducible apply State.inSession_kept
              | with_reducible apply State.modSession_kept))

theorem State.spdmEndSession_kept {s0 : State} {s : State} (f sess : Nat) (hkept : Kept s0 s) :
    Kept s0 (State.spdmEndSession s f sess).2 := by
  unfold State.spdmEndSession
  repeat' first
    | with_reducible exact hkept | with_reducible assumption | with_reducible apply State.inSession_kept
    | with_reducible apply State.dropSession_kept | intro _ _ _ | intro _ _ | intro _ | dsimp only
    | exact hkept | assumption

theorem State.tdisp_kept {s0 : State} {s : State} (b : Bytes) (hkept : Kept s0 s) :
    Kept s0 (State.tdisp s b).2 := by
  unfold State.tdisp
  repeat' first
    | with_reducible exact hkept | with_reducible assumption
    | (extract_lets +onlyGivenNames y'; refine (fun (_ : Kept s0 y') => ?_) ?_; clear_value y'; revert y'; intro _ _; rotate_left; dsimp only [y']; clear y'; rotate_left)
    | (extract_lets +onlyGivenNames y'; refine (fun (_ : Kept s0 y'.2) => ?_) ?_; clear_value y'; revert y'; intro _ _; rotate_left; dsimp only [y']; clear y'; rotate_left)
    | (extract_lets +onlyGivenNames y'; clear_value y'; revert y'; intro _)
    | with_reducible apply State.tdiLock_kept | with_reducible apply State.freeBytes_kept
    | with_reducible apply State.modFunc_kept | with_reducible apply State.tdiStart_kept
    | with_reducible apply State.tdiStop_kept | with_reducible apply Kept.of_snd (by with_reducible assumption)
    | with_reducible apply Kept.snd_ite | with_reducible apply Kept.ite | intro _ _ _ | intro _ _ | intro _
    | split | dsimp only | with_reducible exact Kept.lit (by with_reducible assumption) | exact hkept
    | assumption
    | (with_reducible apply Kept.lit
       (first | with_reducible assumption | with_reducible apply State.tdiLock_kept
              | with_reducible apply State.freeBytes_kept | with_reducible apply State.modFunc_kept
              | with_reducible apply State.tdiStart_kept | with_reducible apply State.tdiStop_kept))

theorem State.ideKmMsg_kept {s0 : State} {s : State} (b : Bytes) (hkept : Kept s0 s) :
    Kept s0 (State.ideKmMsg s b).2 := by
  unfold State.ideKmMsg
  repeat' first
    | with_reducible exact hkept | with_reducible assumption
    | (extract_lets +onlyGivenNames y'; refine (fun (_ : Kept s0 y') => ?_) ?_; clear_value y'; revert y'; intro _ _; rotate_left; dsimp only [y']; clear y'; rotate_left)
    | (extract_lets +onlyGivenNames y'; clear_value y'; revert y'; intro _)
    | with_reducible apply State.setIde_kept | intro _ _ _ | intro _ _ | intro _ | split | dsimp only
    | with_reducible exact Kept.lit (by with_reducible assumption) | exact hkept | assumption
    | (with_reducible apply Kept.lit
       (first | with_reducible assumption | with_reducible apply State.setIde_kept))

theorem State.spdmVendor_kept {s0 : State} {s : State} (f sess : Nat) (msg : Bytes) (hkept : Kept s0 s) :
    Kept s0 (State.spdmVendor s f sess msg).2 := by
  unfold State.spdmVendor
  repeat' first
    | with_reducible exact hkept | with_reducible assumption
    | (extract_lets +onlyGivenNames y'; refine (fun (_ : Kept s0 y') => ?_) ?_; clear_value y'; revert y'; intro _ _; rotate_left; dsimp only [y']; clear y'; rotate_left)
    | (extract_lets +onlyGivenNames y'; refine (fun (_ : Kept s0 y'.2) => ?_) ?_; clear_value y'; revert y'; intro _ _; rotate_left; dsimp only [y']; clear y'; rotate_left)
    | (extract_lets +onlyGivenNames y'; clear_value y'; revert y'; intro _)
    | with_reducible apply State.inSession_kept | with_reducible apply State.tdisp_kept
    | with_reducible apply State.ideKmMsg_kept | with_reducible apply Kept.snd_ite
    | with_reducible apply Kept.ite | intro _ _ _ | intro _ _ | intro _ | split | dsimp only | exact hkept
    | assumption

theorem State.mctpAnswer_kept {s0 : State} {s : State} (port cmd : Nat) (b : Bytes) (hkept : Kept s0 s) :
    Kept s0 (State.mctpAnswer s port cmd b).2 := by
  unfold State.mctpAnswer
  repeat' first
    | with_reducible exact hkept | with_reducible assumption
    | (extract_lets +onlyGivenNames y'; refine (fun (_ : Kept s0 y') => ?_) ?_; clear_value y'; revert y'; intro _ _; rotate_left; dsimp only [y']; clear y'; rotate_left)
    | (extract_lets +onlyGivenNames y'; clear_value y'; revert y'; intro _) | intro _ _ _ | intro _ _ | intro _
    | split | dsimp only | with_reducible exact Kept.lit (by with_reducible assumption) | exact hkept
    | assumption

end Sys2Proof.Machine
end

