-- ==== Sys2Proof/Laws/KeptRngServe.lean ====
section
/-!
SUPPORT. Laws/KeptRngServe.lean: what the operations of Machine/RngServe.lean keep of a state (Laws/Kept.lean).
-/
namespace Sys2Proof.Machine

theorem State.failCaller_kept {s0 : State} {s : State} (a0 : Caller) (hkept : Kept s0 s) :
    Kept s0 (State.failCaller s a0) := by
  cases a0 <;>
   (unfold State.failCaller
    repeat' first
     | with_reducible exact hkept | with_reducible assumption | with_reducible apply State.loadWithoutKeys_kept
     | with_reducible apply State.modAdm_kept | with_reducible apply State.refuseHello_kept
     | with_reducible apply State.keyExchange_kept | with_reducible apply State.spdmSend_kept
     | with_reducible apply State.mbxStatus_kept | with_reducible apply Prep.poly_kept
     | with_reducible apply State.endPoly_kept | intro _ _ _ | intro _ _ | intro _ | split | dsimp only
     | with_reducible exact Kept.lit (by with_reducible assumption) | exact hkept | assumption
     | (with_reducible apply Kept.lit
        (first | with_reducible assumption | with_reducible apply State.loadWithoutKeys_kept
               | with_reducible apply State.modAdm_kept | with_reducible apply State.refuseHello_kept
               | with_reducible apply State.keyExchange_kept | with_reducible apply State.spdmSend_kept
               | with_reducible apply State.mbxStatus_kept | with_reducible apply Prep.poly_kept
               | with_reducible apply State.endPoly_kept)))

theorem State.rngStops_kept {s0 : State} {s : State} (hkept : Kept s0 s) :
    Kept s0 (State.rngStops s) := by
  unfold State.rngStops
  repeat' first
    | with_reducible exact hkept | with_reducible assumption
    | (extract_lets +onlyGivenNames y'; refine (fun (_ : Kept s0 y') => ?_) ?_; clear_value y'; revert y'; intro _ _; rotate_left; dsimp only [y']; clear y'; rotate_left)
    | (extract_lets +onlyGivenNames y'; clear_value y'; revert y'; intro _)
    | with_reducible apply State.modRng_kept | with_reducible apply State.failCaller_kept
    | with_reducible apply State.addErr_kept | with_reducible apply Kept.foldl
    | with_reducible apply Kept.foldl_fst | with_reducible apply Kept.foldl_snd | intro _ _ _ | intro _ _
    | intro _ | dsimp only | with_reducible exact Kept.lit (by with_reducible assumption) | exact hkept
    | assumption
    | (with_reducible apply Kept.lit
       (first | with_reducible assumption | with_reducible apply State.modRng_kept
              | with_reducible apply State.failCaller_kept | with_reducible apply State.addErr_kept))

theorem State.resumeMbx_kept {s0 : State} {s : State} (m : Mbx) (hkept : Kept s0 s) :
    Kept s0 (State.resumeMbx s m) := by
  unfold State.resumeMbx
  repeat' first
    | with_reducible exact hkept | with_reducible assumption
    | (extract_lets +onlyGivenNames y'; refine (fun (_ : Kept s0 y') => ?_) ?_; clear_value y'; revert y'; intro _ _; rotate_left; dsimp only [y']; clear y'; rotate_left)
    | (extract_lets +onlyGivenNames y'; clear_value y'; revert y'; intro _)
    | with_reducible apply State.setMbx_kept | with_reducible apply State.keyWrapRun_kept
    | with_reducible apply State.memRotateRun_kept | with_reducible apply Kept.ite | split | dsimp only
    | with_reducible exact Kept.lit (by with_reducible assumption) | exact hkept | assumption
    | (with_reducible apply Kept.lit
       (first | with_reducible assumption | with_reducible apply State.setMbx_kept
              | with_reducible apply State.keyWrapRun_kept | with_reducible apply State.memRotateRun_kept))

theorem State.serveCaller_kept {s0 : State} {s : State} (a0 : Caller) (hkept : Kept s0 s) :
    Kept s0 (State.serveCaller s a0) := by
  cases a0 <;>
   (unfold State.serveCaller
    repeat' first
     | with_reducible exact hkept | with_reducible assumption
     | (extract_lets +onlyGivenNames y'; refine (fun (_ : Kept s0 y') => ?_) ?_; clear_value y'; revert y'; intro _ _; rotate_left; dsimp only [y']; clear y'; rotate_left)
     | (extract_lets +onlyGivenNames y'; refine (fun (_ : Kept s0 y'.2) => ?_) ?_; clear_value y'; revert y'; intro _ _; rotate_left; dsimp only [y']; clear y'; rotate_left)
     | (extract_lets +onlyGivenNames y'; clear_value y'; revert y'; intro _)
     | with_reducible apply State.draw_kept | with_reducible apply State.makePartKeys_kept
     | with_reducible apply State.helloReply_kept | with_reducible apply State.keyExchange_kept
     | with_reducible apply State.resumeMbx_kept | with_reducible apply Prep.poly_kept
     | with_reducible apply State.macroRun_kept
     | with_reducible apply Kept.of_snd (by with_reducible assumption) | split | dsimp only
     | with_reducible exact Kept.lit (by with_reducible assumption) | exact hkept | assumption
     | (with_reducible apply Kept.lit
        (first | with_reducible assumption | with_reducible apply State.draw_kept
               | with_reducible apply State.makePartKeys_kept | with_reducible apply State.helloReply_kept
               | with_reducible apply State.keyExchange_kept | with_reducible apply State.resumeMbx_kept
               | with_reducible apply Prep.poly_kept | with_reducible apply State.macroRun_kept)))

end Sys2Proof.Machine
end

