-- ==== Sys2Proof/Laws/KeptTamper.lean ====
section
/-!
SUPPORT. Laws/KeptTamper.lean: what the operations of Machine/Tamper.lean keep of a state (Laws/Kept.lean).
-/
namespace Sys2Proof.Machine

theorem State.addTamper_kept {s0 : State} {s : State} (source response : Nat) (hkept : Kept s0 s) :
    Kept s0 (State.addTamper s source response) := by
  unfold State.addTamper
  repeat' first
    | with_reducible exact hkept | with_reducible assumption
    | (extract_lets +onlyGivenNames y'; refine (fun (_ : Kept s0 y') => ?_) ?_; clear_value y'; revert y'; intro _ _; rotate_left; dsimp only [y']; clear y'; rotate_left)
    | (extract_lets +onlyGivenNames y'; clear_value y'; revert y'; intro _)
    | with_reducible apply State.modSbox_kept | with_reducible apply Kept.ite | intro _ _ _ | intro _ _
    | intro _ | split | dsimp only | with_reducible exact Kept.lit (by with_reducible assumption) | exact hkept
    | assumption | (simp only [List.length_append, List.length_drop, List.length_cons, List.length_nil]; omega)
    | exact rfl | exact Nat.le_refl _
    | (with_reducible apply Kept.lit
       (first | with_reducible assumption | with_reducible apply State.modSbox_kept))

theorem State.abortCaller_kept {s0 : State} {s : State} (a0 : Caller) (hkept : Kept s0 s) :
    Kept s0 (State.abortCaller s a0) := by
  cases a0 <;>
   (unfold State.abortCaller
    repeat' first
     | with_reducible exact hkept | with_reducible assumption | with_reducible apply State.keyExchange_kept
     | with_reducible apply State.spdmSend_kept | with_reducible apply Prep.poly_kept
     | with_reducible apply State.endPoly_kept | split | dsimp only
     | with_reducible exact Kept.lit (by with_reducible assumption) | exact hkept | assumption
     | (with_reducible apply Kept.lit
        (first | with_reducible assumption | with_reducible apply State.keyExchange_kept
               | with_reducible apply State.spdmSend_kept | with_reducible apply Prep.poly_kept
               | with_reducible apply State.endPoly_kept)))

theorem State.abortMbx_kept {s0 : State} {s : State} (m : Mbx) (hkept : Kept s0 s) :
    Kept s0 (State.abortMbx s m) := by
  unfold State.abortMbx
  repeat' first
    | with_reducible exact hkept | with_reducible assumption | with_reducible apply State.mbxStatus_kept
    | with_reducible apply Kept.ite | split | dsimp only | exact hkept | assumption

theorem State.abortSeals_kept {s0 : State} {s : State} (hkept : Kept s0 s) :
    Kept s0 (State.abortSeals s) := by
  unfold State.abortSeals
  repeat' first
    | with_reducible exact hkept | with_reducible assumption | with_reducible apply State.endHost_kept
    | with_reducible apply State.modSub_kept | with_reducible apply Kept.foldl
    | with_reducible apply Kept.foldl_fst | with_reducible apply Kept.foldl_snd | intro _ _ _ | intro _ _
    | intro _ | dsimp only | with_reducible exact Kept.lit (by with_reducible assumption) | exact hkept
    | assumption
    | (with_reducible apply Kept.lit
       (first | with_reducible assumption | with_reducible apply State.endHost_kept
              | with_reducible apply State.modSub_kept))

theorem State.abortKeyUse_kept {s0 : State} {s : State} (hkept : Kept s0 s) :
    Kept s0 (State.abortKeyUse s) := by
  unfold State.abortKeyUse
  repeat' first
    | with_reducible exact hkept | with_reducible assumption
    | (extract_lets +onlyGivenNames y'; refine (fun (_ : Kept s0 y') => ?_) ?_; clear_value y'; revert y'; intro _ _; rotate_left; dsimp only [y']; clear y'; rotate_left)
    | (extract_lets +onlyGivenNames y'; clear_value y'; revert y'; intro _)
    | with_reducible apply State.abortMbx_kept | with_reducible apply State.abortCaller_kept
    | with_reducible apply State.modRng_kept | with_reducible apply State.abandonMove_kept
    | with_reducible apply State.failTags_kept | with_reducible apply State.abortSeals_kept
    | with_reducible apply State.endOpCycles_kept | with_reducible apply State.abandonGroups_kept
    | with_reducible apply State.endLoad_kept | with_reducible apply Kept.foldl
    | with_reducible apply Kept.foldl_fst | with_reducible apply Kept.foldl_snd | intro _ _ _ | intro _ _
    | intro _ | dsimp only | with_reducible exact Kept.lit (by with_reducible assumption) | exact hkept
    | assumption
    | (with_reducible apply Kept.lit
       (first | with_reducible assumption | with_reducible apply State.abortMbx_kept
              | with_reducible apply State.abortCaller_kept | with_reducible apply State.modRng_kept
              | with_reducible apply State.abandonMove_kept | with_reducible apply State.failTags_kept
              | with_reducible apply State.abortSeals_kept | with_reducible apply State.endOpCycles_kept
              | with_reducible apply State.abandonGroups_kept | with_reducible apply State.endLoad_kept))

theorem State.destroyKeys_kept {s0 : State} {s : State} (hkept : Kept s0 s) :
    Kept s0 (State.destroyKeys s) := by
  unfold State.destroyKeys
  repeat' first
    | with_reducible exact hkept | with_reducible assumption
    | (extract_lets +onlyGivenNames y'; refine (fun (_ : Kept s0 y') => ?_) ?_; clear_value y'; revert y'; intro _ _; rotate_left; dsimp only [y']; clear y'; rotate_left)
    | (extract_lets +onlyGivenNames y'; clear_value y'; revert y'; intro _)
    | with_reducible apply State.sweepSlot_kept | with_reducible apply State.modSbox_kept
    | with_reducible apply State.orphan_kept | with_reducible apply Kept.ite | with_reducible apply Kept.foldl
    | with_reducible apply Kept.foldl_fst | with_reducible apply Kept.foldl_snd
    | with_reducible refine Kept.lit_slots (by with_reducible assumption) ?_
    | (with_reducible apply Kept.slots
       (first | with_reducible assumption | with_reducible apply State.sweepSlot_kept
              | with_reducible apply State.modSbox_kept | with_reducible apply State.orphan_kept))
    | intro _ _ _ | intro _ _ | intro _ | split | dsimp only
    | with_reducible exact Kept.lit (by with_reducible assumption) | exact hkept | assumption | exact rfl
    | exact Nat.le_refl _
    | (with_reducible apply Kept.lit
       (first | with_reducible assumption | with_reducible apply State.sweepSlot_kept
              | with_reducible apply State.modSbox_kept | with_reducible apply State.orphan_kept))

theorem State.enterHold_kept {s0 : State} {s : State} (hkept : Kept s0 s) :
    Kept s0 (State.enterHold s) := by
  unfold State.enterHold
  repeat' first
    | with_reducible exact hkept | with_reducible assumption | dsimp only
    | with_reducible exact Kept.lit (by with_reducible assumption) | exact hkept | assumption

theorem State.tamperEvent_kept {s0 : State} {s : State} (src : Nat) (hkept : Kept s0 s) :
    Kept s0 (State.tamperEvent s src) := by
  unfold State.tamperEvent
  repeat' first
    | with_reducible exact hkept | with_reducible assumption | with_reducible apply State.doze_kept
    | with_reducible apply State.setRegN_kept | with_reducible apply State.setEvents_kept
    | with_reducible apply Kept.ite | split | dsimp only
    | with_reducible exact Kept.lit (by with_reducible assumption) | exact hkept | assumption
    | (with_reducible apply Kept.lit
       (first | with_reducible assumption | with_reducible apply State.doze_kept
              | with_reducible apply State.setRegN_kept | with_reducible apply State.setEvents_kept))

theorem State.respond_kept {s0 : State} {s : State} (src response : Nat) (hkept : Kept s0 s) :
    Kept s0 (State.respond s src response) := by
  unfold State.respond
  repeat' first
    | with_reducible exact hkept | with_reducible assumption
    | (extract_lets +onlyGivenNames y'; refine (fun (_ : Kept s0 y') => ?_) ?_; clear_value y'; revert y'; intro _ _; rotate_left; dsimp only [y']; clear y'; rotate_left)
    | (extract_lets +onlyGivenNames y'; clear_value y'; revert y'; intro _)
    | with_reducible apply State.abortKeyUse_kept | with_reducible apply State.addTamper_kept
    | with_reducible apply State.destroyKeys_kept | with_reducible apply State.dropDeadLinks_kept
    | with_reducible apply State.enterHold_kept | with_reducible apply State.tamperEvent_kept
    | with_reducible apply Kept.ite | split | dsimp only | exact hkept | assumption

theorem State.respondStart_kept {s0 : State} {s : State} (src response : Nat) (hkept : Kept s0 s) :
    Kept s0 (State.respondStart s src response) := by
  unfold State.respondStart
  repeat' first
    | with_reducible exact hkept | with_reducible assumption
    | (extract_lets +onlyGivenNames y'; refine (fun (_ : Kept s0 y') => ?_) ?_; clear_value y'; revert y'; intro _ _; rotate_left; dsimp only [y']; clear y'; rotate_left)
    | (extract_lets +onlyGivenNames y'; clear_value y'; revert y'; intro _)
    | with_reducible apply State.addTamper_kept | with_reducible apply State.enterHold_kept
    | with_reducible apply State.modSbox_kept | with_reducible apply State.tamperEvent_kept
    | with_reducible apply Kept.ite | with_reducible refine Kept.lit_slots (by with_reducible assumption) ?_
    | (with_reducible apply Kept.slots
       (first | with_reducible assumption | with_reducible apply State.addTamper_kept
              | with_reducible apply State.enterHold_kept | with_reducible apply State.modSbox_kept
              | with_reducible apply State.tamperEvent_kept))
    | intro _ _ _ | intro _ _ | intro _ | split | dsimp only
    | with_reducible exact Kept.lit (by with_reducible assumption) | exact hkept | assumption | exact rfl
    | exact Nat.le_refl _
    | (with_reducible apply Kept.lit
       (first | with_reducible assumption | with_reducible apply State.addTamper_kept
              | with_reducible apply State.enterHold_kept | with_reducible apply State.modSbox_kept
              | with_reducible apply State.tamperEvent_kept))

theorem State.alarm_kept {s0 : State} {s : State} (src : Nat) (hkept : Kept s0 s) :
    Kept s0 (State.alarm s src) := by
  unfold State.alarm
  repeat' first
    | with_reducible exact hkept | with_reducible assumption
    | (extract_lets +onlyGivenNames y'; refine (fun (_ : Kept s0 y') => ?_) ?_; clear_value y'; revert y'; intro _ _; rotate_left; dsimp only [y']; clear y'; rotate_left)
    | (extract_lets +onlyGivenNames y'; clear_value y'; revert y'; intro _)
    | with_reducible apply State.modSbox_kept | with_reducible apply State.respondStart_kept
    | with_reducible apply State.respond_kept | with_reducible apply Kept.ite | intro _ _ _ | intro _ _
    | intro _ | split | dsimp only | with_reducible exact Kept.lit (by with_reducible assumption) | exact hkept
    | assumption | exact rfl | exact Nat.le_refl _
    | (with_reducible apply Kept.lit
       (first | with_reducible assumption | with_reducible apply State.modSbox_kept
              | with_reducible apply State.respondStart_kept | with_reducible apply State.respond_kept))

end Sys2Proof.Machine
end

