-- ==== Sys2Proof/Laws/KeptReset.lean ====
section
/-!
SUPPORT. Laws/KeptReset.lean: what the operations of Machine/Reset.lean keep of a state (Laws/Kept.lean).
-/
namespace Sys2Proof.Machine

theorem State.spoilSlot_kept {s0 s : State} (slot n : Nat) (hkept : Kept s0 s) : Kept s0 (State.spoilSlot s slot n) :=
  hkept.ofFormed rfl rfl rfl rfl fun x => { x with flash := Memory.wf_write _ _ x.flash }

theorem State.warmRegs_wf {s : State} (w : Tab.wf regReset s.regs = true) : Tab.wf regReset s.warmRegs = true :=
  Tab.wf_store _ _ (Tab.wf_filter _ w)

theorem State.cutStage_kept {s0 : State} {s : State} (hkept : Kept s0 s) :
    Kept s0 (State.cutStage s) := by
  unfold State.cutStage
  repeat' first
    | with_reducible exact hkept | with_reducible assumption
    | (extract_lets +onlyGivenNames y'; refine (fun (_ : Kept s0 y') => ?_) ?_; clear_value y'; revert y'; intro _ _; rotate_left; dsimp only [y']; clear y'; rotate_left)
    | (extract_lets +onlyGivenNames y'; refine (fun (_ : Kept s0 y'.2) => ?_) ?_; clear_value y'; revert y'; intro _ _; rotate_left; dsimp only [y']; clear y'; rotate_left)
    | (extract_lets +onlyGivenNames y'; clear_value y'; revert y'; intro _)
    | with_reducible apply State.spoilSlot_kept | with_reducible apply State.free_kept
    | with_reducible apply State.setRegN_kept | with_reducible apply Kept.ite | split | dsimp only
    | exact hkept | assumption

theorem State.warmReset_kept {s0 s : State} (hkept : Kept s0 s) : Kept s0 s.warmReset := by
  have k := State.cutStage_kept hkept
  unfold State.warmReset
  generalize s.cutStage = t at k
  exact k.of { Kept.refl t with
    formed := fun x => { x with scratch := rfl, slots := rfl, regs := State.warmRegs_wf x.regs } }

theorem State.powerLost_kept {s0 s : State} (hkept : Kept s0 s) : Kept s0 s.powerLost := by
  have k := State.cutStage_kept hkept
  unfold State.powerLost
  generalize s.cutStage = t at k
  exact k.of { Kept.refl t with
    formed := fun x => { x with
      scratch := rfl, slots := rfl, hoard := rfl, lpddr := rfl, regs := rfl, errs := Nat.zero_le _ } }

theorem State.rewriteRwl_kept {s0 : State} {s : State} (hkept : Kept s0 s) :
    Kept s0 (State.rewriteRwl s) := by
  unfold State.rewriteRwl
  repeat' first
    | with_reducible exact hkept | with_reducible assumption
    | (extract_lets +onlyGivenNames y'; refine (fun (_ : Kept s0 y') => ?_) ?_; clear_value y'; revert y'; intro _ _; rotate_left; dsimp only [y']; clear y'; rotate_left)
    | (extract_lets +onlyGivenNames y'; refine (fun (_ : Kept s0 y'.2) => ?_) ?_; clear_value y'; revert y'; intro _ _; rotate_left; dsimp only [y']; clear y'; rotate_left)
    | (extract_lets +onlyGivenNames y'; clear_value y'; revert y'; intro _)
    | with_reducible apply State.free_kept | with_reducible apply State.setRegN_kept
    | with_reducible apply State.modCore_kept | with_reducible apply State.override_kept
    | with_reducible apply State.setSeed_kept | with_reducible apply State.setPair_kept
    | with_reducible apply Kept.of_snd (by with_reducible assumption) | with_reducible apply Kept.ite
    | with_reducible apply Kept.foldl | with_reducible apply Kept.foldl_fst
    | with_reducible apply Kept.foldl_snd | intro _ _ _ | intro _ _ | intro _ | split | dsimp only
    | with_reducible exact Kept.lit (by with_reducible assumption) | exact hkept | assumption
    | (with_reducible apply Kept.lit
       (first | with_reducible assumption | with_reducible apply State.free_kept
              | with_reducible apply State.setRegN_kept | with_reducible apply State.modCore_kept
              | with_reducible apply State.override_kept | with_reducible apply State.setSeed_kept
              | with_reducible apply State.setPair_kept))

theorem State.reapply_kept {s0 : State} {s : State} (hkept : Kept s0 s) :
    Kept s0 (State.reapply s) := by
  unfold State.reapply
  repeat' first
    | with_reducible exact hkept | with_reducible assumption
    | (extract_lets +onlyGivenNames y'; refine (fun (_ : Kept s0 y') => ?_) ?_; clear_value y'; revert y'; intro _ _; rotate_left; dsimp only [y']; clear y'; rotate_left)
    | (extract_lets +onlyGivenNames y'; clear_value y'; revert y'; intro _)
    | with_reducible apply State.applyTime_kept | with_reducible apply State.applyTamper_kept
    | with_reducible apply State.setMux_kept | with_reducible apply State.setRegN_kept
    | with_reducible apply State.rewriteRwl_kept | with_reducible apply State.modPart_kept
    | with_reducible apply Kept.foldl | with_reducible apply Kept.foldl_fst
    | with_reducible apply Kept.foldl_snd | intro _ _ _ | intro _ _ | intro _ | split | dsimp only
    | with_reducible exact Kept.lit (by with_reducible assumption) | exact hkept | assumption
    | (with_reducible apply Kept.lit
       (first | with_reducible assumption | with_reducible apply State.applyTime_kept
              | with_reducible apply State.applyTamper_kept | with_reducible apply State.setMux_kept
              | with_reducible apply State.setRegN_kept | with_reducible apply State.rewriteRwl_kept
              | with_reducible apply State.modPart_kept))

theorem State.dropStreams_kept {s0 : State} {s : State} (hkept : Kept s0 s) :
    Kept s0 (State.dropStreams s) := by
  unfold State.dropStreams
  repeat' first
    | with_reducible exact hkept | with_reducible assumption | with_reducible apply State.modFolio_kept
    | intro _ _ _ | intro _ _ | intro _ | dsimp only
    | with_reducible exact Kept.lit (by with_reducible assumption) | exact hkept | assumption | exact rfl
    | exact Nat.le_refl _
    | (with_reducible apply Kept.lit
       (first | with_reducible assumption | with_reducible apply State.modFolio_kept))

theorem State.dropLayered_kept {s0 : State} {s : State} (hkept : Kept s0 s) :
    Kept s0 (State.dropLayered s) := by
  unfold State.dropLayered
  repeat' first
    | with_reducible exact hkept | with_reducible assumption | with_reducible apply State.zeroiseSlot_kept
    | with_reducible apply Kept.foldl | with_reducible apply Kept.foldl_fst
    | with_reducible apply Kept.foldl_snd | intro _ _ _ | intro _ _ | intro _ | dsimp only | exact hkept
    | assumption

theorem Tab.wf_foldl_store {β : Type} (l : List β) (key : β → Nat) (val : β → W32) {t : Tab W32}
    (w : Tab.wf regReset t = true) :
    Tab.wf regReset (l.foldl (fun t e => Tab.store regReset t (key e) (val e)) t) = true := by
  induction l generalizing t with
  | nil => exact w
  | cons x l ih => exact ih (Tab.wf_store _ _ w)

theorem State.restartMgmt_kept {s0 s : State} (hkept : Kept s0 s) : Kept s0 s.restartMgmt := by
  have k := State.endLoad_kept stCancelled .abandoned (State.cutStage_kept hkept)
  unfold State.restartMgmt
  generalize s.cutStage.endLoad stCancelled .abandoned = t at k
  apply State.reapply_kept
  apply State.dropStreams_kept
  apply State.dropLayered_kept
  refine State.modSbox_kept _ ?_ (fun _ => rfl) (fun _ => rfl) (fun _ => rfl) (fun _ w => w)
  exact k.of { Kept.refl t with
    formed := fun x => { x with regs := Tab.wf_foldl_store _ _ _ (Tab.wf_filter _ x.regs) } }

theorem State.discardActive_kept {s0 : State} {s : State} (hkept : Kept s0 s) :
    Kept s0 (State.discardActive s) := by
  unfold State.discardActive
  repeat' first
    | with_reducible exact hkept | with_reducible assumption | with_reducible apply State.discardWindow_kept
    | with_reducible apply Kept.foldl | with_reducible apply Kept.foldl_fst
    | with_reducible apply Kept.foldl_snd | intro _ _ _ | intro _ _ | intro _ | dsimp only | exact hkept
    | assumption

theorem State.fallBack_kept {s0 s : State} (cause : Nat) (hkept : Kept s0 s) : Kept s0 (s.fallBack cause) := by
  have k : Kept s0 ((List.range 16).foldl (fun t p => (t.cancelPart p stCancelled).1) s).discardActive :=
    State.discardActive_kept (Kept.foldl _ _ hkept (fun _ _ w => State.cancelPart_kept _ _ w))
  unfold State.fallBack
  dsimp only
  generalize ((List.range 16).foldl (fun t p => (t.cancelPart p stCancelled).1) s).discardActive = t at k
  exact State.restartMgmt_kept k

end Sys2Proof.Machine
end

