-- ==== Sys2Proof/Laws/KeptMgmt.lean ====
section
/-!
SUPPORT. Laws/KeptMgmt.lean: what the operations of Machine/Mgmt.lean keep of a state (Laws/Kept.lean).
-/
namespace Sys2Proof.Machine

theorem State.addUpd_kept {s0 : State} {s : State} (event slot status reason : Nat) (hkept : Kept s0 s) :
    Kept s0 (State.addUpd s event slot status reason) := by
  unfold State.addUpd
  repeat' first
    | with_reducible exact hkept | with_reducible assumption
    | (extract_lets +onlyGivenNames y'; refine (fun (_ : Kept s0 y') => ?_) ?_; clear_value y'; revert y'; intro _ _; rotate_left; dsimp only [y']; clear y'; rotate_left)
    | (extract_lets +onlyGivenNames y'; clear_value y'; revert y'; intro _)
    | with_reducible apply State.modMgmt_kept | with_reducible apply Kept.ite | intro _ _ _ | intro _ _
    | intro _ | split | dsimp only | with_reducible exact Kept.lit (by with_reducible assumption) | exact hkept
    | assumption | exact rfl | exact Nat.le_refl _
    | (with_reducible apply Kept.lit
       (first | with_reducible assumption | with_reducible apply State.modMgmt_kept))

theorem State.updEnd_kept {s0 : State} {s : State} (status : Nat) (hkept : Kept s0 s) :
    Kept s0 (State.updEnd s status) := by
  unfold State.updEnd
  repeat' first
    | with_reducible exact hkept | with_reducible assumption | with_reducible apply State.setRegN_kept
    | dsimp only | exact hkept | assumption

theorem State.updRefuse_kept {s0 : State} {s : State} (status : Nat) (hkept : Kept s0 s) :
    Kept s0 (State.updRefuse s status) := by
  unfold State.updRefuse
  repeat' first
    | with_reducible exact hkept | with_reducible assumption | with_reducible apply State.setRegN_kept
    | dsimp only | exact hkept | assumption

theorem State.updBusy_kept {s0 : State} {s : State} (hkept : Kept s0 s) :
    Kept s0 (State.updBusy s) := by
  unfold State.updBusy
  repeat' first
    | with_reducible exact hkept | with_reducible assumption | with_reducible apply State.setRegN_kept
    | dsimp only | exact hkept | assumption

theorem State.setUpd_kept {s0 : State} {s : State} (u : Upd) (hkept : Kept s0 s) :
    Kept s0 (State.setUpd s u) := by
  unfold State.setUpd
  repeat' first
    | with_reducible exact hkept | with_reducible assumption | with_reducible apply State.modMgmt_kept
    | intro _ _ _ | intro _ _ | intro _ | dsimp only
    | with_reducible exact Kept.lit (by with_reducible assumption) | exact hkept | assumption | exact rfl
    | exact Nat.le_refl _
    | (with_reducible apply Kept.lit
       (first | with_reducible assumption | with_reducible apply State.modMgmt_kept))

theorem State.measure_kept {s0 : State} {s : State} (ds : List Bytes) (hkept : Kept s0 s) :
    Kept s0 (State.measure s ds) := by
  unfold State.measure
  repeat' first
    | with_reducible exact hkept | with_reducible assumption
    | (extract_lets +onlyGivenNames y'; refine (fun (_ : Kept s0 y') => ?_) ?_; clear_value y'; revert y'; intro _ _; rotate_left; dsimp only [y']; clear y'; rotate_left)
    | (extract_lets +onlyGivenNames y'; clear_value y'; revert y'; intro _)
    | with_reducible apply State.modSbox_kept | with_reducible apply Kept.ite | intro _ _ _ | intro _ _
    | intro _ | split | dsimp only | with_reducible exact Kept.lit (by with_reducible assumption) | exact hkept
    | assumption | exact rfl | exact Nat.le_refl _
    | (with_reducible apply Kept.lit
       (first | with_reducible assumption | with_reducible apply State.modSbox_kept))

theorem State.bootStops_kept {s0 : State} {s : State} (hkept : Kept s0 s) :
    Kept s0 (State.bootStops s) := by
  unfold State.bootStops
  repeat' first
    | with_reducible exact hkept | with_reducible assumption | with_reducible apply State.enterHold_kept
    | dsimp only | with_reducible exact Kept.lit (by with_reducible assumption) | exact hkept | assumption
    | (with_reducible apply Kept.lit
       (first | with_reducible assumption | with_reducible apply State.enterHold_kept))

theorem State.enterRecovery_kept {s0 s : State} (reason : Nat) (hkept : Kept s0 s) : Kept s0 (s.enterRecovery reason) := by
  unfold State.enterRecovery
  dsimp only
  have k0 : Kept s0 (if s.mgmt.upd = .fallback then s.addUpd s.mgmt.cause (s.mgmt.trialSlot.getD 0) 0 0 else s) :=
    Kept.ite (State.addUpd_kept _ _ _ _ hkept) hkept
  generalize (if s.mgmt.upd = .fallback then s.addUpd s.mgmt.cause (s.mgmt.trialSlot.getD 0) 0 0 else s) = t at k0
  have k1 := State.addUpd_kept 0x0D t.mgmt.active 0 reason
    (State.measure_kept [toBE 32 Config.romDigest.toNat, toBE 32 Config.recoveryDigest.toNat] k0)
  generalize State.addUpd (t.measure [toBE 32 Config.romDigest.toNat, toBE 32 Config.recoveryDigest.toNat])
    0x0D t.mgmt.active 0 reason = u at k1
  exact k1

theorem State.loadBundle_kept {s0 s : State} (slot : Nat) (x : FwImage) (bs : List Bytes) (hkept : Kept s0 s) :
    Kept s0 (s.loadBundle slot x bs) :=
  State.measure_kept (imageDigests bs) hkept

theorem State.bootActive_kept {s0 : State} {s : State} (hkept : Kept s0 s) :
    Kept s0 (State.bootActive s) := by
  unfold State.bootActive
  repeat' first
    | with_reducible exact hkept | with_reducible assumption | with_reducible apply State.enterRecovery_kept
    | with_reducible apply State.loadBundle_kept | with_reducible apply Kept.ite | split | dsimp only
    | with_reducible exact Kept.lit (by with_reducible assumption) | exact hkept | assumption
    | (with_reducible apply Kept.lit
       (first | with_reducible assumption | with_reducible apply State.enterRecovery_kept
              | with_reducible apply State.loadBundle_kept))

theorem State.bootSlot_kept {s0 : State} {s : State} (hkept : Kept s0 s) :
    Kept s0 (State.bootSlot s) := by
  unfold State.bootSlot
  repeat' first
    | with_reducible exact hkept | with_reducible assumption
    | (extract_lets +onlyGivenNames y'; refine (fun (_ : Kept s0 y') => ?_) ?_; clear_value y'; revert y'; intro _ _; rotate_left; dsimp only [y']; clear y'; rotate_left)
    | (extract_lets +onlyGivenNames y'; clear_value y'; revert y'; intro _)
    | with_reducible apply State.loadBundle_kept | with_reducible apply State.addUpd_kept
    | with_reducible apply State.setRegN_kept | with_reducible apply State.modMgmt_kept
    | with_reducible apply State.bootActive_kept | intro _ _ _ | intro _ _ | intro _ | split | dsimp only
    | with_reducible exact Kept.lit (by with_reducible assumption) | exact hkept | assumption | exact rfl
    | exact Nat.le_refl _
    | (with_reducible apply Kept.lit
       (first | with_reducible assumption | with_reducible apply State.loadBundle_kept
              | with_reducible apply State.addUpd_kept | with_reducible apply State.setRegN_kept
              | with_reducible apply State.modMgmt_kept | with_reducible apply State.bootActive_kept))

theorem State.completeAdvance_kept {s0 s : State} (hkept : Kept s0 s) : Kept s0 s.completeAdvance := by
  unfold State.completeAdvance
  split
  · rename_i h
    exact State.addUpd_kept _ _ _ _ (hkept.of { Kept.refl s with
      counter := Nat.le_of_lt h, formed := fun x => { x with hostMem := x.hostMem } })
  · exact hkept

theorem State.noTrial_kept {s0 : State} {s : State} (hkept : Kept s0 s) :
    Kept s0 (State.noTrial s) := by
  unfold State.noTrial
  repeat' first
    | with_reducible exact hkept | with_reducible assumption | with_reducible apply State.modMgmt_kept
    | with_reducible apply Kept.ite | intro _ _ _ | intro _ _ | intro _ | split | dsimp only
    | with_reducible exact Kept.lit (by with_reducible assumption) | exact hkept | assumption | exact rfl
    | exact Nat.le_refl _
    | (with_reducible apply Kept.lit
       (first | with_reducible assumption | with_reducible apply State.modMgmt_kept))

theorem State.boot_kept {s0 : State} {s : State} (bistFail : Nat) (hkept : Kept s0 s) :
    Kept s0 (State.boot s bistFail) := by
  unfold State.boot
  repeat' first
    | with_reducible exact hkept | with_reducible assumption
    | (extract_lets +onlyGivenNames y'; refine (fun (_ : Kept s0 y') => ?_) ?_; clear_value y'; revert y'; intro _ _; rotate_left; dsimp only [y']; clear y'; rotate_left)
    | (extract_lets +onlyGivenNames y'; clear_value y'; revert y'; intro _)
    | with_reducible apply State.modSbox_kept | with_reducible apply State.setSlot_kept
    | with_reducible apply State.failCore_kept | with_reducible apply State.noTrial_kept
    | with_reducible apply State.completeAdvance_kept | with_reducible apply State.enterRecovery_kept
    | with_reducible apply State.bootSlot_kept | with_reducible apply Kept.ite
    | with_reducible apply Kept.foldl | with_reducible apply Kept.foldl_fst
    | with_reducible apply Kept.foldl_snd | intro _ _ _ | intro _ _ | intro _ | split | dsimp only
    | with_reducible exact Kept.lit (by with_reducible assumption) | exact hkept | assumption | exact rfl
    | exact Nat.le_refl _
    | (with_reducible apply Kept.lit
       (first | with_reducible assumption | with_reducible apply State.modSbox_kept
              | with_reducible apply State.setSlot_kept | with_reducible apply State.failCore_kept
              | with_reducible apply State.noTrial_kept | with_reducible apply State.completeAdvance_kept
              | with_reducible apply State.enterRecovery_kept | with_reducible apply State.bootSlot_kept))

theorem State.bootTamper_kept {s0 : State} {s : State} (bistFail : Nat) (hkept : Kept s0 s) :
    Kept s0 (State.bootTamper s bistFail) := by
  unfold State.bootTamper
  repeat' first
    | with_reducible exact hkept | with_reducible assumption | with_reducible apply State.modSbox_kept
    | with_reducible apply State.bootStops_kept | with_reducible apply State.respondStart_kept
    | with_reducible apply State.boot_kept | with_reducible apply Kept.ite | with_reducible apply Kept.foldl
    | with_reducible apply Kept.foldl_fst | with_reducible apply Kept.foldl_snd
    | with_reducible refine Kept.lit_slots (by with_reducible assumption) ?_
    | (with_reducible apply Kept.slots
       (first | with_reducible assumption | with_reducible apply State.modSbox_kept
              | with_reducible apply State.bootStops_kept | with_reducible apply State.respondStart_kept
              | with_reducible apply State.boot_kept))
    | intro _ _ _ | intro _ _ | intro _ | split | dsimp only
    | with_reducible exact Kept.lit (by with_reducible assumption) | exact hkept | assumption | exact rfl
    | exact Nat.le_refl _
    | (with_reducible apply Kept.lit
       (first | with_reducible assumption | with_reducible apply State.modSbox_kept
              | with_reducible apply State.bootStops_kept | with_reducible apply State.respondStart_kept
              | with_reducible apply State.boot_kept))

theorem State.reloadCharter_kept {s0 : State} {s : State} (hkept : Kept s0 s) :
    Kept s0 (State.reloadCharter s) := by
  unfold State.reloadCharter
  repeat' first
    | with_reducible exact hkept | with_reducible assumption | with_reducible apply State.loadDevice_kept
    | with_reducible apply Kept.ite | intro _ _ _ | intro _ _ | intro _ | split | dsimp only
    | with_reducible exact Kept.lit (by with_reducible assumption) | exact hkept | assumption
    | (with_reducible apply Kept.lit
       (first | with_reducible assumption | with_reducible apply State.loadDevice_kept))

theorem State.endPause_kept {s0 : State} {s : State} (hkept : Kept s0 s) :
    Kept s0 (State.endPause s) := by
  unfold State.endPause
  repeat' first
    | with_reducible exact hkept | with_reducible assumption
    | (extract_lets +onlyGivenNames y'; refine (fun (_ : Kept s0 y') => ?_) ?_; clear_value y'; revert y'; intro _ _; rotate_left; dsimp only [y']; clear y'; rotate_left)
    | (extract_lets +onlyGivenNames y'; clear_value y'; revert y'; intro _)
    | with_reducible apply State.modMgmt_kept | with_reducible apply State.addUpd_kept
    | with_reducible apply State.updEnd_kept | with_reducible apply State.raise_kept | intro _ _ _ | intro _ _
    | intro _ | split | dsimp only | with_reducible exact Kept.lit (by with_reducible assumption) | exact hkept
    | assumption | exact rfl | exact Nat.le_refl _
    | (with_reducible apply Kept.lit
       (first | with_reducible assumption | with_reducible apply State.modMgmt_kept
              | with_reducible apply State.addUpd_kept | with_reducible apply State.updEnd_kept
              | with_reducible apply State.raise_kept))

theorem State.startStage_kept {s0 : State} {s : State} (req : Req) (hkept : Kept s0 s) :
    Kept s0 (State.startStage s req) := by
  unfold State.startStage
  repeat' first
    | with_reducible exact hkept | with_reducible assumption
    | (extract_lets +onlyGivenNames y'; refine (fun (_ : Kept s0 y') => ?_) ?_; clear_value y'; revert y'; intro _ _; rotate_left; dsimp only [y']; clear y'; rotate_left)
    | (extract_lets +onlyGivenNames y'; clear_value y'; revert y'; intro _)
    | with_reducible apply State.updRefuse_kept | with_reducible apply State.modMgmt_kept
    | with_reducible apply State.updBusy_kept | with_reducible apply Kept.ite
    | exact Memory.wf_without _ (by assumption) | intro _ _ _ | intro _ _ | intro _ | split | dsimp only
    | with_reducible exact Kept.lit (by with_reducible assumption) | exact hkept | assumption | exact rfl
    | exact Nat.le_refl _
    | (with_reducible apply Kept.lit
       (first | with_reducible assumption | with_reducible apply State.updRefuse_kept
              | with_reducible apply State.modMgmt_kept | with_reducible apply State.updBusy_kept))

theorem State.transcribe_kept {s0 : State} {s : State} (b : Bytes) (hkept : Kept s0 s) :
    Kept s0 (State.transcribe s b).2 := by
  unfold State.transcribe
  repeat' first
    | with_reducible exact hkept | with_reducible assumption
    | (extract_lets +onlyGivenNames y'; refine (fun (_ : Kept s0 y') => ?_) ?_; clear_value y'; revert y'; intro _ _; rotate_left; dsimp only [y']; clear y'; rotate_left)
    | (extract_lets +onlyGivenNames y'; refine (fun (_ : Kept s0 y'.2) => ?_) ?_; clear_value y'; revert y'; intro _ _; rotate_left; dsimp only [y']; clear y'; rotate_left)
    | (extract_lets +onlyGivenNames y'; clear_value y'; revert y'; intro _)
    | with_reducible apply State.freeBytes_kept
    | with_reducible apply Kept.of_snd (by with_reducible assumption) | intro _ _ _ | intro _ _ | intro _
    | split | dsimp only | with_reducible exact Kept.lit (by with_reducible assumption) | exact hkept
    | assumption
    | (with_reducible apply Kept.lit
       (first | with_reducible assumption | with_reducible apply State.freeBytes_kept))

theorem State.discardStage_kept {s0 : State} {s : State} (hkept : Kept s0 s) :
    Kept s0 (State.discardStage s) := by
  unfold State.discardStage
  repeat' first
    | with_reducible exact hkept | with_reducible assumption | with_reducible apply State.addUpd_kept
    | with_reducible apply State.setUpd_kept | with_reducible apply State.updEnd_kept
    | with_reducible apply State.updRefuse_kept | with_reducible apply Kept.ite | split | dsimp only
    | exact hkept | assumption

theorem State.activate_kept {s0 : State} {s : State} (hkept : Kept s0 s) :
    Kept s0 (State.activate s) := by
  unfold State.activate
  repeat' first
    | with_reducible exact hkept | with_reducible assumption
    | (extract_lets +onlyGivenNames y'; refine (fun (_ : Kept s0 y') => ?_) ?_; clear_value y'; revert y'; intro _ _; rotate_left; dsimp only [y']; clear y'; rotate_left)
    | (extract_lets +onlyGivenNames y'; clear_value y'; revert y'; intro _)
    | with_reducible apply State.modMgmt_kept | with_reducible apply State.updBusy_kept
    | with_reducible apply State.updRefuse_kept | with_reducible apply State.updEnd_kept
    | with_reducible apply State.restartMgmt_kept | with_reducible apply Kept.ite | intro _ _ _ | intro _ _
    | intro _ | split | dsimp only | with_reducible exact Kept.lit (by with_reducible assumption) | exact hkept
    | assumption | exact rfl | exact Nat.le_refl _
    | (with_reducible apply Kept.lit
       (first | with_reducible assumption | with_reducible apply State.modMgmt_kept
              | with_reducible apply State.updBusy_kept | with_reducible apply State.updRefuse_kept
              | with_reducible apply State.updEnd_kept | with_reducible apply State.restartMgmt_kept))

theorem State.goOn_kept {s0 : State} {s : State} (hkept : Kept s0 s) :
    Kept s0 (State.goOn s) := by
  unfold State.goOn
  repeat' first
    | with_reducible exact hkept | with_reducible assumption | with_reducible apply State.activate_kept
    | with_reducible apply Kept.ite | split | dsimp only | exact hkept | assumption

theorem State.readLedger_kept {s0 : State} {s : State} (count : Nat) (hkept : Kept s0 s) :
    Kept s0 (State.readLedger s count) := by
  unfold State.readLedger
  repeat' first
    | with_reducible exact hkept | with_reducible assumption
    | (extract_lets +onlyGivenNames y'; refine (fun (_ : Kept s0 y') => ?_) ?_; clear_value y'; revert y'; intro _ _; rotate_left; dsimp only [y']; clear y'; rotate_left)
    | (extract_lets +onlyGivenNames y'; clear_value y'; revert y'; intro _)
    | with_reducible apply State.updRefuse_kept | with_reducible apply State.updEnd_kept
    | with_reducible apply Kept.ite | with_reducible refine Kept.lit_hostMem (by with_reducible assumption) ?_
    | (with_reducible apply Kept.hostMem
       (first | with_reducible assumption | with_reducible apply State.updRefuse_kept
              | with_reducible apply State.updEnd_kept))
    | exact Memory.wf_write _ _ (by assumption) | intro _ _ _ | intro _ _ | intro _ | split | dsimp only
    | with_reducible exact Kept.lit (by with_reducible assumption) | exact hkept | assumption
    | (with_reducible apply Kept.lit
       (first | with_reducible assumption | with_reducible apply State.updRefuse_kept
              | with_reducible apply State.updEnd_kept))

theorem State.updWrite_kept {s0 : State} {s : State} (req : Req) (v : W32) (hkept : Kept s0 s) :
    Kept s0 (State.updWrite s req v) := by
  unfold State.updWrite
  repeat' first
    | with_reducible exact hkept | with_reducible assumption
    | (extract_lets +onlyGivenNames y'; refine (fun (_ : Kept s0 y') => ?_) ?_; clear_value y'; revert y'; intro _ _; rotate_left; dsimp only [y']; clear y'; rotate_left)
    | (extract_lets +onlyGivenNames y'; clear_value y'; revert y'; intro _)
    | with_reducible apply State.setReg_kept | with_reducible apply State.updRefuse_kept
    | with_reducible apply State.startStage_kept | with_reducible apply State.discardStage_kept
    | with_reducible apply State.activate_kept | with_reducible apply State.readLedger_kept
    | with_reducible apply Kept.ite | split | dsimp only | exact hkept | assumption

theorem State.updCommand_kept {s0 : State} {s : State} (req : Req) (op count : Nat) (hkept : Kept s0 s) :
    Kept s0 (State.updCommand s req op count) := by
  unfold State.updCommand
  repeat' first
    | with_reducible exact hkept | with_reducible assumption | with_reducible apply State.updWrite_kept
    | with_reducible apply Kept.ite | split | dsimp only | exact hkept | assumption

theorem State.migrate_kept {s0 : State} {s : State} (hkept : Kept s0 s) :
    Kept s0 (State.migrate s) := by
  unfold State.migrate
  repeat' first
    | with_reducible exact hkept | with_reducible assumption
    | (extract_lets +onlyGivenNames y'; refine (fun (_ : Kept s0 y') => ?_) ?_; clear_value y'; revert y'; intro _ _; rotate_left; dsimp only [y']; clear y'; rotate_left)
    | (extract_lets +onlyGivenNames y'; clear_value y'; revert y'; intro _)
    | with_reducible apply State.modMgmt_kept | with_reducible apply State.addUpd_kept
    | with_reducible apply Kept.ite | intro _ _ _ | intro _ _ | intro _ | split | dsimp only
    | with_reducible exact Kept.lit (by with_reducible assumption) | exact hkept | assumption | exact rfl
    | exact Nat.le_refl _
    | (with_reducible apply Kept.lit
       (first | with_reducible assumption | with_reducible apply State.modMgmt_kept
              | with_reducible apply State.addUpd_kept))

end Sys2Proof.Machine
end

