-- ==== Sys2Proof/Laws/KeptLifeCycle.lean ====
section
/-!
SUPPORT. Laws/KeptLifeCycle.lean: what the operations of Machine/LifeCycle.lean keep of a state (Laws/Kept.lean).
-/
namespace Sys2Proof.Machine

theorem State.zeroiseAll_kept {s0 : State} {s : State} (hkept : Kept s0 s) :
    Kept s0 (State.zeroiseAll s) := by
  unfold State.zeroiseAll
  repeat' first
    | with_reducible exact hkept | with_reducible assumption | with_reducible apply State.zeroiseSlot_kept
    | with_reducible apply Kept.foldl | with_reducible apply Kept.foldl_fst
    | with_reducible apply Kept.foldl_snd | intro _ _ _ | intro _ _ | intro _ | dsimp only | exact hkept
    | assumption

/-- A state with another life-cycle state. -/
def State.withLc (s : State) (l : Lc) : State := { s with sbox := { s.sbox with lc := l } }

/-- A transition keeps everything that is tracked but the life-cycle state, which is the target's. -/
theorem State.lcGo_kept {s0 s : State} (target : Nat) (hkept : Kept s0 s) :
    Kept (s0.withLc (lcOf target)) (s.lcGo target) := by
  have k := State.zeroiseAll_kept hkept
  unfold State.lcGo
  generalize s.zeroiseAll = t at k
  apply State.warmReset_kept
  exact
    { pending := k.pending, stackGib := k.stackGib, lc := rfl, fuseSweep := k.fuseSweep, uds := k.uds, counter := k.counter
      formed := fun x =>
        have y := k.formed { x with hostMem := x.hostMem }
        { y with hostMem := y.hostMem } }

/-- LC_ADVANCE leaves the life-cycle state alone, or the transition asked for exists and is made. -/
theorem State.lcAdvanceRun_cases {s0 s : State} (m : Mbx) (x : Mailbox) (hkept : Kept s0 s) :
    Kept s0 (s.lcAdvanceRun m x) ∨
      ((s.lcMay m (bits x.cmd 16 14)).isSome = true ∧
        Kept (s0.withLc (lcOf (bits x.cmd 16 14))) (s.lcAdvanceRun m x)) := by
  unfold State.lcAdvanceRun
  dsimp only
  split
  · exact .inl (State.mbxStatus_kept _ _ hkept)
  split
  · exact .inl (State.mbxStatus_kept _ _ hkept)
  · rename_i h
    exact .inr ⟨by rw [h]; rfl, State.lcGo_kept _ hkept⟩
  · rename_i h
    split
    · exact .inl (State.mbxStatus_kept _ _ hkept)
    · split
      · exact .inl (State.mbxStatus_kept _ _ hkept)
      · exact .inr ⟨by rw [h]; rfl, State.lcGo_kept _ hkept⟩

theorem State.identityWords_kept {s0 : State} {s : State} (d : Nat) (hkept : Kept s0 s) :
    Kept s0 (State.identityWords s d) := by
  unfold State.identityWords
  repeat' first
    | with_reducible exact hkept | with_reducible assumption | with_reducible apply State.emit_kept
    | with_reducible apply Kept.foldl | with_reducible apply Kept.foldl_fst
    | with_reducible apply Kept.foldl_snd | intro _ _ _ | intro _ _ | intro _ | dsimp only | exact hkept
    | assumption

end Sys2Proof.Machine
end

