-- ==== Sys2Proof/Laws/KeptPower.lean ====
section
/-!
SUPPORT. Laws/KeptPower.lean: what the operations of Machine/Power.lean keep of a state (Laws/Kept.lean).
-/
namespace Sys2Proof.Machine

theorem State.modPwr_kept {s0 : State} {s : State} (g : PwrSt → PwrSt) (hkept : Kept s0 s) :
    Kept s0 (State.modPwr s g) := by
  unfold State.modPwr
  repeat' first
    | with_reducible exact hkept | with_reducible assumption | dsimp only
    | with_reducible exact Kept.lit (by with_reducible assumption) | exact hkept | assumption

theorem State.pwrEvents_kept {s0 : State} {s : State} (mask : Nat) (hkept : Kept s0 s) :
    Kept s0 (State.pwrEvents s mask) := by
  unfold State.pwrEvents
  repeat' first
    | with_reducible exact hkept | with_reducible assumption | with_reducible apply State.setEvents_kept
    | dsimp only | exact hkept | assumption

theorem State.vinOver_kept {s0 : State} {s : State} (mv : Nat) (hkept : Kept s0 s) :
    Kept s0 (State.vinOver s mv) := by
  unfold State.vinOver
  repeat' first
    | with_reducible exact hkept | with_reducible assumption
    | (extract_lets +onlyGivenNames y'; refine (fun (_ : Kept s0 y') => ?_) ?_; clear_value y'; revert y'; intro _ _; rotate_left; dsimp only [y']; clear y'; rotate_left)
    | (extract_lets +onlyGivenNames y'; clear_value y'; revert y'; intro _)
    | with_reducible apply State.modPwr_kept | with_reducible apply State.pwrEvents_kept
    | with_reducible apply State.alarm_kept | with_reducible apply Kept.ite | intro _ _ _ | intro _ _ | intro _
    | split | dsimp only | with_reducible exact Kept.lit (by with_reducible assumption) | exact hkept
    | assumption
    | (with_reducible apply Kept.lit
       (first | with_reducible assumption | with_reducible apply State.modPwr_kept
              | with_reducible apply State.pwrEvents_kept | with_reducible apply State.alarm_kept))

theorem State.enterDoze_kept {s0 : State} {s : State} (hkept : Kept s0 s) :
    Kept s0 (State.enterDoze s) := by
  unfold State.enterDoze
  repeat' first
    | with_reducible exact hkept | with_reducible assumption
    | (extract_lets +onlyGivenNames y'; refine (fun (_ : Kept s0 y') => ?_) ?_; clear_value y'; revert y'; intro _ _; rotate_left; dsimp only [y']; clear y'; rotate_left)
    | (extract_lets +onlyGivenNames y'; clear_value y'; revert y'; intro _)
    | with_reducible apply State.doze_kept | with_reducible apply State.setEvents_kept
    | with_reducible apply State.ftLose_kept | with_reducible apply Kept.foldl
    | with_reducible apply Kept.foldl_fst | with_reducible apply Kept.foldl_snd
    | with_reducible refine Kept.lit_scratch (by with_reducible assumption) ?_
    | (with_reducible apply Kept.scratch
       (first | with_reducible assumption | with_reducible apply State.doze_kept
              | with_reducible apply State.setEvents_kept | with_reducible apply State.ftLose_kept))
    | exact Memory.wf_nil | intro _ _ _ | intro _ _ | intro _ | dsimp only
    | with_reducible exact Kept.lit (by with_reducible assumption) | exact hkept | assumption
    | (with_reducible apply Kept.lit
       (first | with_reducible assumption | with_reducible apply State.doze_kept
              | with_reducible apply State.setEvents_kept | with_reducible apply State.ftLose_kept))

theorem State.doze_kept {s0 : State} {s : State} (req : Req) (hkept : Kept s0 s) :
    Kept s0 (State.doze s req) := by
  unfold State.doze
  repeat' first
    | with_reducible exact hkept | with_reducible assumption | with_reducible apply State.regErr_kept
    | with_reducible apply State.enterDoze_kept | with_reducible apply Kept.ite | split | dsimp only
    | exact hkept | assumption

theorem State.alertFrom_kept {s0 : State} {old s : State} (hkept : Kept s0 old) (hkept1 : Kept s0 s) :
    Kept s0 (State.alertFrom old s) := by
  unfold State.alertFrom
  repeat' first
    | with_reducible exact hkept | with_reducible assumption | with_reducible apply State.emit_kept
    | with_reducible apply Kept.ite | split | dsimp only | exact hkept | assumption

theorem State.throttle_kept {s0 : State} {s : State} (hkept : Kept s0 s) :
    Kept s0 (State.throttle s) := by
  unfold State.throttle
  repeat' first
    | with_reducible exact hkept | with_reducible assumption
    | (extract_lets +onlyGivenNames y'; refine (fun (_ : Kept s0 y') => ?_) ?_; clear_value y'; revert y'; intro _ _; rotate_left; dsimp only [y']; clear y'; rotate_left)
    | (extract_lets +onlyGivenNames y'; clear_value y'; revert y'; intro _)
    | with_reducible apply State.modPwr_kept | with_reducible apply State.pwrEvents_kept
    | with_reducible apply Kept.ite | intro _ _ _ | intro _ _ | intro _ | split | dsimp only
    | with_reducible exact Kept.lit (by with_reducible assumption) | exact hkept | assumption
    | (with_reducible apply Kept.lit
       (first | with_reducible assumption | with_reducible apply State.modPwr_kept
              | with_reducible apply State.pwrEvents_kept))

theorem State.hotClock_kept {s0 : State} {s : State} (hkept : Kept s0 s) :
    Kept s0 (State.hotClock s) := by
  unfold State.hotClock
  repeat' first
    | with_reducible exact hkept | with_reducible assumption | with_reducible apply State.modPwr_kept
    | with_reducible apply Kept.ite | intro _ _ _ | intro _ _ | intro _ | split | dsimp only
    | with_reducible exact Kept.lit (by with_reducible assumption) | exact hkept | assumption
    | (with_reducible apply Kept.lit
       (first | with_reducible assumption | with_reducible apply State.modPwr_kept))

theorem State.trip_kept {s0 : State} {s : State} (hkept : Kept s0 s) :
    Kept s0 (State.trip s) := by
  unfold State.trip
  repeat' first
    | with_reducible exact hkept | with_reducible assumption
    | (extract_lets +onlyGivenNames y'; refine (fun (_ : Kept s0 y') => ?_) ?_; clear_value y'; revert y'; intro _ _; rotate_left; dsimp only [y']; clear y'; rotate_left)
    | (extract_lets +onlyGivenNames y'; clear_value y'; revert y'; intro _)
    | with_reducible apply State.powerLost_kept | with_reducible apply State.modPwr_kept
    | with_reducible apply State.alertFrom_kept | intro _ _ _ | intro _ _ | intro _ | dsimp only
    | with_reducible exact Kept.lit (by with_reducible assumption) | exact hkept | assumption
    | (with_reducible apply Kept.lit
       (first | with_reducible assumption | with_reducible apply State.powerLost_kept
              | with_reducible apply State.modPwr_kept | with_reducible apply State.alertFrom_kept))

end Sys2Proof.Machine
end

