-- ==== Sys2Proof/Laws/KeptRegs.lean ====
section
/-!
SUPPORT. Laws/KeptRegs.lean: what the operations of Machine/Regs.lean keep of a state (Laws/Kept.lean).
-/
namespace Sys2Proof.Machine

theorem State.setLatch_kept {s0 : State} {s : State} (req : Req) (hi : Nat) (v : W32) (hkept : Kept s0 s) :
    Kept s0 (State.setLatch s req hi v) := by
  unfold State.setLatch
  repeat' first
    | with_reducible exact hkept | with_reducible assumption | intro _ _ _ | intro _ _ | intro _ | dsimp only
    | with_reducible exact Kept.lit (by with_reducible assumption) | exact hkept | assumption

theorem State.readReg_kept {s0 : State} {s : State} (req : Req) (off : Nat) (hkept : Kept s0 s) :
    Kept s0 (State.readReg s req off).2 := by
  unfold State.readReg
  repeat' first
    | with_reducible exact hkept | with_reducible assumption
    | (extract_lets +onlyGivenNames y'; refine (fun (_ : Kept s0 y') => ?_) ?_; clear_value y'; revert y'; intro _ _; rotate_left; dsimp only [y']; clear y'; rotate_left)
    | (extract_lets +onlyGivenNames y'; clear_value y'; revert y'; intro _)
    | with_reducible apply State.setLatch_kept | with_reducible apply Kept.snd_ite
    | with_reducible apply Kept.ite | split | dsimp only
    | with_reducible exact Kept.lit (by with_reducible assumption) | exact hkept | assumption
    | (with_reducible apply Kept.lit
       (first | with_reducible assumption | with_reducible apply State.setLatch_kept))

theorem State.readBar_kept {s0 : State} {s : State} (req : Req) (off size : Nat) (hkept : Kept s0 s) :
    Kept s0 (State.readBar s req off size).2 := by
  unfold State.readBar
  repeat' first
    | with_reducible exact hkept | with_reducible assumption | with_reducible apply State.readReg_kept
    | with_reducible apply Kept.of_snd (by with_reducible assumption) | with_reducible apply Kept.snd_ite
    | with_reducible apply Kept.ite | split | dsimp only
    | with_reducible exact Kept.lit (by with_reducible assumption) | exact hkept | assumption
    | (with_reducible apply Kept.lit
       (first | with_reducible assumption | with_reducible apply State.readReg_kept))

theorem State.msixWrite_kept {s0 : State} {s : State} (f i : Nat) (v : W32) (hkept : Kept s0 s) :
    Kept s0 (State.msixWrite s f i v) := by
  unfold State.msixWrite
  repeat' first
    | with_reducible exact hkept | with_reducible assumption
    | (extract_lets +onlyGivenNames y'; refine (fun (_ : Kept s0 y') => ?_) ?_; clear_value y'; revert y'; intro _ _; rotate_left; dsimp only [y']; clear y'; rotate_left)
    | (extract_lets +onlyGivenNames y'; clear_value y'; revert y'; intro _)
    | with_reducible apply State.sendMsix_kept | with_reducible apply Kept.ite | intro _ _ _ | intro _ _
    | intro _ | split | dsimp only | with_reducible exact Kept.lit (by with_reducible assumption) | exact hkept
    | assumption
    | (with_reducible apply Kept.lit
       (first | with_reducible assumption | with_reducible apply State.sendMsix_kept))

theorem State.putRw_kept {s0 : State} {s : State} (r : RegRow) (off : Nat) (v : W32) (hkept : Kept s0 s) :
    Kept s0 (State.putRw s r off v) := by
  unfold State.putRw
  repeat' first
    | with_reducible exact hkept | with_reducible assumption
    | (extract_lets +onlyGivenNames y'; refine (fun (_ : Kept s0 y') => ?_) ?_; clear_value y'; revert y'; intro _ _; rotate_left; dsimp only [y']; clear y'; rotate_left)
    | (extract_lets +onlyGivenNames y'; clear_value y'; revert y'; intro _)
    | with_reducible apply State.setReg_kept | dsimp only | exact hkept | assumption

theorem State.putPair_kept {s0 : State} {s : State} (r : RegRow) (off : Nat) (v : W32) (hkept : Kept s0 s) :
    Kept s0 (State.putPair s r off v) := by
  unfold State.putPair
  repeat' first
    | with_reducible exact hkept | with_reducible assumption
    | (extract_lets +onlyGivenNames y'; refine (fun (_ : Kept s0 y') => ?_) ?_; clear_value y'; revert y'; intro _ _; rotate_left; dsimp only [y']; clear y'; rotate_left)
    | (extract_lets +onlyGivenNames y'; refine (fun (_ : Kept s0 y'.2) => ?_) ?_; clear_value y'; revert y'; intro _ _; rotate_left; dsimp only [y']; clear y'; rotate_left)
    | (extract_lets +onlyGivenNames y'; clear_value y'; revert y'; intro _)
    | with_reducible apply State.takeLo_kept | with_reducible apply State.setReg_kept
    | with_reducible apply State.putRw_kept | with_reducible apply Kept.ite | intro _ _ _ | intro _ _ | intro _
    | split | dsimp only | with_reducible exact Kept.lit (by with_reducible assumption) | exact hkept
    | assumption
    | (with_reducible apply Kept.lit
       (first | with_reducible assumption | with_reducible apply State.takeLo_kept
              | with_reducible apply State.setReg_kept | with_reducible apply State.putRw_kept))

theorem State.loadCtrl_kept {s0 : State} {s : State} (req : Req) (v : W32) (hkept : Kept s0 s) :
    Kept s0 (State.loadCtrl s req v) := by
  unfold State.loadCtrl
  repeat' first
    | with_reducible exact hkept | with_reducible assumption
    | (extract_lets +onlyGivenNames y'; refine (fun (_ : Kept s0 y') => ?_) ?_; clear_value y'; revert y'; intro _ _; rotate_left; dsimp only [y']; clear y'; rotate_left)
    | (extract_lets +onlyGivenNames y'; clear_value y'; revert y'; intro _)
    | with_reducible apply State.setReg_kept | with_reducible apply State.loadJob_kept
    | with_reducible apply State.refuseLoad_kept | with_reducible apply State.loadDev_kept
    | with_reducible apply Kept.ite | split | dsimp only | exact hkept | assumption

theorem State.removeCtrl_kept {s0 : State} {s : State} (req : Req) (v : W32) (hkept : Kept s0 s) :
    Kept s0 (State.removeCtrl s req v) := by
  unfold State.removeCtrl
  repeat' first
    | with_reducible exact hkept | with_reducible assumption
    | (extract_lets +onlyGivenNames y'; refine (fun (_ : Kept s0 y') => ?_) ?_; clear_value y'; revert y'; intro _ _; rotate_left; dsimp only [y']; clear y'; rotate_left)
    | (extract_lets +onlyGivenNames y'; clear_value y'; revert y'; intro _)
    | with_reducible apply State.setReg_kept | with_reducible apply State.removeTenant_kept
    | with_reducible apply State.goOn_kept | with_reducible apply Kept.ite | split | dsimp only | exact hkept
    | assumption

theorem State.winCtrl_kept {s0 : State} {s : State} (f : Nat) (v : W32) (hkept : Kept s0 s) :
    Kept s0 (State.winCtrl s f v) := by
  unfold State.winCtrl
  repeat' first
    | with_reducible exact hkept | with_reducible assumption
    | (extract_lets +onlyGivenNames y'; refine (fun (_ : Kept s0 y') => ?_) ?_; clear_value y'; revert y'; intro _ _; rotate_left; dsimp only [y']; clear y'; rotate_left)
    | (extract_lets +onlyGivenNames y'; clear_value y'; revert y'; intro _)
    | with_reducible apply State.cancelFunc_kept | with_reducible apply State.winClear_kept
    | with_reducible apply State.winSet_kept | with_reducible apply Kept.ite | split | dsimp only | exact hkept
    | assumption

theorem State.ringWrite1_kept {s0 : State} {s : State} (req : Req) (f : Nat) (r : RegRow) (off : Nat) (v : W32) (hkept : Kept s0 s) :
    Kept s0 (State.ringWrite1 s req f r off v) := by
  unfold State.ringWrite1
  repeat' first
    | with_reducible exact hkept | with_reducible assumption | with_reducible apply State.putPair_kept
    | with_reducible apply State.regErrOf_kept | with_reducible apply Kept.ite | split | dsimp only
    | exact hkept | assumption

theorem State.mbxWrite_kept {s0 : State} {s : State} (m : Mbx) (r : RegRow) (i : Nat) (v : W32) (hkept : Kept s0 s) :
    Kept s0 (State.mbxWrite s m r i v) := by
  unfold State.mbxWrite
  repeat' first
    | with_reducible exact hkept | with_reducible assumption
    | (extract_lets +onlyGivenNames y'; refine (fun (_ : Kept s0 y') => ?_) ?_; clear_value y'; revert y'; intro _ _; rotate_left; dsimp only [y']; clear y'; rotate_left)
    | (extract_lets +onlyGivenNames y'; clear_value y'; revert y'; intro _)
    | with_reducible apply State.setMbx_kept | with_reducible apply State.mbxStatus_kept
    | with_reducible apply Kept.ite | split | dsimp only
    | with_reducible exact Kept.lit (by with_reducible assumption) | exact hkept | assumption
    | (with_reducible apply Kept.lit
       (first | with_reducible assumption | with_reducible apply State.setMbx_kept
              | with_reducible apply State.mbxStatus_kept))

theorem State.attrWrite_kept {s0 : State} {s : State} (m : Mbx) (r : RegRow) (off : Nat) (v : W32) (hkept : Kept s0 s) :
    Kept s0 (State.attrWrite s m r off v) := by
  unfold State.attrWrite
  repeat' first
    | with_reducible exact hkept | with_reducible assumption
    | (extract_lets +onlyGivenNames y'; refine (fun (_ : Kept s0 y') => ?_) ?_; clear_value y'; revert y'; intro _ _; rotate_left; dsimp only [y']; clear y'; rotate_left)
    | (extract_lets +onlyGivenNames y'; refine (fun (_ : Kept s0 y'.2) => ?_) ?_; clear_value y'; revert y'; intro _ _; rotate_left; dsimp only [y']; clear y'; rotate_left)
    | (extract_lets +onlyGivenNames y'; clear_value y'; revert y'; intro _)
    | with_reducible apply State.takeLo_kept | with_reducible apply State.setMbx_kept
    | with_reducible apply Kept.ite | intro _ _ _ | intro _ _ | intro _ | split | dsimp only
    | with_reducible exact Kept.lit (by with_reducible assumption) | exact hkept | assumption
    | (with_reducible apply Kept.lit
       (first | with_reducible assumption | with_reducible apply State.takeLo_kept
              | with_reducible apply State.setMbx_kept))

theorem State.keepOffset_kept {s0 : State} {s : State} (hkept : Kept s0 s) :
    Kept s0 (State.keepOffset s) := by
  unfold State.keepOffset
  split
  · exact hkept
  · exact Kept.lit hkept

theorem State.ptbWrite_kept {s0 : State} {s : State} (req : Req) (r : RegRow) (off : Nat) (v : W32) (hkept : Kept s0 s) :
    Kept s0 (State.ptbWrite s req r off v) := by
  unfold State.ptbWrite
  repeat' first
    | with_reducible exact hkept | with_reducible assumption
    | (extract_lets +onlyGivenNames y'; refine (fun (_ : Kept s0 y') => ?_) ?_; clear_value y'; revert y'; intro _ _; rotate_left; dsimp only [y']; clear y'; rotate_left)
    | (extract_lets +onlyGivenNames y'; clear_value y'; revert y'; intro _)
    | with_reducible apply State.regErrOf_kept | with_reducible apply State.regErr_kept | with_reducible apply State.putRw_kept
    | with_reducible apply State.putPair_kept | with_reducible apply State.markSince_kept
    | with_reducible apply State.keepOffset_kept | with_reducible apply State.markPerturbed_kept | with_reducible apply Kept.ite | split | dsimp only
    | exact hkept | assumption

theorem State.profCtrl_kept {s0 : State} {s : State} (v : W32) (hkept : Kept s0 s) :
    Kept s0 (State.profCtrl s v) := by
  unfold State.profCtrl
  repeat' first
    | with_reducible exact hkept | with_reducible assumption
    | (extract_lets +onlyGivenNames y'; refine (fun (_ : Kept s0 y') => ?_) ?_; clear_value y'; revert y'; intro _ _; rotate_left; dsimp only [y']; clear y'; rotate_left)
    | (extract_lets +onlyGivenNames y'; clear_value y'; revert y'; intro _)
    | with_reducible apply State.setReg_kept | with_reducible apply State.markSince_kept
    | with_reducible apply State.profZero_kept | with_reducible apply Kept.ite | split | dsimp only
    | exact hkept | assumption

theorem State.errIndex_kept {s0 : State} {s : State} (v : W32) (hkept : Kept s0 s) :
    Kept s0 (State.errIndex s v) := by
  unfold State.errIndex
  repeat' first
    | with_reducible exact hkept | with_reducible assumption
    | (extract_lets +onlyGivenNames y'; refine (fun (_ : Kept s0 y') => ?_) ?_; clear_value y'; revert y'; intro _ _; rotate_left; dsimp only [y']; clear y'; rotate_left)
    | (extract_lets +onlyGivenNames y'; clear_value y'; revert y'; intro _)
    | with_reducible apply State.setRegN_kept | with_reducible apply State.setReg_kept
    | with_reducible apply Kept.foldl | with_reducible apply Kept.foldl_fst
    | with_reducible apply Kept.foldl_snd | intro _ _ _ | intro _ _ | intro _ | dsimp only | exact hkept
    | assumption

theorem State.ctxClose_kept {s0 : State} {s : State} (i : Nat) (mask : Nat) (hkept : Kept s0 s) :
    Kept s0 (State.ctxClose s i mask) := by
  unfold State.ctxClose
  repeat' first
    | with_reducible exact hkept | with_reducible assumption
    | (extract_lets +onlyGivenNames y'; refine (fun (_ : Kept s0 y') => ?_) ?_; clear_value y'; revert y'; intro _ _; rotate_left; dsimp only [y']; clear y'; rotate_left)
    | (extract_lets +onlyGivenNames y'; clear_value y'; revert y'; intro _)
    | with_reducible apply State.stage_kept | with_reducible apply State.modCore_kept
    | with_reducible apply State.setCtx_kept | with_reducible apply Kept.ite | with_reducible apply Kept.foldl
    | with_reducible apply Kept.foldl_fst | with_reducible apply Kept.foldl_snd | intro _ _ _ | intro _ _
    | intro _ | split | dsimp only | with_reducible exact Kept.lit (by with_reducible assumption) | exact hkept
    | assumption
    | (with_reducible apply Kept.lit
       (first | with_reducible assumption | with_reducible apply State.stage_kept
              | with_reducible apply State.modCore_kept | with_reducible apply State.setCtx_kept))

theorem State.coreEcc_kept {s0 : State} {s : State} (i : Nat) (hkept : Kept s0 s) :
    Kept s0 (State.coreEcc s i) := by
  unfold State.coreEcc
  repeat' first
    | with_reducible exact hkept | with_reducible assumption | with_reducible apply State.modCore_kept
    | intro _ _ _ | intro _ _ | intro _ | dsimp only
    | with_reducible exact Kept.lit (by with_reducible assumption) | exact hkept | assumption
    | (with_reducible apply Kept.lit
       (first | with_reducible assumption | with_reducible apply State.modCore_kept))

theorem State.clearBits_kept {s0 : State} {s : State} (r : RegRow) (off : Nat) (v : W32) (hkept : Kept s0 s) :
    Kept s0 (State.clearBits s r off v) := by
  unfold State.clearBits
  repeat' first
    | with_reducible exact hkept | with_reducible assumption | with_reducible apply State.setReg_kept
    | dsimp only | exact hkept | assumption

theorem State.jtagWrote_kept {s0 : State} {s : State} (off : Nat) (hkept : Kept s0 s) :
    Kept s0 (State.jtagWrote s off) := by
  unfold State.jtagWrote
  repeat' first
    | with_reducible exact hkept | with_reducible assumption
    | (extract_lets +onlyGivenNames y'; refine (fun (_ : Kept s0 y') => ?_) ?_; clear_value y'; revert y'; intro _ _; rotate_left; dsimp only [y']; clear y'; rotate_left)
    | (extract_lets +onlyGivenNames y'; clear_value y'; revert y'; intro _) | with_reducible apply Kept.ite
    | intro _ _ _ | intro _ _ | intro _ | split | dsimp only
    | with_reducible exact Kept.lit (by with_reducible assumption) | exact hkept | assumption

theorem State.writeReg_kept {s0 : State} {s : State} (req : Req) (off : Nat) (v : W32) (hkept : Kept s0 s) :
    Kept s0 (State.writeReg s req off v) := by
  unfold State.writeReg
  repeat' first
    | with_reducible exact hkept | with_reducible assumption
    | (extract_lets +onlyGivenNames y'; refine (fun (_ : Kept s0 y') => ?_) ?_; clear_value y'; revert y'; intro _ _; rotate_left; dsimp only [y']; clear y'; rotate_left)
    | (extract_lets +onlyGivenNames y'; clear_value y'; revert y'; intro _)
    | with_reducible apply State.rwlWrite_kept | with_reducible apply State.clearBits_kept
    | with_reducible apply State.errIndex_kept | with_reducible apply State.loadCtrl_kept
    | with_reducible apply State.removeCtrl_kept | with_reducible apply State.winCtrl_kept
    | with_reducible apply State.cqCfg_kept | with_reducible apply State.ringWrite1_kept
    | with_reducible apply State.modFolio_kept | with_reducible apply State.coreEcc_kept
    | with_reducible apply State.ctxClose_kept | with_reducible apply State.regErrOf_kept
    | with_reducible apply State.retrain_kept | with_reducible apply State.attrWrite_kept
    | with_reducible apply State.mbxWrite_kept | with_reducible apply State.rngTest_kept
    | with_reducible apply State.updWrite_kept | with_reducible apply State.regErr_kept
    | with_reducible apply State.muxWrite_kept | with_reducible apply State.profCtrl_kept
    | with_reducible apply State.ptbWrite_kept | with_reducible apply State.doze_kept
    | with_reducible apply State.putPair_kept | with_reducible apply State.putRw_kept
    | with_reducible apply Kept.ite | intro _ _ _ | intro _ _ | intro _ | split | dsimp only
    | with_reducible exact Kept.lit (by with_reducible assumption) | exact hkept | assumption | exact rfl
    | exact Nat.le_refl _
    | (with_reducible apply Kept.lit
       (first | with_reducible assumption | with_reducible apply State.rwlWrite_kept
              | with_reducible apply State.clearBits_kept | with_reducible apply State.errIndex_kept
              | with_reducible apply State.loadCtrl_kept | with_reducible apply State.removeCtrl_kept
              | with_reducible apply State.winCtrl_kept | with_reducible apply State.cqCfg_kept
              | with_reducible apply State.ringWrite1_kept | with_reducible apply State.modFolio_kept
              | with_reducible apply State.coreEcc_kept | with_reducible apply State.ctxClose_kept
              | with_reducible apply State.regErrOf_kept | with_reducible apply State.retrain_kept
              | with_reducible apply State.attrWrite_kept | with_reducible apply State.mbxWrite_kept
              | with_reducible apply State.rngTest_kept | with_reducible apply State.updWrite_kept
              | with_reducible apply State.regErr_kept | with_reducible apply State.muxWrite_kept
              | with_reducible apply State.profCtrl_kept | with_reducible apply State.ptbWrite_kept
              | with_reducible apply State.doze_kept | with_reducible apply State.putPair_kept
              | with_reducible apply State.putRw_kept))

theorem State.writeBar_kept {s0 : State} {s : State} (req : Req) (off size : Nat) (v : W32) (hkept : Kept s0 s) :
    Kept s0 (State.writeBar s req off size v) := by
  unfold State.writeBar
  repeat' first
    | with_reducible exact hkept | with_reducible assumption | with_reducible apply State.writeReg_kept
    | with_reducible apply State.tdiError_kept | with_reducible apply State.msixWrite_kept
    | with_reducible apply State.regErrOf_kept | with_reducible apply Kept.ite | split | dsimp only
    | with_reducible exact Kept.lit (by with_reducible assumption) | exact hkept | assumption
    | (with_reducible apply Kept.lit
       (first | with_reducible assumption | with_reducible apply State.writeReg_kept
              | with_reducible apply State.tdiError_kept | with_reducible apply State.msixWrite_kept
              | with_reducible apply State.regErrOf_kept))

theorem State.dbgAperture_kept {s0 : State} {s : State} (a : Nat) (a0 : Option W32) (hkept : Kept s0 s) :
    Kept s0 (State.dbgAperture s a a0) := by
  cases a0 <;>
   (unfold State.dbgAperture
    repeat' first
     | with_reducible exact hkept | with_reducible assumption
     | (extract_lets +onlyGivenNames y'; refine (fun (_ : Kept s0 y') => ?_) ?_; clear_value y'; revert y'; intro _ _; rotate_left; dsimp only [y']; clear y'; rotate_left)
     | (extract_lets +onlyGivenNames y'; clear_value y'; revert y'; intro _)
     | with_reducible apply State.declareFrame_kept | with_reducible apply State.emit_kept
     | with_reducible apply State.modFolio_kept | with_reducible apply Kept.ite
     | exact Memory.wf_write _ _ (by assumption) | intro _ _ _ | intro _ _ | intro _ | split | dsimp only
     | with_reducible exact Kept.lit (by with_reducible assumption) | exact hkept | assumption | exact rfl
     | exact Nat.le_refl _
     | (with_reducible apply Kept.lit
        (first | with_reducible assumption | with_reducible apply State.declareFrame_kept
               | with_reducible apply State.emit_kept | with_reducible apply State.modFolio_kept)))

end Sys2Proof.Machine
end

