-- ==== Sys2Proof/Laws/KeptVector.lean ====
section
/-!
SUPPORT. Laws/KeptVector.lean: what the operations of Machine/Vector.lean keep of a state (Laws/Kept.lean).
-/
namespace Sys2Proof.Machine

theorem State.vecRegs_kept {s0 : State} {s : State} (i : Nat) (hkept : Kept s0 s) :
    Kept s0 (State.vecRegs s i) := by
  unfold State.vecRegs
  repeat' first
    | with_reducible exact hkept | with_reducible assumption
    | (extract_lets +onlyGivenNames y'; refine (fun (_ : Kept s0 y') => ?_) ?_; clear_value y'; revert y'; intro _ _; rotate_left; dsimp only [y']; clear y'; rotate_left)
    | (extract_lets +onlyGivenNames y'; refine (fun (_ : Kept s0 y'.2) => ?_) ?_; clear_value y'; revert y'; intro _ _; rotate_left; dsimp only [y']; clear y'; rotate_left)
    | (extract_lets +onlyGivenNames y'; clear_value y'; revert y'; intro _)
    | with_reducible apply State.free_kept | with_reducible apply State.modCore_kept
    | with_reducible apply Kept.foldl | with_reducible apply Kept.foldl_fst
    | with_reducible apply Kept.foldl_snd | intro _ _ _ | intro _ _ | intro _ | dsimp only
    | with_reducible exact Kept.lit (by with_reducible assumption) | exact hkept | assumption
    | (with_reducible apply Kept.lit
       (first | with_reducible assumption | with_reducible apply State.free_kept
              | with_reducible apply State.modCore_kept))

theorem State.vecWork_kept {s0 : State} (o : Op) (i : Nat) {s : State} (hkept : Kept s0 s) :
    Kept s0 (State.vecWork o i s) := by
  unfold State.vecWork
  repeat' first
    | with_reducible exact hkept | with_reducible assumption
    | (extract_lets +onlyGivenNames y'; refine (fun (_ : Kept s0 y') => ?_) ?_; clear_value y'; revert y'; intro _ _; rotate_left; dsimp only [y']; clear y'; rotate_left)
    | (extract_lets +onlyGivenNames y'; clear_value y'; revert y'; intro _)
    | with_reducible apply State.stageIf_kept | with_reducible apply State.vecRegs_kept
    | with_reducible apply State.resultTile_kept | with_reducible apply State.endOpCycles_kept
    | with_reducible apply Kept.ite | split | dsimp only | exact hkept | assumption

theorem State.vecOn_kept {s0 : State} {s : State} (o : Op) (i : Nat) (err : ScratchErr) (hkept : Kept s0 s) :
    Kept s0 (State.vecOn s o i err) := by
  unfold State.vecOn
  repeat' first
    | with_reducible exact hkept | with_reducible assumption
    | (extract_lets +onlyGivenNames y'; refine (fun (_ : Kept s0 y') => ?_) ?_; clear_value y'; revert y'; intro _ _; rotate_left; dsimp only [y']; clear y'; rotate_left)
    | (extract_lets +onlyGivenNames y'; refine (fun (_ : y'.Kept s0) => ?_) ?_; clear_value y'; revert y'; intro _ _; rotate_left; dsimp only [y']; clear y'; rotate_left)
    | (extract_lets +onlyGivenNames y'; clear_value y'; revert y'; intro _)
    | with_reducible apply State.endOpCycles_kept | with_reducible apply State.prepare_kept
    | with_reducible apply Prep.finish_kept | with_reducible apply State.withErr_kept
    | with_reducible apply State.vecWork_kept | with_reducible apply State.result_kept
    | with_reducible apply Prep.ok_kept | with_reducible apply Prep.wait_kept
    | with_reducible apply Prep.fail_kept | with_reducible apply Prep.of_ok (by with_reducible assumption)
    | with_reducible apply Prep.of_wait (by with_reducible assumption)
    | with_reducible apply Prep.of_fail (by with_reducible assumption) | with_reducible apply Kept.ite
    | intro _ _ _ | intro _ _ | intro _ | split | dsimp only | exact hkept | assumption

end Sys2Proof.Machine
end

