-- ==== Sys2Proof/Laws/State.lean ====
section
/-!
SUPPORT. Laws/State.lean: what each named update of the state changes and what it leaves, field by field, so that no
later proof unfolds a record update, and what is read back after it.
-/
namespace Sys2Proof.Machine

variable (s : State)

/-! ### setPart -/

@[simp] theorem State.setPart_pending (p : Nat) (x : PartSt) : (s.setPart p x).pending = s.pending := rfl
@[simp] theorem State.setPart_stackGib (p : Nat) (x : PartSt) : (s.setPart p x).stackGib = s.stackGib := rfl
@[simp] theorem State.setPart_cycles (p : Nat) (x : PartSt) : (s.setPart p x).cycles = s.cycles := rfl
@[simp] theorem State.setPart_ft (p : Nat) (x : PartSt) : (s.setPart p x).ft = s.ft := rfl
@[simp] theorem State.setPart_power (p : Nat) (x : PartSt) : (s.setPart p x).power = s.power := rfl
@[simp] theorem State.setPart_pwr (p : Nat) (x : PartSt) : (s.setPart p x).pwr = s.pwr := rfl
@[simp] theorem State.setPart_mgmt (p : Nat) (x : PartSt) : (s.setPart p x).mgmt = s.mgmt := rfl
@[simp] theorem State.setPart_startDone (p : Nat) (x : PartSt) : (s.setPart p x).startDone = s.startDone := rfl
@[simp] theorem State.setPart_tamperHold (p : Nat) (x : PartSt) : (s.setPart p x).tamperHold = s.tamperHold := rfl
@[simp] theorem State.setPart_recoveryMode (p : Nat) (x : PartSt) : (s.setPart p x).recoveryMode = s.recoveryMode := rfl
@[simp] theorem State.setPart_restarting (p : Nat) (x : PartSt) : (s.setPart p x).restarting = s.restarting := rfl
@[simp] theorem State.setPart_configReady (p : Nat) (x : PartSt) : (s.setPart p x).configReady = s.configReady := rfl
@[simp] theorem State.setPart_regs (p : Nat) (x : PartSt) : (s.setPart p x).regs = s.regs := rfl
@[simp] theorem State.setPart_latches (p : Nat) (x : PartSt) : (s.setPart p x).latches = s.latches := rfl
@[simp] theorem State.setPart_hwSet (p : Nat) (x : PartSt) : (s.setPart p x).hwSet = s.hwSet := rfl
@[simp] theorem State.setPart_pendLo (p : Nat) (x : PartSt) : (s.setPart p x).pendLo = s.pendLo := rfl
@[simp] theorem State.setPart_numVfs (p : Nat) (x : PartSt) : (s.setPart p x).numVfs = s.numVfs := rfl
@[simp] theorem State.setPart_funcs (p : Nat) (x : PartSt) : (s.setPart p x).funcs = s.funcs := rfl
@[simp] theorem State.setPart_rings (p : Nat) (x : PartSt) : (s.setPart p x).rings = s.rings := rfl
@[simp] theorem State.setPart_fetchTurn (p : Nat) (x : PartSt) : (s.setPart p x).fetchTurn = s.fetchTurn := rfl
@[simp] theorem State.setPart_slots (p : Nat) (x : PartSt) : (s.setPart p x).slots = s.slots := rfl
@[simp] theorem State.setPart_parts (p : Nat) (x : PartSt) : (s.setPart p x).parts = Tab.store (fun _ => {}) s.parts p x := rfl
@[simp] theorem State.setPart_ops (p : Nat) (x : PartSt) : (s.setPart p x).ops = s.ops := rfl
@[simp] theorem State.setPart_recs (p : Nat) (x : PartSt) : (s.setPart p x).recs = s.recs := rfl
@[simp] theorem State.setPart_ide (p : Nat) (x : PartSt) : (s.setPart p x).ide = s.ide := rfl
@[simp] theorem State.setPart_ideKeys (p : Nat) (x : PartSt) : (s.setPart p x).ideKeys = s.ideKeys := rfl
@[simp] theorem State.setPart_msix (p : Nat) (x : PartSt) : (s.setPart p x).msix = s.msix := rfl
@[simp] theorem State.setPart_pba (p : Nat) (x : PartSt) : (s.setPart p x).pba = s.pba := rfl
@[simp] theorem State.setPart_msixHeld (p : Nat) (x : PartSt) : (s.setPart p x).msixHeld = s.msixHeld := rfl
@[simp] theorem State.setPart_dev (p : Nat) (x : PartSt) : (s.setPart p x).dev = s.dev := rfl
@[simp] theorem State.setPart_load (p : Nat) (x : PartSt) : (s.setPart p x).load = s.load := rfl
@[simp] theorem State.setPart_removal (p : Nat) (x : PartSt) : (s.setPart p x).removal = s.removal := rfl
@[simp] theorem State.setPart_cores (p : Nat) (x : PartSt) : (s.setPart p x).cores = s.cores := rfl
@[simp] theorem State.setPart_retired (p : Nat) (x : PartSt) : (s.setPart p x).retired = s.retired := rfl
@[simp] theorem State.setPart_sliceFailed (p : Nat) (x : PartSt) : (s.setPart p x).sliceFailed = s.sliceFailed := rfl
@[simp] theorem State.setPart_polyFailed (p : Nat) (x : PartSt) : (s.setPart p x).polyFailed = s.polyFailed := rfl
@[simp] theorem State.setPart_scratch (p : Nat) (x : PartSt) : (s.setPart p x).scratch = s.scratch := rfl
@[simp] theorem State.setPart_folio (p : Nat) (x : PartSt) : (s.setPart p x).folio = s.folio := rfl
@[simp] theorem State.setPart_tally (p : Nat) (x : PartSt) : (s.setPart p x).tally = s.tally := rfl
@[simp] theorem State.setPart_poly (p : Nat) (x : PartSt) : (s.setPart p x).poly = s.poly := rfl
@[simp] theorem State.setPart_limbBufs (p : Nat) (x : PartSt) : (s.setPart p x).limbBufs = s.limbBufs := rfl
@[simp] theorem State.setPart_links (p : Nat) (x : PartSt) : (s.setPart p x).links = s.links := rfl
@[simp] theorem State.setPart_ports (p : Nat) (x : PartSt) : (s.setPart p x).ports = s.ports := rfl
@[simp] theorem State.setPart_sbox (p : Nat) (x : PartSt) : (s.setPart p x).sbox = s.sbox := rfl
@[simp] theorem State.setPart_rng (p : Nat) (x : PartSt) : (s.setPart p x).rng = s.rng := rfl
@[simp] theorem State.setPart_errs (p : Nat) (x : PartSt) : (s.setPart p x).errs = s.errs := rfl
@[simp] theorem State.setPart_jtagIns (p : Nat) (x : PartSt) : (s.setPart p x).jtagIns = s.jtagIns := rfl
@[simp] theorem State.setPart_eids (p : Nat) (x : PartSt) : (s.setPart p x).eids = s.eids := rfl
@[simp] theorem State.setPart_hostMem (p : Nat) (x : PartSt) : (s.setPart p x).hostMem = s.hostMem := rfl
@[simp] theorem State.setPart_out (p : Nat) (x : PartSt) : (s.setPart p x).out = s.out := rfl
@[simp] theorem State.setPart_fresh (p : Nat) (x : PartSt) : (s.setPart p x).fresh = s.fresh := rfl

/-! ### modPart -/

@[simp] theorem State.modPart_pending (p : Nat) (g : PartSt → PartSt) : (s.modPart p g).pending = s.pending := rfl
@[simp] theorem State.modPart_stackGib (p : Nat) (g : PartSt → PartSt) : (s.modPart p g).stackGib = s.stackGib := rfl
@[simp] theorem State.modPart_cycles (p : Nat) (g : PartSt → PartSt) : (s.modPart p g).cycles = s.cycles := rfl
@[simp] theorem State.modPart_ft (p : Nat) (g : PartSt → PartSt) : (s.modPart p g).ft = s.ft := rfl
@[simp] theorem State.modPart_power (p : Nat) (g : PartSt → PartSt) : (s.modPart p g).power = s.power := rfl
@[simp] theorem State.modPart_pwr (p : Nat) (g : PartSt → PartSt) : (s.modPart p g).pwr = s.pwr := rfl
@[simp] theorem State.modPart_mgmt (p : Nat) (g : PartSt → PartSt) : (s.modPart p g).mgmt = s.mgmt := rfl
@[simp] theorem State.modPart_startDone (p : Nat) (g : PartSt → PartSt) : (s.modPart p g).startDone = s.startDone := rfl
@[simp] theorem State.modPart_tamperHold (p : Nat) (g : PartSt → PartSt) : (s.modPart p g).tamperHold = s.tamperHold := rfl
@[simp] theorem State.modPart_recoveryMode (p : Nat) (g : PartSt → PartSt) : (s.modPart p g).recoveryMode = s.recoveryMode := rfl
@[simp] theorem State.modPart_restarting (p : Nat) (g : PartSt → PartSt) : (s.modPart p g).restarting = s.restarting := rfl
@[simp] theorem State.modPart_configReady (p : Nat) (g : PartSt → PartSt) : (s.modPart p g).configReady = s.configReady := rfl
@[simp] theorem State.modPart_regs (p : Nat) (g : PartSt → PartSt) : (s.modPart p g).regs = s.regs := rfl
@[simp] theorem State.modPart_latches (p : Nat) (g : PartSt → PartSt) : (s.modPart p g).latches = s.latches := rfl
@[simp] theorem State.modPart_hwSet (p : Nat) (g : PartSt → PartSt) : (s.modPart p g).hwSet = s.hwSet := rfl
@[simp] theorem State.modPart_pendLo (p : Nat) (g : PartSt → PartSt) : (s.modPart p g).pendLo = s.pendLo := rfl
@[simp] theorem State.modPart_numVfs (p : Nat) (g : PartSt → PartSt) : (s.modPart p g).numVfs = s.numVfs := rfl
@[simp] theorem State.modPart_funcs (p : Nat) (g : PartSt → PartSt) : (s.modPart p g).funcs = s.funcs := rfl
@[simp] theorem State.modPart_rings (p : Nat) (g : PartSt → PartSt) : (s.modPart p g).rings = s.rings := rfl
@[simp] theorem State.modPart_fetchTurn (p : Nat) (g : PartSt → PartSt) : (s.modPart p g).fetchTurn = s.fetchTurn := rfl
@[simp] theorem State.modPart_slots (p : Nat) (g : PartSt → PartSt) : (s.modPart p g).slots = s.slots := rfl
@[simp] theorem State.modPart_parts (p : Nat) (g : PartSt → PartSt) : (s.modPart p g).parts = Tab.store (fun _ => {}) s.parts p (g (s.part p)) := rfl
@[simp] theorem State.modPart_ops (p : Nat) (g : PartSt → PartSt) : (s.modPart p g).ops = s.ops := rfl
@[simp] theorem State.modPart_recs (p : Nat) (g : PartSt → PartSt) : (s.modPart p g).recs = s.recs := rfl
@[simp] theorem State.modPart_ide (p : Nat) (g : PartSt → PartSt) : (s.modPart p g).ide = s.ide := rfl
@[simp] theorem State.modPart_ideKeys (p : Nat) (g : PartSt → PartSt) : (s.modPart p g).ideKeys = s.ideKeys := rfl
@[simp] theorem State.modPart_msix (p : Nat) (g : PartSt → PartSt) : (s.modPart p g).msix = s.msix := rfl
@[simp] theorem State.modPart_pba (p : Nat) (g : PartSt → PartSt) : (s.modPart p g).pba = s.pba := rfl
@[simp] theorem State.modPart_msixHeld (p : Nat) (g : PartSt → PartSt) : (s.modPart p g).msixHeld = s.msixHeld := rfl
@[simp] theorem State.modPart_dev (p : Nat) (g : PartSt → PartSt) : (s.modPart p g).dev = s.dev := rfl
@[simp] theorem State.modPart_load (p : Nat) (g : PartSt → PartSt) : (s.modPart p g).load = s.load := rfl
@[simp] theorem State.modPart_removal (p : Nat) (g : PartSt → PartSt) : (s.modPart p g).removal = s.removal := rfl
@[simp] theorem State.modPart_cores (p : Nat) (g : PartSt → PartSt) : (s.modPart p g).cores = s.cores := rfl
@[simp] theorem State.modPart_retired (p : Nat) (g : PartSt → PartSt) : (s.modPart p g).retired = s.retired := rfl
@[simp] theorem State.modPart_sliceFailed (p : Nat) (g : PartSt → PartSt) : (s.modPart p g).sliceFailed = s.sliceFailed := rfl
@[simp] theorem State.modPart_polyFailed (p : Nat) (g : PartSt → PartSt) : (s.modPart p g).polyFailed = s.polyFailed := rfl
@[simp] theorem State.modPart_scratch (p : Nat) (g : PartSt → PartSt) : (s.modPart p g).scratch = s.scratch := rfl
@[simp] theorem State.modPart_folio (p : Nat) (g : PartSt → PartSt) : (s.modPart p g).folio = s.folio := rfl
@[simp] theorem State.modPart_tally (p : Nat) (g : PartSt → PartSt) : (s.modPart p g).tally = s.tally := rfl
@[simp] theorem State.modPart_poly (p : Nat) (g : PartSt → PartSt) : (s.modPart p g).poly = s.poly := rfl
@[simp] theorem State.modPart_limbBufs (p : Nat) (g : PartSt → PartSt) : (s.modPart p g).limbBufs = s.limbBufs := rfl
@[simp] theorem State.modPart_links (p : Nat) (g : PartSt → PartSt) : (s.modPart p g).links = s.links := rfl
@[simp] theorem State.modPart_ports (p : Nat) (g : PartSt → PartSt) : (s.modPart p g).ports = s.ports := rfl
@[simp] theorem State.modPart_sbox (p : Nat) (g : PartSt → PartSt) : (s.modPart p g).sbox = s.sbox := rfl
@[simp] theorem State.modPart_rng (p : Nat) (g : PartSt → PartSt) : (s.modPart p g).rng = s.rng := rfl
@[simp] theorem State.modPart_errs (p : Nat) (g : PartSt → PartSt) : (s.modPart p g).errs = s.errs := rfl
@[simp] theorem State.modPart_jtagIns (p : Nat) (g : PartSt → PartSt) : (s.modPart p g).jtagIns = s.jtagIns := rfl
@[simp] theorem State.modPart_eids (p : Nat) (g : PartSt → PartSt) : (s.modPart p g).eids = s.eids := rfl
@[simp] theorem State.modPart_hostMem (p : Nat) (g : PartSt → PartSt) : (s.modPart p g).hostMem = s.hostMem := rfl
@[simp] theorem State.modPart_out (p : Nat) (g : PartSt → PartSt) : (s.modPart p g).out = s.out := rfl
@[simp] theorem State.modPart_fresh (p : Nat) (g : PartSt → PartSt) : (s.modPart p g).fresh = s.fresh := rfl

/-! ### modFunc -/

@[simp] theorem State.modFunc_pending (f : Nat) (g : Func → Func) : (s.modFunc f g).pending = s.pending := rfl
@[simp] theorem State.modFunc_stackGib (f : Nat) (g : Func → Func) : (s.modFunc f g).stackGib = s.stackGib := rfl
@[simp] theorem State.modFunc_cycles (f : Nat) (g : Func → Func) : (s.modFunc f g).cycles = s.cycles := rfl
@[simp] theorem State.modFunc_ft (f : Nat) (g : Func → Func) : (s.modFunc f g).ft = s.ft := rfl
@[simp] theorem State.modFunc_power (f : Nat) (g : Func → Func) : (s.modFunc f g).power = s.power := rfl
@[simp] theorem State.modFunc_pwr (f : Nat) (g : Func → Func) : (s.modFunc f g).pwr = s.pwr := rfl
@[simp] theorem State.modFunc_mgmt (f : Nat) (g : Func → Func) : (s.modFunc f g).mgmt = s.mgmt := rfl
@[simp] theorem State.modFunc_startDone (f : Nat) (g : Func → Func) : (s.modFunc f g).startDone = s.startDone := rfl
@[simp] theorem State.modFunc_tamperHold (f : Nat) (g : Func → Func) : (s.modFunc f g).tamperHold = s.tamperHold := rfl
@[simp] theorem State.modFunc_recoveryMode (f : Nat) (g : Func → Func) : (s.modFunc f g).recoveryMode = s.recoveryMode := rfl
@[simp] theorem State.modFunc_restarting (f : Nat) (g : Func → Func) : (s.modFunc f g).restarting = s.restarting := rfl
@[simp] theorem State.modFunc_configReady (f : Nat) (g : Func → Func) : (s.modFunc f g).configReady = s.configReady := rfl
@[simp] theorem State.modFunc_regs (f : Nat) (g : Func → Func) : (s.modFunc f g).regs = s.regs := rfl
@[simp] theorem State.modFunc_latches (f : Nat) (g : Func → Func) : (s.modFunc f g).latches = s.latches := rfl
@[simp] theorem State.modFunc_hwSet (f : Nat) (g : Func → Func) : (s.modFunc f g).hwSet = s.hwSet := rfl
@[simp] theorem State.modFunc_pendLo (f : Nat) (g : Func → Func) : (s.modFunc f g).pendLo = s.pendLo := rfl
@[simp] theorem State.modFunc_numVfs (f : Nat) (g : Func → Func) : (s.modFunc f g).numVfs = s.numVfs := rfl
@[simp] theorem State.modFunc_funcs (f : Nat) (g : Func → Func) : (s.modFunc f g).funcs = Tab.store (fun _ => {}) s.funcs f (g (s.func f)) := rfl
@[simp] theorem State.modFunc_rings (f : Nat) (g : Func → Func) : (s.modFunc f g).rings = s.rings := rfl
@[simp] theorem State.modFunc_fetchTurn (f : Nat) (g : Func → Func) : (s.modFunc f g).fetchTurn = s.fetchTurn := rfl
@[simp] theorem State.modFunc_slots (f : Nat) (g : Func → Func) : (s.modFunc f g).slots = s.slots := rfl
@[simp] theorem State.modFunc_parts (f : Nat) (g : Func → Func) : (s.modFunc f g).parts = s.parts := rfl
@[simp] theorem State.modFunc_ops (f : Nat) (g : Func → Func) : (s.modFunc f g).ops = s.ops := rfl
@[simp] theorem State.modFunc_recs (f : Nat) (g : Func → Func) : (s.modFunc f g).recs = s.recs := rfl
@[simp] theorem State.modFunc_ide (f : Nat) (g : Func → Func) : (s.modFunc f g).ide = s.ide := rfl
@[simp] theorem State.modFunc_ideKeys (f : Nat) (g : Func → Func) : (s.modFunc f g).ideKeys = s.ideKeys := rfl
@[simp] theorem State.modFunc_msix (f : Nat) (g : Func → Func) : (s.modFunc f g).msix = s.msix := rfl
@[simp] theorem State.modFunc_pba (f : Nat) (g : Func → Func) : (s.modFunc f g).pba = s.pba := rfl
@[simp] theorem State.modFunc_msixHeld (f : Nat) (g : Func → Func) : (s.modFunc f g).msixHeld = s.msixHeld := rfl
@[simp] theorem State.modFunc_dev (f : Nat) (g : Func → Func) : (s.modFunc f g).dev = s.dev := rfl
@[simp] theorem State.modFunc_load (f : Nat) (g : Func → Func) : (s.modFunc f g).load = s.load := rfl
@[simp] theorem State.modFunc_removal (f : Nat) (g : Func → Func) : (s.modFunc f g).removal = s.removal := rfl
@[simp] theorem State.modFunc_cores (f : Nat) (g : Func → Func) : (s.modFunc f g).cores = s.cores := rfl
@[simp] theorem State.modFunc_retired (f : Nat) (g : Func → Func) : (s.modFunc f g).retired = s.retired := rfl
@[simp] theorem State.modFunc_sliceFailed (f : Nat) (g : Func → Func) : (s.modFunc f g).sliceFailed = s.sliceFailed := rfl
@[simp] theorem State.modFunc_polyFailed (f : Nat) (g : Func → Func) : (s.modFunc f g).polyFailed = s.polyFailed := rfl
@[simp] theorem State.modFunc_scratch (f : Nat) (g : Func → Func) : (s.modFunc f g).scratch = s.scratch := rfl
@[simp] theorem State.modFunc_folio (f : Nat) (g : Func → Func) : (s.modFunc f g).folio = s.folio := rfl
@[simp] theorem State.modFunc_tally (f : Nat) (g : Func → Func) : (s.modFunc f g).tally = s.tally := rfl
@[simp] theorem State.modFunc_poly (f : Nat) (g : Func → Func) : (s.modFunc f g).poly = s.poly := rfl
@[simp] theorem State.modFunc_limbBufs (f : Nat) (g : Func → Func) : (s.modFunc f g).limbBufs = s.limbBufs := rfl
@[simp] theorem State.modFunc_links (f : Nat) (g : Func → Func) : (s.modFunc f g).links = s.links := rfl
@[simp] theorem State.modFunc_ports (f : Nat) (g : Func → Func) : (s.modFunc f g).ports = s.ports := rfl
@[simp] theorem State.modFunc_sbox (f : Nat) (g : Func → Func) : (s.modFunc f g).sbox = s.sbox := rfl
@[simp] theorem State.modFunc_rng (f : Nat) (g : Func → Func) : (s.modFunc f g).rng = s.rng := rfl
@[simp] theorem State.modFunc_errs (f : Nat) (g : Func → Func) : (s.modFunc f g).errs = s.errs := rfl
@[simp] theorem State.modFunc_jtagIns (f : Nat) (g : Func → Func) : (s.modFunc f g).jtagIns = s.jtagIns := rfl
@[simp] theorem State.modFunc_eids (f : Nat) (g : Func → Func) : (s.modFunc f g).eids = s.eids := rfl
@[simp] theorem State.modFunc_hostMem (f : Nat) (g : Func → Func) : (s.modFunc f g).hostMem = s.hostMem := rfl
@[simp] theorem State.modFunc_out (f : Nat) (g : Func → Func) : (s.modFunc f g).out = s.out := rfl
@[simp] theorem State.modFunc_fresh (f : Nat) (g : Func → Func) : (s.modFunc f g).fresh = s.fresh := rfl

/-! ### modRing -/

@[simp] theorem State.modRing_pending (f r : Nat) (g : RingSt → RingSt) : (s.modRing f r g).pending = s.pending := rfl
@[simp] theorem State.modRing_stackGib (f r : Nat) (g : RingSt → RingSt) : (s.modRing f r g).stackGib = s.stackGib := rfl
@[simp] theorem State.modRing_cycles (f r : Nat) (g : RingSt → RingSt) : (s.modRing f r g).cycles = s.cycles := rfl
@[simp] theorem State.modRing_ft (f r : Nat) (g : RingSt → RingSt) : (s.modRing f r g).ft = s.ft := rfl
@[simp] theorem State.modRing_power (f r : Nat) (g : RingSt → RingSt) : (s.modRing f r g).power = s.power := rfl
@[simp] theorem State.modRing_pwr (f r : Nat) (g : RingSt → RingSt) : (s.modRing f r g).pwr = s.pwr := rfl
@[simp] theorem State.modRing_mgmt (f r : Nat) (g : RingSt → RingSt) : (s.modRing f r g).mgmt = s.mgmt := rfl
@[simp] theorem State.modRing_startDone (f r : Nat) (g : RingSt → RingSt) : (s.modRing f r g).startDone = s.startDone := rfl
@[simp] theorem State.modRing_tamperHold (f r : Nat) (g : RingSt → RingSt) : (s.modRing f r g).tamperHold = s.tamperHold := rfl
@[simp] theorem State.modRing_recoveryMode (f r : Nat) (g : RingSt → RingSt) : (s.modRing f r g).recoveryMode = s.recoveryMode := rfl
@[simp] theorem State.modRing_restarting (f r : Nat) (g : RingSt → RingSt) : (s.modRing f r g).restarting = s.restarting := rfl
@[simp] theorem State.modRing_configReady (f r : Nat) (g : RingSt → RingSt) : (s.modRing f r g).configReady = s.configReady := rfl
@[simp] theorem State.modRing_regs (f r : Nat) (g : RingSt → RingSt) : (s.modRing f r g).regs = s.regs := rfl
@[simp] theorem State.modRing_latches (f r : Nat) (g : RingSt → RingSt) : (s.modRing f r g).latches = s.latches := rfl
@[simp] theorem State.modRing_hwSet (f r : Nat) (g : RingSt → RingSt) : (s.modRing f r g).hwSet = s.hwSet := rfl
@[simp] theorem State.modRing_pendLo (f r : Nat) (g : RingSt → RingSt) : (s.modRing f r g).pendLo = s.pendLo := rfl
@[simp] theorem State.modRing_numVfs (f r : Nat) (g : RingSt → RingSt) : (s.modRing f r g).numVfs = s.numVfs := rfl
@[simp] theorem State.modRing_funcs (f r : Nat) (g : RingSt → RingSt) : (s.modRing f r g).funcs = s.funcs := rfl
@[simp] theorem State.modRing_rings (f r : Nat) (g : RingSt → RingSt) : (s.modRing f r g).rings = Tab.store (fun _ => {}) s.rings (8 * f + r) (g (s.ring f r)) := rfl
@[simp] theorem State.modRing_fetchTurn (f r : Nat) (g : RingSt → RingSt) : (s.modRing f r g).fetchTurn = s.fetchTurn := rfl
@[simp] theorem State.modRing_slots (f r : Nat) (g : RingSt → RingSt) : (s.modRing f r g).slots = s.slots := rfl
@[simp] theorem State.modRing_parts (f r : Nat) (g : RingSt → RingSt) : (s.modRing f r g).parts = s.parts := rfl
@[simp] theorem State.modRing_ops (f r : Nat) (g : RingSt → RingSt) : (s.modRing f r g).ops = s.ops := rfl
@[simp] theorem State.modRing_recs (f r : Nat) (g : RingSt → RingSt) : (s.modRing f r g).recs = s.recs := rfl
@[simp] theorem State.modRing_ide (f r : Nat) (g : RingSt → RingSt) : (s.modRing f r g).ide = s.ide := rfl
@[simp] theorem State.modRing_ideKeys (f r : Nat) (g : RingSt → RingSt) : (s.modRing f r g).ideKeys = s.ideKeys := rfl
@[simp] theorem State.modRing_msix (f r : Nat) (g : RingSt → RingSt) : (s.modRing f r g).msix = s.msix := rfl
@[simp] theorem State.modRing_pba (f r : Nat) (g : RingSt → RingSt) : (s.modRing f r g).pba = s.pba := rfl
@[simp] theorem State.modRing_msixHeld (f r : Nat) (g : RingSt → RingSt) : (s.modRing f r g).msixHeld = s.msixHeld := rfl
@[simp] theorem State.modRing_dev (f r : Nat) (g : RingSt → RingSt) : (s.modRing f r g).dev = s.dev := rfl
@[simp] theorem State.modRing_load (f r : Nat) (g : RingSt → RingSt) : (s.modRing f r g).load = s.load := rfl
@[simp] theorem State.modRing_removal (f r : Nat) (g : RingSt → RingSt) : (s.modRing f r g).removal = s.removal := rfl
@[simp] theorem State.modRing_cores (f r : Nat) (g : RingSt → RingSt) : (s.modRing f r g).cores = s.cores := rfl
@[simp] theorem State.modRing_retired (f r : Nat) (g : RingSt → RingSt) : (s.modRing f r g).retired = s.retired := rfl
@[simp] theorem State.modRing_sliceFailed (f r : Nat) (g : RingSt → RingSt) : (s.modRing f r g).sliceFailed = s.sliceFailed := rfl
@[simp] theorem State.modRing_polyFailed (f r : Nat) (g : RingSt → RingSt) : (s.modRing f r g).polyFailed = s.polyFailed := rfl
@[simp] theorem State.modRing_scratch (f r : Nat) (g : RingSt → RingSt) : (s.modRing f r g).scratch = s.scratch := rfl
@[simp] theorem State.modRing_folio (f r : Nat) (g : RingSt → RingSt) : (s.modRing f r g).folio = s.folio := rfl
@[simp] theorem State.modRing_tally (f r : Nat) (g : RingSt → RingSt) : (s.modRing f r g).tally = s.tally := rfl
@[simp] theorem State.modRing_poly (f r : Nat) (g : RingSt → RingSt) : (s.modRing f r g).poly = s.poly := rfl
@[simp] theorem State.modRing_limbBufs (f r : Nat) (g : RingSt → RingSt) : (s.modRing f r g).limbBufs = s.limbBufs := rfl
@[simp] theorem State.modRing_links (f r : Nat) (g : RingSt → RingSt) : (s.modRing f r g).links = s.links := rfl
@[simp] theorem State.modRing_ports (f r : Nat) (g : RingSt → RingSt) : (s.modRing f r g).ports = s.ports := rfl
@[simp] theorem State.modRing_sbox (f r : Nat) (g : RingSt → RingSt) : (s.modRing f r g).sbox = s.sbox := rfl
@[simp] theorem State.modRing_rng (f r : Nat) (g : RingSt → RingSt) : (s.modRing f r g).rng = s.rng := rfl
@[simp] theorem State.modRing_errs (f r : Nat) (g : RingSt → RingSt) : (s.modRing f r g).errs = s.errs := rfl
@[simp] theorem State.modRing_jtagIns (f r : Nat) (g : RingSt → RingSt) : (s.modRing f r g).jtagIns = s.jtagIns := rfl
@[simp] theorem State.modRing_eids (f r : Nat) (g : RingSt → RingSt) : (s.modRing f r g).eids = s.eids := rfl
@[simp] theorem State.modRing_hostMem (f r : Nat) (g : RingSt → RingSt) : (s.modRing f r g).hostMem = s.hostMem := rfl
@[simp] theorem State.modRing_out (f r : Nat) (g : RingSt → RingSt) : (s.modRing f r g).out = s.out := rfl
@[simp] theorem State.modRing_fresh (f r : Nat) (g : RingSt → RingSt) : (s.modRing f r g).fresh = s.fresh := rfl

/-! ### modCore -/

@[simp] theorem State.modCore_pending (i : Nat) (g : Core → Core) : (s.modCore i g).pending = s.pending := rfl
@[simp] theorem State.modCore_stackGib (i : Nat) (g : Core → Core) : (s.modCore i g).stackGib = s.stackGib := rfl
@[simp] theorem State.modCore_cycles (i : Nat) (g : Core → Core) : (s.modCore i g).cycles = s.cycles := rfl
@[simp] theorem State.modCore_ft (i : Nat) (g : Core → Core) : (s.modCore i g).ft = s.ft := rfl
@[simp] theorem State.modCore_power (i : Nat) (g : Core → Core) : (s.modCore i g).power = s.power := rfl
@[simp] theorem State.modCore_pwr (i : Nat) (g : Core → Core) : (s.modCore i g).pwr = s.pwr := rfl
@[simp] theorem State.modCore_mgmt (i : Nat) (g : Core → Core) : (s.modCore i g).mgmt = s.mgmt := rfl
@[simp] theorem State.modCore_startDone (i : Nat) (g : Core → Core) : (s.modCore i g).startDone = s.startDone := rfl
@[simp] theorem State.modCore_tamperHold (i : Nat) (g : Core → Core) : (s.modCore i g).tamperHold = s.tamperHold := rfl
@[simp] theorem State.modCore_recoveryMode (i : Nat) (g : Core → Core) : (s.modCore i g).recoveryMode = s.recoveryMode := rfl
@[simp] theorem State.modCore_restarting (i : Nat) (g : Core → Core) : (s.modCore i g).restarting = s.restarting := rfl
@[simp] theorem State.modCore_configReady (i : Nat) (g : Core → Core) : (s.modCore i g).configReady = s.configReady := rfl
@[simp] theorem State.modCore_regs (i : Nat) (g : Core → Core) : (s.modCore i g).regs = s.regs := rfl
@[simp] theorem State.modCore_latches (i : Nat) (g : Core → Core) : (s.modCore i g).latches = s.latches := rfl
@[simp] theorem State.modCore_hwSet (i : Nat) (g : Core → Core) : (s.modCore i g).hwSet = s.hwSet := rfl
@[simp] theorem State.modCore_pendLo (i : Nat) (g : Core → Core) : (s.modCore i g).pendLo = s.pendLo := rfl
@[simp] theorem State.modCore_numVfs (i : Nat) (g : Core → Core) : (s.modCore i g).numVfs = s.numVfs := rfl
@[simp] theorem State.modCore_funcs (i : Nat) (g : Core → Core) : (s.modCore i g).funcs = s.funcs := rfl
@[simp] theorem State.modCore_rings (i : Nat) (g : Core → Core) : (s.modCore i g).rings = s.rings := rfl
@[simp] theorem State.modCore_fetchTurn (i : Nat) (g : Core → Core) : (s.modCore i g).fetchTurn = s.fetchTurn := rfl
@[simp] theorem State.modCore_slots (i : Nat) (g : Core → Core) : (s.modCore i g).slots = s.slots := rfl
@[simp] theorem State.modCore_parts (i : Nat) (g : Core → Core) : (s.modCore i g).parts = s.parts := rfl
@[simp] theorem State.modCore_ops (i : Nat) (g : Core → Core) : (s.modCore i g).ops = s.ops := rfl
@[simp] theorem State.modCore_recs (i : Nat) (g : Core → Core) : (s.modCore i g).recs = s.recs := rfl
@[simp] theorem State.modCore_ide (i : Nat) (g : Core → Core) : (s.modCore i g).ide = s.ide := rfl
@[simp] theorem State.modCore_ideKeys (i : Nat) (g : Core → Core) : (s.modCore i g).ideKeys = s.ideKeys := rfl
@[simp] theorem State.modCore_msix (i : Nat) (g : Core → Core) : (s.modCore i g).msix = s.msix := rfl
@[simp] theorem State.modCore_pba (i : Nat) (g : Core → Core) : (s.modCore i g).pba = s.pba := rfl
@[simp] theorem State.modCore_msixHeld (i : Nat) (g : Core → Core) : (s.modCore i g).msixHeld = s.msixHeld := rfl
@[simp] theorem State.modCore_dev (i : Nat) (g : Core → Core) : (s.modCore i g).dev = s.dev := rfl
@[simp] theorem State.modCore_load (i : Nat) (g : Core → Core) : (s.modCore i g).load = s.load := rfl
@[simp] theorem State.modCore_removal (i : Nat) (g : Core → Core) : (s.modCore i g).removal = s.removal := rfl
@[simp] theorem State.modCore_cores (i : Nat) (g : Core → Core) : (s.modCore i g).cores = Tab.store coreInit s.cores i (g (s.core i)) := rfl
@[simp] theorem State.modCore_retired (i : Nat) (g : Core → Core) : (s.modCore i g).retired = s.retired := rfl
@[simp] theorem State.modCore_sliceFailed (i : Nat) (g : Core → Core) : (s.modCore i g).sliceFailed = s.sliceFailed := rfl
@[simp] theorem State.modCore_polyFailed (i : Nat) (g : Core → Core) : (s.modCore i g).polyFailed = s.polyFailed := rfl
@[simp] theorem State.modCore_scratch (i : Nat) (g : Core → Core) : (s.modCore i g).scratch = s.scratch := rfl
@[simp] theorem State.modCore_folio (i : Nat) (g : Core → Core) : (s.modCore i g).folio = s.folio := rfl
@[simp] theorem State.modCore_tally (i : Nat) (g : Core → Core) : (s.modCore i g).tally = s.tally := rfl
@[simp] theorem State.modCore_poly (i : Nat) (g : Core → Core) : (s.modCore i g).poly = s.poly := rfl
@[simp] theorem State.modCore_limbBufs (i : Nat) (g : Core → Core) : (s.modCore i g).limbBufs = s.limbBufs := rfl
@[simp] theorem State.modCore_links (i : Nat) (g : Core → Core) : (s.modCore i g).links = s.links := rfl
@[simp] theorem State.modCore_ports (i : Nat) (g : Core → Core) : (s.modCore i g).ports = s.ports := rfl
@[simp] theorem State.modCore_sbox (i : Nat) (g : Core → Core) : (s.modCore i g).sbox = s.sbox := rfl
@[simp] theorem State.modCore_rng (i : Nat) (g : Core → Core) : (s.modCore i g).rng = s.rng := rfl
@[simp] theorem State.modCore_errs (i : Nat) (g : Core → Core) : (s.modCore i g).errs = s.errs := rfl
@[simp] theorem State.modCore_jtagIns (i : Nat) (g : Core → Core) : (s.modCore i g).jtagIns = s.jtagIns := rfl
@[simp] theorem State.modCore_eids (i : Nat) (g : Core → Core) : (s.modCore i g).eids = s.eids := rfl
@[simp] theorem State.modCore_hostMem (i : Nat) (g : Core → Core) : (s.modCore i g).hostMem = s.hostMem := rfl
@[simp] theorem State.modCore_out (i : Nat) (g : Core → Core) : (s.modCore i g).out = s.out := rfl
@[simp] theorem State.modCore_fresh (i : Nat) (g : Core → Core) : (s.modCore i g).fresh = s.fresh := rfl

/-! ### modFolio -/

@[simp] theorem State.modFolio_pending (g : FolioSt → FolioSt) : (s.modFolio g).pending = s.pending := rfl
@[simp] theorem State.modFolio_stackGib (g : FolioSt → FolioSt) : (s.modFolio g).stackGib = s.stackGib := rfl
@[simp] theorem State.modFolio_cycles (g : FolioSt → FolioSt) : (s.modFolio g).cycles = s.cycles := rfl
@[simp] theorem State.modFolio_ft (g : FolioSt → FolioSt) : (s.modFolio g).ft = s.ft := rfl
@[simp] theorem State.modFolio_power (g : FolioSt → FolioSt) : (s.modFolio g).power = s.power := rfl
@[simp] theorem State.modFolio_pwr (g : FolioSt → FolioSt) : (s.modFolio g).pwr = s.pwr := rfl
@[simp] theorem State.modFolio_mgmt (g : FolioSt → FolioSt) : (s.modFolio g).mgmt = s.mgmt := rfl
@[simp] theorem State.modFolio_startDone (g : FolioSt → FolioSt) : (s.modFolio g).startDone = s.startDone := rfl
@[simp] theorem State.modFolio_tamperHold (g : FolioSt → FolioSt) : (s.modFolio g).tamperHold = s.tamperHold := rfl
@[simp] theorem State.modFolio_recoveryMode (g : FolioSt → FolioSt) : (s.modFolio g).recoveryMode = s.recoveryMode := rfl
@[simp] theorem State.modFolio_restarting (g : FolioSt → FolioSt) : (s.modFolio g).restarting = s.restarting := rfl
@[simp] theorem State.modFolio_configReady (g : FolioSt → FolioSt) : (s.modFolio g).configReady = s.configReady := rfl
@[simp] theorem State.modFolio_regs (g : FolioSt → FolioSt) : (s.modFolio g).regs = s.regs := rfl
@[simp] theorem State.modFolio_latches (g : FolioSt → FolioSt) : (s.modFolio g).latches = s.latches := rfl
@[simp] theorem State.modFolio_hwSet (g : FolioSt → FolioSt) : (s.modFolio g).hwSet = s.hwSet := rfl
@[simp] theorem State.modFolio_pendLo (g : FolioSt → FolioSt) : (s.modFolio g).pendLo = s.pendLo := rfl
@[simp] theorem State.modFolio_numVfs (g : FolioSt → FolioSt) : (s.modFolio g).numVfs = s.numVfs := rfl
@[simp] theorem State.modFolio_funcs (g : FolioSt → FolioSt) : (s.modFolio g).funcs = s.funcs := rfl
@[simp] theorem State.modFolio_rings (g : FolioSt → FolioSt) : (s.modFolio g).rings = s.rings := rfl
@[simp] theorem State.modFolio_fetchTurn (g : FolioSt → FolioSt) : (s.modFolio g).fetchTurn = s.fetchTurn := rfl
@[simp] theorem State.modFolio_slots (g : FolioSt → FolioSt) : (s.modFolio g).slots = s.slots := rfl
@[simp] theorem State.modFolio_parts (g : FolioSt → FolioSt) : (s.modFolio g).parts = s.parts := rfl
@[simp] theorem State.modFolio_ops (g : FolioSt → FolioSt) : (s.modFolio g).ops = s.ops := rfl
@[simp] theorem State.modFolio_recs (g : FolioSt → FolioSt) : (s.modFolio g).recs = s.recs := rfl
@[simp] theorem State.modFolio_ide (g : FolioSt → FolioSt) : (s.modFolio g).ide = s.ide := rfl
@[simp] theorem State.modFolio_ideKeys (g : FolioSt → FolioSt) : (s.modFolio g).ideKeys = s.ideKeys := rfl
@[simp] theorem State.modFolio_msix (g : FolioSt → FolioSt) : (s.modFolio g).msix = s.msix := rfl
@[simp] theorem State.modFolio_pba (g : FolioSt → FolioSt) : (s.modFolio g).pba = s.pba := rfl
@[simp] theorem State.modFolio_msixHeld (g : FolioSt → FolioSt) : (s.modFolio g).msixHeld = s.msixHeld := rfl
@[simp] theorem State.modFolio_dev (g : FolioSt → FolioSt) : (s.modFolio g).dev = s.dev := rfl
@[simp] theorem State.modFolio_load (g : FolioSt → FolioSt) : (s.modFolio g).load = s.load := rfl
@[simp] theorem State.modFolio_removal (g : FolioSt → FolioSt) : (s.modFolio g).removal = s.removal := rfl
@[simp] theorem State.modFolio_cores (g : FolioSt → FolioSt) : (s.modFolio g).cores = s.cores := rfl
@[simp] theorem State.modFolio_retired (g : FolioSt → FolioSt) : (s.modFolio g).retired = s.retired := rfl
@[simp] theorem State.modFolio_sliceFailed (g : FolioSt → FolioSt) : (s.modFolio g).sliceFailed = s.sliceFailed := rfl
@[simp] theorem State.modFolio_polyFailed (g : FolioSt → FolioSt) : (s.modFolio g).polyFailed = s.polyFailed := rfl
@[simp] theorem State.modFolio_scratch (g : FolioSt → FolioSt) : (s.modFolio g).scratch = s.scratch := rfl
@[simp] theorem State.modFolio_folio (g : FolioSt → FolioSt) : (s.modFolio g).folio = g s.folio := rfl
@[simp] theorem State.modFolio_tally (g : FolioSt → FolioSt) : (s.modFolio g).tally = s.tally := rfl
@[simp] theorem State.modFolio_poly (g : FolioSt → FolioSt) : (s.modFolio g).poly = s.poly := rfl
@[simp] theorem State.modFolio_limbBufs (g : FolioSt → FolioSt) : (s.modFolio g).limbBufs = s.limbBufs := rfl
@[simp] theorem State.modFolio_links (g : FolioSt → FolioSt) : (s.modFolio g).links = s.links := rfl
@[simp] theorem State.modFolio_ports (g : FolioSt → FolioSt) : (s.modFolio g).ports = s.ports := rfl
@[simp] theorem State.modFolio_sbox (g : FolioSt → FolioSt) : (s.modFolio g).sbox = s.sbox := rfl
@[simp] theorem State.modFolio_rng (g : FolioSt → FolioSt) : (s.modFolio g).rng = s.rng := rfl
@[simp] theorem State.modFolio_errs (g : FolioSt → FolioSt) : (s.modFolio g).errs = s.errs := rfl
@[simp] theorem State.modFolio_jtagIns (g : FolioSt → FolioSt) : (s.modFolio g).jtagIns = s.jtagIns := rfl
@[simp] theorem State.modFolio_eids (g : FolioSt → FolioSt) : (s.modFolio g).eids = s.eids := rfl
@[simp] theorem State.modFolio_hostMem (g : FolioSt → FolioSt) : (s.modFolio g).hostMem = s.hostMem := rfl
@[simp] theorem State.modFolio_out (g : FolioSt → FolioSt) : (s.modFolio g).out = s.out := rfl
@[simp] theorem State.modFolio_fresh (g : FolioSt → FolioSt) : (s.modFolio g).fresh = s.fresh := rfl

/-! ### setReg -/

@[simp] theorem State.setReg_pending (off : Nat) (v : W32) : (s.setReg off v).pending = s.pending := rfl
@[simp] theorem State.setReg_stackGib (off : Nat) (v : W32) : (s.setReg off v).stackGib = s.stackGib := rfl
@[simp] theorem State.setReg_cycles (off : Nat) (v : W32) : (s.setReg off v).cycles = s.cycles := rfl
@[simp] theorem State.setReg_ft (off : Nat) (v : W32) : (s.setReg off v).ft = s.ft := rfl
@[simp] theorem State.setReg_power (off : Nat) (v : W32) : (s.setReg off v).power = s.power := rfl
@[simp] theorem State.setReg_pwr (off : Nat) (v : W32) : (s.setReg off v).pwr = s.pwr := rfl
@[simp] theorem State.setReg_mgmt (off : Nat) (v : W32) : (s.setReg off v).mgmt = s.mgmt := rfl
@[simp] theorem State.setReg_startDone (off : Nat) (v : W32) : (s.setReg off v).startDone = s.startDone := rfl
@[simp] theorem State.setReg_tamperHold (off : Nat) (v : W32) : (s.setReg off v).tamperHold = s.tamperHold := rfl
@[simp] theorem State.setReg_recoveryMode (off : Nat) (v : W32) : (s.setReg off v).recoveryMode = s.recoveryMode := rfl
@[simp] theorem State.setReg_restarting (off : Nat) (v : W32) : (s.setReg off v).restarting = s.restarting := rfl
@[simp] theorem State.setReg_configReady (off : Nat) (v : W32) : (s.setReg off v).configReady = s.configReady := rfl
@[simp] theorem State.setReg_regs (off : Nat) (v : W32) : (s.setReg off v).regs = Tab.store regReset s.regs off v := rfl
@[simp] theorem State.setReg_latches (off : Nat) (v : W32) : (s.setReg off v).latches = s.latches := rfl
@[simp] theorem State.setReg_hwSet (off : Nat) (v : W32) : (s.setReg off v).hwSet = s.hwSet := rfl
@[simp] theorem State.setReg_pendLo (off : Nat) (v : W32) : (s.setReg off v).pendLo = s.pendLo := rfl
@[simp] theorem State.setReg_numVfs (off : Nat) (v : W32) : (s.setReg off v).numVfs = s.numVfs := rfl
@[simp] theorem State.setReg_funcs (off : Nat) (v : W32) : (s.setReg off v).funcs = s.funcs := rfl
@[simp] theorem State.setReg_rings (off : Nat) (v : W32) : (s.setReg off v).rings = s.rings := rfl
@[simp] theorem State.setReg_fetchTurn (off : Nat) (v : W32) : (s.setReg off v).fetchTurn = s.fetchTurn := rfl
@[simp] theorem State.setReg_slots (off : Nat) (v : W32) : (s.setReg off v).slots = s.slots := rfl
@[simp] theorem State.setReg_parts (off : Nat) (v : W32) : (s.setReg off v).parts = s.parts := rfl
@[simp] theorem State.setReg_ops (off : Nat) (v : W32) : (s.setReg off v).ops = s.ops := rfl
@[simp] theorem State.setReg_recs (off : Nat) (v : W32) : (s.setReg off v).recs = s.recs := rfl
@[simp] theorem State.setReg_ide (off : Nat) (v : W32) : (s.setReg off v).ide = s.ide := rfl
@[simp] theorem State.setReg_ideKeys (off : Nat) (v : W32) : (s.setReg off v).ideKeys = s.ideKeys := rfl
@[simp] theorem State.setReg_msix (off : Nat) (v : W32) : (s.setReg off v).msix = s.msix := rfl
@[simp] theorem State.setReg_pba (off : Nat) (v : W32) : (s.setReg off v).pba = s.pba := rfl
@[simp] theorem State.setReg_msixHeld (off : Nat) (v : W32) : (s.setReg off v).msixHeld = s.msixHeld := rfl
@[simp] theorem State.setReg_dev (off : Nat) (v : W32) : (s.setReg off v).dev = s.dev := rfl
@[simp] theorem State.setReg_load (off : Nat) (v : W32) : (s.setReg off v).load = s.load := rfl
@[simp] theorem State.setReg_removal (off : Nat) (v : W32) : (s.setReg off v).removal = s.removal := rfl
@[simp] theorem State.setReg_cores (off : Nat) (v : W32) : (s.setReg off v).cores = s.cores := rfl
@[simp] theorem State.setReg_retired (off : Nat) (v : W32) : (s.setReg off v).retired = s.retired := rfl
@[simp] theorem State.setReg_sliceFailed (off : Nat) (v : W32) : (s.setReg off v).sliceFailed = s.sliceFailed := rfl
@[simp] theorem State.setReg_polyFailed (off : Nat) (v : W32) : (s.setReg off v).polyFailed = s.polyFailed := rfl
@[simp] theorem State.setReg_scratch (off : Nat) (v : W32) : (s.setReg off v).scratch = s.scratch := rfl
@[simp] theorem State.setReg_folio (off : Nat) (v : W32) : (s.setReg off v).folio = s.folio := rfl
@[simp] theorem State.setReg_tally (off : Nat) (v : W32) : (s.setReg off v).tally = s.tally := rfl
@[simp] theorem State.setReg_poly (off : Nat) (v : W32) : (s.setReg off v).poly = s.poly := rfl
@[simp] theorem State.setReg_limbBufs (off : Nat) (v : W32) : (s.setReg off v).limbBufs = s.limbBufs := rfl
@[simp] theorem State.setReg_links (off : Nat) (v : W32) : (s.setReg off v).links = s.links := rfl
@[simp] theorem State.setReg_ports (off : Nat) (v : W32) : (s.setReg off v).ports = s.ports := rfl
@[simp] theorem State.setReg_sbox (off : Nat) (v : W32) : (s.setReg off v).sbox = s.sbox := rfl
@[simp] theorem State.setReg_rng (off : Nat) (v : W32) : (s.setReg off v).rng = s.rng := rfl
@[simp] theorem State.setReg_errs (off : Nat) (v : W32) : (s.setReg off v).errs = s.errs := rfl
@[simp] theorem State.setReg_jtagIns (off : Nat) (v : W32) : (s.setReg off v).jtagIns = s.jtagIns := rfl
@[simp] theorem State.setReg_eids (off : Nat) (v : W32) : (s.setReg off v).eids = s.eids := rfl
@[simp] theorem State.setReg_hostMem (off : Nat) (v : W32) : (s.setReg off v).hostMem = s.hostMem := rfl
@[simp] theorem State.setReg_out (off : Nat) (v : W32) : (s.setReg off v).out = s.out := rfl
@[simp] theorem State.setReg_fresh (off : Nat) (v : W32) : (s.setReg off v).fresh = s.fresh := rfl

/-! ### emit -/

@[simp] theorem State.emit_pending (o : Out) : (s.emit o).pending = s.pending := rfl
@[simp] theorem State.emit_stackGib (o : Out) : (s.emit o).stackGib = s.stackGib := rfl
@[simp] theorem State.emit_cycles (o : Out) : (s.emit o).cycles = s.cycles := rfl
@[simp] theorem State.emit_ft (o : Out) : (s.emit o).ft = s.ft := rfl
@[simp] theorem State.emit_power (o : Out) : (s.emit o).power = s.power := rfl
@[simp] theorem State.emit_pwr (o : Out) : (s.emit o).pwr = s.pwr := rfl
@[simp] theorem State.emit_mgmt (o : Out) : (s.emit o).mgmt = s.mgmt := rfl
@[simp] theorem State.emit_startDone (o : Out) : (s.emit o).startDone = s.startDone := rfl
@[simp] theorem State.emit_tamperHold (o : Out) : (s.emit o).tamperHold = s.tamperHold := rfl
@[simp] theorem State.emit_recoveryMode (o : Out) : (s.emit o).recoveryMode = s.recoveryMode := rfl
@[simp] theorem State.emit_restarting (o : Out) : (s.emit o).restarting = s.restarting := rfl
@[simp] theorem State.emit_configReady (o : Out) : (s.emit o).configReady = s.configReady := rfl
@[simp] theorem State.emit_regs (o : Out) : (s.emit o).regs = s.regs := rfl
@[simp] theorem State.emit_latches (o : Out) : (s.emit o).latches = s.latches := rfl
@[simp] theorem State.emit_hwSet (o : Out) : (s.emit o).hwSet = s.hwSet := rfl
@[simp] theorem State.emit_pendLo (o : Out) : (s.emit o).pendLo = s.pendLo := rfl
@[simp] theorem State.emit_numVfs (o : Out) : (s.emit o).numVfs = s.numVfs := rfl
@[simp] theorem State.emit_funcs (o : Out) : (s.emit o).funcs = s.funcs := rfl
@[simp] theorem State.emit_rings (o : Out) : (s.emit o).rings = s.rings := rfl
@[simp] theorem State.emit_fetchTurn (o : Out) : (s.emit o).fetchTurn = s.fetchTurn := rfl
@[simp] theorem State.emit_slots (o : Out) : (s.emit o).slots = s.slots := rfl
@[simp] theorem State.emit_parts (o : Out) : (s.emit o).parts = s.parts := rfl
@[simp] theorem State.emit_ops (o : Out) : (s.emit o).ops = s.ops := rfl
@[simp] theorem State.emit_recs (o : Out) : (s.emit o).recs = s.recs := rfl
@[simp] theorem State.emit_ide (o : Out) : (s.emit o).ide = s.ide := rfl
@[simp] theorem State.emit_ideKeys (o : Out) : (s.emit o).ideKeys = s.ideKeys := rfl
@[simp] theorem State.emit_msix (o : Out) : (s.emit o).msix = s.msix := rfl
@[simp] theorem State.emit_pba (o : Out) : (s.emit o).pba = s.pba := rfl
@[simp] theorem State.emit_msixHeld (o : Out) : (s.emit o).msixHeld = s.msixHeld := rfl
@[simp] theorem State.emit_dev (o : Out) : (s.emit o).dev = s.dev := rfl
@[simp] theorem State.emit_load (o : Out) : (s.emit o).load = s.load := rfl
@[simp] theorem State.emit_removal (o : Out) : (s.emit o).removal = s.removal := rfl
@[simp] theorem State.emit_cores (o : Out) : (s.emit o).cores = s.cores := rfl
@[simp] theorem State.emit_retired (o : Out) : (s.emit o).retired = s.retired := rfl
@[simp] theorem State.emit_sliceFailed (o : Out) : (s.emit o).sliceFailed = s.sliceFailed := rfl
@[simp] theorem State.emit_polyFailed (o : Out) : (s.emit o).polyFailed = s.polyFailed := rfl
@[simp] theorem State.emit_scratch (o : Out) : (s.emit o).scratch = s.scratch := rfl
@[simp] theorem State.emit_folio (o : Out) : (s.emit o).folio = s.folio := rfl
@[simp] theorem State.emit_tally (o : Out) : (s.emit o).tally = s.tally := rfl
@[simp] theorem State.emit_poly (o : Out) : (s.emit o).poly = s.poly := rfl
@[simp] theorem State.emit_limbBufs (o : Out) : (s.emit o).limbBufs = s.limbBufs := rfl
@[simp] theorem State.emit_links (o : Out) : (s.emit o).links = s.links := rfl
@[simp] theorem State.emit_ports (o : Out) : (s.emit o).ports = s.ports := rfl
@[simp] theorem State.emit_sbox (o : Out) : (s.emit o).sbox = s.sbox := rfl
@[simp] theorem State.emit_rng (o : Out) : (s.emit o).rng = s.rng := rfl
@[simp] theorem State.emit_errs (o : Out) : (s.emit o).errs = s.errs := rfl
@[simp] theorem State.emit_jtagIns (o : Out) : (s.emit o).jtagIns = s.jtagIns := rfl
@[simp] theorem State.emit_eids (o : Out) : (s.emit o).eids = s.eids := rfl
@[simp] theorem State.emit_hostMem (o : Out) : (s.emit o).hostMem = s.hostMem := rfl
@[simp] theorem State.emit_out (o : Out) : (s.emit o).out = s.out ++ [o] := rfl
@[simp] theorem State.emit_fresh (o : Out) : (s.emit o).fresh = s.fresh := rfl

/-! ### modMgmt -/

@[simp] theorem State.modMgmt_pending (g : MgmtSt → MgmtSt) : (s.modMgmt g).pending = s.pending := rfl
@[simp] theorem State.modMgmt_stackGib (g : MgmtSt → MgmtSt) : (s.modMgmt g).stackGib = s.stackGib := rfl
@[simp] theorem State.modMgmt_cycles (g : MgmtSt → MgmtSt) : (s.modMgmt g).cycles = s.cycles := rfl
@[simp] theorem State.modMgmt_ft (g : MgmtSt → MgmtSt) : (s.modMgmt g).ft = s.ft := rfl
@[simp] theorem State.modMgmt_power (g : MgmtSt → MgmtSt) : (s.modMgmt g).power = s.power := rfl
@[simp] theorem State.modMgmt_pwr (g : MgmtSt → MgmtSt) : (s.modMgmt g).pwr = s.pwr := rfl
@[simp] theorem State.modMgmt_mgmt (g : MgmtSt → MgmtSt) : (s.modMgmt g).mgmt = g s.mgmt := rfl
@[simp] theorem State.modMgmt_startDone (g : MgmtSt → MgmtSt) : (s.modMgmt g).startDone = s.startDone := rfl
@[simp] theorem State.modMgmt_tamperHold (g : MgmtSt → MgmtSt) : (s.modMgmt g).tamperHold = s.tamperHold := rfl
@[simp] theorem State.modMgmt_recoveryMode (g : MgmtSt → MgmtSt) : (s.modMgmt g).recoveryMode = s.recoveryMode := rfl
@[simp] theorem State.modMgmt_restarting (g : MgmtSt → MgmtSt) : (s.modMgmt g).restarting = s.restarting := rfl
@[simp] theorem State.modMgmt_configReady (g : MgmtSt → MgmtSt) : (s.modMgmt g).configReady = s.configReady := rfl
@[simp] theorem State.modMgmt_regs (g : MgmtSt → MgmtSt) : (s.modMgmt g).regs = s.regs := rfl
@[simp] theorem State.modMgmt_latches (g : MgmtSt → MgmtSt) : (s.modMgmt g).latches = s.latches := rfl
@[simp] theorem State.modMgmt_hwSet (g : MgmtSt → MgmtSt) : (s.modMgmt g).hwSet = s.hwSet := rfl
@[simp] theorem State.modMgmt_pendLo (g : MgmtSt → MgmtSt) : (s.modMgmt g).pendLo = s.pendLo := rfl
@[simp] theorem State.modMgmt_numVfs (g : MgmtSt → MgmtSt) : (s.modMgmt g).numVfs = s.numVfs := rfl
@[simp] theorem State.modMgmt_funcs (g : MgmtSt → MgmtSt) : (s.modMgmt g).funcs = s.funcs := rfl
@[simp] theorem State.modMgmt_rings (g : MgmtSt → MgmtSt) : (s.modMgmt g).rings = s.rings := rfl
@[simp] theorem State.modMgmt_fetchTurn (g : MgmtSt → MgmtSt) : (s.modMgmt g).fetchTurn = s.fetchTurn := rfl
@[simp] theorem State.modMgmt_slots (g : MgmtSt → MgmtSt) : (s.modMgmt g).slots = s.slots := rfl
@[simp] theorem State.modMgmt_parts (g : MgmtSt → MgmtSt) : (s.modMgmt g).parts = s.parts := rfl
@[simp] theorem State.modMgmt_ops (g : MgmtSt → MgmtSt) : (s.modMgmt g).ops = s.ops := rfl
@[simp] theorem State.modMgmt_recs (g : MgmtSt → MgmtSt) : (s.modMgmt g).recs = s.recs := rfl
@[simp] theorem State.modMgmt_ide (g : MgmtSt → MgmtSt) : (s.modMgmt g).ide = s.ide := rfl
@[simp] theorem State.modMgmt_ideKeys (g : MgmtSt → MgmtSt) : (s.modMgmt g).ideKeys = s.ideKeys := rfl
@[simp] theorem State.modMgmt_msix (g : MgmtSt → MgmtSt) : (s.modMgmt g).msix = s.msix := rfl
@[simp] theorem State.modMgmt_pba (g : MgmtSt → MgmtSt) : (s.modMgmt g).pba = s.pba := rfl
@[simp] theorem State.modMgmt_msixHeld (g : MgmtSt → MgmtSt) : (s.modMgmt g).msixHeld = s.msixHeld := rfl
@[simp] theorem State.modMgmt_dev (g : MgmtSt → MgmtSt) : (s.modMgmt g).dev = s.dev := rfl
@[simp] theorem State.modMgmt_load (g : MgmtSt → MgmtSt) : (s.modMgmt g).load = s.load := rfl
@[simp] theorem State.modMgmt_removal (g : MgmtSt → MgmtSt) : (s.modMgmt g).removal = s.removal := rfl
@[simp] theorem State.modMgmt_cores (g : MgmtSt → MgmtSt) : (s.modMgmt g).cores = s.cores := rfl
@[simp] theorem State.modMgmt_retired (g : MgmtSt → MgmtSt) : (s.modMgmt g).retired = s.retired := rfl
@[simp] theorem State.modMgmt_sliceFailed (g : MgmtSt → MgmtSt) : (s.modMgmt g).sliceFailed = s.sliceFailed := rfl
@[simp] theorem State.modMgmt_polyFailed (g : MgmtSt → MgmtSt) : (s.modMgmt g).polyFailed = s.polyFailed := rfl
@[simp] theorem State.modMgmt_scratch (g : MgmtSt → MgmtSt) : (s.modMgmt g).scratch = s.scratch := rfl
@[simp] theorem State.modMgmt_folio (g : MgmtSt → MgmtSt) : (s.modMgmt g).folio = s.folio := rfl
@[simp] theorem State.modMgmt_tally (g : MgmtSt → MgmtSt) : (s.modMgmt g).tally = s.tally := rfl
@[simp] theorem State.modMgmt_poly (g : MgmtSt → MgmtSt) : (s.modMgmt g).poly = s.poly := rfl
@[simp] theorem State.modMgmt_limbBufs (g : MgmtSt → MgmtSt) : (s.modMgmt g).limbBufs = s.limbBufs := rfl
@[simp] theorem State.modMgmt_links (g : MgmtSt → MgmtSt) : (s.modMgmt g).links = s.links := rfl
@[simp] theorem State.modMgmt_ports (g : MgmtSt → MgmtSt) : (s.modMgmt g).ports = s.ports := rfl
@[simp] theorem State.modMgmt_sbox (g : MgmtSt → MgmtSt) : (s.modMgmt g).sbox = s.sbox := rfl
@[simp] theorem State.modMgmt_rng (g : MgmtSt → MgmtSt) : (s.modMgmt g).rng = s.rng := rfl
@[simp] theorem State.modMgmt_errs (g : MgmtSt → MgmtSt) : (s.modMgmt g).errs = s.errs := rfl
@[simp] theorem State.modMgmt_jtagIns (g : MgmtSt → MgmtSt) : (s.modMgmt g).jtagIns = s.jtagIns := rfl
@[simp] theorem State.modMgmt_eids (g : MgmtSt → MgmtSt) : (s.modMgmt g).eids = s.eids := rfl
@[simp] theorem State.modMgmt_hostMem (g : MgmtSt → MgmtSt) : (s.modMgmt g).hostMem = s.hostMem := rfl
@[simp] theorem State.modMgmt_out (g : MgmtSt → MgmtSt) : (s.modMgmt g).out = s.out := rfl
@[simp] theorem State.modMgmt_fresh (g : MgmtSt → MgmtSt) : (s.modMgmt g).fresh = s.fresh := rfl

/-! ### modPwr -/

@[simp] theorem State.modPwr_pending (g : PwrSt → PwrSt) : (s.modPwr g).pending = s.pending := rfl
@[simp] theorem State.modPwr_stackGib (g : PwrSt → PwrSt) : (s.modPwr g).stackGib = s.stackGib := rfl
@[simp] theorem State.modPwr_cycles (g : PwrSt → PwrSt) : (s.modPwr g).cycles = s.cycles := rfl
@[simp] theorem State.modPwr_ft (g : PwrSt → PwrSt) : (s.modPwr g).ft = s.ft := rfl
@[simp] theorem State.modPwr_power (g : PwrSt → PwrSt) : (s.modPwr g).power = s.power := rfl
@[simp] theorem State.modPwr_pwr (g : PwrSt → PwrSt) : (s.modPwr g).pwr = g s.pwr := rfl
@[simp] theorem State.modPwr_mgmt (g : PwrSt → PwrSt) : (s.modPwr g).mgmt = s.mgmt := rfl
@[simp] theorem State.modPwr_startDone (g : PwrSt → PwrSt) : (s.modPwr g).startDone = s.startDone := rfl
@[simp] theorem State.modPwr_tamperHold (g : PwrSt → PwrSt) : (s.modPwr g).tamperHold = s.tamperHold := rfl
@[simp] theorem State.modPwr_recoveryMode (g : PwrSt → PwrSt) : (s.modPwr g).recoveryMode = s.recoveryMode := rfl
@[simp] theorem State.modPwr_restarting (g : PwrSt → PwrSt) : (s.modPwr g).restarting = s.restarting := rfl
@[simp] theorem State.modPwr_configReady (g : PwrSt → PwrSt) : (s.modPwr g).configReady = s.configReady := rfl
@[simp] theorem State.modPwr_regs (g : PwrSt → PwrSt) : (s.modPwr g).regs = s.regs := rfl
@[simp] theorem State.modPwr_latches (g : PwrSt → PwrSt) : (s.modPwr g).latches = s.latches := rfl
@[simp] theorem State.modPwr_hwSet (g : PwrSt → PwrSt) : (s.modPwr g).hwSet = s.hwSet := rfl
@[simp] theorem State.modPwr_pendLo (g : PwrSt → PwrSt) : (s.modPwr g).pendLo = s.pendLo := rfl
@[simp] theorem State.modPwr_numVfs (g : PwrSt → PwrSt) : (s.modPwr g).numVfs = s.numVfs := rfl
@[simp] theorem State.modPwr_funcs (g : PwrSt → PwrSt) : (s.modPwr g).funcs = s.funcs := rfl
@[simp] theorem State.modPwr_rings (g : PwrSt → PwrSt) : (s.modPwr g).rings = s.rings := rfl
@[simp] theorem State.modPwr_fetchTurn (g : PwrSt → PwrSt) : (s.modPwr g).fetchTurn = s.fetchTurn := rfl
@[simp] theorem State.modPwr_slots (g : PwrSt → PwrSt) : (s.modPwr g).slots = s.slots := rfl
@[simp] theorem State.modPwr_parts (g : PwrSt → PwrSt) : (s.modPwr g).parts = s.parts := rfl
@[simp] theorem State.modPwr_ops (g : PwrSt → PwrSt) : (s.modPwr g).ops = s.ops := rfl
@[simp] theorem State.modPwr_recs (g : PwrSt → PwrSt) : (s.modPwr g).recs = s.recs := rfl
@[simp] theorem State.modPwr_ide (g : PwrSt → PwrSt) : (s.modPwr g).ide = s.ide := rfl
@[simp] theorem State.modPwr_ideKeys (g : PwrSt → PwrSt) : (s.modPwr g).ideKeys = s.ideKeys := rfl
@[simp] theorem State.modPwr_msix (g : PwrSt → PwrSt) : (s.modPwr g).msix = s.msix := rfl
@[simp] theorem State.modPwr_pba (g : PwrSt → PwrSt) : (s.modPwr g).pba = s.pba := rfl
@[simp] theorem State.modPwr_msixHeld (g : PwrSt → PwrSt) : (s.modPwr g).msixHeld = s.msixHeld := rfl
@[simp] theorem State.modPwr_dev (g : PwrSt → PwrSt) : (s.modPwr g).dev = s.dev := rfl
@[simp] theorem State.modPwr_load (g : PwrSt → PwrSt) : (s.modPwr g).load = s.load := rfl
@[simp] theorem State.modPwr_removal (g : PwrSt → PwrSt) : (s.modPwr g).removal = s.removal := rfl
@[simp] theorem State.modPwr_cores (g : PwrSt → PwrSt) : (s.modPwr g).cores = s.cores := rfl
@[simp] theorem State.modPwr_retired (g : PwrSt → PwrSt) : (s.modPwr g).retired = s.retired := rfl
@[simp] theorem State.modPwr_sliceFailed (g : PwrSt → PwrSt) : (s.modPwr g).sliceFailed = s.sliceFailed := rfl
@[simp] theorem State.modPwr_polyFailed (g : PwrSt → PwrSt) : (s.modPwr g).polyFailed = s.polyFailed := rfl
@[simp] theorem State.modPwr_scratch (g : PwrSt → PwrSt) : (s.modPwr g).scratch = s.scratch := rfl
@[simp] theorem State.modPwr_folio (g : PwrSt → PwrSt) : (s.modPwr g).folio = s.folio := rfl
@[simp] theorem State.modPwr_tally (g : PwrSt → PwrSt) : (s.modPwr g).tally = s.tally := rfl
@[simp] theorem State.modPwr_poly (g : PwrSt → PwrSt) : (s.modPwr g).poly = s.poly := rfl
@[simp] theorem State.modPwr_limbBufs (g : PwrSt → PwrSt) : (s.modPwr g).limbBufs = s.limbBufs := rfl
@[simp] theorem State.modPwr_links (g : PwrSt → PwrSt) : (s.modPwr g).links = s.links := rfl
@[simp] theorem State.modPwr_ports (g : PwrSt → PwrSt) : (s.modPwr g).ports = s.ports := rfl
@[simp] theorem State.modPwr_sbox (g : PwrSt → PwrSt) : (s.modPwr g).sbox = s.sbox := rfl
@[simp] theorem State.modPwr_rng (g : PwrSt → PwrSt) : (s.modPwr g).rng = s.rng := rfl
@[simp] theorem State.modPwr_errs (g : PwrSt → PwrSt) : (s.modPwr g).errs = s.errs := rfl
@[simp] theorem State.modPwr_jtagIns (g : PwrSt → PwrSt) : (s.modPwr g).jtagIns = s.jtagIns := rfl
@[simp] theorem State.modPwr_eids (g : PwrSt → PwrSt) : (s.modPwr g).eids = s.eids := rfl
@[simp] theorem State.modPwr_hostMem (g : PwrSt → PwrSt) : (s.modPwr g).hostMem = s.hostMem := rfl
@[simp] theorem State.modPwr_out (g : PwrSt → PwrSt) : (s.modPwr g).out = s.out := rfl
@[simp] theorem State.modPwr_fresh (g : PwrSt → PwrSt) : (s.modPwr g).fresh = s.fresh := rfl

/-! ### modFt -/

@[simp] theorem State.modFt_pending (g : FtSt → FtSt) : (s.modFt g).pending = s.pending := rfl
@[simp] theorem State.modFt_stackGib (g : FtSt → FtSt) : (s.modFt g).stackGib = s.stackGib := rfl
@[simp] theorem State.modFt_cycles (g : FtSt → FtSt) : (s.modFt g).cycles = s.cycles := rfl
@[simp] theorem State.modFt_ft (g : FtSt → FtSt) : (s.modFt g).ft = g s.ft := rfl
@[simp] theorem State.modFt_power (g : FtSt → FtSt) : (s.modFt g).power = s.power := rfl
@[simp] theorem State.modFt_pwr (g : FtSt → FtSt) : (s.modFt g).pwr = s.pwr := rfl
@[simp] theorem State.modFt_mgmt (g : FtSt → FtSt) : (s.modFt g).mgmt = s.mgmt := rfl
@[simp] theorem State.modFt_startDone (g : FtSt → FtSt) : (s.modFt g).startDone = s.startDone := rfl
@[simp] theorem State.modFt_tamperHold (g : FtSt → FtSt) : (s.modFt g).tamperHold = s.tamperHold := rfl
@[simp] theorem State.modFt_recoveryMode (g : FtSt → FtSt) : (s.modFt g).recoveryMode = s.recoveryMode := rfl
@[simp] theorem State.modFt_restarting (g : FtSt → FtSt) : (s.modFt g).restarting = s.restarting := rfl
@[simp] theorem State.modFt_configReady (g : FtSt → FtSt) : (s.modFt g).configReady = s.configReady := rfl
@[simp] theorem State.modFt_regs (g : FtSt → FtSt) : (s.modFt g).regs = s.regs := rfl
@[simp] theorem State.modFt_latches (g : FtSt → FtSt) : (s.modFt g).latches = s.latches := rfl
@[simp] theorem State.modFt_hwSet (g : FtSt → FtSt) : (s.modFt g).hwSet = s.hwSet := rfl
@[simp] theorem State.modFt_pendLo (g : FtSt → FtSt) : (s.modFt g).pendLo = s.pendLo := rfl
@[simp] theorem State.modFt_numVfs (g : FtSt → FtSt) : (s.modFt g).numVfs = s.numVfs := rfl
@[simp] theorem State.modFt_funcs (g : FtSt → FtSt) : (s.modFt g).funcs = s.funcs := rfl
@[simp] theorem State.modFt_rings (g : FtSt → FtSt) : (s.modFt g).rings = s.rings := rfl
@[simp] theorem State.modFt_fetchTurn (g : FtSt → FtSt) : (s.modFt g).fetchTurn = s.fetchTurn := rfl
@[simp] theorem State.modFt_slots (g : FtSt → FtSt) : (s.modFt g).slots = s.slots := rfl
@[simp] theorem State.modFt_parts (g : FtSt → FtSt) : (s.modFt g).parts = s.parts := rfl
@[simp] theorem State.modFt_ops (g : FtSt → FtSt) : (s.modFt g).ops = s.ops := rfl
@[simp] theorem State.modFt_recs (g : FtSt → FtSt) : (s.modFt g).recs = s.recs := rfl
@[simp] theorem State.modFt_ide (g : FtSt → FtSt) : (s.modFt g).ide = s.ide := rfl
@[simp] theorem State.modFt_ideKeys (g : FtSt → FtSt) : (s.modFt g).ideKeys = s.ideKeys := rfl
@[simp] theorem State.modFt_msix (g : FtSt → FtSt) : (s.modFt g).msix = s.msix := rfl
@[simp] theorem State.modFt_pba (g : FtSt → FtSt) : (s.modFt g).pba = s.pba := rfl
@[simp] theorem State.modFt_msixHeld (g : FtSt → FtSt) : (s.modFt g).msixHeld = s.msixHeld := rfl
@[simp] theorem State.modFt_dev (g : FtSt → FtSt) : (s.modFt g).dev = s.dev := rfl
@[simp] theorem State.modFt_load (g : FtSt → FtSt) : (s.modFt g).load = s.load := rfl
@[simp] theorem State.modFt_removal (g : FtSt → FtSt) : (s.modFt g).removal = s.removal := rfl
@[simp] theorem State.modFt_cores (g : FtSt → FtSt) : (s.modFt g).cores = s.cores := rfl
@[simp] theorem State.modFt_retired (g : FtSt → FtSt) : (s.modFt g).retired = s.retired := rfl
@[simp] theorem State.modFt_sliceFailed (g : FtSt → FtSt) : (s.modFt g).sliceFailed = s.sliceFailed := rfl
@[simp] theorem State.modFt_polyFailed (g : FtSt → FtSt) : (s.modFt g).polyFailed = s.polyFailed := rfl
@[simp] theorem State.modFt_scratch (g : FtSt → FtSt) : (s.modFt g).scratch = s.scratch := rfl
@[simp] theorem State.modFt_folio (g : FtSt → FtSt) : (s.modFt g).folio = s.folio := rfl
@[simp] theorem State.modFt_tally (g : FtSt → FtSt) : (s.modFt g).tally = s.tally := rfl
@[simp] theorem State.modFt_poly (g : FtSt → FtSt) : (s.modFt g).poly = s.poly := rfl
@[simp] theorem State.modFt_limbBufs (g : FtSt → FtSt) : (s.modFt g).limbBufs = s.limbBufs := rfl
@[simp] theorem State.modFt_links (g : FtSt → FtSt) : (s.modFt g).links = s.links := rfl
@[simp] theorem State.modFt_ports (g : FtSt → FtSt) : (s.modFt g).ports = s.ports := rfl
@[simp] theorem State.modFt_sbox (g : FtSt → FtSt) : (s.modFt g).sbox = s.sbox := rfl
@[simp] theorem State.modFt_rng (g : FtSt → FtSt) : (s.modFt g).rng = s.rng := rfl
@[simp] theorem State.modFt_errs (g : FtSt → FtSt) : (s.modFt g).errs = s.errs := rfl
@[simp] theorem State.modFt_jtagIns (g : FtSt → FtSt) : (s.modFt g).jtagIns = s.jtagIns := rfl
@[simp] theorem State.modFt_eids (g : FtSt → FtSt) : (s.modFt g).eids = s.eids := rfl
@[simp] theorem State.modFt_hostMem (g : FtSt → FtSt) : (s.modFt g).hostMem = s.hostMem := rfl
@[simp] theorem State.modFt_out (g : FtSt → FtSt) : (s.modFt g).out = s.out := rfl
@[simp] theorem State.modFt_fresh (g : FtSt → FtSt) : (s.modFt g).fresh = s.fresh := rfl

/-! ### modSbox -/

@[simp] theorem State.modSbox_pending (g : Sbox → Sbox) : (s.modSbox g).pending = s.pending := rfl
@[simp] theorem State.modSbox_stackGib (g : Sbox → Sbox) : (s.modSbox g).stackGib = s.stackGib := rfl
@[simp] theorem State.modSbox_cycles (g : Sbox → Sbox) : (s.modSbox g).cycles = s.cycles := rfl
@[simp] theorem State.modSbox_ft (g : Sbox → Sbox) : (s.modSbox g).ft = s.ft := rfl
@[simp] theorem State.modSbox_power (g : Sbox → Sbox) : (s.modSbox g).power = s.power := rfl
@[simp] theorem State.modSbox_pwr (g : Sbox → Sbox) : (s.modSbox g).pwr = s.pwr := rfl
@[simp] theorem State.modSbox_mgmt (g : Sbox → Sbox) : (s.modSbox g).mgmt = s.mgmt := rfl
@[simp] theorem State.modSbox_startDone (g : Sbox → Sbox) : (s.modSbox g).startDone = s.startDone := rfl
@[simp] theorem State.modSbox_tamperHold (g : Sbox → Sbox) : (s.modSbox g).tamperHold = s.tamperHold := rfl
@[simp] theorem State.modSbox_recoveryMode (g : Sbox → Sbox) : (s.modSbox g).recoveryMode = s.recoveryMode := rfl
@[simp] theorem State.modSbox_restarting (g : Sbox → Sbox) : (s.modSbox g).restarting = s.restarting := rfl
@[simp] theorem State.modSbox_configReady (g : Sbox → Sbox) : (s.modSbox g).configReady = s.configReady := rfl
@[simp] theorem State.modSbox_regs (g : Sbox → Sbox) : (s.modSbox g).regs = s.regs := rfl
@[simp] theorem State.modSbox_latches (g : Sbox → Sbox) : (s.modSbox g).latches = s.latches := rfl
@[simp] theorem State.modSbox_hwSet (g : Sbox → Sbox) : (s.modSbox g).hwSet = s.hwSet := rfl
@[simp] theorem State.modSbox_pendLo (g : Sbox → Sbox) : (s.modSbox g).pendLo = s.pendLo := rfl
@[simp] theorem State.modSbox_numVfs (g : Sbox → Sbox) : (s.modSbox g).numVfs = s.numVfs := rfl
@[simp] theorem State.modSbox_funcs (g : Sbox → Sbox) : (s.modSbox g).funcs = s.funcs := rfl
@[simp] theorem State.modSbox_rings (g : Sbox → Sbox) : (s.modSbox g).rings = s.rings := rfl
@[simp] theorem State.modSbox_fetchTurn (g : Sbox → Sbox) : (s.modSbox g).fetchTurn = s.fetchTurn := rfl
@[simp] theorem State.modSbox_slots (g : Sbox → Sbox) : (s.modSbox g).slots = s.slots := rfl
@[simp] theorem State.modSbox_parts (g : Sbox → Sbox) : (s.modSbox g).parts = s.parts := rfl
@[simp] theorem State.modSbox_ops (g : Sbox → Sbox) : (s.modSbox g).ops = s.ops := rfl
@[simp] theorem State.modSbox_recs (g : Sbox → Sbox) : (s.modSbox g).recs = s.recs := rfl
@[simp] theorem State.modSbox_ide (g : Sbox → Sbox) : (s.modSbox g).ide = s.ide := rfl
@[simp] theorem State.modSbox_ideKeys (g : Sbox → Sbox) : (s.modSbox g).ideKeys = s.ideKeys := rfl
@[simp] theorem State.modSbox_msix (g : Sbox → Sbox) : (s.modSbox g).msix = s.msix := rfl
@[simp] theorem State.modSbox_pba (g : Sbox → Sbox) : (s.modSbox g).pba = s.pba := rfl
@[simp] theorem State.modSbox_msixHeld (g : Sbox → Sbox) : (s.modSbox g).msixHeld = s.msixHeld := rfl
@[simp] theorem State.modSbox_dev (g : Sbox → Sbox) : (s.modSbox g).dev = s.dev := rfl
@[simp] theorem State.modSbox_load (g : Sbox → Sbox) : (s.modSbox g).load = s.load := rfl
@[simp] theorem State.modSbox_removal (g : Sbox → Sbox) : (s.modSbox g).removal = s.removal := rfl
@[simp] theorem State.modSbox_cores (g : Sbox → Sbox) : (s.modSbox g).cores = s.cores := rfl
@[simp] theorem State.modSbox_retired (g : Sbox → Sbox) : (s.modSbox g).retired = s.retired := rfl
@[simp] theorem State.modSbox_sliceFailed (g : Sbox → Sbox) : (s.modSbox g).sliceFailed = s.sliceFailed := rfl
@[simp] theorem State.modSbox_polyFailed (g : Sbox → Sbox) : (s.modSbox g).polyFailed = s.polyFailed := rfl
@[simp] theorem State.modSbox_scratch (g : Sbox → Sbox) : (s.modSbox g).scratch = s.scratch := rfl
@[simp] theorem State.modSbox_folio (g : Sbox → Sbox) : (s.modSbox g).folio = s.folio := rfl
@[simp] theorem State.modSbox_tally (g : Sbox → Sbox) : (s.modSbox g).tally = s.tally := rfl
@[simp] theorem State.modSbox_poly (g : Sbox → Sbox) : (s.modSbox g).poly = s.poly := rfl
@[simp] theorem State.modSbox_limbBufs (g : Sbox → Sbox) : (s.modSbox g).limbBufs = s.limbBufs := rfl
@[simp] theorem State.modSbox_links (g : Sbox → Sbox) : (s.modSbox g).links = s.links := rfl
@[simp] theorem State.modSbox_ports (g : Sbox → Sbox) : (s.modSbox g).ports = s.ports := rfl
@[simp] theorem State.modSbox_sbox (g : Sbox → Sbox) : (s.modSbox g).sbox = g s.sbox := rfl
@[simp] theorem State.modSbox_rng (g : Sbox → Sbox) : (s.modSbox g).rng = s.rng := rfl
@[simp] theorem State.modSbox_errs (g : Sbox → Sbox) : (s.modSbox g).errs = s.errs := rfl
@[simp] theorem State.modSbox_jtagIns (g : Sbox → Sbox) : (s.modSbox g).jtagIns = s.jtagIns := rfl
@[simp] theorem State.modSbox_eids (g : Sbox → Sbox) : (s.modSbox g).eids = s.eids := rfl
@[simp] theorem State.modSbox_hostMem (g : Sbox → Sbox) : (s.modSbox g).hostMem = s.hostMem := rfl
@[simp] theorem State.modSbox_out (g : Sbox → Sbox) : (s.modSbox g).out = s.out := rfl
@[simp] theorem State.modSbox_fresh (g : Sbox → Sbox) : (s.modSbox g).fresh = s.fresh := rfl

/-! ### modRng -/

@[simp] theorem State.modRng_pending (g : Rng → Rng) : (s.modRng g).pending = s.pending := rfl
@[simp] theorem State.modRng_stackGib (g : Rng → Rng) : (s.modRng g).stackGib = s.stackGib := rfl
@[simp] theorem State.modRng_cycles (g : Rng → Rng) : (s.modRng g).cycles = s.cycles := rfl
@[simp] theorem State.modRng_ft (g : Rng → Rng) : (s.modRng g).ft = s.ft := rfl
@[simp] theorem State.modRng_power (g : Rng → Rng) : (s.modRng g).power = s.power := rfl
@[simp] theorem State.modRng_pwr (g : Rng → Rng) : (s.modRng g).pwr = s.pwr := rfl
@[simp] theorem State.modRng_mgmt (g : Rng → Rng) : (s.modRng g).mgmt = s.mgmt := rfl
@[simp] theorem State.modRng_startDone (g : Rng → Rng) : (s.modRng g).startDone = s.startDone := rfl
@[simp] theorem State.modRng_tamperHold (g : Rng → Rng) : (s.modRng g).tamperHold = s.tamperHold := rfl
@[simp] theorem State.modRng_recoveryMode (g : Rng → Rng) : (s.modRng g).recoveryMode = s.recoveryMode := rfl
@[simp] theorem State.modRng_restarting (g : Rng → Rng) : (s.modRng g).restarting = s.restarting := rfl
@[simp] theorem State.modRng_configReady (g : Rng → Rng) : (s.modRng g).configReady = s.configReady := rfl
@[simp] theorem State.modRng_regs (g : Rng → Rng) : (s.modRng g).regs = s.regs := rfl
@[simp] theorem State.modRng_latches (g : Rng → Rng) : (s.modRng g).latches = s.latches := rfl
@[simp] theorem State.modRng_hwSet (g : Rng → Rng) : (s.modRng g).hwSet = s.hwSet := rfl
@[simp] theorem State.modRng_pendLo (g : Rng → Rng) : (s.modRng g).pendLo = s.pendLo := rfl
@[simp] theorem State.modRng_numVfs (g : Rng → Rng) : (s.modRng g).numVfs = s.numVfs := rfl
@[simp] theorem State.modRng_funcs (g : Rng → Rng) : (s.modRng g).funcs = s.funcs := rfl
@[simp] theorem State.modRng_rings (g : Rng → Rng) : (s.modRng g).rings = s.rings := rfl
@[simp] theorem State.modRng_fetchTurn (g : Rng → Rng) : (s.modRng g).fetchTurn = s.fetchTurn := rfl
@[simp] theorem State.modRng_slots (g : Rng → Rng) : (s.modRng g).slots = s.slots := rfl
@[simp] theorem State.modRng_parts (g : Rng → Rng) : (s.modRng g).parts = s.parts := rfl
@[simp] theorem State.modRng_ops (g : Rng → Rng) : (s.modRng g).ops = s.ops := rfl
@[simp] theorem State.modRng_recs (g : Rng → Rng) : (s.modRng g).recs = s.recs := rfl
@[simp] theorem State.modRng_ide (g : Rng → Rng) : (s.modRng g).ide = s.ide := rfl
@[simp] theorem State.modRng_ideKeys (g : Rng → Rng) : (s.modRng g).ideKeys = s.ideKeys := rfl
@[simp] theorem State.modRng_msix (g : Rng → Rng) : (s.modRng g).msix = s.msix := rfl
@[simp] theorem State.modRng_pba (g : Rng → Rng) : (s.modRng g).pba = s.pba := rfl
@[simp] theorem State.modRng_msixHeld (g : Rng → Rng) : (s.modRng g).msixHeld = s.msixHeld := rfl
@[simp] theorem State.modRng_dev (g : Rng → Rng) : (s.modRng g).dev = s.dev := rfl
@[simp] theorem State.modRng_load (g : Rng → Rng) : (s.modRng g).load = s.load := rfl
@[simp] theorem State.modRng_removal (g : Rng → Rng) : (s.modRng g).removal = s.removal := rfl
@[simp] theorem State.modRng_cores (g : Rng → Rng) : (s.modRng g).cores = s.cores := rfl
@[simp] theorem State.modRng_retired (g : Rng → Rng) : (s.modRng g).retired = s.retired := rfl
@[simp] theorem State.modRng_sliceFailed (g : Rng → Rng) : (s.modRng g).sliceFailed = s.sliceFailed := rfl
@[simp] theorem State.modRng_polyFailed (g : Rng → Rng) : (s.modRng g).polyFailed = s.polyFailed := rfl
@[simp] theorem State.modRng_scratch (g : Rng → Rng) : (s.modRng g).scratch = s.scratch := rfl
@[simp] theorem State.modRng_folio (g : Rng → Rng) : (s.modRng g).folio = s.folio := rfl
@[simp] theorem State.modRng_tally (g : Rng → Rng) : (s.modRng g).tally = s.tally := rfl
@[simp] theorem State.modRng_poly (g : Rng → Rng) : (s.modRng g).poly = s.poly := rfl
@[simp] theorem State.modRng_limbBufs (g : Rng → Rng) : (s.modRng g).limbBufs = s.limbBufs := rfl
@[simp] theorem State.modRng_links (g : Rng → Rng) : (s.modRng g).links = s.links := rfl
@[simp] theorem State.modRng_ports (g : Rng → Rng) : (s.modRng g).ports = s.ports := rfl
@[simp] theorem State.modRng_sbox (g : Rng → Rng) : (s.modRng g).sbox = s.sbox := rfl
@[simp] theorem State.modRng_rng (g : Rng → Rng) : (s.modRng g).rng = g s.rng := rfl
@[simp] theorem State.modRng_errs (g : Rng → Rng) : (s.modRng g).errs = s.errs := rfl
@[simp] theorem State.modRng_jtagIns (g : Rng → Rng) : (s.modRng g).jtagIns = s.jtagIns := rfl
@[simp] theorem State.modRng_eids (g : Rng → Rng) : (s.modRng g).eids = s.eids := rfl
@[simp] theorem State.modRng_hostMem (g : Rng → Rng) : (s.modRng g).hostMem = s.hostMem := rfl
@[simp] theorem State.modRng_out (g : Rng → Rng) : (s.modRng g).out = s.out := rfl
@[simp] theorem State.modRng_fresh (g : Rng → Rng) : (s.modRng g).fresh = s.fresh := rfl

/-! ### modTally -/

@[simp] theorem State.modTally_pending (g : TallySt → TallySt) : (s.modTally g).pending = s.pending := rfl
@[simp] theorem State.modTally_stackGib (g : TallySt → TallySt) : (s.modTally g).stackGib = s.stackGib := rfl
@[simp] theorem State.modTally_cycles (g : TallySt → TallySt) : (s.modTally g).cycles = s.cycles := rfl
@[simp] theorem State.modTally_ft (g : TallySt → TallySt) : (s.modTally g).ft = s.ft := rfl
@[simp] theorem State.modTally_power (g : TallySt → TallySt) : (s.modTally g).power = s.power := rfl
@[simp] theorem State.modTally_pwr (g : TallySt → TallySt) : (s.modTally g).pwr = s.pwr := rfl
@[simp] theorem State.modTally_mgmt (g : TallySt → TallySt) : (s.modTally g).mgmt = s.mgmt := rfl
@[simp] theorem State.modTally_startDone (g : TallySt → TallySt) : (s.modTally g).startDone = s.startDone := rfl
@[simp] theorem State.modTally_tamperHold (g : TallySt → TallySt) : (s.modTally g).tamperHold = s.tamperHold := rfl
@[simp] theorem State.modTally_recoveryMode (g : TallySt → TallySt) : (s.modTally g).recoveryMode = s.recoveryMode := rfl
@[simp] theorem State.modTally_restarting (g : TallySt → TallySt) : (s.modTally g).restarting = s.restarting := rfl
@[simp] theorem State.modTally_configReady (g : TallySt → TallySt) : (s.modTally g).configReady = s.configReady := rfl
@[simp] theorem State.modTally_regs (g : TallySt → TallySt) : (s.modTally g).regs = s.regs := rfl
@[simp] theorem State.modTally_latches (g : TallySt → TallySt) : (s.modTally g).latches = s.latches := rfl
@[simp] theorem State.modTally_hwSet (g : TallySt → TallySt) : (s.modTally g).hwSet = s.hwSet := rfl
@[simp] theorem State.modTally_pendLo (g : TallySt → TallySt) : (s.modTally g).pendLo = s.pendLo := rfl
@[simp] theorem State.modTally_numVfs (g : TallySt → TallySt) : (s.modTally g).numVfs = s.numVfs := rfl
@[simp] theorem State.modTally_funcs (g : TallySt → TallySt) : (s.modTally g).funcs = s.funcs := rfl
@[simp] theorem State.modTally_rings (g : TallySt → TallySt) : (s.modTally g).rings = s.rings := rfl
@[simp] theorem State.modTally_fetchTurn (g : TallySt → TallySt) : (s.modTally g).fetchTurn = s.fetchTurn := rfl
@[simp] theorem State.modTally_slots (g : TallySt → TallySt) : (s.modTally g).slots = s.slots := rfl
@[simp] theorem State.modTally_parts (g : TallySt → TallySt) : (s.modTally g).parts = s.parts := rfl
@[simp] theorem State.modTally_ops (g : TallySt → TallySt) : (s.modTally g).ops = s.ops := rfl
@[simp] theorem State.modTally_recs (g : TallySt → TallySt) : (s.modTally g).recs = s.recs := rfl
@[simp] theorem State.modTally_ide (g : TallySt → TallySt) : (s.modTally g).ide = s.ide := rfl
@[simp] theorem State.modTally_ideKeys (g : TallySt → TallySt) : (s.modTally g).ideKeys = s.ideKeys := rfl
@[simp] theorem State.modTally_msix (g : TallySt → TallySt) : (s.modTally g).msix = s.msix := rfl
@[simp] theorem State.modTally_pba (g : TallySt → TallySt) : (s.modTally g).pba = s.pba := rfl
@[simp] theorem State.modTally_msixHeld (g : TallySt → TallySt) : (s.modTally g).msixHeld = s.msixHeld := rfl
@[simp] theorem State.modTally_dev (g : TallySt → TallySt) : (s.modTally g).dev = s.dev := rfl
@[simp] theorem State.modTally_load (g : TallySt → TallySt) : (s.modTally g).load = s.load := rfl
@[simp] theorem State.modTally_removal (g : TallySt → TallySt) : (s.modTally g).removal = s.removal := rfl
@[simp] theorem State.modTally_cores (g : TallySt → TallySt) : (s.modTally g).cores = s.cores := rfl
@[simp] theorem State.modTally_retired (g : TallySt → TallySt) : (s.modTally g).retired = s.retired := rfl
@[simp] theorem State.modTally_sliceFailed (g : TallySt → TallySt) : (s.modTally g).sliceFailed = s.sliceFailed := rfl
@[simp] theorem State.modTally_polyFailed (g : TallySt → TallySt) : (s.modTally g).polyFailed = s.polyFailed := rfl
@[simp] theorem State.modTally_scratch (g : TallySt → TallySt) : (s.modTally g).scratch = s.scratch := rfl
@[simp] theorem State.modTally_folio (g : TallySt → TallySt) : (s.modTally g).folio = s.folio := rfl
@[simp] theorem State.modTally_tally (g : TallySt → TallySt) : (s.modTally g).tally = g s.tally := rfl
@[simp] theorem State.modTally_poly (g : TallySt → TallySt) : (s.modTally g).poly = s.poly := rfl
@[simp] theorem State.modTally_limbBufs (g : TallySt → TallySt) : (s.modTally g).limbBufs = s.limbBufs := rfl
@[simp] theorem State.modTally_links (g : TallySt → TallySt) : (s.modTally g).links = s.links := rfl
@[simp] theorem State.modTally_ports (g : TallySt → TallySt) : (s.modTally g).ports = s.ports := rfl
@[simp] theorem State.modTally_sbox (g : TallySt → TallySt) : (s.modTally g).sbox = s.sbox := rfl
@[simp] theorem State.modTally_rng (g : TallySt → TallySt) : (s.modTally g).rng = s.rng := rfl
@[simp] theorem State.modTally_errs (g : TallySt → TallySt) : (s.modTally g).errs = s.errs := rfl
@[simp] theorem State.modTally_jtagIns (g : TallySt → TallySt) : (s.modTally g).jtagIns = s.jtagIns := rfl
@[simp] theorem State.modTally_eids (g : TallySt → TallySt) : (s.modTally g).eids = s.eids := rfl
@[simp] theorem State.modTally_hostMem (g : TallySt → TallySt) : (s.modTally g).hostMem = s.hostMem := rfl
@[simp] theorem State.modTally_out (g : TallySt → TallySt) : (s.modTally g).out = s.out := rfl
@[simp] theorem State.modTally_fresh (g : TallySt → TallySt) : (s.modTally g).fresh = s.fresh := rfl

/-! ### modLink -/

@[simp] theorem State.modLink_pending (p i : Nat) (g : Link → Link) : (s.modLink p i g).pending = s.pending := rfl
@[simp] theorem State.modLink_stackGib (p i : Nat) (g : Link → Link) : (s.modLink p i g).stackGib = s.stackGib := rfl
@[simp] theorem State.modLink_cycles (p i : Nat) (g : Link → Link) : (s.modLink p i g).cycles = s.cycles := rfl
@[simp] theorem State.modLink_ft (p i : Nat) (g : Link → Link) : (s.modLink p i g).ft = s.ft := rfl
@[simp] theorem State.modLink_power (p i : Nat) (g : Link → Link) : (s.modLink p i g).power = s.power := rfl
@[simp] theorem State.modLink_pwr (p i : Nat) (g : Link → Link) : (s.modLink p i g).pwr = s.pwr := rfl
@[simp] theorem State.modLink_mgmt (p i : Nat) (g : Link → Link) : (s.modLink p i g).mgmt = s.mgmt := rfl
@[simp] theorem State.modLink_startDone (p i : Nat) (g : Link → Link) : (s.modLink p i g).startDone = s.startDone := rfl
@[simp] theorem State.modLink_tamperHold (p i : Nat) (g : Link → Link) : (s.modLink p i g).tamperHold = s.tamperHold := rfl
@[simp] theorem State.modLink_recoveryMode (p i : Nat) (g : Link → Link) : (s.modLink p i g).recoveryMode = s.recoveryMode := rfl
@[simp] theorem State.modLink_restarting (p i : Nat) (g : Link → Link) : (s.modLink p i g).restarting = s.restarting := rfl
@[simp] theorem State.modLink_configReady (p i : Nat) (g : Link → Link) : (s.modLink p i g).configReady = s.configReady := rfl
@[simp] theorem State.modLink_regs (p i : Nat) (g : Link → Link) : (s.modLink p i g).regs = s.regs := rfl
@[simp] theorem State.modLink_latches (p i : Nat) (g : Link → Link) : (s.modLink p i g).latches = s.latches := rfl
@[simp] theorem State.modLink_hwSet (p i : Nat) (g : Link → Link) : (s.modLink p i g).hwSet = s.hwSet := rfl
@[simp] theorem State.modLink_pendLo (p i : Nat) (g : Link → Link) : (s.modLink p i g).pendLo = s.pendLo := rfl
@[simp] theorem State.modLink_numVfs (p i : Nat) (g : Link → Link) : (s.modLink p i g).numVfs = s.numVfs := rfl
@[simp] theorem State.modLink_funcs (p i : Nat) (g : Link → Link) : (s.modLink p i g).funcs = s.funcs := rfl
@[simp] theorem State.modLink_rings (p i : Nat) (g : Link → Link) : (s.modLink p i g).rings = s.rings := rfl
@[simp] theorem State.modLink_fetchTurn (p i : Nat) (g : Link → Link) : (s.modLink p i g).fetchTurn = s.fetchTurn := rfl
@[simp] theorem State.modLink_slots (p i : Nat) (g : Link → Link) : (s.modLink p i g).slots = s.slots := rfl
@[simp] theorem State.modLink_parts (p i : Nat) (g : Link → Link) : (s.modLink p i g).parts = s.parts := rfl
@[simp] theorem State.modLink_ops (p i : Nat) (g : Link → Link) : (s.modLink p i g).ops = s.ops := rfl
@[simp] theorem State.modLink_recs (p i : Nat) (g : Link → Link) : (s.modLink p i g).recs = s.recs := rfl
@[simp] theorem State.modLink_ide (p i : Nat) (g : Link → Link) : (s.modLink p i g).ide = s.ide := rfl
@[simp] theorem State.modLink_ideKeys (p i : Nat) (g : Link → Link) : (s.modLink p i g).ideKeys = s.ideKeys := rfl
@[simp] theorem State.modLink_msix (p i : Nat) (g : Link → Link) : (s.modLink p i g).msix = s.msix := rfl
@[simp] theorem State.modLink_pba (p i : Nat) (g : Link → Link) : (s.modLink p i g).pba = s.pba := rfl
@[simp] theorem State.modLink_msixHeld (p i : Nat) (g : Link → Link) : (s.modLink p i g).msixHeld = s.msixHeld := rfl
@[simp] theorem State.modLink_dev (p i : Nat) (g : Link → Link) : (s.modLink p i g).dev = s.dev := rfl
@[simp] theorem State.modLink_load (p i : Nat) (g : Link → Link) : (s.modLink p i g).load = s.load := rfl
@[simp] theorem State.modLink_removal (p i : Nat) (g : Link → Link) : (s.modLink p i g).removal = s.removal := rfl
@[simp] theorem State.modLink_cores (p i : Nat) (g : Link → Link) : (s.modLink p i g).cores = s.cores := rfl
@[simp] theorem State.modLink_retired (p i : Nat) (g : Link → Link) : (s.modLink p i g).retired = s.retired := rfl
@[simp] theorem State.modLink_sliceFailed (p i : Nat) (g : Link → Link) : (s.modLink p i g).sliceFailed = s.sliceFailed := rfl
@[simp] theorem State.modLink_polyFailed (p i : Nat) (g : Link → Link) : (s.modLink p i g).polyFailed = s.polyFailed := rfl
@[simp] theorem State.modLink_scratch (p i : Nat) (g : Link → Link) : (s.modLink p i g).scratch = s.scratch := rfl
@[simp] theorem State.modLink_folio (p i : Nat) (g : Link → Link) : (s.modLink p i g).folio = s.folio := rfl
@[simp] theorem State.modLink_tally (p i : Nat) (g : Link → Link) : (s.modLink p i g).tally = s.tally := rfl
@[simp] theorem State.modLink_poly (p i : Nat) (g : Link → Link) : (s.modLink p i g).poly = s.poly := rfl
@[simp] theorem State.modLink_limbBufs (p i : Nat) (g : Link → Link) : (s.modLink p i g).limbBufs = s.limbBufs := rfl
@[simp] theorem State.modLink_links (p i : Nat) (g : Link → Link) : (s.modLink p i g).links = Tab.store (fun _ => {}) s.links (1024 * p + i) (g (s.link p i)) := rfl
@[simp] theorem State.modLink_ports (p i : Nat) (g : Link → Link) : (s.modLink p i g).ports = s.ports := rfl
@[simp] theorem State.modLink_sbox (p i : Nat) (g : Link → Link) : (s.modLink p i g).sbox = s.sbox := rfl
@[simp] theorem State.modLink_rng (p i : Nat) (g : Link → Link) : (s.modLink p i g).rng = s.rng := rfl
@[simp] theorem State.modLink_errs (p i : Nat) (g : Link → Link) : (s.modLink p i g).errs = s.errs := rfl
@[simp] theorem State.modLink_jtagIns (p i : Nat) (g : Link → Link) : (s.modLink p i g).jtagIns = s.jtagIns := rfl
@[simp] theorem State.modLink_eids (p i : Nat) (g : Link → Link) : (s.modLink p i g).eids = s.eids := rfl
@[simp] theorem State.modLink_hostMem (p i : Nat) (g : Link → Link) : (s.modLink p i g).hostMem = s.hostMem := rfl
@[simp] theorem State.modLink_out (p i : Nat) (g : Link → Link) : (s.modLink p i g).out = s.out := rfl
@[simp] theorem State.modLink_fresh (p i : Nat) (g : Link → Link) : (s.modLink p i g).fresh = s.fresh := rfl

/-! ### modPort -/

@[simp] theorem State.modPort_pending (i : Nat) (g : Port → Port) : (s.modPort i g).pending = s.pending := rfl
@[simp] theorem State.modPort_stackGib (i : Nat) (g : Port → Port) : (s.modPort i g).stackGib = s.stackGib := rfl
@[simp] theorem State.modPort_cycles (i : Nat) (g : Port → Port) : (s.modPort i g).cycles = s.cycles := rfl
@[simp] theorem State.modPort_ft (i : Nat) (g : Port → Port) : (s.modPort i g).ft = s.ft := rfl
@[simp] theorem State.modPort_power (i : Nat) (g : Port → Port) : (s.modPort i g).power = s.power := rfl
@[simp] theorem State.modPort_pwr (i : Nat) (g : Port → Port) : (s.modPort i g).pwr = s.pwr := rfl
@[simp] theorem State.modPort_mgmt (i : Nat) (g : Port → Port) : (s.modPort i g).mgmt = s.mgmt := rfl
@[simp] theorem State.modPort_startDone (i : Nat) (g : Port → Port) : (s.modPort i g).startDone = s.startDone := rfl
@[simp] theorem State.modPort_tamperHold (i : Nat) (g : Port → Port) : (s.modPort i g).tamperHold = s.tamperHold := rfl
@[simp] theorem State.modPort_recoveryMode (i : Nat) (g : Port → Port) : (s.modPort i g).recoveryMode = s.recoveryMode := rfl
@[simp] theorem State.modPort_restarting (i : Nat) (g : Port → Port) : (s.modPort i g).restarting = s.restarting := rfl
@[simp] theorem State.modPort_configReady (i : Nat) (g : Port → Port) : (s.modPort i g).configReady = s.configReady := rfl
@[simp] theorem State.modPort_regs (i : Nat) (g : Port → Port) : (s.modPort i g).regs = s.regs := rfl
@[simp] theorem State.modPort_latches (i : Nat) (g : Port → Port) : (s.modPort i g).latches = s.latches := rfl
@[simp] theorem State.modPort_hwSet (i : Nat) (g : Port → Port) : (s.modPort i g).hwSet = s.hwSet := rfl
@[simp] theorem State.modPort_pendLo (i : Nat) (g : Port → Port) : (s.modPort i g).pendLo = s.pendLo := rfl
@[simp] theorem State.modPort_numVfs (i : Nat) (g : Port → Port) : (s.modPort i g).numVfs = s.numVfs := rfl
@[simp] theorem State.modPort_funcs (i : Nat) (g : Port → Port) : (s.modPort i g).funcs = s.funcs := rfl
@[simp] theorem State.modPort_rings (i : Nat) (g : Port → Port) : (s.modPort i g).rings = s.rings := rfl
@[simp] theorem State.modPort_fetchTurn (i : Nat) (g : Port → Port) : (s.modPort i g).fetchTurn = s.fetchTurn := rfl
@[simp] theorem State.modPort_slots (i : Nat) (g : Port → Port) : (s.modPort i g).slots = s.slots := rfl
@[simp] theorem State.modPort_parts (i : Nat) (g : Port → Port) : (s.modPort i g).parts = s.parts := rfl
@[simp] theorem State.modPort_ops (i : Nat) (g : Port → Port) : (s.modPort i g).ops = s.ops := rfl
@[simp] theorem State.modPort_recs (i : Nat) (g : Port → Port) : (s.modPort i g).recs = s.recs := rfl
@[simp] theorem State.modPort_ide (i : Nat) (g : Port → Port) : (s.modPort i g).ide = s.ide := rfl
@[simp] theorem State.modPort_ideKeys (i : Nat) (g : Port → Port) : (s.modPort i g).ideKeys = s.ideKeys := rfl
@[simp] theorem State.modPort_msix (i : Nat) (g : Port → Port) : (s.modPort i g).msix = s.msix := rfl
@[simp] theorem State.modPort_pba (i : Nat) (g : Port → Port) : (s.modPort i g).pba = s.pba := rfl
@[simp] theorem State.modPort_msixHeld (i : Nat) (g : Port → Port) : (s.modPort i g).msixHeld = s.msixHeld := rfl
@[simp] theorem State.modPort_dev (i : Nat) (g : Port → Port) : (s.modPort i g).dev = s.dev := rfl
@[simp] theorem State.modPort_load (i : Nat) (g : Port → Port) : (s.modPort i g).load = s.load := rfl
@[simp] theorem State.modPort_removal (i : Nat) (g : Port → Port) : (s.modPort i g).removal = s.removal := rfl
@[simp] theorem State.modPort_cores (i : Nat) (g : Port → Port) : (s.modPort i g).cores = s.cores := rfl
@[simp] theorem State.modPort_retired (i : Nat) (g : Port → Port) : (s.modPort i g).retired = s.retired := rfl
@[simp] theorem State.modPort_sliceFailed (i : Nat) (g : Port → Port) : (s.modPort i g).sliceFailed = s.sliceFailed := rfl
@[simp] theorem State.modPort_polyFailed (i : Nat) (g : Port → Port) : (s.modPort i g).polyFailed = s.polyFailed := rfl
@[simp] theorem State.modPort_scratch (i : Nat) (g : Port → Port) : (s.modPort i g).scratch = s.scratch := rfl
@[simp] theorem State.modPort_folio (i : Nat) (g : Port → Port) : (s.modPort i g).folio = s.folio := rfl
@[simp] theorem State.modPort_tally (i : Nat) (g : Port → Port) : (s.modPort i g).tally = s.tally := rfl
@[simp] theorem State.modPort_poly (i : Nat) (g : Port → Port) : (s.modPort i g).poly = s.poly := rfl
@[simp] theorem State.modPort_limbBufs (i : Nat) (g : Port → Port) : (s.modPort i g).limbBufs = s.limbBufs := rfl
@[simp] theorem State.modPort_links (i : Nat) (g : Port → Port) : (s.modPort i g).links = s.links := rfl
@[simp] theorem State.modPort_ports (i : Nat) (g : Port → Port) : (s.modPort i g).ports = Tab.store (fun _ => {}) s.ports i (g (s.port i)) := rfl
@[simp] theorem State.modPort_sbox (i : Nat) (g : Port → Port) : (s.modPort i g).sbox = s.sbox := rfl
@[simp] theorem State.modPort_rng (i : Nat) (g : Port → Port) : (s.modPort i g).rng = s.rng := rfl
@[simp] theorem State.modPort_errs (i : Nat) (g : Port → Port) : (s.modPort i g).errs = s.errs := rfl
@[simp] theorem State.modPort_jtagIns (i : Nat) (g : Port → Port) : (s.modPort i g).jtagIns = s.jtagIns := rfl
@[simp] theorem State.modPort_eids (i : Nat) (g : Port → Port) : (s.modPort i g).eids = s.eids := rfl
@[simp] theorem State.modPort_hostMem (i : Nat) (g : Port → Port) : (s.modPort i g).hostMem = s.hostMem := rfl
@[simp] theorem State.modPort_out (i : Nat) (g : Port → Port) : (s.modPort i g).out = s.out := rfl
@[simp] theorem State.modPort_fresh (i : Nat) (g : Port → Port) : (s.modPort i g).fresh = s.fresh := rfl

/-! ### modOp -/

@[simp] theorem State.modOp_pending (p tag : Nat) (g : Op → Op) : (s.modOp p tag g).pending = s.pending := rfl
@[simp] theorem State.modOp_stackGib (p tag : Nat) (g : Op → Op) : (s.modOp p tag g).stackGib = s.stackGib := rfl
@[simp] theorem State.modOp_cycles (p tag : Nat) (g : Op → Op) : (s.modOp p tag g).cycles = s.cycles := rfl
@[simp] theorem State.modOp_ft (p tag : Nat) (g : Op → Op) : (s.modOp p tag g).ft = s.ft := rfl
@[simp] theorem State.modOp_power (p tag : Nat) (g : Op → Op) : (s.modOp p tag g).power = s.power := rfl
@[simp] theorem State.modOp_pwr (p tag : Nat) (g : Op → Op) : (s.modOp p tag g).pwr = s.pwr := rfl
@[simp] theorem State.modOp_mgmt (p tag : Nat) (g : Op → Op) : (s.modOp p tag g).mgmt = s.mgmt := rfl
@[simp] theorem State.modOp_startDone (p tag : Nat) (g : Op → Op) : (s.modOp p tag g).startDone = s.startDone := rfl
@[simp] theorem State.modOp_tamperHold (p tag : Nat) (g : Op → Op) : (s.modOp p tag g).tamperHold = s.tamperHold := rfl
@[simp] theorem State.modOp_recoveryMode (p tag : Nat) (g : Op → Op) : (s.modOp p tag g).recoveryMode = s.recoveryMode := rfl
@[simp] theorem State.modOp_restarting (p tag : Nat) (g : Op → Op) : (s.modOp p tag g).restarting = s.restarting := rfl
@[simp] theorem State.modOp_configReady (p tag : Nat) (g : Op → Op) : (s.modOp p tag g).configReady = s.configReady := rfl
@[simp] theorem State.modOp_regs (p tag : Nat) (g : Op → Op) : (s.modOp p tag g).regs = s.regs := rfl
@[simp] theorem State.modOp_latches (p tag : Nat) (g : Op → Op) : (s.modOp p tag g).latches = s.latches := rfl
@[simp] theorem State.modOp_hwSet (p tag : Nat) (g : Op → Op) : (s.modOp p tag g).hwSet = s.hwSet := rfl
@[simp] theorem State.modOp_pendLo (p tag : Nat) (g : Op → Op) : (s.modOp p tag g).pendLo = s.pendLo := rfl
@[simp] theorem State.modOp_numVfs (p tag : Nat) (g : Op → Op) : (s.modOp p tag g).numVfs = s.numVfs := rfl
@[simp] theorem State.modOp_funcs (p tag : Nat) (g : Op → Op) : (s.modOp p tag g).funcs = s.funcs := rfl
@[simp] theorem State.modOp_rings (p tag : Nat) (g : Op → Op) : (s.modOp p tag g).rings = s.rings := rfl
@[simp] theorem State.modOp_fetchTurn (p tag : Nat) (g : Op → Op) : (s.modOp p tag g).fetchTurn = s.fetchTurn := rfl
@[simp] theorem State.modOp_slots (p tag : Nat) (g : Op → Op) : (s.modOp p tag g).slots = s.slots := rfl
@[simp] theorem State.modOp_parts (p tag : Nat) (g : Op → Op) : (s.modOp p tag g).parts = s.parts := rfl
@[simp] theorem State.modOp_ops (p tag : Nat) (g : Op → Op) : (s.modOp p tag g).ops = s.ops.map (fun o => if o.part == p && o.tag == tag then g o else o) := rfl
@[simp] theorem State.modOp_recs (p tag : Nat) (g : Op → Op) : (s.modOp p tag g).recs = s.recs := rfl
@[simp] theorem State.modOp_ide (p tag : Nat) (g : Op → Op) : (s.modOp p tag g).ide = s.ide := rfl
@[simp] theorem State.modOp_ideKeys (p tag : Nat) (g : Op → Op) : (s.modOp p tag g).ideKeys = s.ideKeys := rfl
@[simp] theorem State.modOp_msix (p tag : Nat) (g : Op → Op) : (s.modOp p tag g).msix = s.msix := rfl
@[simp] theorem State.modOp_pba (p tag : Nat) (g : Op → Op) : (s.modOp p tag g).pba = s.pba := rfl
@[simp] theorem State.modOp_msixHeld (p tag : Nat) (g : Op → Op) : (s.modOp p tag g).msixHeld = s.msixHeld := rfl
@[simp] theorem State.modOp_dev (p tag : Nat) (g : Op → Op) : (s.modOp p tag g).dev = s.dev := rfl
@[simp] theorem State.modOp_load (p tag : Nat) (g : Op → Op) : (s.modOp p tag g).load = s.load := rfl
@[simp] theorem State.modOp_removal (p tag : Nat) (g : Op → Op) : (s.modOp p tag g).removal = s.removal := rfl
@[simp] theorem State.modOp_cores (p tag : Nat) (g : Op → Op) : (s.modOp p tag g).cores = s.cores := rfl
@[simp] theorem State.modOp_retired (p tag : Nat) (g : Op → Op) : (s.modOp p tag g).retired = s.retired := rfl
@[simp] theorem State.modOp_sliceFailed (p tag : Nat) (g : Op → Op) : (s.modOp p tag g).sliceFailed = s.sliceFailed := rfl
@[simp] theorem State.modOp_polyFailed (p tag : Nat) (g : Op → Op) : (s.modOp p tag g).polyFailed = s.polyFailed := rfl
@[simp] theorem State.modOp_scratch (p tag : Nat) (g : Op → Op) : (s.modOp p tag g).scratch = s.scratch := rfl
@[simp] theorem State.modOp_folio (p tag : Nat) (g : Op → Op) : (s.modOp p tag g).folio = s.folio := rfl
@[simp] theorem State.modOp_tally (p tag : Nat) (g : Op → Op) : (s.modOp p tag g).tally = s.tally := rfl
@[simp] theorem State.modOp_poly (p tag : Nat) (g : Op → Op) : (s.modOp p tag g).poly = s.poly := rfl
@[simp] theorem State.modOp_limbBufs (p tag : Nat) (g : Op → Op) : (s.modOp p tag g).limbBufs = s.limbBufs := rfl
@[simp] theorem State.modOp_links (p tag : Nat) (g : Op → Op) : (s.modOp p tag g).links = s.links := rfl
@[simp] theorem State.modOp_ports (p tag : Nat) (g : Op → Op) : (s.modOp p tag g).ports = s.ports := rfl
@[simp] theorem State.modOp_sbox (p tag : Nat) (g : Op → Op) : (s.modOp p tag g).sbox = s.sbox := rfl
@[simp] theorem State.modOp_rng (p tag : Nat) (g : Op → Op) : (s.modOp p tag g).rng = s.rng := rfl
@[simp] theorem State.modOp_errs (p tag : Nat) (g : Op → Op) : (s.modOp p tag g).errs = s.errs := rfl
@[simp] theorem State.modOp_jtagIns (p tag : Nat) (g : Op → Op) : (s.modOp p tag g).jtagIns = s.jtagIns := rfl
@[simp] theorem State.modOp_eids (p tag : Nat) (g : Op → Op) : (s.modOp p tag g).eids = s.eids := rfl
@[simp] theorem State.modOp_hostMem (p tag : Nat) (g : Op → Op) : (s.modOp p tag g).hostMem = s.hostMem := rfl
@[simp] theorem State.modOp_out (p tag : Nat) (g : Op → Op) : (s.modOp p tag g).out = s.out := rfl
@[simp] theorem State.modOp_fresh (p tag : Nat) (g : Op → Op) : (s.modOp p tag g).fresh = s.fresh := rfl

/-! ### advance -/

@[simp] theorem State.advance_pending (n : Nat) : (s.advance n).pending = s.pending := rfl
@[simp] theorem State.advance_stackGib (n : Nat) : (s.advance n).stackGib = s.stackGib := rfl
@[simp] theorem State.advance_cycles (n : Nat) : (s.advance n).cycles = s.cycles + n := rfl
@[simp] theorem State.advance_ft (n : Nat) : (s.advance n).ft = { s.ft with acc := (s.ft.acc + n * s.ft.rate) % 2 ^ 96 } := rfl
@[simp] theorem State.advance_power (n : Nat) : (s.advance n).power = s.power := rfl
@[simp] theorem State.advance_pwr (n : Nat) : (s.advance n).pwr = s.pwr := rfl
@[simp] theorem State.advance_mgmt (n : Nat) : (s.advance n).mgmt = s.mgmt := rfl
@[simp] theorem State.advance_startDone (n : Nat) : (s.advance n).startDone = s.startDone := rfl
@[simp] theorem State.advance_tamperHold (n : Nat) : (s.advance n).tamperHold = s.tamperHold := rfl
@[simp] theorem State.advance_recoveryMode (n : Nat) : (s.advance n).recoveryMode = s.recoveryMode := rfl
@[simp] theorem State.advance_restarting (n : Nat) : (s.advance n).restarting = s.restarting := rfl
@[simp] theorem State.advance_configReady (n : Nat) : (s.advance n).configReady = s.configReady := rfl
@[simp] theorem State.advance_regs (n : Nat) : (s.advance n).regs = s.regs := rfl
@[simp] theorem State.advance_latches (n : Nat) : (s.advance n).latches = s.latches := rfl
@[simp] theorem State.advance_hwSet (n : Nat) : (s.advance n).hwSet = s.hwSet := rfl
@[simp] theorem State.advance_pendLo (n : Nat) : (s.advance n).pendLo = s.pendLo := rfl
@[simp] theorem State.advance_numVfs (n : Nat) : (s.advance n).numVfs = s.numVfs := rfl
@[simp] theorem State.advance_funcs (n : Nat) : (s.advance n).funcs = s.funcs := rfl
@[simp] theorem State.advance_rings (n : Nat) : (s.advance n).rings = s.rings := rfl
@[simp] theorem State.advance_fetchTurn (n : Nat) : (s.advance n).fetchTurn = s.fetchTurn := rfl
@[simp] theorem State.advance_slots (n : Nat) : (s.advance n).slots = s.slots := rfl
@[simp] theorem State.advance_parts (n : Nat) : (s.advance n).parts = s.parts := rfl
@[simp] theorem State.advance_ops (n : Nat) : (s.advance n).ops = s.ops := rfl
@[simp] theorem State.advance_recs (n : Nat) : (s.advance n).recs = s.recs := rfl
@[simp] theorem State.advance_ide (n : Nat) : (s.advance n).ide = s.ide := rfl
@[simp] theorem State.advance_ideKeys (n : Nat) : (s.advance n).ideKeys = s.ideKeys := rfl
@[simp] theorem State.advance_msix (n : Nat) : (s.advance n).msix = s.msix := rfl
@[simp] theorem State.advance_pba (n : Nat) : (s.advance n).pba = s.pba := rfl
@[simp] theorem State.advance_msixHeld (n : Nat) : (s.advance n).msixHeld = s.msixHeld := rfl
@[simp] theorem State.advance_dev (n : Nat) : (s.advance n).dev = s.dev := rfl
@[simp] theorem State.advance_load (n : Nat) : (s.advance n).load = s.load := rfl
@[simp] theorem State.advance_removal (n : Nat) : (s.advance n).removal = s.removal := rfl
@[simp] theorem State.advance_cores (n : Nat) : (s.advance n).cores = s.cores := rfl
@[simp] theorem State.advance_retired (n : Nat) : (s.advance n).retired = s.retired := rfl
@[simp] theorem State.advance_sliceFailed (n : Nat) : (s.advance n).sliceFailed = s.sliceFailed := rfl
@[simp] theorem State.advance_polyFailed (n : Nat) : (s.advance n).polyFailed = s.polyFailed := rfl
@[simp] theorem State.advance_scratch (n : Nat) : (s.advance n).scratch = s.scratch := rfl
@[simp] theorem State.advance_folio (n : Nat) : (s.advance n).folio = s.folio := rfl
@[simp] theorem State.advance_tally (n : Nat) : (s.advance n).tally = s.tally := rfl
@[simp] theorem State.advance_poly (n : Nat) : (s.advance n).poly = s.poly := rfl
@[simp] theorem State.advance_limbBufs (n : Nat) : (s.advance n).limbBufs = s.limbBufs := rfl
@[simp] theorem State.advance_links (n : Nat) : (s.advance n).links = s.links := rfl
@[simp] theorem State.advance_ports (n : Nat) : (s.advance n).ports = s.ports := rfl
@[simp] theorem State.advance_sbox (n : Nat) : (s.advance n).sbox = s.sbox := rfl
@[simp] theorem State.advance_rng (n : Nat) : (s.advance n).rng = s.rng := rfl
@[simp] theorem State.advance_errs (n : Nat) : (s.advance n).errs = s.errs := rfl
@[simp] theorem State.advance_jtagIns (n : Nat) : (s.advance n).jtagIns = s.jtagIns := rfl
@[simp] theorem State.advance_eids (n : Nat) : (s.advance n).eids = s.eids := rfl
@[simp] theorem State.advance_hostMem (n : Nat) : (s.advance n).hostMem = s.hostMem := rfl
@[simp] theorem State.advance_out (n : Nat) : (s.advance n).out = s.out := rfl
@[simp] theorem State.advance_fresh (n : Nat) : (s.advance n).fresh = s.fresh := rfl

/-! ### Reading back -/

@[simp] theorem State.part_modPart (p : Nat) (g : PartSt → PartSt) : (s.modPart p g).part p = g (s.part p) :=
  Tab.look_store_self _ _ _

@[simp] theorem State.part_setPart (p : Nat) (x : PartSt) : (s.setPart p x).part p = x := Tab.look_store_self _ _ _

@[simp] theorem State.func_modFunc (f : Nat) (g : Func → Func) : (s.modFunc f g).func f = g (s.func f) :=
  Tab.look_store_self _ _ _

@[simp] theorem State.ring_modRing (f r : Nat) (g : RingSt → RingSt) : (s.modRing f r g).ring f r = g (s.ring f r) :=
  Tab.look_store_self _ _ _

@[simp] theorem State.core_modCore (i : Nat) (g : Core → Core) : (s.modCore i g).core i = g (s.core i) :=
  Tab.look_store_self _ _ _

@[simp] theorem State.link_modLink (p i : Nat) (g : Link → Link) : (s.modLink p i g).link p i = g (s.link p i) :=
  Tab.look_store_self _ _ _

@[simp] theorem State.port_modPort (i : Nat) (g : Port → Port) : (s.modPort i g).port i = g (s.port i) :=
  Tab.look_store_self _ _ _

@[simp] theorem State.reg_setReg (off : Nat) (v : W32) : (s.setReg off v).reg off = v := Tab.look_store_self _ _ _

/-- Another register is left alone. -/
theorem State.reg_setReg_other (off a : Nat) (v : W32) (h : a ≠ off) : (s.setReg off v).reg a = s.reg a := by
  unfold State.reg State.setReg
  rw [Tab.look_store, if_neg h]

/-- Another partition is left alone. -/
theorem State.part_modPart_other (p q : Nat) (g : PartSt → PartSt) (h : q ≠ p) : (s.modPart p g).part q = s.part q := by
  unfold State.part State.modPart State.setPart
  rw [Tab.look_store, if_neg h]

/-- Another core is left alone. -/
theorem State.core_modCore_other (i j : Nat) (g : Core → Core) (h : j ≠ i) : (s.modCore i g).core j = s.core j := by
  unfold State.core State.modCore
  rw [Tab.look_store, if_neg h]

/-- Another function is left alone. -/
theorem State.func_modFunc_other (f k : Nat) (g : Func → Func) (h : k ≠ f) : (s.modFunc f g).func k = s.func k := by
  unfold State.func State.modFunc
  rw [Tab.look_store, if_neg h]

/-- Another port is left alone. -/
theorem State.port_modPort_other (i j : Nat) (g : Port → Port) (h : j ≠ i) : (s.modPort i g).port j = s.port j := by
  unfold State.port State.modPort
  rw [Tab.look_store, if_neg h]

theorem State.setReg_wf (off : Nat) (v : W32) (w : Tab.wf regReset s.regs = true) :
    Tab.wf regReset (s.setReg off v).regs = true := Tab.wf_store off v w

@[simp] theorem State.regN_setRegN (off v : Nat) : (s.setRegN off v).regN off = v % 2 ^ 32 := by
  simp [State.regN, State.setRegN, BitVec.toNat_ofNat]

end Sys2Proof.Machine
end

