-- ==== Sys2Proof/WellFormed.lean ====
section
/-!
DEFINITION. WellFormed.lean: the operands that the block's own widths allow. `exec` is total: a command that is
not well formed still has a meaning, but no wire of the block could carry it.
-/
namespace Sys2Proof

/-- An offset lies in BAR0 of the requester: 32 MiB for the PF, the MP and JTAG, 1 MiB for a VF (14 R577). -/
def isOffset (req : Req) (off : Nat) : Bool :=
  match req with
  | .fn f => decide (off < (if f.val = 0 then 0x2000000 else 0x100000))
  | .mp => decide (off < 0x2000000)
  | .jtag => decide (off < 0x2000000)

/-- A virtual folio number: 52-bit addresses in folios of 64 KiB (06 R275). -/
def isFolio (v : Nat) : Bool := decide (v < 2 ^ 36)

/-- A contributor number: at most 2,097,152 contributors (10 R411). -/
def isContributor (c : Nat) : Bool := decide (c < 2097152)

/-- A peer index (13 R560). -/
def isPeer (i : Nat) : Bool := decide (i < 1024)

/-- An Ethernet frame of a length that a port accepts (13 R527). -/
def isFrame (f : Bytes) : Bool := decide (f.length ≤ 9216)

/-- A command is well formed. -/
def Instr.wf : Instr → Bool
  | .vinRise _ => true
  | .vinFall _ => true
  | .vinHigh _ => true
  | .perstNAssert => true
  | .perstNDeassert _ => true
  | .bootRomStart bistFail => decide (bistFail < 2 ^ 72)
  | .startComplete => true
  | .mpWatchdogReset => true
  | .stage _ => true
  | .stageComplete _ => true
  | .updateDiscard _ => true
  | .activate _ => true
  | .updateLedgerRead _ _ => true
  | .healthConfirm lost => (lost.map (fun v => decide (v.toNat < 40000))).getD true
  | .rejectSelf => true
  | .fallbackTimeout => true
  | .enterIdle => true
  | .doze _ => true
  | .dozeWake => true
  | .wakingDone => true
  | .throttleStep _ _ _ => true
  | .thermalTrip _ => true
  | .tamperAlarm _ => true
  | .sweepMarkCleared => true
  | .orphanZeroiseDone => true
  | .keyWrite _ _ => true
  | .keyDerive _ _ => true
  | .keyWrap _ => true
  | .keyUnwrap _ _ => true
  | .keyOrphan _ => true
  | .keyZeroise _ _ => true
  | .keyInfo _ => true
  | .sign _ => true
  | .memRotate _ => true
  | .lcAdvance _ => true
  | .factoryTransition => true
  | .tamperRead _ => true
  | .rngStartupDone => true
  | .rngSeeded _ => true
  | .healthTestFailure _ _ => true
  | .drbgReseed => true
  | .generateCall => true
  | .rngTestWrite _ _ => true
  | .deviceCharterLoad _ => true
  | .jobCharterLoad _ _ => true
  | .charterPause _ => true
  | .pauseCutoff _ => true
  | .charterApply => true
  | .charterRemove _ _ => true
  | .removalComplete => true
  | .removalForced => true
  | .rwlWrite req off size _ => isOffset req off && decide (size ≤ 8)
  | .registerWrite req off size _ _ => isOffset req off && decide (size ≤ 8)
  | .pairLoRead req off size => isOffset req off && decide (size ≤ 8)
  | .pairLoWrite req off _ => isOffset req off
  | .pairHiWrite req off _ => isOffset req off
  | .errIndexWrite _ _ => true
  | .slotWrite _ off data => decide (off + data.length ≤ 65536)
  | .descriptorFetch _ => true
  | .admitDesc _ => true
  | .opDispatch _ _ => true
  | .opComplete _ _ => true
  | .recordWrite _ _ => true
  | .coalTimeout _ _ => true
  | .cqHeadWrite _ _ _ => true
  | .cqCfgWrite _ _ _ => true
  | .winEnable _ _ => true
  | .winReset _ => true
  | .cancelAll _ => true
  | .cancel _ => true
  | .phaseSwitch _ => true
  | .drainTimeout _ => true
  | .phaseOpen _ => true
  | .coreFault _ _ _ _ => true
  | .coreHang _ _ => true
  | .mma _ _ _ => true
  | .vec _ _ _ => true
  | .accExport _ _ _ => true
  | .accSettle _ _ _ => true
  | .ctxClose _ _ _ _ => true
  | .scratchSplitWrite _ _ _ _ => true
  | .scratchSplitApply _ _ => true
  | .srSeedWrite _ _ _ _ => true
  | .accPolicyWrite _ _ _ _ => true
  | .coreEccClear _ _ _ => true
  | .hoardEccClear _ => true
  | .copy _ _ => true
  | .fill _ _ => true
  | .discard _ _ => true
  | .streamOpen _ _ => true
  | .streamClose _ _ => true
  | .map _ _ => true
  | .pin _ _ => true
  | .unpin _ _ => true
  | .place _ _ => true
  | .evict _ _ => true
  | .moveCommit _ vfn _ => isFolio vfn
  | .lowWaterEviction _ => true
  | .ageTick => true
  | .patrolScrub _ _ _ _ => true
  | .channelRetire _ bad => bad.all (fun e => decide (e.2 < 2 ^ 36))
  | .walkerMove _ => true
  | .scrubZeroed hoard frame => decide (frame < (if hoard then 131072 else 196608 * 128))
  | .streamPrefetch _ _ => true
  | .streamCtrlWrite _ _ _ _ => true
  | .pullReq _ frame => isFrame frame
  | .confirm _ frame => isFrame frame
  | .refuse _ frame => isFrame frame
  | .moveWaitExpiry _ => true
  | .ptpMessage _ frame _ => isFrame frame
  | .ptpSend _ _ => true
  | .ppsInEdge _ => true
  | .tod _ => true
  | .sourceLost => true
  | .holdoverLimitExceeded => true
  | .ftimeHoldWrite _ _ => true
  | .windowDefine _ _ => true
  | .windowOpen _ _ => true
  | .windowClose _ _ => true
  | .windowDiscard _ _ => true
  | .windowFree _ _ => true
  | .tallyIngest _ _ _ _ => true
  | .ledgerRead _ _ => true
  | .openAt _ => true
  | .closeAt _ => true
  | .graceEnd _ => true
  | .idleTimeout _ contributor => isContributor contributor
  | .reversalDone _ contributor => isContributor contributor
  | .submit _ frame _ => isFrame frame
  | .hamperPop _ => true
  | .slotSummed _ => true
  | .retentionAppend => true
  | .commit _ contributor => isContributor contributor
  | .sliceFail _ => true
  | .recoverSelf _ _ _ => true
  | .recoverPair _ _ _ => true
  | .recoverFinish _ _ => true
  | .release _ _ => true
  | .recLedgerRead _ _ => true
  | .timedRelease _ => true
  | .releaseCopyDone _ => true
  | .paramLoad _ _ => true
  | .paramDrop _ _ => true
  | .keyBind _ _ => true
  | .ctAdd _ _ => true
  | .ctSub _ _ => true
  | .ptAdd _ _ => true
  | .ptMul _ _ => true
  | .ctMul _ _ => true
  | .relin _ _ => true
  | .rotate _ _ => true
  | .rescale _ _ => true
  | .modDrop _ _ => true
  | .ntt _ _ => true
  | .intt _ _ => true
  | .limbMuladd _ _ => true
  | .macroOp _ _ => true
  | .polyEngineFail _ => true
  | .ack _ frame => isFrame frame
  | .ackDelayExpiry _ peer => isPeer peer
  | .fetch _ frame => isFrame frame
  | .folio _ frame => isFrame frame
  | .frameTransmit _ _ => true
  | .rekeyAt _ => true
  | .keygenRetire _ peer => isPeer peer
  | .rtoExpiry _ peer => isPeer peer
  | .evidenceReq _ frame => isFrame frame
  | .admitHello _ frame => isFrame frame
  | .admitConfirm _ frame => isFrame frame
  | .admitTimeout _ => true
  | .addressResolution _ frame => isFrame frame
  | .laneFail _ _ => true
  | .retrainComplete _ => true
  | .retrain _ _ => true
  | .configRequest _ _ _ => true
  | .flr _ => true
  | .lockInterfaceRequest _ => true
  | .startInterfaceRequest _ => true
  | .stopInterfaceRequest _ => true
  | .ideIntegrityFailure _ => true
  | .lockedSettingWrite _ => true
  | .requestWithoutTBit _ => true
  | .ideKm _ _ _ _ => true
  | .doeDiscovery _ _ => true
  | .getVersion _ _ => true
  | .getCapabilities _ _ => true
  | .negotiateAlgorithms _ _ => true
  | .getDigests _ _ => true
  | .getCertificate _ _ => true
  | .challenge _ _ => true
  | .getMeasurements _ _ => true
  | .keyExchange _ _ => true
  | .finish _ _ _ => true
  | .heartbeat _ _ _ => true
  | .keyUpdate _ _ _ => true
  | .endSession _ _ _ => true
  | .vendorDefinedRequest _ _ _ => true
  | .mctpControl _ _ => true
  | .dmaIn _ _ _ => true
  | .dmaOut _ _ _ => true
  | .bmeClear _ => true
  | .bmeSet _ => true
  | .hoardApertureAccess addr len wr => decide (addr + (match wr with | some b => b.length | none => len) ≤ 2 ^ 33)
  | .dbgMuxCtrlWrite _ _ => true
  | .profClear _ => true
  | .counterSnapshot => true
  | .jtagInstruction _ => true
  | .dbgAccess off _ => decide (off < 2 ^ 34)
  | .hostLinkRetrain _ _ width speed => [1, 2, 4, 8, 16].contains width && decide (1 ≤ speed) && decide (speed ≤ 6)
  | .ppsOutPulse _ => true
  | .strongboxSelfCheckFailure => true
  | .alarmConditionEnds _ => true
  | .vinHighCleared _ => true
  | .jtagTapReset => true

end Sys2Proof
end

