-- ==== Sys2Proof/Tests/Slice0.lean ====
section
/-!
SUPPORT. Tests/Slice0.lean: a smoke test of WellFormed, single steps whose results the spec gives, and for every
statement that has hypotheses states and operands that meet them.
-/
namespace Sys2Proof.Tests

set_option Elab.async false

open Sys2Proof Sys2Proof.Machine

/-! ### Small states -/

/-- A descriptor of partition 0, phase 0, owned by the device: opcode, tag, core and body. -/
def mkD (oc tag : Nat) (body : Bytes := []) (core : Nat := 0xFF) : Bytes :=
  toLE 2 oc ++ [0, 0x80] ++ toLE 2 tag ++ toLE 1 core ++ zeros 17 ++ fit 40 body

/-- An operation of partition 0 that runs. -/
def runOp (d : Bytes) (core : Nat := 0xFF) : Op :=
  { tag := dTag d, desc := d, func := 1, core := core, stage := .running }

/-- A package with one partition of two cores on function 1, whose job has one phase. -/
def w0 : State := State.makePartKeys
  { startDone := true, configReady := true
    dev := some { parts := [{ func := 1, coreMask := 3, folioFrames := 16, lpddrGib := 1, portMask := 1 }] }
    parts := [(0, { job := some { phases := [{}] }, ph := .opn, keyLive := 1 })]
    funcs := [(0, { bme := true }), (1, { bme := true })] } 0 (zeros 96)

theorem w0_inv : Inv w0 := by constructor <;> decide +kernel

/-- The package with one operation in flight. -/
def wOp (o : Op) : State := { w0 with ops := [o] }

/-- The package with a descriptor held by function 1. -/
def wHeld (d : Bytes) : State := { w0 with funcs := [(1, { bme := true, held := some { desc := d } })] }

/-- Partition 0 in another phase state, with a switch in hand. -/
def wSwitch (ph : PhState) : State :=
  { w0 with parts := [(0, { job := some { phases := [{}], minCores := 3 }, ph := ph, switch := some { desc := mkD 0x10 5 } })] }


/-! ### Well-formed commands: for each check a term that it refuses -/

theorem wf_bootRomStart : (Instr.bootRomStart (2 ^ 72)).wf = false ∧ (Instr.bootRomStart (2 ^ 72 - 1)).wf = true := by decide +kernel
theorem wf_offset_vf : (Instr.registerWrite (.fn 1) 0x100000 4 0 false).wf = false ∧
    (Instr.registerWrite (.fn 0) 0x100000 4 0 false).wf = true := by
  decide +kernel
theorem wf_offset_pf : (Instr.pairLoRead (.fn 0) 0x2000000 4).wf = false ∧ (Instr.pairLoWrite .mp 0x2000000 0).wf = false ∧
    (Instr.pairHiWrite .jtag 0x2000000 0).wf = false ∧ (Instr.rwlWrite (.fn 0) 0x2000000 4 0).wf = false := by decide +kernel
theorem wf_size : (Instr.registerWrite (.fn 0) 0 9 0 false).wf = false ∧ (Instr.rwlWrite (.fn 0) 0 9 0).wf = false ∧
    (Instr.pairLoRead (.fn 0) 0 9).wf = false := by decide +kernel
theorem wf_slotWrite : (Instr.slotWrite 0 65535 [0, 0]).wf = false ∧ (Instr.slotWrite 0 65535 [0]).wf = true := by decide +kernel
theorem wf_folio : (Instr.moveCommit 0 (2 ^ 36) .ok).wf = false ∧ (Instr.channelRetire 0 [(0, 2 ^ 36)]).wf = false := by decide +kernel
theorem wf_scrubZeroed : (Instr.scrubZeroed true 131072).wf = false ∧ (Instr.scrubZeroed true 131071).wf = true ∧
    (Instr.scrubZeroed false (196608 * 128)).wf = false := by decide +kernel
theorem wf_frame : ∀ f : Bytes, 9216 < f.length → (Instr.fetch 0 f).wf = false ∧ (Instr.pullReq 0 f).wf = false ∧ (Instr.confirm 0 f).wf = false ∧
    (Instr.refuse 0 f).wf = false ∧ (Instr.submit 0 f 0).wf = false ∧ (Instr.ptpMessage 0 f 0).wf = false ∧ (Instr.ack 0 f).wf = false ∧ (Instr.folio 0 f).wf = false ∧
    (Instr.evidenceReq 0 f).wf = false ∧ (Instr.admitHello 0 f).wf = false ∧ (Instr.admitConfirm 0 f).wf = false ∧
    (Instr.addressResolution 0 f).wf = false := by
  intro f h
  have : isFrame f = false := decide_eq_false (by omega)
  simp [Instr.wf, this]
theorem wf_contributor : (Instr.idleTimeout 0 2097152).wf = false ∧ (Instr.reversalDone 0 2097152).wf = false ∧
    (Instr.commit 0 2097152).wf = false := by decide +kernel
theorem wf_peer : (Instr.ackDelayExpiry 0 1024).wf = false ∧ (Instr.keygenRetire 0 1024).wf = false ∧ (Instr.rtoExpiry 0 1024).wf = false := by
  decide +kernel
theorem wf_aperture : (Instr.hoardApertureAccess (2 ^ 33) 1 none).wf = false ∧ (Instr.hoardApertureAccess (2 ^ 33 - 1) 9 (some [0])).wf = true := by
  decide +kernel
theorem wf_healthConfirm : (Instr.healthConfirm (some 40000)).wf = false ∧ (Instr.healthConfirm (some 39999)).wf = true := by decide +kernel
theorem wf_dbgAccess : (Instr.dbgAccess (2 ^ 34) none).wf = false := by decide +kernel
theorem wf_hostLink : (Instr.hostLinkRetrain true false 3 1).wf = false ∧ (Instr.hostLinkRetrain true false 16 0).wf = false ∧
    (Instr.hostLinkRetrain true false 16 7).wf = false := by decide +kernel

/-! ### Single steps -/

/-- What the state after a step holds; none where it stops. -/
def after {α : Type} (o : Host.Outcome State Fault Refusal) (g : State → α) : Option α := match o with | .next t => some (g t) | _ => none

/-- The table gives its rows no bits. -/
theorem test_decodeTableWord : decodeTableWord 0 0 = none ∧ decodeTableWord 64 12345 = none := by decide

/-- A word that spells no command leaves the queue. -/
theorem test_withFetchWord : (State.reset.withFetchWord 32 7).pending = [] := rfl

/-- An idle step is one cycle of the reference: the rate word is added (08 R351). -/
theorem test_idle_step : after (step State.reset) (fun t => (t.ft.acc, t.cycles)) = some (State.reset.ft.rate, 1) := by decide +kernel

/-- The step takes the command at the front (the model's own). -/
theorem test_front_step : after (step { State.reset with pending := [.rngStartupDone, .ageTick] }) (fun t => (t.pending, t.rng.st)) =
    some ([.ageTick], .seeding) := by decide +kernel

/-- Configuration space of the PF and a VF starts with the identifiers (00_scope R2). -/
theorem test_config_pf : after (exec (.configRequest 0 0 none) w0) (·.out) = some [.cfgData 0 0 0x74001D9F] := by decide +kernel
theorem test_config_vf : after (exec (.configRequest 1 0 none) w0) (·.out) = some [.cfgData 1 0 0x74011D9F] := by decide +kernel

/-- The check value of CRC-32C. -/
theorem test_crc32c : crc32c (ascii "123456789") = 0xE3069283 := by decide +kernel

set_option maxRecDepth 100000 in
/-- SHA-256 of "abc" (FIPS 180-4). -/
theorem test_sha256 : beNat (sha256 (ascii "abc")) = 0xBA7816BF8F01CFEA414140DE5DAE2223B00361A396177A9CB410FF61F20015AD := by decide +kernel

/-- AES-256 of FIPS 197, C.3. -/
theorem test_aes256 : beNat (aesBlock (aesKeys ((List.range 32).map (BitVec.ofNat 8))) ((List.range 16).map (fun i => BitVec.ofNat 8 (17 * i)))) =
    0x8EA2B7CA516745BFEAFC49904B496089 := by decide +kernel

/-- VIN at 48 V starts the package, at 39.999 V it does not (21 R764). -/
theorem test_vinRise : after (exec (.vinRise 48000) { State.reset with power := .off }) (·.power) = some .active ∧
    after (exec (.vinRise 39999) { State.reset with power := .off }) (·.power) = some .off := by decide +kernel

/-- An MXFP8 E4M3 MMA of one element, SINGLE, with D in FP32, on core 0. -/
def mxD (k : Nat) : Bytes :=
  mkD 0x100 7 (toLE 8 (2 ^ 63) ++ toLE 8 (2 ^ 63 + 256) ++ toLE 8 (2 ^ 63 + 512) ++ [0, 0] ++ toLE 2 0x3933 ++ toLE 2 (k / 32 - 1)) 0

/-- The package with it, two rows and their scales in scratch. -/
def wMx (a sa b sb : Bytes) : State :=
  { (wOp (runOp (mxD (32 * sa.length)) 0)).setRegN (aCoreNumPolicy 0 0) 8 with
    scratch := Mem.write (Mem.write (Mem.write (Mem.write [] 0 a) (64 * ((a.length + 63) / 64)) sa) 256 b) (256 + 64 * ((b.length + 63) / 64)) sb }

set_option maxRecDepth 100000 in
/-- Blocks 0 and 1 of the worked example of 04: 2^24 and then 1, which is a tie and rounds to 2^24. -/
theorem test_mma_part0 :
    after (exec (.mma 0 7 .clean) (wMx ([0x38] ++ zeros 31 ++ [0x38] ++ zeros 31) [139, 127] ([0x38] ++ zeros 31 ++ [0x38] ++ zeros 31) [139, 127]))
      (fun t => le (Mem.read t.scratch 512 4) 0 4) = some 0x4B800000 := by decide +kernel

set_option maxRecDepth 100000 in
/-- Blocks 2 and 3: 1 and then -2^24, which is -16,777,215. -/
theorem test_mma_part1 :
    after (exec (.mma 0 7 .clean) (wMx ([0x38] ++ zeros 31 ++ [0xB8] ++ zeros 31) [127, 139] ([0x38] ++ zeros 31 ++ [0x38] ++ zeros 31) [127, 139]))
      (fun t => le (Mem.read t.scratch 512 4) 0 4) = some 0xCB7FFFFF := by decide +kernel


/-! ### Witnesses: the scheduler -/

/-- The command window of function 1 on, its ring 0 of 64 records, and a FILL in its first slot. -/
def wWin (d : Bytes) : State :=
  ({ w0 with slots := Mem.write [] (winKey 1 0) d } : State).setRegN (aSchedWinCtrl 1) 1 |>.setRegN (aSchedCqCfg 1 0) 6

theorem witness_slotWrite : Inv w0 ∧ w0.winServed 1 = true ∧ 65534 + ([1, 2] : Bytes).length ≤ 65536 ∧
    65536 < 65535 + ([1, 2] : Bytes).length :=
  ⟨w0_inv, by decide +kernel⟩

theorem witness_slotWrite_owned : (wWin (mkD 0x301 7)).winServed 1 = true ∧
    dOwner ((wWin (mkD 0x301 7)).slotBytes 1 0) = true := by decide +kernel

theorem wWin_inv : Inv (wWin (mkD 0x301 7)) := by constructor <;> decide +kernel

theorem witness_descriptorFetch :
    let s := wWin (mkD 0x301 7)
    Inv s ∧ s.partsRun = true ∧ s.fetchNext = some 1 ∧ (s.func 1).fetchPtr = 0 ∧ s.admCheck 1 (s.slotBytes 1 0) = none ∧
    s.fetchable ((s.fetchTurn + 1) % 64) = true ∧ (∀ j, j < 1 → s.fetchable ((s.fetchTurn + j) % 64) = false) ∧
    s.fetchNext ≠ some 2 :=
  ⟨wWin_inv, by decide +kernel⟩

theorem witness_descriptorFetch_malformed :
    let s := wWin (mkD 0x999 7)
    s.partsRun = true ∧ s.fetchNext = some 1 ∧ (s.func 1).fetchPtr = 0 ∧
    s.admCheck 1 (s.slotBytes 1 0) = some (stMalformed, true) := by decide +kernel

theorem witness_winEnable_winReset :
    (wWin []).regsServed = true ∧ (wWin []).ringOn 1 0 = true ∧ w0.ringOn 1 0 = false ∧ w0.regsServed = true ∧ w0.winOn 1 = false := by
  decide +kernel

theorem witness_admitDesc :
    let s := wHeld (mkD 0x301 7)
    (s.func 1).held = some { desc := mkD 0x301 7 } ∧ s.partsRun = true ∧ dOpcode (mkD 0x301 7) ≠ 0x0010 ∧
    dOpcode (mkD 0x301 7) ≠ 0x0011 ∧ s.enabledCores 0 ≠ [] ∧ (s.part 0).paused = false ∧ (s.part 0).ph = .opn ∧
    (s.opsOf 0).length < s.quota 0 ∧ (s.placement 0 (mkD 0x301 7)).isSome = true ∧
    (∀ x ∈ s.placement 0 (mkD 0x301 7), s.occupied x.2.1 < 64) ∧ s.depFailed 0 (mkD 0x301 7) = false := by
  decide +kernel

theorem witness_opDispatch :
    let o : Op := { runOp (mkD 0x301 7) with stage := .waiting }
    (wOp o).findOp 0 7 = some o ∧ (wOp o).partsRun = true ∧ (wOp o).ready o = true ∧ (wOp o).engineFree o = true ∧
    (wOp o).earlierReady o = false ∧ o.queue ≠ (3, 0) := by decide +kernel

/-- A core operation is dispatched with LOOKAHEAD 0 and with LOOKAHEAD 2. -/
theorem witness_opDispatch_core :
    let o : Op := { runOp (mkD 0x100 7 [] 0) 0 with stage := .waiting }
    let s := (wOp o).setRegN (aSchedPartCtrl 0) 10
    let t := (wOp o).setRegN (aSchedPartCtrl 0) 0x2000A
    s.findOp 0 7 = some o ∧ s.partsRun = true ∧ s.ready o = true ∧ s.engineFree o = true ∧ s.earlierReady o = false ∧
    o.queue ≠ (3, 0) ∧ isCoreOp (dOpcode o.desc) = true ∧ bits (s.regN (aSchedPartCtrl 0)) 19 16 = 0 ∧
    t.findOp 0 7 = some o ∧ t.partsRun = true ∧ t.ready o = true ∧ t.engineFree o = true ∧ t.earlierReady o = false ∧
    bits (t.regN (aSchedPartCtrl 0)) 19 16 = 2 := by decide +kernel

theorem witness_opDispatch_dma :
    let o : Op := { runOp (mkD 0x600 7) with stage := .waiting }
    (wOp o).findOp 0 7 = some o ∧ (wOp o).partsRun = true ∧ (wOp o).ready o = true ∧ (wOp o).earlierReady o = false ∧
    o.queue = (3, 0) ∧ (wOp o).dmaIdle = some 0 ∧ (wOp o).dmaMay o = true := by decide +kernel

theorem witness_opComplete :
    let o : Op := { runOp (mkD 0x301 7) with stage := .finished }
    (wOp o).findOp 0 7 = some o ∧ o.stage = .finished ∧ (wOp o).folio.moves = [] ∧ ((wOp o).part 0).ph ≠ .draining := by
  decide +kernel

/-- A record that waits for ring 0 of function 1. -/
def wRec : State := { wWin [] with recs := [{ func := 1, bytes := zeros 32 }] }

theorem wRec_inv : Inv wRec := by constructor <;> decide +kernel

theorem witness_recordWrite :
    Inv wRec ∧ wRec.recs.find? (fun y => y.func == 1 && y.ring == 0) = some { func := 1, bytes := zeros 32 } ∧
    wRec.portServed = true ∧ (wRec.func 1).bme = true ∧ wRec.ringRoom 1 0 = true ∧
    wRec.recordWaits { func := 1, bytes := zeros 32 } = false ∧ (zeros 32).length = 32 :=
  ⟨wRec_inv, by decide +kernel⟩

theorem witness_coalTimeout :
    let s : State := { w0.setRegN (aSchedCqCfg 1 0) 0x03000106 with
      rings := [(8, { since := 1, firstAt := some 0 })], msix := [(1024 + 4 * 3 + 3, 0)] }
    (s.ring 1 0).firstAt = some 0 ∧ bits (s.regN (aSchedCqCfg 1 0)) 15 8 ≠ 0 ∧ s.restarting = false ∧
    (s.func 1).discard = false ∧ (s.func 1).bme = true ∧
    (Tab.look msixInit s.msix (1024 * 1 + 4 * bits (s.regN (aSchedCqCfg 1 0)) 31 24 + 3)).getLsbD 0 = false := by
  decide +kernel

theorem witness_cqHeadWrite_cqCfgWrite :
    Inv w0 ∧ w0.regsServed = true ∧ w0.ringMay 1 = true ∧ bits (6 : W32).toNat 4 0 = 6 ∧ bits (16 : W32).toNat 4 0 = 16 ∧
    bits (0 : W32).toNat 4 0 = 0 ∧ bits (5 : W32).toNat 4 0 = 5 ∧ bits (17 : W32).toNat 4 0 = 17 :=
  ⟨w0_inv, by decide +kernel⟩

theorem witness_cancel :
    let d := mkD 0x0011 9 (toLE 2 7)
    let s := { wHeld d with ops := [runOp (mkD 0x301 7)] }
    (s.func 1).held = some { desc := d } ∧ dOpcode d = 0x0011 ∧ s.removal = none ∧ cancelOk d = true ∧
    (s.part 0).ph ≠ .draining ∧ s.tally.groups = [] ∧ le d 0x1A 1 = 0 ∧ bits (le d 0x18 2) 11 0 = 7 ∧ dTag d = 9 ∧
    s.findOp 0 7 = some (runOp (mkD 0x301 7)) := by decide +kernel

theorem witness_cancelAll :
    let s := wOp (runOp (mkD 0x301 7))
    s.partsRun = true ∧ s.partOfFunc 1 = some 0 ∧ (s.part 0).ph ≠ .draining ∧ ((s.opsOf 0).map Op.tag).Nodup ∧
    s.tally.groups = [] := by
  decide +kernel

theorem witness_phaseSwitch :
    let s := { wHeld (mkD 0x10 5) with ops := [runOp (mkD 0x301 7)] }
    (s.func 1).held = some { desc := mkD 0x10 5 } ∧ dOpcode (mkD 0x10 5) = 0x0010 ∧ (s.part 0).ph = .opn ∧
    (s.part 0).paused = false ∧ allZero (slice (mkD 0x10 5) 0x18 40) = true ∧
    (∃ o ∈ s.opsOf 0, (o.stage = .waiting ∨ o.stage = .running) ∧ s.suspended o = false) := by decide +kernel

theorem witness_drainTimeout :
    let s := { wSwitch .draining with ops := [runOp (mkD 0x301 7)] }
    (s.part 0).switch = some { desc := mkD 0x10 5 } ∧ (s.part 0).ph = .draining ∧ ((s.opsOf 0).map Op.tag).Nodup ∧
    (s.enabledCores 0).length < ((s.job 0).map (·.minCores)).getD 0 ∧ s.tally.groups = [] ∧
    (runOp (mkD 0x301 7)).stage = .running ∧ s.suspended (runOp (mkD 0x301 7)) = false := by decide +kernel

theorem witness_phaseOpen_moveWaitExpiry :
    let s := wSwitch .moving
    (s.part 0).ph = .moving ∧ (s.part 0).switch = some { desc := mkD 0x10 5 } ∧ (s.part 0).plan = {} ∧ s.folio.moves = [] := by
  decide +kernel

/-- A pull to leave behind. -/
theorem witness_moveWaitExpiry_pull :
    let s : State := { w0 with parts := [(0, { ph := .moving, switch := some { desc := mkD 0x10 5 }, plan := { pulls := [(9, 1)] } })] }
    (s.part 0).switch = some { desc := mkD 0x10 5 } ∧ (s.part 0).ph = .moving ∧ (s.part 0).plan.pulls = [(9, 1)] ∧
    (s.part 0).plan.flying = [] ∧ (s.leaf 0 9).state ≠ .scrub := by decide +kernel

theorem witness_coreFault : (∀ i, i < 9 → (w0.core i).failedAt ≠ some w0.cycles) ∧ (w0.core 0).fenced = false ∧ w0.spareOf 0 = some 8 ∧
    (∃ s : State, s.spareOf 0 = none ∧ (s.core 0).fenced = false ∧ (s.core 0).logical ≠ 0xFF ∧
      ∀ i, i < 9 → (s.core i).failedAt ≠ some s.cycles) :=
  ⟨by decide +kernel, by decide +kernel, by decide +kernel, { w0 with cores := [(8, { fenced := true })] }, by decide +kernel⟩


/-! ### Witnesses: the Hoard and the folio unit -/

/-- The body of a folio operation: address, argument, length and kind. -/
def folBody (a arg n : Nat) (kind : Nat := 0) : Bytes := toLE 8 a ++ toLE 8 arg ++ toLE 8 n ++ [BitVec.ofNat 8 kind]

/-- A resident folio with a clean Hoard copy in frame `f` and its home in LPDDR5X frame 5. -/
def heldLeaf (f : Nat) : Leaf := { cls := .lpddr, state := .resident, hvalid := true, hframe := f, home := 5 }

/-- Folios 0 and 1 of partition 0 held in frames 3 and 4, with some bytes, and one operation. -/
def wFol (d : Bytes) : State :=
  { wOp (runOp d) with folio := {
      hoard := Mem.write [] (65536 * 3) [1, 2, 3]
      hUse := [(3, .folio 0 0), (4, .folio 0 1)]
      leaves := [(0, heldLeaf 3), (1, heldLeaf 4)] } }

/-- The same with EXPERT_OPS. -/
def wExp (d : Bytes) : State := (wFol d).setRegN (aFolioPartCtrl 0) 0x80000000

theorem witness_copy :
    let d := mkD 0x300 7 (folBody 0 65536 64)
    let s := wFol d
    s.runningOp 0 7 0x0300 = some (runOp d) ∧ folAddr d = 0 ∧ folArg d = 65536 ∧ folLen d = 64 ∧ folBodyOk d 64 = true ∧
    folKind d = 0 ∧ rangeOk (65536, 64) = true ∧ s.unranked 0 0 = false ∧ s.unranked 0 1 = false ∧
    s.discardBefore (runOp d) 0 = false ∧ s.discardBefore (runOp d) 1 = false ∧ s.handedOff 0 1 = false ∧ s.leaf 0 0 = heldLeaf 3 ∧ s.leaf 0 1 = heldLeaf 4 := by decide +kernel

theorem witness_fill :
    let d := mkD 0x301 7 (folBody 65536 0x1234 64)
    let s := wFol d
    s.runningOp 0 7 0x0301 = some (runOp d) ∧ folAddr d = 65536 ∧ folLen d = 64 ∧ folBodyOk d 64 = true ∧
    folKind d = 0 ∧ s.unranked 0 1 = false ∧ s.discardBefore (runOp d) 1 = false ∧ s.handedOff 0 1 = false ∧
    s.leaf 0 1 = heldLeaf 4 := by decide +kernel

theorem witness_discard :
    let d := mkD 0x302 7 (folBody 0 0 65536)
    let s := wFol d
    s.runningOp 0 7 0x0302 = some (runOp d) ∧ folAddr d = 0 ∧ folBodyOk d 65536 = true ∧ folArg d = 0 ∧ folKind d = 0 ∧
    folLen d = 65536 ∧ (runOp d).progress = 0 ∧ s.unranked 0 0 = false ∧ s.discardBefore (runOp d) 0 = false ∧
    s.earlierHolds (runOp d) 0 = false ∧ s.leaf 0 0 = heldLeaf 3 ∧ s.folio.moves = [] := by decide +kernel

theorem witness_map :
    let d := mkD 0x320 7 (folBody (9 * 65536) 0x70000 65536 3)
    let s := wFol d
    s.runningOp 0 7 0x0320 = some (runOp d) ∧ folAddr d = 9 * 65536 ∧ folBodyOk d 65536 = true ∧ folKind d = 3 ∧
    folArg d % 65536 = 0 ∧ folLen d = 65536 ∧ (runOp d).progress = 0 ∧ s.unranked 0 9 = false ∧
    s.discardBefore (runOp d) 9 = false ∧ s.tableRoom 0 9 false = true ∧ s.lpddrCharge 0 + (s.missingTables 0 9).length ≤ s.lpddrShare 0 ∧
    (s.leaf 0 9).state = .absent ∧ s.folio.moves = [] := by decide +kernel

theorem witness_map_peer : folBodyOk (mkD 0x320 7 (folBody 0 0x70000 65536 2)) 65536 = true ∧
    folKind (mkD 0x320 7 (folBody 0 0x70000 65536 2)) = 2 ∧ (w0.leaf 0 0).state = .absent := by decide +kernel

theorem witness_expert_off :
    let s := fun oc => wFol (mkD oc 7 (folBody 0 0 65536))
    (s 0x330).runningOp 0 7 0x330 = some (runOp (mkD 0x330 7 (folBody 0 0 65536))) ∧
    (s 0x331).runningOp 0 7 0x331 = some (runOp (mkD 0x331 7 (folBody 0 0 65536))) ∧
    (s 0x332).runningOp 0 7 0x332 = some (runOp (mkD 0x332 7 (folBody 0 0 65536))) ∧
    (s 0x333).runningOp 0 7 0x333 = some (runOp (mkD 0x333 7 (folBody 0 0 65536))) ∧
    ((s 0x330).reg (aFolioPartCtrl 0)).getLsbD 31 = false := by decide +kernel

theorem witness_pin :
    let d := mkD 0x330 7 (folBody 0 0 65536)
    let s := wExp d
    s.runningOp 0 7 0x0330 = some (runOp d) ∧ (s.reg (aFolioPartCtrl 0)).getLsbD 31 = true ∧ folPlain d = true ∧
    folLen d = 65536 ∧ s.leaf 0 0 = heldLeaf 3 ∧ s.folio.moves = [] ∧ s.unranked 0 0 = false ∧
    s.discardBefore (runOp d) 0 = false ∧ s.pinnedFrames 0 + s.pinsDue 0 < s.folioFrames 0 ∧
    (∃ t : State, t.folioFrames 0 ≤ t.pinnedFrames 0 + t.pinsDue 0) := by
  iterate 9 refine ⟨by decide +kernel, ?_⟩
  refine ⟨{}, by decide +kernel⟩

theorem witness_unpin_evict :
    let d := mkD 0x331 7 (folBody 0 0 65536)
    let e := mkD 0x333 7 (folBody 0 0 65536)
    (wExp d).runningOp 0 7 0x0331 = some (runOp d) ∧ ((wExp d).reg (aFolioPartCtrl 0)).getLsbD 31 = true ∧ folPlain d = true ∧
    (wExp e).runningOp 0 7 0x0333 = some (runOp e) ∧ ((wExp e).reg (aFolioPartCtrl 0)).getLsbD 31 = true ∧ folPlain e = true ∧
    (wExp e).unranked 0 0 = false ∧ (wExp d).discardBefore (runOp d) 0 = false ∧ (wExp e).discardBefore (runOp e) 0 = false ∧
    (wExp e).leaf 0 0 = heldLeaf 3 ∧ (wExp e).ops = [runOp e] ∧ (wExp e).folio.moves = [] := by decide +kernel

theorem witness_place :
    let d := mkD 0x332 7 (folBody 0 20000 65536)
    let s := wExp d
    s.runningOp 0 7 0x0332 = some (runOp d) ∧ (s.reg (aFolioPartCtrl 0)).getLsbD 31 = true ∧ folBodyOk d 65536 = true ∧
    folArg d = 20000 ∧ folKind d = 0 ∧ s.frameFree .cache 20000 = true ∧ s.unranked 0 0 = false ∧
    s.discardBefore (runOp d) 0 = false ∧ s.pinnedFrames 0 + s.pinsDue 0 < s.folioFrames 0 ∧ s.folio.moves = [] ∧
    s.leaf 0 0 = heldLeaf 3 := by decide +kernel

/-- The body of a STREAM_OPEN: base, stride, count, W and AHEAD. -/
def strBody : Bytes := toLE 8 0 ++ toLE 4 1 ++ toLE 4 3 ++ [1, 64, 2, 3]

/-- Stream 0 of cluster 0 of partition 0: one folio, 1, that is not in the Hoard. -/
def wStr : State :=
  { w0 with folio := {
      leaves := [(1, { heldLeaf 0 with hvalid := false })]
      streams := [(0, { enable := true, w := 1, ahead := 1, base := 65536, stride := 0, count := 1, wclass := 2 })] } }

theorem witness_streamOpen :
    let d := mkD 0x310 7 strBody 0
    let o := runOp d 0
    (wOp o).runningOp 0 7 0x0310 = some o ∧ dCore d = 0 ∧ le d 0x18 8 = 0 ∧ le d 0x24 4 = 3 ∧ le d 0x28 1 = 1 ∧
    le d 0x29 1 = 64 ∧ le d 0x2A 1 = 2 ∧ le d 0x2B 1 = 3 ∧ allZero (slice d 0x2C 20) = true ∧
    ((wOp o).stream 0 0).enable = false ∧
    (∃ s : State, ∀ i, i < 16 → (s.stream 0 i).enable = true) := by
  iterate 10 refine ⟨by decide +kernel, ?_⟩
  refine ⟨{ folio := { streams := (List.range 16).map (fun i => (i, { enable := true })) } }, by decide +kernel⟩

theorem witness_streamClose :
    let d := mkD 0x311 7 [0]
    let s := { wStr with ops := [runOp d] }
    s.runningOp 0 7 0x0311 = some (runOp d) ∧ (s.stream 0 0).enable = true ∧ (s.stream 0 0).part = 0 := by decide +kernel

theorem witness_streamCtrlWrite :
    wStr.writeServed (.fn 0) (aClusStreamCtrl 0 0) = true ∧ (wStr.stream 0 0).enable = true ∧
    wStr.partTrusted 0 = false ∧ (wStr.part 0).paused = false := by decide +kernel

theorem witness_streamPrefetch :
    let x := wStr.stream 0 0
    x.window = [0] ∧ x.folio 0 = 1 ∧ (wStr.leaf x.part 1).state = .resident ∧ (wStr.leaf x.part 1).hvalid = false ∧
    (wStr.leaf x.part 1).cls = .lpddr ∧ wStr.memLive x.part (wStr.leaf x.part 1).keygen = true ∧ x.charter = false ∧
    wStr.folio.moves = [] ∧
    (wStr.freeInCol 0).isSome = true := by decide +kernel

/-- A fetch of folio 1 of partition 0 from its home to Hoard frame 7. -/
def wMov : State :=
  { w0 with folio := {
      lpddr := Mem.write [] (65536 * 5) [9, 8]
      leaves := [(1, { heldLeaf 0 with hvalid := false, state := .moving })]
      moves := [{ vfn := 1, dest := 7 }] } }

theorem wMov_inv : Inv wMov := by constructor <;> decide +kernel

theorem witness_moveCommit :
    Inv wMov ∧ wMov.moveOf 0 1 = some { vfn := 1, dest := 7 } ∧ (wMov.leaf 0 1).cls = .lpddr ∧
    wMov.memLive 0 (wMov.leaf 0 1).keygen = true ∧ wMov.moveCheck { vfn := 1, dest := 7 } = stDone ∧
    wMov.moveArrived { vfn := 1, dest := 7 } = true := ⟨wMov_inv, by decide +kernel⟩

theorem witness_walkerMove :
    let s := { (wFol []).installKey (memSlot 0 1) (tenantAttr 0 (partRootSlot 0) (2 ^ unFolio + 2 ^ unDma) usMemory 4 3) (zeros 64) with
      parts := [(0, { keyCur := 1, keyLive := 3 })] }
    s.walkNext 0 = some (0, heldLeaf 3) ∧ s.memLive 0 1 = true ∧ s.memLive 0 0 = true ∧ s.folio.moves = [] ∧
    (s.freeLpddr 0).isSome = true := by decide +kernel

theorem witness_scrubZeroed :
    let s : State := { w0 with folio := { hUse := [(3, .scrub)], scrubs := [{ frame := 3 }, { hoard := false, frame := 2 }] } }
    (s.folio.scrubs.find? (fun y => y.hoard == true && y.frame == 3)).isSome = true ∧ s.hUse 3 = .scrub ∧
    (s.folio.scrubs.find? (fun y => y.hoard == false && y.frame == 2)).isSome = true := by decide +kernel

theorem witness_lowWaterEviction :
    let s : State := { w0 with
      dev := some { parts := [{ func := 1 }], split := { scratch := 131070 } }
      folio := { hUse := [(3, .folio 0 0)], leaves := [(0, heldLeaf 3)] } }
    s.victim none 0 = some (0, 0) ∧ s.folio.moves = [] ∧ s.freeCount 0 < s.regN aFolioCfg % 256 := by decide +kernel

theorem witness_patrolScrub :
    w0.hUse 0 ≠ .retired ∧ w0.rowCount 0 + 1 < w0.regN aFolioCfg / 2 ^ 20 % 16 ∧
    Tab.look (fun _ => 0) w0.folio.spares 0 < 32 ∧ (wOp (runOp (mkD 0x301 7))).hUse 0 = .free ∧
    (wOp (runOp (mkD 0x301 7))).findOp 0 7 = some (runOp (mkD 0x301 7)) ∧ (runOp (mkD 0x301 7)).stage = .running := by decide +kernel

theorem witness_aperture : w0.regsServed = true ∧ w0.folio.chRetired.testBit 127 = false ∧
    (2 ^ 33 - 2) + ([1, 2] : Bytes).length ≤ 2 ^ 33 ∧ (wFol []).regsServed = true := by decide +kernel


/-! ### Witnesses: the matrix and vector engines -/

/-- An address in core scratch. -/
def scr (off : Nat) : Nat := 2 ^ 63 + off

/-- An operation that runs on core 0, which may address its scratch. -/
def wCore (d : Bytes) : State := (wOp (runOp d 0)).setRegN (aCoreNumPolicy 0 0) 8

/-- An INT8 MMA, MODULAR, of one element from two rows of 32, of a CHAIN code and a dependency byte. -/
def mmaD0 (chain : Nat) (deps : Byte := 0) : Bytes :=
  (mkD 0x100 7 (toLE 8 (scr 0) ++ toLE 8 (scr 64) ++ toLE 8 (scr 128) ++ [0, 0] ++ toLE 2 0xA88 ++ toLE 2 0 ++
    toLE 2 (2 + 16 * chain)) 0).set 7 deps

theorem witness_mma :
    let d := mmaD0 0
    let o := runOp d 0
    let s := wCore d
    s.runningOp 0 7 0x0100 = some o ∧ s.physOf o.core = some 0 ∧ s.chainMalformed o = false ∧ s.mmaRefusal o 0 = none ∧
    mmaChain d = 0 ∧ mmaMode d = 2 ∧ mmaAFmt d = 8 ∧ mmaBFmt d = 8 ∧ isScratch (mmaA d) = true ∧
    isScratch (mmaB d) = true ∧ isScratch (mmaD d) = true := by decide +kernel

/-- Two errors in the second before let a third end the operation by another way. -/
theorem witness_mma_double :
    let d := mmaD0 1
    let o := runOp d 0
    let s := wCore d
    s.runningOp 0 7 0x0100 = some o ∧ s.physOf o.core = some 0 ∧ s.chainMalformed o = false ∧ s.mmaRefusal o 0 = none ∧
    s.openCtxOf 0 0 (mmaCtx d) = none ∧ (match s.prepare o (namedReads d) (namedWrites d) 0 noWhole with
      | .ok u => decide (u.scratchThird 0 = false) && decide (u.physOf 0 = some 0) && (u.findOp 0 7).isSome
      | _ => false) = true := by decide +kernel

theorem witness_mma_chain :
    (wCore (mmaD0 2)).runningOp 0 7 0x0100 = some (runOp (mmaD0 2) 0) ∧
    (wCore (mmaD0 2)).chainMalformed (runOp (mmaD0 2) 0) = true ∧
    (wOp (runOp (mmaD0 0) 0)).chainMalformed (runOp (mmaD0 0) 0) = false ∧
    (wOp (runOp (mmaD0 0) 0)).mmaRefusal (runOp (mmaD0 0) 0) 0 = some stNotPermitted := by decide +kernel

theorem witness_mma_first :
    let d := mmaD0 1
    let o := runOp d 0
    let s := wCore d
    s.runningOp 0 7 0x0100 = some o ∧ s.physOf o.core = some 0 ∧ s.chainMalformed o = false ∧ s.mmaRefusal o 0 = none ∧
    mmaChain d = 1 ∧ (match s.prepare o (namedReads d) (namedWrites d) 0 noWhole with
      | .ok u => decide (u.openCtxOf 0 0 (mmaCtx d) = none) && decide (u.physOf 0 = some 0) && decide (u.ops = s.ops)
      | _ => false) = true := by decide +kernel

/-- A VEC on INT32 rows of two elements. -/
def vecD0 (f : Nat) : Bytes :=
  mkD 0x200 7 (toLE 8 (scr 0) ++ toLE 8 (scr 64) ++ toLE 8 (scr 128) ++ toLE 2 0 ++ toLE 2 1 ++ toLE 2 f ++ toLE 2 0xAAA) 0

theorem witness_vec :
    let d := vecD0 0x034
    let o := runOp d 0
    let s := wCore d
    s.runningOp 0 7 0x0200 = some o ∧ s.physOf o.core = some 0 ∧ vecFunc d = 0x034 ∧ vecS0Fmt d = 0xA ∧ vecS1Fmt d = 0xA ∧
    vecDFmt d = 0xA ∧ vecFieldsOk d = true ∧ isScratch (vecS0 d) = true ∧ isScratch (vecS1 d) = true ∧
    isScratch (vecDst d) = true ∧ s.scratchDenied 0 [vecS0 d] = false ∧ s.addrOk 0 (vecS0 d) (vecS0Size d) = true ∧
    s.addrOk 0 (vecS1 d) (vecS1Size d) = true ∧ s.addrOk 0 (vecDst d) (vecDBytes d) = true := by decide +kernel

/-- An open context of one element, made by tag 3, on core 0. -/
def ctx0 : Ctx := { mode := 2, fmt := 0xA88, count := 5, chain := [(mkD 0x100 3, 0)] }

/-- An ACC_EXPORT that depends on tag 3, and the state with its context. -/
def expD : Bytes := ((mkD 0x101 7 (toLE 8 (scr 128)) 0).set 7 1).set 8 3

def wExport : State := { wCore expD with
  scratch := Mem.write [] ((wCore expD).ctxWordAt 0 0 0 0) (toLE 8 77), cores := [(0, { logical := 0, ctxs := [(0, some ctx0)] })] }

theorem witness_accExport :
    let o := runOp expD 0
    let s := wExport
    s.runningOp 0 7 0x0101 = some o ∧ s.physOf o.core = some 0 ∧ isScratch (expAddr expD) = true ∧
    s.openCtxOf 0 0 (mmaCtx expD) = some ctx0 ∧ ctx0.stale = false ∧ ctx0.m = 1 ∧ ctx0.n = 1 ∧ ctx0.mode = 2 ∧
    s.chainMalformed o = false ∧ s.scratchDenied 0 [expAddr expD] = false ∧ allZero (slice expD 0x20 28) = true ∧
    le expD 0x3C 4 < 16 ∧ le expD 0x3C 4 < s.ctxSlots 0 ∧ s.addrOk 0 (expAddr expD) (partialBytes ctx0.m ctx0.n) = true := by decide +kernel

/-- An ACC_SETTLE of two records of one element. -/
def setD0 : Bytes := mkD 0x102 7 (toLE 8 (scr 0) ++ toLE 8 (scr 256) ++ toLE 4 128 ++ [1, 0] ++ toLE 2 (0xA * 1024)) 0

def wSettle : State :=
  { wCore setD0 with
    scratch := Mem.write (Mem.write [] 0 (partialRecord { ctx := ctx0, words := [77] })) 128 (partialRecord { ctx := ctx0, words := [4294967295] }) }

theorem witness_accSettle :
    let d := setD0
    let s := wSettle
    let hs := (List.range (setParts d)).map (fun k => Mem.read s.scratch (0 * 2 ^ 22 + scratchOff (setBase d) + k * setStride d) 64)
    s.runningOp 0 7 0x0102 = some (runOp d 0) ∧ s.physOf 0 = some 0 ∧ isScratch (setBase d) = true ∧ isScratch (setD d) = true ∧
    setBase d + setParts d * setStride d < 2 ^ 64 ∧ le (hs.headD []) 1 1 = 0 ∧ le (hs.headD []) 2 1 = 0 ∧
    le (hs.headD []) 0 1 = 2 ∧ setDFmt d = 0xA ∧ s.scratchDenied 0 [setBase d, setD d] = false ∧ settleFieldsOk d = true ∧
    settleOk d hs = true ∧ s.addrOk 0 (setBase d) ((setParts d - 1) * setStride d + partialBytes 1 1) = true ∧
    s.addrOk 0 (setBase d) ((setParts d - 1) * setStride d + 64) = true ∧ s.addrOk 0 (setD d) (tileBytes 0xA false 1 1) = true := by
  decide +kernel

theorem witness_core_registers :
    w0.writeServed (.fn 0) (aCoreCtxClose 0 0) = true ∧ w0.ops = [] ∧ w0.writeServed (.fn 0) (aCoreScratchSplit 0 0) = true ∧
    w0.partOfCore (w0.core 0).logical = some 0 ∧ w0.partTrusted 0 = false ∧ (w0.part 0).paused = false ∧
    (0x041C20 : W32).toNat / 2 ^ 16 % 256 + (0x041C20 : W32).toNat / 256 % 256 + (0x041C20 : W32).toNat % 256 = 64 ∧
    (0x041C21 : W32).toNat / 2 ^ 16 % 256 + (0x041C21 : W32).toNat / 256 % 256 + (0x041C21 : W32).toNat % 256 ≠ 64 ∧
    w0.coreIdle 0 = true ∧ (wCore (mmaD0 0)).coreIdle 0 = false ∧ w0.writeServed (.fn 0) (aCoreSrSeedHi 0 0) = true ∧
    w0.writeServed (.fn 0) (aCoreAccPolicy 0 0) = true ∧ w0.writeServed (.fn 0) (aCoreEcc 0 0) = true ∧
    w0.writeServed (.fn 0) (aCoreScratchSplit 7 8) = true := by decide +kernel

theorem witness_scratchSplitApply :
    let s : State := { w0 with cores := [(0, { logical := 0, splitHeld := some 0x041C20 })] }
    (s.core (9 * 0 + 0)).splitHeld = some 0x041C20 ∧ s.coreIdle (9 * 0 + 0) = true := by decide +kernel


/-! ### Witnesses: registers and debug -/

theorem witness_pairLoRead :
    w0.readServed (.fn 0) aGlobalErrIndex = true ∧ pfTarget aGlobalErrIndex = .reg aGlobalErrIndex ∧
    ((regAt aGlobalErrIndex).any (fun r => decide (r.1.half ≠ .hi))) = true ∧ aGlobalErrIndex ≠ aFtimeNowFrac ∧
    w0.readServed (.fn 0) aMgmtUpdAddrLo = true ∧ pfTarget aMgmtUpdAddrLo = .reg aMgmtUpdAddrLo ∧
    ((regAt aMgmtUpdAddrLo).any (fun r => decide (r.1.half = .lo))) = true ∧
    w0.readServed (.fn 0) aMgmtUpdAddrHi = true ∧ pfTarget aMgmtUpdAddrHi = .reg aMgmtUpdAddrHi ∧
    ((regAt aMgmtUpdAddrHi).any (fun r => decide (r.1.half = .hi))) = true ∧ w0.reqUp (.fn 0) = true ∧
    regAt 0x6FFFFC = none ∧ w0.writeServed (.fn 0) aMgmtUpdAddrLo = true ∧
    w0.readServed (.fn 0) aFtimeNowLo = true ∧ pfTarget aFtimeNowLo = .reg aFtimeNowLo ∧
    ((regAt aFtimeNowLo).any (fun r => decide (r.1.half = .lo))) = true ∧
    w0.readServed (.fn 0) aFtimeNowFrac = true ∧ pfTarget aFtimeNowFrac = .reg aFtimeNowFrac ∧
    (regAt aFtimeNowFrac).isSome = true := by decide +kernel

/-- The package with partition 0 on a trusted TDI. -/
def wTrusted : State := { w0 with funcs := [(1, { bme := true, tdi := .run, stream := 5 })], ide := [(5, true)] }

theorem witness_registerWrite :
    ((regAt aPwrEvents).any (fun r => decide (r.1.w1c ≠ 0))) = true ∧ pfTarget aPwrEvents = .reg aPwrEvents ∧
    w0.writeServed (.fn 0) aPwrEvents = true ∧ regAt 0x6FFFFC = none ∧
    (w0.setEvents aPwrEvents 1 0).hwSetNow aPwrEvents ≠ 0 ∧ (w0.setEvents aPwrEvents 1 0).writeServed (.fn 0) aPwrEvents = true := by decide +kernel

theorem witness_rwlWrite :
    (match regAt (aSchedPartCtrl 0) with
      | some (r, ix) => decide (r.rwl ≠ 0) && wTrusted.rwlLocked (wTrusted.rwlOwner r ix 5)
      | none => false) = true ∧ pfTarget (aSchedPartCtrl 0) = .reg (aSchedPartCtrl 0) ∧
    wTrusted.writeServed (.fn 0) (aSchedPartCtrl 0) = true ∧ w0.writeServed (.fn 0) (aSchedPartCtrl 0) = true ∧
    w0.partTrusted 0 = false ∧ (w0.part 0).paused = false ∧ (1 : W32).toNat % 1024 = 1 ∧ (1000 : W32).toNat % 1024 = 1000 ∧
    (1001 : W32).toNat % 1024 = 1001 := by decide +kernel

theorem witness_errIndexWrite : w0.writeServed (.fn 0) aGlobalErrIndex = true ∧
    ({ w0 with errs := [{ seq := 3 }] } : State).errs.find? (fun x => decide (x.seq = (3 : W32).toNat)) = some { seq := 3 } := by
  decide +kernel

theorem witness_dbgAccess : w0.jtagIns ≠ 4 ∧ ({ w0 with jtagIns := 4 } : State).jtagIns = 4 ∧ w0.power ≠ .off ∧
    w0.tamperHold = false ∧ w0.hUse (0xFFFF / 65536) ≠ .retired ∧ w0.writeServed (.fn 0) aDbgMuxCtrl = true ∧
    w0.writeServed (.fn 0) aDbgProfCtrl = true ∧ (0x80000009 : W32).getLsbD 31 = true ∧
    leastDiv ((0x80000009 : W32).toNat / 2 ^ 21 % 128) ≤ (0x80000009 : W32).toNat % 256 ∧
    (0x80000008 : W32).toNat % 256 < leastDiv ((0x80000008 : W32).toNat / 2 ^ 21 % 128) := by decide +kernel

/-- Partition 1 profiles, and its last folio is held in frame 6. -/
def wSnap : State :=
  { w0 with
    dev := some { parts := [{}, { id := 1, func := 1, coreMask := 4 }], dbg := { snapMs := 1, profMask := 1 } }
    parts := [(1, { job := some { phases := [{}] }, ph := .opn })]
    folio := { leaves := [(2 ^ 36 + 0xFFFFFFFFF, heldLeaf 6)], hUse := [(6, .folio 1 0xFFFFFFFFF)] }
    regs := [(aDbgProfSel 0 0, 0x10000000), (aDbgProfCntLo 0 0, 99)] }

theorem witness_counterSnapshot : wSnap.snapParts = [1] ∧ wSnap.partsRun = true ∧ wSnap.unranked 1 0xFFFFFFFFF = false ∧
    wSnap.discardBefore { part := 1, tag := 4096 } 0xFFFFFFFFF = false ∧ wSnap.handedOff 1 0xFFFFFFFFF = false ∧ wSnap.leaf 1 0xFFFFFFFFF = heldLeaf 6 ∧
    (wSnap.dev.map (·.dbg.snapMs)).getD 0 = 1 ∧ (w0.dev.map (·.dbg.snapMs)).getD 0 = 0 := by decide +kernel

/-! ### Witnesses: charters and tenants -/

/-- A charter image: header fields, hash, records and CRC. -/
def image (type : Byte) (hash crc : Nat) (recs : Bytes) : Bytes :=
  [0x47, 0x4B, 0x43, 0x48, 1, 0, type, 0] ++ toLE 4 (64 + recs.length) ++ toLE 4 0x7400 ++ zeros 16 ++ toBE 32 hash ++ recs ++
    toLE 4 crc ++ zeros 4

/-- A device charter of one partition, eight ports that are off, a split and no time source. -/
def devImage : Bytes :=
  image 1 0x9bf80ca521afa898c954b314a9c9b5f14cdafb2dbf6d7eef77e870b3546174bd 0x18b23c8c
    (toLE 2 0x101 ++ toLE 2 0x40 ++ [0, 0, 0, 0] ++ toLE 8 3 ++ toLE 4 16 ++ toLE 4 1 ++ toLE 8 0xFF ++ zeros 32 ++
      toLE 2 0x102 ++ toLE 2 0x190 ++ [1, 0] ++ toLE 2 0x4759 ++ zeros 8 ++ zeros (48 * 8) ++
      toLE 2 0x104 ++ toLE 2 0x14 ++ toLE 4 4096 ++ toLE 4 16 ++ toLE 4 4096 ++ toLE 4 16 ++ zeros 4 ++
      toLE 2 0x105 ++ toLE 2 0x20 ++ [2, 0, 0, 0] ++ toLE 4 1000 ++ toLE 2 50 ++ [0, 0] ++ zeros 16)

/-- A job charter of one phase. -/
def jobImage : Bytes :=
  image 2 0x640e2e334347a9b4e8bec7c2912f6830934cfad15f54299068e69e02585352d8 0x258f009b
    (toLE 2 0x201 ++ toLE 2 0x20 ++ [0, 0, 1, 0] ++ toLE 2 0 ++ toLE 2 1 ++ [0xFF, 10] ++ zeros 18 ++
      toLE 2 0x203 ++ toLE 2 0x30 ++ toLE 3 1 ++ [20] ++ zeros 40 ++
      toLE 2 0x205 ++ toLE 2 16 ++ toLE 2 0 ++ toLE 2 64 ++ toLE 4 1 ++ toLE 4 0)

/-- The load registers name an image at host address 4,096. -/
def wLoad (img : Bytes) : State :=
  ({ w0 with hostMem := Mem.write [] 4096 img }.setRegN aCharterLoadAddrLo 4096).setRegN aCharterLoadLen
    img.length

/-- An answer that is no error. -/
def good {ε α : Type} : Except ε α → Bool
  | .ok _ => true
  | .error _ => false

theorem exists_of_good {ε α : Type} {x : Except ε α} (h : good x = true) : ∃ c, x = .ok c := by
  cases x with
  | ok c => exact ⟨c, rfl⟩
  | error e => cases h

set_option maxRecDepth 100000 in
theorem witness_deviceCharterLoad : ∃ c, (wLoad devImage).checkDevice (wLoad devImage).loadImage.1
    (wLoad devImage).loadImage.2 = .ok c :=
  exists_of_good (by decide +kernel)

theorem witness_deviceCharterLoad_state : (wLoad devImage).writeServed (.fn 0) aCharterLoadCtrl = true ∧
    ((wLoad devImage).func 0).bme = true ∧ (wLoad devImage).load = none := by decide +kernel

theorem witness_deviceCharterLoad_refused :
    (match w0.checkDevice w0.loadImage.1 w0.loadImage.2 with
      | .error e => decide (e.1 ≠ .loadBusy) && decide (loadReasonStatus e.1 ≠ stDone)
      | .ok _ => false) = true ∧
    w0.writeServed (.fn 0) aCharterLoadCtrl = true ∧ (w0.func 0).bme = true ∧ w0.load = none := by decide +kernel

set_option maxRecDepth 100000 in
theorem witness_jobCharterLoad : ∃ c, (wLoad jobImage).checkJob (wLoad jobImage).loadImage.1
    (wLoad jobImage).loadImage.2 0 = .ok c :=
  exists_of_good (by decide +kernel)

theorem witness_jobCharterLoad_state :
    let s := wLoad jobImage
    s.writeServed (.fn 1) aCharterLoadCtrl = true ∧ (s.func 1).bme = true ∧ s.load = none ∧ s.partOfFunc 1 = some 0 ∧
    s.jobRefusal 1 (some 0) = none := by decide +kernel

/-- A load of a job charter for partition 0 in hand. -/
def wBusy (l : Load) : State := { w0 with load := some l }

theorem witness_load_busy : (wBusy { charter := .job {} }).load ≠ none ∧
    (wBusy { charter := .job {} }).writeServed (.fn 0) aCharterLoadCtrl = true ∧
    ((wBusy { charter := .job {} }).func 0).bme = true := by decide +kernel

theorem witness_charterPause :
    let l : Load := { charter := .job {}, toPause := [0] }
    (wBusy l).load = some l ∧ l.paused = none ∧ l.toPause.head? = some 0 ∧ (wBusy l).mayPause 0 = true ∧
    (wBusy l).keysCome l = true := by decide +kernel

theorem witness_pauseCutoff_charterApply :
    let l : Load := { charter := .job {}, paused := some (0, 0) }
    let m : Load := { charter := .device {} }
    (wBusy l).load = some l ∧ l.paused = some (0, 0) ∧ ((({ wBusy l with ops := [runOp (mkD 0x301 7)] } : State).opsOf 0).map Op.tag).Nodup ∧
    l.toPause = [] ∧ l.applied = false ∧ (wBusy l).pauseDrained 0 = true ∧ (wBusy m).load = some m ∧ m.paused = none ∧
    m.toPause = [] ∧ m.applied = false ∧ (wBusy l).mgmt.waiting = false ∧ (wBusy m).mgmt.waiting = false ∧
    (wBusy l).tally.groups = [] ∧ runOp (mkD 0x301 7) ∈ ({ wBusy l with ops := [runOp (mkD 0x301 7)] } : State).cutOps 0 := by decide +kernel

/-- The package with a second partition, 1, on function 2. -/
def wTwo : State := { w0 with dev := some { parts := [{ func := 1 }, { id := 1, func := 2 }] } }

theorem witness_charterRemove :
    wTwo.writeServed (.fn 0) aCharterRemoveCtrl = true ∧ (wTwo.partRec 1).isSome = true ∧ wTwo.removal = none ∧
    wTwo.mgmt.waiting = false ∧ wTwo.partRec 2 = none ∧ ({ wTwo with removal := some {} } : State).removal ≠ none := by decide +kernel

theorem witness_removalComplete_removalForced :
    let s := { w0 with removal := some { part := 1 } }
    let u := { wOp (runOp (mkD 0x301 7)) with removal := some {} }
    s.removal = some { part := 1 } ∧ s.opsOf 1 = [] ∧ s.mgmt.waiting = false ∧ u.mgmt.waiting = false ∧ u.removal = some {} ∧ u.opsOf 0 ≠ [] := by decide +kernel


/-! ### Witnesses: federation time -/

/-- The package with a time source and the state of federation time given. -/
def wTime (t : TimeSource) (f : FtSt) : State := { w0 with dev := some { time := t }, ft := f }

/-- The source is PPS_IN. -/
def pps : TimeSource := { source := 1 }

/-- The source is IEEE 1588 on port 0, which is up. -/
def wPtp (t : TimeSource) : State :=
  { wTime t {} with dev := some { time := t, plan := { mode := 1, ports := [{ enable := true, vid := 1 }] } }, ports := [(0, { up := true })] }

theorem witness_ppsInEdge_first :
    let s := wTime pps { tod := some 1 }
    s.timeSource.source = 1 ∧ s.ft.tod = some 1 ∧ s.ft.ever = false ∧ s.ft.stepped = false ∧ s.ft.lock = .unlocked ∧
    s.ft.rate < 2 ^ 34 ∧ ((s.ft.acc + s.ft.rate * 819 / 820) / 2 ^ 24 : Int) ≤
      1 * 256000000000 + sgn 24 (s.regN aFtimePps % 2 ^ 24) := by decide +kernel

theorem witness_losses :
    let s := wTime pps { lock := .locked }
    let u := wTime { source := 0 } { lock := .locked, gm := some {} }
    let x := wTime { source := 0 } { lock := .locked, gm := some {}, lastSync := 2000000000 }
    s.timeSource.source = 1 ∧ s.ft.tod = none ∧ s.ft.lock = .locked ∧ s.ft.growing = false ∧ u.timeSource.source = 0 ∧
    0 ≤ u.timeSource.logSync ∧ u.ft.lock = .locked ∧ u.ft.growing = false ∧ u.ft.gm ≠ none ∧
    u.ft.lastSync + 4 * 312500000 * 2 ^ u.timeSource.logSync.toNat ≤ u.ft.lastAnnounce + 3 * announceCycles ∧
    x.timeSource.source = 0 ∧ x.ft.gm ≠ none ∧ x.ft.lock = .locked ∧ x.ft.growing = false ∧
    x.ft.lastAnnounce + 3 * announceCycles < x.ft.lastSync ∧
    (∃ v : State, v.ft.growing = true ∧ v.ft.lock ≠ .unlocked ∧ 1 ≤ v.ft.holdRate) := by
  iterate 15 refine ⟨by decide +kernel, ?_⟩
  refine ⟨wTime pps { lock := .holdover, growing := true }, by decide +kernel⟩

theorem witness_tod :
    let msg : Bytes := [0x1D, 0x9F, 1, 7] ++ toBE 6 5 ++ zeros 2
    let s := { wTime pps { lastPps := some 0 } with cycles := 31250000 }
    msg.length = 12 ∧ be msg 0 2 = 0x1D9F ∧ le msg 2 1 = 1 ∧ s.timeSource.source = 1 ∧ s.ft.lastPps = some 0 ∧
    0 + 31250000 ≤ s.cycles ∧ s.cycles ≤ 0 + 281250000 := by decide +kernel

theorem witness_ppsInEdge_lock :
    let s := wTime pps { tod := some 0, ever := true, good := 7, hist := List.replicate 7 0 }
    let off : Int := (s.ft256 : Int) - sgn 24 (s.regN aFtimePps % 2 ^ 24) - (0 : Int) * 256000000000
    let h := (off :: s.ft.hist).take 8
    s.timeSource.source = 1 ∧ s.ft.tod = some 0 ∧ s.ft.ever = true ∧ off.natAbs ≤ 256000000 ∧ s.ft.lock = .unlocked ∧
    7 ≤ s.ft.good ∧ (h.map Int.natAbs).foldl (· + ·) 0 / h.length ≤ 256 * (s.regN aFtimeHold % 2 ^ 20) ∧ s.dueActions = [] := by
  decide +kernel

theorem witness_ftimeHoldWrite :
    let s : State := {}
    s.writeServed (.fn 0) aFtimeHold = true ∧ (∀ p, s.partTrusted p = false) ∧ (s.part 0).paused = false ∧
    1 ≤ (0x100064 : W32).toNat / 2 ^ 20 ∧ 100 ≤ (0x100064 : W32).toNat % 2 ^ 20 ∧ (0x1F4240 : W32).toNat % 2 ^ 20 ≤ 1000000 :=
  ⟨by decide +kernel, fun _ => rfl, by decide +kernel, by decide +kernel, by decide +kernel, by decide +kernel⟩

theorem witness_ftimeHoldWrite_holdover :
    let s : State := { ft := { lock := .holdover } }
    s.writeServed (.fn 0) aFtimeHold = true ∧ (∀ p, s.partTrusted p = false) ∧ (s.part 0).paused = false ∧
    s.ft.growing = false ∧ s.ft.lock = .holdover ∧ (0x1F4240 : W32).toNat % 2 ^ 20 ≤ 1000000 :=
  ⟨by decide +kernel, fun _ => rfl, by decide +kernel, by decide +kernel, by decide +kernel, by decide +kernel⟩

theorem witness_ptpMessage_dropped :
    (w0.port 0).up = false ∧ w0.ft.sub = 0 ∧ fcsOk [] = false ∧ (wPtp { source := 2 }).ft.sub = 0 ∧ ((wPtp { source := 0 }).port 0).up = true ∧ ((wPtp { source := 0 }).portEnt 0).isSome = true ∧
    ((wPtp { source := 2 }).portEnt 0).isSome = true ∧ (wPtp { source := 2 }).timeSource.source ≠ 0 ∧
    (wPtp { source := 2 }).regN (aRytPortDropMac 0) < 2 ^ 32 - 1 := by decide +kernel

/-- An Announce message of 64 bytes. -/
def announce (id : Byte) : Bytes := [11, 2, 0, 64] ++ zeros 23 ++ [id] ++ zeros 36

/-- The tagged frame of it to the group address of the Ethernet transport, in VLAN 1. -/
def announceFrame (id : Byte) : Bytes :=
  withFcs (ptpMac 2 ++ [2, 0, 0, 0, 0, 9, 0x81, 0, 0, 1, 0x88, 0xF7] ++ announce id)

set_option maxRecDepth 100000 in
theorem witness_ptpMessage_pinned :
    let s := wPtp { source := 0, masterId := 5, transport := 2 }
    let m := announce 0
    (s.port 0).up = true ∧ fcsOk (announceFrame 0) = true ∧
    ((s.portEnt 0).bind (fun ent => (rxEth ent (announceFrame 0)).bind (rxPtp s.timeSource.transport ent))) = some m ∧
    s.ft.sub = 0 ∧ s.timeSource.source = 0 ∧ s.timeSource.port = 0 ∧ 34 ≤ m.length ∧ be m 1 1 % 16 = 2 ∧
    be m 4 1 = s.timeSource.domain ∧ s.timeSource.masterId ≠ 0 ∧ be m 20 8 ≠ s.timeSource.masterId ∧
    s.regN aFtimePtpDrops < 2 ^ 32 - 1 := by decide +kernel

set_option maxRecDepth 100000 in
theorem witness_ptpMessage_announce :
    let s := wPtp { source := 0, transport := 2 }
    let t : State := { s with ft := { foreign := [{ data := readAnnounce (announce 1), last := 0 }] } }
    (∀ i, i = 0 ∨ i = 1 → fcsOk (announceFrame i) = true ∧
      ((s.portEnt 0).bind (fun ent => (rxEth ent (announceFrame i)).bind (rxPtp s.timeSource.transport ent))) = some (announce i) ∧
      64 ≤ (announce i).length ∧ be (announce i) 0 1 % 16 = 11 ∧ be (announce i) 1 1 % 16 = 2 ∧
      be (announce i) 4 1 = s.timeSource.domain ∧ (readAnnounce (announce i)).steps < 255 ∧
      (be (announce i) 6 1).testBit 0 = false) ∧
    (s.port 0).up = true ∧ s.timeSource.masterId = 0 ∧ s.ft.gm = none ∧ s.timeSource.masterOk = false ∧ s.ft.foreign = [] ∧
    t.ft.foreign = [{ data := readAnnounce (announce 1), last := 0 }] ∧ t.cycles ≤ 0 + 4 * announceCycles ∧
    ((readAnnounce (announce 0)).sender / 65536 ≠ Config.clockIdentity.toNat ∨
      (readAnnounce (announce 1)).sender / 65536 ≠ Config.clockIdentity.toNat) := by
  refine ⟨by rintro i (rfl | rfl) <;> decide +kernel, ?_⟩
  iterate 7 refine ⟨by decide +kernel, ?_⟩
  · have h0 : (readAnnounce (announce 0)).sender / 65536 = 0 := by decide +kernel
    have h1 : (readAnnounce (announce 1)).sender / 65536 = 1 := by decide +kernel
    rw [h0, h1]
    omega

theorem witness_ptpSend :
    let s : State := { wPtp { source := 0, masterOk := true, twoStep := true } with ft := { selfMaster := true } }
    (s.portEnt s.timeSource.port).isSome = true ∧ s.timeSource.source = 0 ∧ (s.port s.timeSource.port).up = true ∧ s.ftMaster = true ∧ s.timeSource.twoStep = true := by
  decide +kernel

theorem witness_ppsOutPulse :
    let s := wTime pps { lock := .locked }
    s.ft.ppsOut = false ∧ s.ft.lock ≠ .unlocked ∧ (s.reg aFtimePps).getLsbD 31 = true ∧
    ((s.setRegN aFtimePps 0).reg aFtimePps).getLsbD 31 = false ∧ (wTime pps { ppsOut := true }).ft.ppsOut = true := by
  decide +kernel


/-! ### Witnesses: Tally -/

/-- A template of the job: two 32-bit elements of two contributors. -/
def geo0 : Geometry := { elem := 1, length := 2, contributors := 2, duration := 1000000, hampers := 1, hostIngest := true }

/-- The package with a split that gives Tally its regions and a job with the template. -/
def wTal (g : Geometry) : State :=
  { w0 with
    dev := some { parts := [{ func := 1, coreMask := 3, folioFrames := 16, lpddrGib := 1 }]
                  split := { scratch := 4096, tallyAcc := 64, retention := 4096 } }
    parts := [(0, { job := some { phases := [{ slices := 1 }], templates := [g] }, ph := .opn, keyLive := 1 })] }

/-- Window 0 of partition 0 in a state, bound to hamper 0, with its accumulators in frame 600 and its ledger in
frame 601. -/
def win0 (st : WinState) (g : Geometry := geo0) : Window :=
  { st := st, geo := g, closeAt := 1000000, hampers := [0], slices := 1, blockLog2 := 10, accFrames := [[600]], ledgerFrames := [601] }

/-- The package with window 0 in a state. -/
def wWdw (st : WinState) : State := { wTal geo0 with tally := { wins := [(0, win0 st)] } }

/-- The same with one operation. -/
def wWdwOp (st : WinState) (d : Bytes) : State := { wWdw st with ops := [runOp d] }

/-- The same with FT LOCKED. -/
def wLocked (s : State) : State := { s with ft := { s.ft with lock := .locked } }

theorem witness_windowDefine :
    let d := mkD 0x400 7
    let s : State := { wTal geo0 with ops := [runOp d] }
    s.runningOp 0 7 0x0400 = some (runOp d) ∧
    ((s.job 0).map (·.templates)).bind (fun l => l.find? (fun g => g.template == le d 0x18 1)) = some geo0 ∧
    le d 0x18 1 < 64 ∧ allZero (slice d 0x1A 2) = true ∧ allZero (slice d 0x20 32) = true ∧
    (List.range 64).find? (fun v => decide ((s.win v).st = .free)) = some 0 ∧ geo0.hampers ≤ s.freeHampers ∧
    ceilDiv (geo0.length * accBytes geo0.elem) 65536 + 8 + ceilDiv (geo0.contributors * 8) 65536 ≤ s.freeTally ∧
    s.ft.lock = .unlocked ∧ le d 0x1C 4 = 0 ∧ s.winsOf 0 = [] := by decide +kernel

theorem witness_openAt :
    let s := wLocked (wWdw .defined)
    (s.win 0).st = .defined ∧ s.ft.lock ≠ .unlocked ∧ (s.win 0).openAt ≤ (s.advanceTo (s.win 0).openAt).ftNs ∧
    (s.advanceTo (s.win 0).openAt).ftNs < (s.win 0).closeAt ∧ s.openHeld (s.win 0).part = false ∧
    ((wWdw .defined).win 0).st = .defined ∧ (wWdw .defined).ft.lock = .unlocked := by decide +kernel

theorem witness_closeAt : ((wLocked (wWdw .opn)).win 0).st = .opn ∧ (wLocked (wWdw .opn)).ft.lock ≠ .unlocked := by
  decide +kernel

theorem witness_windowOpen_windowClose :
    let d := mkD 0x401 7
    let e := mkD 0x402 7
    (wWdwOp .defined d).runningOp 0 7 0x0401 = some (runOp d) ∧ winBodyOk d = true ∧ (wWdwOp .defined d).ft.lock = .unlocked ∧
    ((wWdwOp .defined d).win (winHandle d)) = win0 .defined ∧ (wWdwOp .defined d).openHeld 0 = false ∧
    ((wWdwOp .defined d).part 0).paused = false ∧ (wWdwOp .opn e).runningOp 0 7 0x0402 = some (runOp e) ∧
    winBodyOk e = true ∧ (wWdwOp .opn e).win (winHandle e) = win0 .opn ∧
    (wLocked (wWdwOp .opn e)).runningOp 0 7 0x0402 = some (runOp e) ∧ (wLocked (wWdwOp .opn e)).ft.lock ≠ .unlocked := by
  decide +kernel

theorem witness_windowDiscard_windowFree :
    let d := mkD 0x403 7
    let e := mkD 0x404 7
    (wWdwOp .opn d).runningOp 0 7 0x0403 = some (runOp d) ∧ winBodyOk d = true ∧ (wWdwOp .opn d).win (winHandle d) = win0 .opn ∧
    (win0 .opn).st.active = true ∧ (wWdwOp .opn d).winOps (winHandle d) recOps = [] ∧ (wWdwOp .opn d).tally.groups = [] ∧
    (wWdwOp .released e).runningOp 0 7 0x0404 = some (runOp e) ∧ winBodyOk e = true ∧
    (wWdwOp .released e).win (winHandle e) = win0 .released ∧ (win0 .released).st.terminal = true := by decide +kernel

/-- A TALLY_INGEST of a full first segment of contributor 1 through relay 2. -/
def ingestD : Bytes := mkD 0x405 7 (zeros 8 ++ [1, 0, 0, 0] ++ toLE 4 9 ++ zeros 4 ++ toLE 2 8192 ++ toLE 2 2)

/-- A template of more elements than one segment holds. -/
def geo1 : Geometry := { geo0 with length := 4096 }

/-- A relay of an admitted job, window 0 open and hamper 0 bound to it. -/
def wIngest : State := State.installKey
  { wTal geo1 with
    ops := [runOp ingestD]
    parts := [(0, { job := some { phases := [{ slices := 1 }], templates := [geo1] }, ph := .opn, keyLive := 1
                    adm := { st := .admitted, peers := [{ index := 2, role := 1 }] } })]
    tally := { wins := [(0, win0 .opn geo1)], hmps := [(0, { win := some 0, bank0 := { st := .filling } })] } }
  (jobRootSlot 0) (tenantAttr 0 0x3FF (2 ^ unLink + 2 ^ unTally) usLink 2 0) (zeros 32)

set_option maxRecDepth 100000 in
theorem witness_tallyIngest :
    let s := wIngest
    let o := runOp ingestD
    let g := ({ s with ft := { s.ft with sub := (0 : Fin 820).val } } : State).ingestSeg o
    s.runningOp 0 7 0x0405 = some o ∧ s.waitsFor o = false ∧
    ((s.job 0).map (·.templates)).bind (fun l => l.find? (fun y => y.template == g.template)) = some geo1 ∧
    geo1.hostIngest = true ∧ s.admitted 0 = true ∧ s.peer 0 g.relay = some { index := 2, role := 1 } ∧
    ingestOk o.desc geo1.elem = true ∧ g.seg = 0 ∧ g.fin = false ∧ s.openOf 0 g.template g.contributor = [] ∧
    s.windowFor 0 g.template g.stamp = some 0 ∧ g.contributor < (s.win 0).geo.contributors ∧
    (s.ledger (s.win 0) g.contributor).state = 0 ∧ (s.win 0).holds g.stamp = true ∧ (s.win 0).st = .opn ∧
    g.breaks (s.win 0) 0 = false ∧ (s.hmp ((s.win 0).hamperOf g.contributor)).full = false ∧
    (s.hmp ((s.win 0).hamperOf g.contributor)).win = some 0 := by decide +kernel

theorem witness_tallyIngest_noTemplate :
    let s : State := { w0 with ops := [runOp ingestD] }
    s.runningOp 0 7 0x0405 = some (runOp ingestD) ∧ s.waitsFor (runOp ingestD) = false ∧
    (s.job 0).map (·.templates) = some [] := by decide +kernel

theorem witness_ledgerRead :
    let d := mkD 0x406 7 ([0, 0, 0, 0] ++ toLE 4 0 ++ toLE 4 2)
    let s : State := { wWdwOp .grace d with folio := { hUse := [(3, .folio 0 0)], leaves := [(0, heldLeaf 3)] } }
    s.runningOp 0 7 0x0406 = some (runOp d) ∧ winHandle d = 0 ∧ ledgerDst d = 0 ∧ ledgerCount d = 2 ∧ ledgerFirst d = 0 ∧
    (s.win 0).st ≠ .free ∧ (s.win 0).part = 0 ∧ le d 0x18 1 < 64 ∧ allZero (slice d 0x19 3) = true ∧
    allZero (slice d 0x24 4) = true ∧ allZero (slice d 0x30 16) = true ∧ 0 + 2 ≤ (s.win 0).geo.contributors ∧
    s.folio.poison = [] ∧ s.unranked 0 0 = false ∧ s.discardBefore (runOp d) 0 = false ∧ s.handedOff 0 0 = false ∧
    s.leaf 0 0 = heldLeaf 3 := by decide +kernel

theorem witness_recLedgerRead :
    let d := mkD 0x414 7 ([0, 0, 0, 0] ++ toLE 4 0 ++ toLE 4 2)
    let s : State := { wWdwOp .recovering d with
      folio := { hUse := [(3, .folio 0 0)], leaves := [(0, heldLeaf 3)] }
      tally := { wins := [(0, { win0 .recovering with recFrames := [602] })] } }
    s.runningOp 0 7 0x0414 = some (runOp d) ∧ winHandle d = 0 ∧ (s.win 0).recFrames ≠ [] ∧ (s.win 0).st ≠ .free ∧ (s.win 0).part = 0 ∧
    ledgerDst d = 0 ∧ ledgerCount d = 2 ∧ ledgerFirst d = 0 ∧ le d 0x18 1 < 64 ∧ allZero (slice d 0x19 3) = true ∧
    allZero (slice d 0x24 4) = true ∧ allZero (slice d 0x30 16) = true ∧ 0 + 2 ≤ (s.win 0).geo.contributors ∧
    s.folio.poison = [] ∧ s.unranked 0 0 = false ∧ s.discardBefore (runOp d) 0 = false ∧ s.handedOff 0 0 = false ∧
    s.leaf 0 0 = heldLeaf 3 := by decide +kernel

/-- A slot with one segment of two elements. -/
def slot0 : HSlot := { contributor := 1, subId := 9, payload := toLE 4 5 ++ toLE 4 0xFFFFFFFF }

/-- Window 0 in a state with hamper 0 that holds a slot. -/
def wSlot (st : WinState) (y : HSlot) : State :=
  { wWdw st with tally := { wins := [(0, win0 st)], hmps := [(0, { win := some 0, last := true, bank0 := { st := .consuming, slots := [y] } })] } }

theorem witness_hamperPop :
    let s := wSlot .opn slot0
    (s.hmp 0).win = some 0 ∧ (s.hmp 0).oldest = some false ∧ ((s.hmp 0).bank false).visible = true ∧ (s.hmp 0).summing = none ∧
    s.popWaits 0 ((s.hmp 0).bank false) = false ∧ (s.part (s.win 0).part).paused = false ∧ (s.win 0).st ≠ .recovering ∧
    ((s.hmp 0).bank false).slots.find? (fun z => !z.popped) = some slot0 ∧ slot0.dropped = false := by decide +kernel

theorem win0_apart (st : WinState) : (win0 st).AccApart := by
  have h : ∀ e, e < 2 → ∀ f, f < 2 → e ≠ f → (win0 .opn).accAddr e + 4 ≤ (win0 .opn).accAddr f ∨
      (win0 .opn).accAddr f + 4 ≤ (win0 .opn).accAddr e := by decide +kernel
  exact fun e f he hf => h e he f hf

theorem witness_slotSummed :
    let y := { slot0 with popped := true }
    let s := wSlot .opn y
    (s.hmp 0).win = some 0 ∧ (s.hmp 0).summing = some (false, y) ∧ (s.win 0).st ≠ .recovering ∧ (s.part (s.win 0).part).paused = false ∧ s.win 0 = win0 .opn ∧
    y.seg * perSegment 1 + (payloadElems 1 y.payload).length ≤ (s.win 0).geo.length := by decide +kernel

/-- An aborted submission whose one segment has been summed and stands in the ring. -/
def sub0 : Sub :=
  { contributor := 1, subId := 9, segs := [{ len := 8, ring := some 0, summed := true }], first := some (0, 0), aborted := some 1 }

theorem witness_reversalDone :
    let s : State := { wWdw .opn with tally := { wins := [(0, win0 .opn)], subs := [sub0] } }
    s.revOf 0 1 = some sub0 ∧ (s.win 0).st ≠ .recovering ∧ (s.part (s.win 0).part).paused = false ∧ s.retainedBad sub0 = false ∧ sub0.unrev = false ∧
    sub0.segs.filter (·.summed) = sub0.segs ∧ s.slotsOf 0 = [] ∧
    0 * perSegment 1 + (payloadElems 1 (s.retained sub0 { len := 8, ring := some 0, summed := true })).length ≤ (s.win 0).geo.length := by
  decide +kernel

theorem witness_retentionAppend :
    let y := { slot0 with waiting := true }
    let s := wSlot .opn y
    s.nextAppend 0 = some (y, 0, none) ∧ s.nextHold 0 = 0 ∧ 64 < s.ringFree ∧ y.payload.length = 8 ∧
    (∀ k, k ≠ 0 → s.nextAppend k = none) ∧ (∀ v : Sub, (none : Option Sub) = some v → v.unrev = false) ∧ ∀ v, (s.win v).st ≠ .recovering := by
  have hm : ∀ k, k ≠ 0 → (wSlot .opn { slot0 with waiting := true }).hmp k = {} := fun k hk => by
    cases k with
    | zero => exact absurd rfl hk
    | succ k => rfl
  have hw : ∀ v, ((wSlot .opn { slot0 with waiting := true }).win v).st ≠ .recovering := fun v => by
    cases v with
    | zero => decide +kernel
    | succ v => intro h; cases h
  refine ⟨by decide +kernel, by decide +kernel, by decide +kernel, by decide +kernel, fun k hk => ?_, (fun v h => by cases h), hw⟩
  simp only [State.nextAppend, hm k hk]
  rfl


/-! ### Witnesses: the ends of submissions, recovery and release -/

/-- Window 0 open with one submission of contributor 1 through relay 2, in an admitted job. -/
def wSub (u : Sub) : State :=
  { wIngest with ops := [], tally := { wins := [(0, win0 .opn)], subs := [u], hmps := [(0, { win := some 0 })] } }

/-- A submission whose END segment has been pushed with a seal. -/
def sub1 (t : Bytes) : Sub := { contributor := 1, subId := 9, relay := 2, sealBytes := some t }

theorem sealOk_of (s : State) (u : Sub) (pj : Bytes) (h : s.jobPrk (s.win u.win).part = some pj)
    (ht : u.sealBytes = some (gcmTag (submissionKey pj u.relay) (sealIv (s.win u.win) u) u.aad [])) : s.sealOk u = true := by
  simp [State.sealOk, h, ht]

theorem slotLive_frame (s : State) (os : List Op) (t : TallySt) (n i : Nat) :
    ({ s with ops := os, tally := t } : State).slotLive n i = s.slotLive n i := by
  induction n generalizing i with
  | zero => rfl
  | succ n ih => simp only [State.slotLive, State.slot, ih]; rfl

theorem jobPrk_frame (s : State) (os : List Op) (t : TallySt) : ({ s with ops := os, tally := t } : State).jobPrk 0 = s.jobPrk 0 := by
  have h (i : Nat) : ({ s with ops := os, tally := t } : State).keyLives i = s.keyLives i := slotLive_frame s os t _ i
  simp only [State.jobPrk, State.jms, State.jobCheck, State.keyCheck, h]
  rfl

theorem wSub_jobPrk (t : Bytes) : (wSub (sub1 t)).jobPrk 0 = wIngest.jobPrk 0 := jobPrk_frame wIngest _ _

theorem wIngest_jobPrk : ∃ pj, wIngest.jobPrk 0 = some pj := Option.isSome_iff_exists.mp (by decide +kernel)

theorem wSub_win (u : Sub) : (wSub u).win 0 = win0 .opn := by simp [wSub, State.win, Tab.look]

theorem wSub_subOf (t : Bytes) : (wSub (sub1 t)).subOf 0 1 = some (sub1 t) := by simp [wSub, State.subOf, sub1]

theorem wSub_regN (u : Sub) (a : Nat) : (wSub u).regN a = wIngest.regN a := by simp [wSub, State.regN, State.reg]

theorem witness_commit : ∃ (s : State) (u : Sub), s.subOf 0 1 = some u ∧ u.sealBytes ≠ none ∧ s.sealOk u = true ∧
    s.graceEnd 0 = none ∧ (s.win 0).st ≠ .recovering ∧ s.regN (aTallyWinCommits 0) + 1 < 2 ^ 32 := by
  obtain ⟨pj, h⟩ := wIngest_jobPrk
  refine ⟨wSub (sub1 (gcmTag (submissionKey pj 2) (sealIv (win0 .opn) (sub1 [])) [] [])), sub1 _, wSub_subOf _,
    by simp [sub1], ?_, by simp [State.graceEnd, wSub_win, win0], by simp [wSub_win, win0],
    by rw [wSub_regN]; decide +kernel⟩
  have hw : (wSub (sub1 (gcmTag (submissionKey pj 2) (sealIv (win0 .opn) (sub1 [])) [] []))).win 0 = win0 .opn := wSub_win _
  refine sealOk_of _ _ pj ?_ ?_
  · show State.jobPrk _ (State.win _ 0).part = _
    rw [hw]
    exact (wSub_jobPrk _).trans h
  · show some _ = some (gcmTag (submissionKey pj 2) (sealIv (State.win _ 0) _) [] [])
    rw [hw]
    rfl

theorem witness_commit_unsealed : ∃ u : Sub, (wSub u).subOf 0 1 = some u ∧ u.unrev = false ∧ u.sealBytes ≠ none ∧
    (wSub u).sealOk u = false ∧ (wSub u).regN (aTallyWinAborts 0) + 1 < 2 ^ 32 := by
  obtain ⟨pj, h⟩ := wIngest_jobPrk
  have no : ∀ t : Bytes, gcmTag (submissionKey pj 2) (sealIv (win0 .opn) (sub1 [])) [] [] ≠ t → (wSub (sub1 t)).sealOk (sub1 t) = false := by
    intro t ht
    have hw : (wSub (sub1 t)).win (sub1 t).win = win0 .opn := wSub_win _
    have hp : (wSub (sub1 t)).jobPrk (win0 .opn).part = some pj := (wSub_jobPrk t).trans h
    simp only [State.sealOk, hw, hp]
    exact decide_eq_false ht
  have ab (u : Sub) : (wSub u).regN (aTallyWinAborts 0) + 1 < 2 ^ 32 := by rw [wSub_regN]; decide +kernel
  by_cases e : gcmTag (submissionKey pj 2) (sealIv (win0 .opn) (sub1 [])) [] [] = []
  · exact ⟨sub1 [0], wSub_subOf _, rfl, by simp [sub1], no [0] (by rw [e]; simp), ab _⟩
  · exact ⟨sub1 [], wSub_subOf _, rfl, by simp [sub1], no [] e, ab _⟩

theorem witness_idleTimeout :
    let u : Sub := { contributor := 1, subId := 9, relay := 2 }
    (wSub u).subOf 0 1 = some u ∧ u.unrev = false ∧ (wSub u).idleFrozen u = false ∧
    (wSub u).regN (aTallyWinAborts 0) + 1 < 2 ^ 32 := by decide +kernel

theorem witness_graceEnd_summing :
    let s := wSlot .grace slot0
    (s.win 0).st = .grace ∧ s.tally.subs = [] ∧ slot0 ∈ s.slotsOf 0 ∧ (slot0.popped && slot0.summed && slot0.retained) = false ∧
    (∀ h, h < 64 → ∀ b, ((s.hmp h).bank b).st = .free → ((s.hmp h).bank b).slots = []) := by decide +kernel

theorem witness_graceEnd :
    let s := wWdw .grace
    let u := (wWdw .grace).setRegN (aTallyWinCommits 0) 1
    (s.win 0).st = .grace ∧ (s.win 0).summed = false ∧ s.tally.subs = [] ∧ s.slotsOf 0 = [] ∧
    s.regN (aTallyWinCommits 0) < s.releaseThreshold (s.win 0).part ∧ u.slotsOf 0 = [] ∧
    u.releaseThreshold (u.win 0).part ≤ u.regN (aTallyWinCommits 0) ∧ (u.win 0).geo.elem ≤ 3 := by decide +kernel

theorem witness_sliceFail : (wWdw .opn).sliceFailed.testBit 0 = false ∧ ((wWdw .opn).win 0).st.active = true ∧
    ((wWdw .opn).win 0).slices.testBit 0 = true := by decide +kernel

/-- Two shares of the secret 5. -/
def shares0 : Bytes := toLE 4 1 ++ zeros 4 ++ toLE 32 5 ++ toLE 4 2 ++ zeros 4 ++ toLE 32 5

/-- A group of RECOVER_SELF of contributor 1, and one of RECOVER_PAIR of contributor 0 with neighbour 1, whose
public keys are those of the secrets 5 and 1. -/
def selfGroup : Bytes := toLE 4 1 ++ [2, 0, 0, 0] ++ shares0
def pairGroup : Bytes :=
  toLE 4 0 ++ [2, 1, 0, 0] ++ toBE 32 0x2fe57da347cd62431528daac5fbb290730fff684afc4cfc2ed90995f58cb3b74 ++ shares0 ++
    toLE 4 1 ++ zeros 4 ++ toLE 32 9

/-- A template with one neighbour. -/
def geo2 : Geometry := { geo0 with neighbours := 1 }

/-- Window 0 accepts recovery; contributor 1 has committed and contributor 0 has not; the group stands in folio 0. -/
def wRcv (g d : Bytes) : State :=
  { wTal geo2 with
    ops := [runOp d]
    folio := { hoard := Mem.write (Mem.write [] (65536 * 3) g) (65536 * 601 + 8) (toLE 8 (2 * 2 ^ 61))
               hUse := [(3, .folio 0 0)], leaves := [(0, heldLeaf 3)] }
    tally := { wins := [(0, { win0 .recovering geo2 with recFrames := [602], phase := .accepting, hampers := [] })] } }

/-- The descriptor of a recovery operation of one group in folio 0. -/
def recD (oc : Nat) (g : Bytes) : Bytes := mkD oc 7 ([0, 0, 0, 0] ++ toLE 4 1 ++ toLE 8 0 ++ toLE 4 g.length)

theorem witness_recoverSelf :
    let d := recD 0x410 selfGroup
    let s := wRcv selfGroup d
    let x := s.win 0
    s.runningOp 0 7 0x0410 = some (runOp d) ∧ winHandle d = 0 ∧ s.ownsWin 0 0 = true ∧ x.st = .recovering ∧ x.phase = .accepting ∧
    x.geo.elem ≤ 3 ∧ recBodyOk d = true ∧ recSrc d = 0 ∧ recLen d = 88 ∧ recCount d = 1 ∧ s.unranked 0 0 = false ∧ s.discardBefore (runOp d) 0 = false ∧
    (runOp d).progress = 0 ∧ s.tally.groups = [] ∧ s.hasPartKeys 0 = true ∧ (s.freeSlot 0).isSome = true ∧
    s.leaf 0 0 = heldLeaf 3 ∧ Mem.read s.folio.hoard (65536 * 3) (recLen d) = selfGroup ∧ selfGroup.length = groupSize false selfGroup ∧
    (readGroup false selfGroup).ok x.geo = true ∧ (readGroup false selfGroup).contributor = 1 ∧ (s.ledger x 1).state = 2 ∧
    s.recEntry x 1 = (0, false) ∧ (shamir x.geo.shamirT (readGroup false selfGroup).shares).isSome = true ∧
    (∀ e, e < x.geo.length → x.recAddr 1 < x.accAddr e ∨ x.accAddr e + accBytes x.geo.elem ≤ x.recAddr 1) ∧
    s.regN (aTallyRecSelf 0) + 1 < 2 ^ 32 := by decide +kernel

theorem wRcv_apart (g d : Bytes) : ((wRcv g d).win 0).AccApart := by
  have h : ∀ e, e < 2 → ∀ f, f < 2 → e ≠ f → (win0 .opn).accAddr e + 4 ≤ (win0 .opn).accAddr f ∨
      (win0 .opn).accAddr f + 4 ≤ (win0 .opn).accAddr e := by decide +kernel
  exact fun e f he hf => h e he f hf

set_option maxRecDepth 100000 in
theorem witness_recoverPair :
    let d := recD 0x411 pairGroup
    let s := wRcv pairGroup d
    let x := s.win 0
    s.runningOp 0 7 0x0411 = some (runOp d) ∧ winHandle d = 0 ∧ s.ownsWin 0 0 = true ∧ x.st = .recovering ∧ x.phase = .accepting ∧
    x.geo.elem ≤ 3 ∧ s.unranked 0 0 = false ∧ s.discardBefore (runOp d) 0 = false ∧ (runOp d).progress = 0 ∧ s.tally.groups = [] ∧
    s.hasPartKeys 0 = true ∧ (s.freeSlot 0).isSome = true ∧ s.leaf 0 0 = heldLeaf 3 ∧ recBodyOk d = true ∧ recSrc d = 0 ∧ recLen d = 160 ∧ recCount d = 1 ∧
    Mem.read s.folio.hoard (65536 * 3) (recLen d) = pairGroup ∧ pairGroup.length = groupSize true pairGroup ∧
    (readGroup true pairGroup).ok x.geo = true ∧ (readGroup true pairGroup).contributor = 0 ∧ (s.ledger x 0).state ≠ 2 ∧
    s.recEntry x 0 = (0, false) ∧ ((s.setRecEntry x 0 2 false).groupMasks x true (readGroup true pairGroup)).isSome = true ∧
    (∀ e, e < x.geo.length → x.recAddr 0 < x.accAddr e ∨ x.accAddr e + accBytes x.geo.elem ≤ x.recAddr 0) ∧
    s.regN (aTallyRecPair 0) + 1 < 2 ^ 32 := by decide +kernel

theorem witness_recover_conflict :
    let g := toLE 4 0 ++ [2, 0, 0, 0] ++ shares0
    let d := recD 0x410 g
    let s := wRcv g d
    winHandle d = 0 ∧ s.ownsWin 0 0 = true ∧ (s.win 0).st = .recovering ∧ (s.win 0).phase = .accepting ∧ (s.win 0).geo.elem ≤ 3 ∧
    recBodyOk d = true ∧ recSrc d = 0 ∧ recLen d = 88 ∧ recCount d = 1 ∧ s.unranked 0 0 = false ∧ s.discardBefore (runOp d) 0 = false ∧
    (runOp d).progress = 0 ∧ s.tally.groups = [] ∧ s.hasPartKeys 0 = true ∧ s.leaf 0 0 = heldLeaf 3 ∧
    s.runningOp 0 7 0x0410 = some (runOp d) ∧ (s.ledger (s.win 0) 0).state ≠ 2 ∧ (readGroup false g).contributor = 0 ∧
    (readGroup false g).ok (s.win 0).geo = true ∧ g.length = groupSize false g ∧ Mem.read s.folio.hoard (65536 * 3) 88 = g ∧
    s.regN (aTallyRecConflicts 0) + 1 < 2 ^ 32 := by decide +kernel

theorem witness_recover_conflict_pair :
    let g := (pairGroup.set 0 1).set 120 0
    let d := recD 0x411 g
    let s := wRcv g d
    s.runningOp 0 7 0x0411 = some (runOp d) ∧ winHandle d = 0 ∧ recBodyOk d = true ∧ recSrc d = 0 ∧ recLen d = 160 ∧ recCount d = 1 ∧
    (s.ledger (s.win 0) 1).state = 2 ∧ (readGroup true g).contributor = 1 ∧ (readGroup true g).ok (s.win 0).geo = true ∧
    g.length = groupSize true g ∧ Mem.read s.folio.hoard (65536 * 3) 160 = g := by decide +kernel

/-- Window 0 RECOVERING in a sub-state, with one operation. -/
def wRec2 (x : RecPhase) (d : Bytes) : State :=
  { wWdwOp .recovering d with tally := { wins := [(0, { win0 .recovering with phase := x })] } }

theorem witness_recover_refused_waits :
    let d := recD 0x410 selfGroup
    (wRec2 .recovered d).runningOp 0 7 0x0410 = some (runOp d) ∧ ((wRec2 .recovered d).win (winHandle d)).phase = .recovered ∧
    (wRec2 .summing d).runningOp 0 7 0x0410 = some (runOp d) ∧ ((wRec2 .summing d).win (winHandle d)).phase = .summing ∧
    ((wRec2 .summing d).win 0).st = .recovering ∧ ((wRec2 .summing d).win 0).part = 0 ∧ recBodyOk d = true := by decide +kernel

theorem witness_recoverFinish :
    let d := mkD 0x412 7
    let s := wRec2 .accepting d
    let u := s.setRegN (aTallyWinCommits 0) 1
    s.runningOp 0 7 0x0412 = some (runOp d) ∧ winBodyOk d = true ∧ (s.win (winHandle d)).part = 0 ∧ (s.win 0).st = .recovering ∧
    (s.win 0).phase = .accepting ∧ s.recoveringBefore (runOp d) 0 = false ∧
    s.regN (aTallyWinCommits 0) ≤ s.regN (aTallyRecSelf 0) ∧ (s.win 0).geo.releaseDelay = 0 ∧
    u.regN (aTallyRecSelf 0) < u.regN (aTallyWinCommits 0) := by decide +kernel

theorem witness_release :
    let d := mkD 0x413 7
    (wRec2 .recovered d).runningOp 0 7 0x0413 = some (runOp d) ∧ winBodyOk d = true ∧
    ((wRec2 .recovered d).win (winHandle d)).phase = .recovered ∧ ((wRec2 .recovered d).win 0).geo.releaseDelay = 0 ∧
    (wRec2 .accepting d).runningOp 0 7 0x0413 = some (runOp d) ∧ ((wRec2 .accepting d).win (winHandle d)).phase ≠ .recovered := by
  decide +kernel

theorem witness_timedRelease :
    let s : State := wLocked { wWdw .recovering with
      tally := { wins := [(0, { win0 .recovering { geo0 with releaseDelay := 1000 } with phase := .recovered })] } }
    (s.win 0).st = .recovering ∧ (s.win 0).phase = .recovered ∧ (s.win 0).geo.releaseDelay ≠ 0 ∧ (s.win 0).releaseFailed = false ∧
    s.ft.lock ≠ .unlocked ∧
    (s.win 0).closeAt + (s.win 0).geo.releaseDelay ≤ (s.advanceTo ((s.win 0).closeAt + (s.win 0).geo.releaseDelay)).ftNs := by
  decide +kernel

theorem witness_releaseCopyDone :
    let s : State := { wRec2 .releasing [] with folio := { hUse := [(3, .folio 0 0)], leaves := [(0, heldLeaf 3)] } }
    let x := s.win 0
    x.st = .recovering ∧ x.phase = .releasing ∧ x.geo.dest / 65536 = 0 ∧ 1 ≤ x.geo.length ∧
    x.geo.dest + x.geo.length * accBytes x.geo.elem ≤ 65536 * (0 + 1) ∧ s.unranked x.part 0 = false ∧
    s.discardBefore x.writer 0 = false ∧ s.handedOff x.part 0 = false ∧ s.leaf x.part 0 = heldLeaf 3 := by decide +kernel


/-! ### Witnesses: the polynomial engines -/

/-- The body of a polynomial operation. -/
def polyBody (src0 src1 dst key galois slot : Nat) (engine : Nat := 0xFF) : Bytes :=
  toLE 8 src0 ++ toLE 8 src1 ++ toLE 8 dst ++ toLE 8 key ++ toLE 3 galois ++ [0] ++ toLE 1 slot ++ toLE 1 engine ++ toLE 2 0

/-- A parameter slot of partition 0: two data primes and a special one of 1 mod 8,192. -/
def slotW : PolySlot :=
  { fp := 0x77, limbs := 2, specials := 1, refreshLevel := 1, expand := 16, ksAdd := 512, rsFloor := 256, refreshNoise := 300,
    primes := [(1073153, 5129), (1097729, 5137), (1130497, 5148)] }

/-- A ciphertext of the slot with its data at a folio. -/
def ctW (folio polys : Nat) (valid : Bool := true) (fp : Nat := 0x77) : Ct :=
  { fp := fp, data := 65536 * folio, nLog2 := 12, level := 1, polys := polys, valid := valid, eval := true, scale := 7000, noise := 900,
    mag := 2000 }

/-- Folios 0 to 29 of partition 0 held in frames 100 to 129 with a memory of the Hoard, and one operation on engine 0. -/
def wPolyM (o : Op) (x : PolySlot) (m : Tab Byte) : State :=
  { wOp { o with unit := 0 } with
    parts := [(0, { (w0.part 0) with job := some { phases := [{}], he := some [{ fingerprint := 0x77, ceiling := 65535 }] } })]
    poly := [(0, some x)]
    folio := { hoard := m, leaves := (List.range 30).map (fun v => (v, heldLeaf (100 + v))) } }

/-- Three descriptors at the front of folio 0. -/
def ctMem (a b c : Ct) : Tab Byte := Mem.write [] (65536 * 100) (a.bytes ++ b.bytes ++ c.bytes)

/-- The same with three descriptors in folio 0. -/
def wPoly (o : Op) (x : PolySlot) (a b c : Ct) : State := wPolyM o x (ctMem a b c)

/-- The folios of some ranges stand in frames 100 and on, and nothing bars an operation from them. -/
def heldB (s : State) (o : Op) (p : Nat) (rs : List VRange) : Bool :=
  rs.all (fun r => (foliosOf r).all (fun v =>
    !s.unranked p v && !s.discardBefore o v && !s.handedOff p v && s.leaf p v == heldLeaf (100 + v)))

theorem RangesHeld_of_heldB {s : State} {o : Op} {p : Nat} {rs : List VRange} (h : heldB s o p rs = true) : s.RangesHeld o p rs := by
  have hv : ∀ r ∈ rs, ∀ v ∈ foliosOf r, ((s.unranked p v = false ∧ s.discardBefore o v = false) ∧ s.handedOff p v = false) ∧
      s.leaf p v = heldLeaf (100 + v) := by
    intro r hr v hv
    have := List.all_eq_true.1 (List.all_eq_true.1 h r hr) v hv
    simpa only [Bool.and_eq_true, Bool.not_eq_true', beq_iff_eq] using this
  refine ⟨fun r hr v hw => ?_, fun r hr r' hr' v hv' w hw ne => ?_⟩
  · obtain ⟨⟨⟨h1, h2⟩, h3⟩, hl⟩ := hv r hr v hw
    exact ⟨h1, h2, h3, by rw [hl]; rfl, by rw [hl]; rfl, by rw [hl]; simp [heldLeaf]⟩
  · rw [(hv r hr v hv').2, (hv r' hr' w hw).2]
    simp only [heldLeaf]
    omega

/-- The ranges of a ciphertext operation on `wPoly`, sources at folios 1 and 4, the result's limbs at folio 7 and a
plaintext at folio 10. -/
def ctRanges (src1 : Nat) (r : PolyRule) (polys srcPolys L : Nat) : List VRange :=
  [(0, 64), (128, 64)] ++ (if r.two then [(src1, 64)] else []) ++ (List.range 2).map (ctRange 65536 4096 srcPolys) ++
    (if r.two then (List.range 2).map (ctRange (4 * 65536) 4096 2) else []) ++
    (if r.plain then (List.range 2).map (fun k => (src1 + k * 4096 * 8, 8 * 4096)) else []) ++
    (List.range (L + 1)).map (ctRange (7 * 65536) 4096 polys)

/-- A ciphertext operation whose operands pass every check. -/
def CtReady (oc src1 polys L : Nat) (r : PolyRule) (N : Int) : Prop :=
  let d := mkD oc 7 (polyBody 0 src1 128 0 0 0)
  let s := wPoly (runOp d) slotW (ctW 1 2) (ctW 4 2) (ctW 7 2)
  let o := { runOp d with unit := 0 }
  let a := readCt (s.readVa 0 (polySrc0 d) 64)
  let b := if r.two then readCt (s.readVa 0 (polySrc1 d) 64) else a
  s.runningOp 0 7 oc = some o ∧ polyBodyOk d r = true ∧ a = ctW 1 2 ∧ (r.two = true → b = ctW 4 2) ∧
  le (s.readVa 0 (polyDst d) 64) 8 8 = 7 * 65536 ∧ r.fits a b = true ∧ (match s.polyAccess o true with | .ok y => y == slotW | _ => false) = true ∧
  rangeOk (7 * 65536, 24 * slotW.limbs * slotW.n) = true ∧ sat88 N ≤ s.noiseCeiling slotW ∧ (r.ranges d slotW a b).all rangeOk = true ∧
  heldB s { runOp d with unit := 0 } 0 (ctRanges src1 r polys 2 L) = true

theorem witness_ciphertext :
    CtReady 0x510 64 2 1 (addRule limbAdd) 1156 ∧ CtReady 0x511 64 2 1 (addRule limbSub) 1156 ∧
    CtReady 0x512 655360 2 1 (ptAddRule 0) 1156 ∧ CtReady 0x513 655360 2 1 (ptMulRule 0 0) 916 ∧
    CtReady 0x514 64 3 1 ctMulRule 3172 ∧ CtReady 0x517 0 2 0 rescaleRule 512 ∧ CtReady 0x518 0 2 0 modDropRule 900 ∧
    CtReady 0x520 0 2 1 (nttRule true) 900 ∧ CtReady 0x521 0 2 1 (nttRule false) 900 := by
  refine ⟨?_, ?_, ?_, ?_, ?_, ?_, ?_, ?_, ?_⟩ <;> (unfold CtReady; decide +kernel)

theorem witness_ciphertext_slot : (ctW 1 2).clean = true ∧ (ctW 1 2).valid = true ∧ (ctW 1 2).fp = slotW.fp ∧
    (ctW 1 2).nLog2 = slotW.nLog2 ∧ (ctW 1 2).level < slotW.limbs ∧ 12 ≤ slotW.nLog2 ∧
    (∀ k, k ≤ (ctW 1 2).level → 0 < slotW.prime k ∧ slotW.prime k < 2 ^ 60) ∧ 128 + 64 ≤ 7 * 65536 := by
  refine ⟨rfl, rfl, rfl, rfl, by decide, by decide, fun k hk => ?_, by decide⟩
  have : k = 0 ∨ k = 1 := by
    have : (ctW 1 2).level = 1 := rfl
    omega
  rcases this with rfl | rfl <;> decide

/-- A source that is not valid, and one of another key set. -/
theorem witness_turned_away :
    (let d := mkD 0x510 7 (polyBody 0 64 128 0 0 0)
     let s := wPoly (runOp d) slotW (ctW 1 2 false) (ctW 4 2) (ctW 7 2)
     s.runningOp 0 7 0x510 = some { runOp d with unit := 0 } ∧ readCt (s.readVa 0 0 64) = ctW 1 2 false ∧
     (addRule limbAdd).fits (ctW 1 2 false) (ctW 4 2) = true ∧ heldB s { runOp d with unit := 0 } 0 [(0, 64), (128, 64), (64, 64)] = true) ∧
    (let d := mkD 0x510 7 (polyBody 0 64 128 0 0 0)
     let s := wPoly (runOp d) slotW (ctW 1 2 true 5) (ctW 4 2) (ctW 7 2)
     readCt (s.readVa 0 0 64) = ctW 1 2 true 5 ∧ (5 : Nat) ≠ slotW.fp ∧
     (match s.polyAccess { runOp d with unit := 0 } true with | .ok y => y == slotW | _ => false) = true) := by
  decide +kernel


/-- Bytes that stand in one folio of `wPolyM`. -/
theorem readVa_wPolyM (o : Op) (x : PolySlot) (m : Tab Byte) (v off n : Nat) (hv : v < 30) (hn : 0 < n) (ho : off + n ≤ 65536) :
    (wPolyM o x m).readVa 0 (65536 * v + off) n = Mem.read m (65536 * (100 + v) + off) n := by
  have hl : (wPolyM o x m).leaf 0 v = heldLeaf (100 + v) := by
    have : ∀ v, v < 30 → Tab.look (fun _ => ({} : Leaf)) ((List.range 30).map (fun v => (v, heldLeaf (100 + v)))) (leafKey 0 v) =
      heldLeaf (100 + v) := by decide +kernel
    exact this v hv
  have hd : (65536 * v + off) / 65536 = v := by omega
  have hm : (65536 * v + off) % 65536 = off := by omega
  have hk : min n (65536 - off) = n := by omega
  simp only [State.readVa, State.readVaN, if_neg (Nat.pos_iff_ne_zero.1 hn), hd, hm, hk, Nat.sub_self, if_pos, List.append_nil, State.folioRead, hl]
  simp [heldLeaf, wPolyM]

/-- Block `k` of a key stream of zeros, with its index and CRC (12 R508, R510). -/
def keyBlock (k : Nat) : Bytes :=
  let b := zeros 4088 ++ toLE 4 k
  b ++ toLE 4 (crc32c b).toNat

/-- `n` blocks of a key from frame 112 on. -/
def keyMem (m : Tab Byte) : Nat → Tab Byte
  | 0 => m
  | k + 1 => Mem.write (keyMem m k) (65536 * 112 + 4096 * k) (keyBlock k)

theorem toLE_length (n x : Nat) : (toLE n x).length = n := by
  induction n generalizing x with
  | zero => rfl
  | succ n ih => simp [toLE, ih]

theorem zeros_length (n : Nat) : (zeros n).length = n := List.length_replicate

theorem keyBlock_length (k : Nat) : (keyBlock k).length = 4096 := by
  simp only [keyBlock, List.length_append, zeros_length, toLE_length]

theorem Mem.read_eq {m m' : Tab Byte} {a n : Nat} (h : ∀ x, a ≤ x → x < a + n → Mem.get m x = Mem.get m' x) : Mem.read m a n = Mem.read m' a n := by
  unfold Mem.read
  apply List.map_congr_left
  intro i hi
  exact h _ (by omega) (by simp at hi; omega)

theorem keyMem_read (m : Tab Byte) (k n : Nat) (h : k < n) : Mem.read (keyMem m n) (65536 * 112 + 4096 * k) 4096 = keyBlock k := by
  induction n with
  | zero => omega
  | succ n ih =>
    by_cases e : k = n
    · subst e
      have := Mem.read_write (keyBlock k) (keyMem m k) (65536 * 112 + 4096 * k)
      rwa [keyBlock_length] at this
    · rw [← ih (by omega)]
      exact Mem.read_eq (fun x h1 h2 => Mem.get_write_other _ _ _ _ (by rw [keyBlock_length]; omega))

theorem keyMem_read_below (m : Tab Byte) (a c n : Nat) (h : a + c ≤ 65536 * 112) : Mem.read (keyMem m n) a c = Mem.read m a c := by
  induction n with
  | zero => rfl
  | succ n ih =>
    rw [← ih]
    exact Mem.read_eq (fun x h1 h2 => Mem.get_write_other _ _ _ _ (by omega))

theorem leNat_toLE (n x : Nat) (h : x < 256 ^ n) : leNat (toLE n x) = x := by
  induction n generalizing x with
  | zero => simp at h; subst h; rfl
  | succ n ih =>
    have : x / 256 < 256 ^ n := Nat.div_lt_of_lt_mul (by rw [Nat.pow_succ] at h; omega)
    simp only [toLE, leNat, ih _ this, BitVec.toNat_ofNat]
    omega

theorem keyBlock_good (k : Nat) (h : k < 49) : le (keyBlock k) 4088 4 = k ∧ le (keyBlock k) 4092 4 = (crc32c ((keyBlock k).take 4092)).toNat := by
  have hl : (zeros 4088 ++ toLE 4 k).length = 4092 := by simp only [List.length_append, zeros_length, toLE_length]
  have ht : (keyBlock k).take 4092 = zeros 4088 ++ toLE 4 k := by
    simp only [keyBlock]
    rw [List.take_append_of_le_length (by omega), List.take_of_length_le (by omega)]
  refine ⟨?_, ?_⟩
  · have : slice (keyBlock k) 4088 4 = toLE 4 k := by
      simp only [slice, keyBlock, List.append_assoc]
      rw [List.drop_append_of_le_length (by simp only [zeros_length, Nat.le_refl]), List.drop_of_length_le (by simp only [zeros_length, Nat.le_refl]), List.nil_append,
        List.take_append_of_le_length (by simp only [toLE_length, Nat.le_refl]), List.take_of_length_le (by simp only [toLE_length, Nat.le_refl])]
    rw [le, this, leNat_toLE _ _ (by omega)]
  · have : slice (keyBlock k) 4092 4 = toLE 4 (crc32c (zeros 4088 ++ toLE 4 k)).toNat := by
      simp only [slice, keyBlock]
      rw [List.drop_append_of_le_length (by omega), List.drop_of_length_le (by omega), List.nil_append,
        List.take_of_length_le (by simp only [toLE_length, Nat.le_refl])]
    rw [le, this, ht, leNat_toLE _ _ (by simpa using (crc32c (zeros 4088 ++ toLE 4 k)).isLt)]

/-- The header of a key of the slot (12 R508). -/
def keyHead (g : Nat) : Bytes :=
  let b := [0x47, 0x4B, 0x45, 0x4B] ++ toLE 4 49 ++ toLE 8 0x77 ++ toLE 4 g ++ [12, 3, 1, 0]
  b ++ toLE 4 (crc32c b).toNat ++ zeros 36

/-- Two descriptors, a key's header at the end of frame 111 and its blocks from frame 112. -/
def wKey (o : Op) (a c : Ct) (g : Nat) : State :=
  wPolyM o slotW (keyMem (Mem.write (ctMem a c c) (65536 * 112 - 64) (keyHead g)) 49)

theorem wKey_badBlock (o : Op) (a c : Ct) (g : Nat) : (wKey o a c g).badBlock 0 (65536 * 12 - 64) slotW.keyBlocks = none := by
  have hk : slotW.keyBlocks = 49 := by decide +kernel
  rw [hk]
  simp only [State.badBlock, List.find?_eq_none, List.mem_range]
  intro k hk
  have e : 65536 * 12 - 64 + 64 + 4096 * k = 65536 * (12 + k / 16) + 4096 * (k % 16) := by omega
  have hr : (wKey o a c g).readVa 0 (65536 * 12 - 64 + 64 + 4096 * k) 4096 = keyBlock k := by
    rw [e]
    unfold wKey
    rw [readVa_wPolyM _ _ _ _ _ _ (by omega) (by omega) (by omega)]
    have : 65536 * (100 + (12 + k / 16)) + 4096 * (k % 16) = 65536 * 112 + 4096 * k := by omega
    rw [this]
    exact keyMem_read _ _ _ hk
  rw [hr]
  simp [(keyBlock_good k hk).1, (keyBlock_good k hk).2]

theorem wKey_head (o : Op) (a c : Ct) (g : Nat) : (wKey o a c g).readVa 0 (65536 * 12 - 64) 64 = keyHead g := by
  have : 65536 * 12 - 64 = 65536 * 11 + 65472 := by omega
  rw [this]
  unfold wKey
  rw [readVa_wPolyM _ _ _ _ _ _ (by omega) (by omega) (by omega), keyMem_read_below _ _ _ _ (by omega)]
  have hl : (keyHead g).length = 64 := by simp only [keyHead, List.length_append, zeros_length, toLE_length, List.length_cons, List.length_nil]
  have hw := Mem.read_write (keyHead g) (ctMem a c c) (65536 * 112 - 64)
  rwa [hl] at hw

theorem wKey_desc (o : Op) (a c : Ct) (g off : Nat) (h : off + 64 ≤ 192) :
    (wKey o a c g).readVa 0 off 64 = Mem.read (ctMem a c c) (65536 * 100 + off) 64 := by
  have : off = 65536 * 0 + off := by omega
  rw [this]
  unfold wKey
  rw [readVa_wPolyM _ _ _ _ _ _ (by omega) (by omega) (by omega), keyMem_read_below _ _ _ _ (by omega)]
  have hl : (keyHead g).length = 64 := by simp only [keyHead, List.length_append, zeros_length, toLE_length, List.length_cons, List.length_nil]
  simp only [Nat.mul_zero, Nat.add_zero, Nat.zero_add]
  exact Mem.read_eq (fun x h1 h2 => Mem.get_write_other _ _ _ _ (by omega))

/-- The hypotheses of a key switch, on a key of element `g`. -/
def KeyReady (oc g polys : Nat) (r : PolyRule) : Prop :=
  let d := mkD oc 7 (polyBody 0 0 128 (65536 * 12 - 64) (if oc = 0x516 then g else 0) 0)
  let s := wKey (runOp d) (ctW 1 polys) (ctW 7 2) g
  s.runningOp 0 7 oc = some { runOp d with unit := 0 } ∧ polyBodyOk d r = true ∧ polyKey d = 65536 * 12 - 64 ∧
  readCt (Mem.read (ctMem (ctW 1 polys) (ctW 7 2) (ctW 7 2)) (65536 * 100 + 0) 64) = ctW 1 polys ∧
  le (Mem.read (ctMem (ctW 1 polys) (ctW 7 2) (ctW 7 2)) (65536 * 100 + 128) 64) 8 8 = 7 * 65536 ∧
  (match s.polyAccess { runOp d with unit := 0 } true with | .ok y => y == slotW | _ => false) = true ∧ slotW.specials ≠ 0 ∧ g < 2 * slotW.n ∧
  slotW.workFrames = 0 ∧ keyHeadFault slotW (some g) (keyHead g) = none ∧ s.noiseCeiling slotW = 65535 ∧
  (r.ranges d slotW (ctW 1 polys) (ctW 1 polys)).all rangeOk = true ∧ rangeOk (7 * 65536, 24 * slotW.limbs * slotW.n) = true ∧
  heldB s { runOp d with unit := 0 } 0 ([(0, 64), (128, 64), (polyKey d, 64 + 4096 * slotW.keyBlocks)] ++ (List.range 2).map (ctRange 65536 4096 polys) ++
    (List.range 2).map (ctRange (7 * 65536) 4096 2)) = true

theorem witness_key_switch : KeyReady 0x515 0 3 relinRule ∧ KeyReady 0x516 5 2 (rotateRule 5) := by
  refine ⟨?_, ?_⟩ <;> (unfold KeyReady; decide +kernel)


/-- A parameter block of one data prime (12 R493, R495): LOG2Q is 256 times log2 of the prime, rounded up. -/
def paramBlock : Bytes :=
  [0x47, 0x4B, 0x50, 0x42] ++ [12, 1, 0, 1, 0, 0] ++ toLE 2 16 ++ toLE 2 512 ++ toLE 2 256 ++ toLE 2 300 ++ zeros 14 ++
    toLE 8 1073153 ++ toLE 2 5129 ++ zeros 6

/-- The slot that the block gives, with a public parameter string of four bytes. -/
def paramSlot : PolySlot :=
  { fp := leNat ((sha256 (paramBlock ++ [1, 2, 3, 4])).take 8), expand := 16, ksAdd := 512, rsFloor := 256, refreshNoise := 300,
    primes := [(1073153, 5129)] }

/-- The block at folio 1 and the public string at folio 2, and a policy for their key set. -/
def wParam (d : Bytes) (poly : Tab (Option PolySlot)) : State :=
  { wPolyM (runOp d) {} (Mem.write (Mem.write [] (65536 * 101) paramBlock) (65536 * 102) [1, 2, 3, 4]) with
    poly := poly
    parts := [(0, { (w0.part 0) with job := some { phases := [{}], he := some [{ fingerprint := paramSlot.fp, ceiling := 65535 }] } })] }

set_option maxRecDepth 100000 in
theorem witness_param_load :
    let d := mkD 0x500 7 (toLE 8 65536 ++ toLE 8 131072 ++ toLE 8 4 ++ zeros 13 ++ [0xFF])
    let s := wParam d []
    s.runningOp 0 7 0x500 = some { runOp d with unit := 0 } ∧ paramPubLen d = 4 ∧ paramAddr d = 65536 ∧ paramPub d = 131072 ∧
    allZero (slice d 0x30 12) = true ∧ le d 0x3C 1 = 0 ∧ polyEngine d = 0xFF ∧
    (match s.polyAccess { runOp d with unit := 0 } false with | .ok y => y == {} | _ => false) = true ∧
    32 + 16 * (min (byteAt (s.readVa 0 (paramAddr d) 32) 5).toNat 64 + min (byteAt (s.readVa 0 (paramAddr d) 32) 6).toNat 16) = 48 ∧
    heldB s { runOp d with unit := 0 } 0 [(65536, 48), (131072, 4)] = true ∧ s.readVa 0 65536 48 = paramBlock ∧ s.readVa 0 131072 4 = [1, 2, 3, 4] ∧
    readParams 0 paramBlock = some { paramSlot with fp := 0 } ∧ primeBad paramSlot paramBlock 0 = false := by decide +kernel

set_option maxRecDepth 100000 in
theorem witness_param_policy :
    let s := fun poly => wParam (mkD 0x500 7) poly
    (s []).heEntry 0 paramSlot.fp ≠ none ∧ (s []).pslot 0 = none ∧
    (s [(3, some paramSlot)]).poly.filter (fun e => match e.2 with | some y => y.part == 0 | none => false) = [(3, some paramSlot)] := by
  decide +kernel

theorem witness_param_drop :
    let d := mkD 0x501 7 (zeros 37 ++ [0xFF])
    let s := wPolyM (runOp d) slotW []
    s.runningOp 0 7 0x501 = some { runOp d with unit := 0 } ∧ allZero (slice d 0x18 36) = true ∧ le d 0x3C 1 < 64 ∧ polyEngine d = 0xFF ∧
    (match s.polyAccess { runOp d with unit := 0 } true with | .ok y => y == slotW | _ => false) = true ∧
    s.slotUsed { runOp d with unit := 0 } = false := by decide +kernel

/-- A key's header at folio 1, of the slot's key set or of another. -/
theorem witness_key_bind :
    let d := mkD 0x502 7 (polyBody 0 0 0 65536 0 0)
    let b := Mem.write [] (65536 * 101) (keyHead 5)
    let s := wPolyM (runOp d) slotW b
    let u := wPolyM (runOp d) { slotW with fp := 0x78 } b
    s.runningOp 0 7 0x502 = some { runOp d with unit := 0 } ∧ polySrc0 d = 0 ∧ polySrc1 d = 0 ∧ polyDst d = 0 ∧ polyGalois d = 0 ∧
    le d 0x3C 1 < 64 ∧ polyEngine d = 0xFF ∧ rangeOk (polyKey d, 64) = true ∧
    (match s.polyAccess { runOp d with unit := 0 } true with | .ok y => y == slotW | _ => false) = true ∧
    heldB s { runOp d with unit := 0 } 0 [(polyKey d, 64)] = true ∧ s.readVa 0 (polyKey d) 64 = keyHead 5 ∧ keyHeadFault slotW none (keyHead 5) = none ∧
    slotW.binds = [] ∧ (match u.polyAccess { runOp d with unit := 0 } true with | .ok y => y.fp == 0x78 | _ => false) = true ∧
    heldB u { runOp d with unit := 0 } 0 [(polyKey d, 64)] = true ∧ u.readVa 0 (polyKey d) 64 = keyHead 5 ∧ le (keyHead 5) 8 8 ≠ 0x78 := by decide +kernel

/-- A package whose partition has cores on engines 0 and 1, with an operation placed on engine 0. -/
def wEngine : State :=
  { wPolyM (runOp (mkD 0x520 7 (polyBody 0 0 128 0 0 0))) slotW [] with
    dev := some { parts := [{ func := 1, coreMask := 0x101, folioFrames := 16, lpddrGib := 1, portMask := 1 }] } }

theorem witness_engine_fail :
    wEngine.polyFailed.testBit 0 = false ∧ (∀ o ∈ wEngine.ops, o.unit ≠ 3 ∧ isPolyOp (dOpcode o.desc) = true ∧ o.unit = 0 ∧ o.stage = .running) ∧
    wEngine.ops.length = 1 ∧ ({ wEngine with polyFailed := 1 } : State).polyUnit 0 (mkD 0x520 7 (polyBody 0 0 128 0 0 0)) = 1 ∧
    1 ∈ ({ wEngine with polyFailed := 1 } : State).clustersOf 0 := by decide +kernel

/-- Three arrays of two limbs at folios 10, 12 and 14, and a descriptor whose data stand at folio 7. -/
theorem witness_muladd :
    let d := mkD 0x530 7 (polyBody (65536 * 10) (65536 * 12) 128 (65536 * 14) 0 0)
    let s := wPoly (runOp d) slotW (ctW 1 2) (ctW 4 2) (ctW 7 2)
    let rows := fun y => (List.range 2).map (fun k => (y + k * slotW.n * 8, 8 * slotW.n))
    s.runningOp 0 7 0x530 = some { runOp d with unit := 0 } ∧ polyDst d = 128 ∧ le d 0x3C 1 < 64 ∧ polyEngine d = 0xFF ∧
    polyGalois d = 0 ∧ le (s.readVa 0 128 64) 0x11 1 = 1 ∧ le (s.readVa 0 128 64) 8 8 = 65536 * 7 ∧
    (match s.polyAccess { runOp d with unit := 0 } true with | .ok y => y == slotW | _ => false) = true ∧
    (∀ y ∈ [polySrc0 d, polySrc1 d, polyKey d, 65536 * 7], (rows y).all rangeOk = true) ∧
    heldB s { runOp d with unit := 0 } 0 ((128, 64) :: (rows (polySrc0 d) ++ rows (polySrc1 d) ++ rows (polyKey d) ++ rows (65536 * 7))) = true := by decide +kernel

/-- A refresh by a library macro that lists no key: which keys it lists the manual leaves open (log entry 57). -/
theorem witness_macro (h : Config.macroKeys 1 12 = []) :
    let d := mkD 0x540 7 (polyBody 0 0 128 0 1 0)
    let s := wPoly (runOp d) slotW (ctW 1 2) (ctW 4 2) (ctW 7 2)
    s.runningOp 0 7 0x540 = some { runOp d with unit := 0 } ∧ polyGalois d = 1 ∧ (s.part 0).paused = false ∧ (s.part 0).ph = .opn ∧
    ((ctW 1 2).ranges slotW.n).all rangeOk = true ∧ slotW.limbs ≤ 64 ∧ slotW.refreshNoise < 65536 ∧ polyEngine d = 0xFF ∧
    polySrc0 d = 0 ∧ polyDst d = 128 ∧ le d 0x3C 1 < 64 ∧ readCt (s.readVa 0 0 64) = ctW 1 2 ∧
    le (s.readVa 0 128 64) 8 8 = 65536 * 7 ∧
    (match s.polyAccess { runOp d with unit := 0 } true with | .ok y => y == slotW | _ => false) = true ∧
    slotW.refreshLevel < slotW.limbs ∧ slotW.refreshNoise ≤ s.noiseCeiling slotW ∧
    heldB s { runOp d with unit := 0 } 0 ([(0, 64), (128, 64)] ++ (List.range 2).map (ctRange 65536 4096 2) ++ (List.range 2).map (ctRange (65536 * 7) 4096 2)) = true ∧
    s.macroKeyFault slotW 1 = none ∧ slotW.macroRanges 1 = [] := by
  iterate 17 refine ⟨by decide +kernel, ?_⟩
  refine ⟨?_, ?_⟩
  · have : slotW.nLog2 = 12 := rfl
    simp [State.macroKeyFault, this, h]
  · have : slotW.nLog2 = 12 := rfl
    simp [PolySlot.macroRanges, this, h]


/-! ### Witnesses: the links -/

/-- What the IP and UDP layers give for a frame that follows the destination MAC `t`, the MAC left aside. -/
def rxTail (ent : PortEnt) (t : Bytes) : Option RxUdp :=
  let e : RxEth := { src := slice t 0 6, ethertype := be t 10 2, body := t.drop 12 }
  match rxIp ent e with
  | none => none
  | some (src, proto, _, b) =>
    let n := be b 4 2
    if proto ≠ 17 ∨ n < 8 ∨ b.length < n ∨ be b 6 2 = 0 ∨ (!ent.ipv4 ∧ slice e.body 24 16 ≠ ent.address) ∨
        onesSum (pseudoHead ent.ipv4 src ent.address 17 n ++ b.take n) ≠ 65535 then none
    else some { addr := src, srcPort := be b 0 2, dstPort := be b 2 2, body := slice b 8 (n - 8) }

theorem portMac_length (i : Nat) : (portMac i).length = 6 := by
  simp only [portMac, toBE, List.length_reverse, toLE_length]

/-- The tag of the frame that follows the MAC is the port's. -/
def tagOk (ent : PortEnt) (t : Bytes) : Bool :=
  decide (12 ≤ t.length) && decide (t.length + 10 ≤ 9216) && be t 6 2 == 0x8100 && be t 8 2 % 4096 == ent.vid &&
    be t 10 2 != 0x8100 && be t 10 2 != 0x88A8

theorem slice_mac (i o n : Nat) (t : Bytes) (h : 6 ≤ o) : slice (portMac i ++ t) o n = slice t (o - 6) n := by
  simp only [slice]
  rw [List.drop_append, List.drop_of_length_le (by rw [portMac_length]; omega), portMac_length, List.nil_append]

theorem take_fcs (g : Bytes) : (withFcs g).take ((withFcs g).length - 4) = g ∧ (withFcs g).drop ((withFcs g).length - 4) = toLE 4 (crc32 g).toNat := by
  have h : (withFcs g).length - 4 = g.length := by simp only [withFcs, List.length_append, toLE_length]; omega
  rw [h]
  simp only [withFcs]
  exact ⟨List.take_left' rfl, List.drop_left' rfl⟩

theorem rxEth_mac {ent : PortEnt} {i : Nat} {t : Bytes} (h : tagOk ent t = true) : rxEth ent (withFcs (portMac i ++ t)) =
    some { src := slice t 0 6, dst := portMac i, ethertype := be t 10 2, body := t.drop 12 } := by
  simp only [tagOk, Bool.and_eq_true, decide_eq_true_eq, beq_iff_eq, bne_iff_ne] at h
  obtain ⟨⟨⟨⟨⟨h1, h2⟩, h3⟩, h4⟩, h5⟩, h6⟩ := h
  have e : ∀ o n, 6 ≤ o → be (portMac i ++ t) o n = be t (o - 6) n := fun o n ho => by simp only [be, slice_mac _ _ _ _ ho]
  have hl : (portMac i ++ t).length = 6 + t.length := by rw [List.length_append, portMac_length]
  simp only [rxEth, (take_fcs _).1, e 16 2 (by omega), e 12 2 (by omega), e 14 2 (by omega), hl, h3, h4]
  rw [if_neg (by simp only [not_or]; exact ⟨by omega, by simp, by simp, h5, h6⟩)]
  have d1 : slice (portMac i ++ t) 0 6 = portMac i := by
    simp only [slice, List.drop_zero]
    rw [List.take_left' (portMac_length i)]
  have d2 : slice (portMac i ++ t) 6 6 = slice t 0 6 := slice_mac _ _ _ _ (by omega)
  have d3 : (portMac i ++ t).drop 18 = t.drop 12 := by
    rw [List.drop_append, List.drop_of_length_le (by rw [portMac_length]; omega), portMac_length, List.nil_append]
  rw [d1, d2, d3]

theorem fcsOk_mac {ent : PortEnt} {i : Nat} {t : Bytes} (h : tagOk ent t = true) : fcsOk (withFcs (portMac i ++ t)) = true := by
  simp only [tagOk, Bool.and_eq_true, decide_eq_true_eq] at h
  have hl : (withFcs (portMac i ++ t)).length = 10 + t.length := by
    simp only [withFcs, List.length_append, toLE_length, portMac_length]; omega
  have e := take_fcs (portMac i ++ t)
  simp only [fcsOk, hl] at e ⊢
  simp only [e.1, e.2, beq_self_eq_true, Bool.and_true, Bool.and_eq_true, decide_eq_true_eq]
  omega

theorem rxFrame_mac {s : State} {port : Nat} {ent : PortEnt} {t : Bytes} {u : RxUdp} {h : Ryt} (hp : s.portEnt port = some ent)
    (hup : (s.port port).up = true) (hr : s.restarting = false) (ht : tagOk ent t = true) (hu : rxTail ent t = some u)
    (hd : u.dstPort = s.plan.udpPort) (hh : readRyt u.body = some h) (hj : ¬0xB ≤ h.type) :
    s.rxFrame port (withFcs (portMac port ++ t)) = .ryt (s.countUp (aRytPortRxFrames port) 1) u h := by
  have hx : rxUdp port ent { src := slice t 0 6, dst := portMac port, ethertype := be t 10 2, body := t.drop 12 } = some u := by
    rw [← hu]
    have : rxIp ent { src := slice t 0 6, dst := portMac port, ethertype := be t 10 2, body := t.drop 12 } =
      rxIp ent { src := slice t 0 6, ethertype := be t 10 2, body := t.drop 12 } := rfl
    simp only [rxUdp, rxTail, this]
    cases hx : rxIp ent { src := slice t 0 6, ethertype := be t 10 2, body := t.drop 12 } with
    | none => rfl
    | some x => simp
  simp only [State.rxFrame, hp, hup, hr, fcsOk_mac ht, rxEth_mac ht, Option.bind_some, hx]
  simp [hd, hh, hj]

/-- The address plan of the port: IPv4 10.0.0.1 on VLAN 7. -/
def ent0 : PortEnt := { vid := 7, enable := true, ipv4 := true, address := zeros 12 ++ [10, 0, 0, 1], nextHop := zeros 12 ++ [10, 0, 0, 9] }

/-- A peer at 10.0.0.2, a package or a relay. -/
def peer3 (role : Nat) : Peer := { index := 3, role := role, rank := 1, port := 0, address := zeros 12 ++ [10, 0, 0, 2], udp := 0x4759 }

/-- An admitted job with peer 3, port 0 up and folio 0 held: `k` is 0, or 1 where the peer is a relay, 2 where phase 1 is in
force, 3 where five frames have come, 4 where folio 0 is being pulled from the peer and 5 where it is being fetched from it. -/
def wLink (k : Nat) : State :=
  { wIngest with
    ops := []
    dev := wIngest.dev.map (fun d => { d with parts := d.parts.map (fun x => { x with portMask := 15 }), plan := { ports := [ent0] } })
    parts := [(0, { (wIngest.part 0) with
      phase := if k = 2 then 1 else 0
      adm := { st := .admitted, peers := [{ index := 0, role := 0 }, peer3 (if k = 1 then 1 else 0)] } })]
    ports := [(0, { up := true, lanes := 4, nextMac := some [2, 0, 0, 0, 0, 9] })]
    links := [(3, { rxNext := if k = 3 then 5 else 0 })]
    folio := {
      leaves := [(0, if k = 5 then { cls := .peer, state := .moving } else heldLeaf 100)]
      moves := if k = 4 then [{ kind := .pull, dest := 100, flow := 6, peer := 3 }]
        else if k = 5 then [{ kind := .fetch, dest := 100, flow := 6, peer := 3 }] else [] } }

/-- The frame of what follows its destination MAC. -/
def rxF (t : Bytes) : Bytes := withFcs (portMac 0 ++ t)

/-- A header of peer 3, as it was sent. -/
def hd (type : Nat) (ackValid : Bool := false) : Ryt := { type := type, job := 1, flow := 6, peer := 3, ackValid := ackValid, credit := 5 }

/-- Key and SALT of the stream from peer 3. -/
def streamKey : Bytes × Bytes :=
  ([44, 4, 185, 151, 24, 13, 55, 216, 178, 164, 181, 0, 250, 8, 49, 2, 23, 241, 245, 78, 95, 189, 15, 4, 58, 221, 66, 179, 22, 196, 142,
    136], [161, 34, 60, 19, 101, 254, 85])

/-- The bytes after the MAC of a FETCH of parts 2 to 4 of folio 0. -/
def frFetch : Bytes :=
  [2, 0, 0, 0, 0, 2, 129, 0, 0, 7, 8, 0, 69, 0, 0, 92, 0, 0, 64, 0, 64, 17, 38, 143, 10, 0, 0, 2, 10, 0, 0, 1, 71, 89,
    71, 89, 0, 72, 73, 117, 18, 0, 0, 1, 0, 6, 0, 3, 0, 0, 0, 0, 0, 0, 0, 0, 0, 0, 0, 0, 0, 0, 0, 5, 0, 0, 0, 0, 0, 0, 0,
    0, 85, 189, 180, 99, 143, 20, 51, 44, 196, 181, 154, 8, 21, 224, 143, 247, 57, 231, 8, 151, 83, 44, 131, 188, 132, 47,
    204, 243, 221, 153, 232, 8]

/-- The bytes after the MAC of a PULL_REQ of folio 0 for phase 0. -/
def frPull : Bytes :=
  [2, 0, 0, 0, 0, 2, 129, 0, 0, 7, 8, 0, 69, 0, 0, 92, 0, 0, 64, 0, 64, 17, 38, 143, 10, 0, 0, 2, 10, 0, 0, 1, 71, 89,
    71, 89, 0, 72, 108, 192, 20, 0, 0, 1, 0, 6, 0, 3, 0, 0, 0, 0, 0, 0, 0, 0, 0, 0, 0, 0, 0, 0, 0, 5, 0, 0, 0, 0, 0, 0, 0,
    0, 85, 189, 180, 99, 143, 20, 51, 44, 198, 182, 154, 8, 21, 224, 143, 247, 77, 252, 37, 230, 14, 234, 171, 124, 246,
    176, 126, 120, 87, 81, 14, 29]

/-- The bytes after the MAC of a CONFIRM of folio 0. -/
def frConfirm : Bytes :=
  [2, 0, 0, 0, 0, 2, 129, 0, 0, 7, 8, 0, 69, 0, 0, 92, 0, 0, 64, 0, 64, 17, 38, 143, 10, 0, 0, 2, 10, 0, 0, 1, 71, 89,
    71, 89, 0, 72, 102, 68, 20, 0, 0, 1, 0, 6, 0, 3, 0, 0, 0, 0, 0, 0, 0, 0, 0, 0, 0, 0, 0, 0, 0, 5, 0, 0, 0, 0, 0, 0, 0,
    0, 85, 189, 180, 99, 143, 20, 51, 44, 199, 182, 154, 8, 21, 224, 143, 247, 128, 242, 121, 65, 89, 191, 56, 21, 48,
    223, 64, 229, 105, 118, 167, 25]

/-- The bytes after the MAC of a REFUSE of folio 0. -/
def frRefuse : Bytes :=
  [2, 0, 0, 0, 0, 2, 129, 0, 0, 7, 8, 0, 69, 0, 0, 92, 0, 0, 64, 0, 64, 17, 38, 143, 10, 0, 0, 2, 10, 0, 0, 1, 71, 89,
    71, 89, 0, 72, 146, 68, 20, 0, 0, 1, 0, 6, 0, 3, 0, 0, 0, 0, 0, 0, 0, 0, 0, 0, 0, 0, 0, 0, 0, 5, 0, 0, 0, 0, 0, 0, 0,
    0, 85, 189, 180, 99, 143, 20, 51, 44, 196, 182, 154, 8, 21, 224, 143, 247, 21, 224, 156, 168, 160, 65, 141, 175, 122,
    110, 3, 66, 43, 30, 92, 20]

/-- The bytes after the MAC of a ACK of frames below 0. -/
def frAck : Bytes :=
  [2, 0, 0, 0, 0, 2, 129, 0, 0, 7, 8, 0, 69, 0, 0, 92, 0, 0, 64, 0, 64, 17, 38, 143, 10, 0, 0, 2, 10, 0, 0, 1, 71, 89,
    71, 89, 0, 72, 15, 200, 16, 0, 0, 1, 0, 6, 0, 3, 0, 0, 0, 0, 0, 0, 0, 0, 0, 0, 0, 0, 0, 16, 0, 5, 0, 0, 0, 0, 0, 0, 0,
    0, 85, 189, 180, 99, 143, 20, 51, 44, 198, 182, 154, 8, 21, 224, 143, 247, 139, 160, 236, 178, 230, 24, 216, 198, 167,
    97, 116, 92, 220, 224, 57, 247]

/-- The bytes after the MAC of a SUBMIT of one segment of template 0, contributor 1. -/
def frSubmit : Bytes :=
  [2, 0, 0, 0, 0, 2, 129, 0, 0, 7, 8, 0, 69, 0, 0, 100, 0, 0, 64, 0, 64, 17, 38, 135, 10, 0, 0, 2, 10, 0, 0, 1, 71, 89,
    71, 89, 0, 80, 198, 243, 17, 0, 0, 1, 0, 6, 0, 3, 0, 0, 0, 0, 0, 0, 0, 0, 0, 0, 0, 0, 0, 0, 0, 5, 0, 0, 0, 0, 0, 0, 0,
    0, 85, 189, 180, 98, 143, 20, 51, 37, 198, 182, 154, 8, 21, 232, 143, 247, 235, 71, 208, 98, 27, 83, 47, 196, 42, 86,
    1, 237, 98, 177, 28, 237, 190, 145, 67, 156, 104, 83, 148, 120]

/-- The bytes after the MAC of a FOLIO of part 2 of folio 0, whose ciphertext is zero after its first block. -/
def frFolio : Bytes :=
  [2, 0, 0, 0, 0, 2, 129, 0, 0, 7, 8, 0, 69, 0, 32, 92, 0, 0, 64, 0, 64, 17, 6, 143, 10, 0, 0, 2, 10, 0, 0, 1, 71, 89,
    71, 89, 32, 72, 102, 80, 19, 0, 0, 1, 0, 6, 0, 3, 0, 0, 0, 0, 0, 0, 0, 0, 0, 0, 0, 0, 0, 0, 0, 5, 0, 0, 0, 0, 0, 0, 0,
    0, 85, 189, 180, 99, 143, 20, 51, 44, 196, 182, 154, 8, 21, 224, 143, 247] ++
    zeros 8192 ++ [141, 24, 157, 66, 195, 247, 132, 137, 124, 237, 211, 220, 173, 25, 97, 144]

/-- What the bytes after the MAC of a frame must have: tag, IPv4 and UDP heads with right checksums, this RYT header and, under
the key of the stream, this content. -/
def frameOk (h : Ryt) (t content : Bytes) : Bool :=
  tagOk ent0 t &&
    rxTail ent0 t == some { addr := zeros 12 ++ [10, 0, 0, 2], srcPort := 0x4759, dstPort := 0x4759, body := t.drop 40 } &&
    readRyt (t.drop 40) == some h && openRyt streamKey h (t.drop 40) == some content

set_option maxRecDepth 100000 in
theorem wLink_key : ∀ k, k < 6 → ∃ prk, (wLink k).jobPrk 0 = some prk ∧ trafficKey prk 3 0 0 = streamKey := by
  have h0 : ((wLink 0).jobPrk 0).map (fun k => trafficKey k 3 0 0) = some streamKey := by decide +kernel
  have : ∀ k, k < 6 → (wLink k).jms 0 = (wLink 0).jms 0 ∧ (wLink k).jobId 0 = (wLink 0).jobId 0 := by decide +kernel
  intro k hk
  obtain ⟨prk, hp⟩ := Option.map_eq_some_iff.1 h0
  exact ⟨prk, by rw [← hp.1]; simp only [State.jobPrk, (this k hk).1, (this k hk).2], hp.2⟩

theorem wLink_facts : ∀ k, k < 6 →
    (wLink k).portEnt 0 = some ent0 ∧ ((wLink k).port 0).up = true ∧ (wLink k).restarting = false ∧
    (wLink k).plan.udpPort = 0x4759 ∧ (List.range 16).find? (fun q => (wLink k).admitted q && (wLink k).jobId q == 1 && decide (((wLink k).part q).adm.known ≤ (wLink k).cycles)) = some 0 ∧
    (wLink k).peer 0 3 = some (peer3 (if k = 1 then 1 else 0)) ∧ ((wLink k).link 0 3).rxGen = 0 ∧ ((wLink k).part 0).adm.own = 0 := by decide +kernel

theorem arrives_of {k type : Nat} {av : Bool} {t content : Bytes} (hk : frameOk (hd type av) t content = true)
    (hr : k < 6) (ht : type < 5) (h1 : type = 1 → k = 1) (h2 : 2 ≤ type → k ≠ 1) :
    (wLink k).Arrives 0 (rxF t) type ((wLink k).countUp (aRytPortRxFrames 0) 1) 0 (peer3 (if k = 1 then 1 else 0)) (hd type av) content := by
  simp only [frameOk, Bool.and_eq_true, beq_iff_eq] at hk
  obtain ⟨⟨⟨a1, a2⟩, a3⟩, a4⟩ := hk
  obtain ⟨b1, b2, b3, b4, b5, b6, b7, b8⟩ := wLink_facts k hr
  obtain ⟨prk, hk1, hk2⟩ := wLink_key k hr
  refine ⟨⟨_, prk, rxFrame_mac b1 b2 b3 a1 a2 b4.symm a3 (by simp only [hd]; omega), rfl, hk1, ?_⟩, rfl, b5, b6, ?_,
    fun e => by simp [peer3, h1 e], fun e => by simp [peer3, h2 e]⟩
  · show openRyt (trafficKey prk 3 ((wLink k).part 0).adm.own ((wLink k).link 0 3).rxGen) _ _ = _
    rw [b7, b8, hk2]
    exact a4
  · show ((wLink k).link 0 3).rxGen % 256 = 0
    rw [b7]

theorem isNext_hd (k type : Nat) (hk : k < 6) (h3 : k ≠ 3) : (wLink k).IsNext 0 (peer3 (if k = 1 then 1 else 0)) (hd type) := by
  have h : (wLink k).link 0 3 = {} := by
    have : ∀ k, k < 6 → k ≠ 3 → (wLink k).link 0 3 = {} := by decide +kernel
    exact this k hk h3
  refine ⟨rfl, ?_, rfl, ?_, ?_, ?_⟩ <;> simp only [peer3, h]
  · rfl
  · decide

/-- A message is the next of its stream from peer 3. -/
def IsNextMsg (k : Nat) (t : Bytes) (type : Nat) (content : Bytes) : Prop :=
  ∃ u e, (wLink k).Arrives 0 (rxF t) type u 0 e (hd type) content ∧ (wLink k).IsNext 0 e (hd type)

theorem IsNextMsg_of {k type : Nat} {t content : Bytes} (hk : frameOk (hd type) t content = true)
    (hr : k < 6) (h3 : k ≠ 3) (ht : type < 5) (h1 : type = 1 → k = 1) (h2 : 2 ≤ type → k ≠ 1) : IsNextMsg k t type content :=
  ⟨_, _, arrives_of hk hr ht h1 h2, isNext_hd k type hr h3⟩

/-- A FETCH of parts 2 to 4 of folio 0, and the same frame where it is a duplicate. -/
theorem witness_fetch : IsNextMsg 0 frFetch 2 (fetchHead 0 2 3) ∧ (fetchHead 0 2 3).length = 16 ∧
    be (fetchHead 0 2 3) 0 8 = 0 ∧ be (fetchHead 0 2 3) 8 1 = 2 ∧ be (fetchHead 0 2 3) 9 1 = 3 ∧
    allZero (slice (fetchHead 0 2 3) 10 6) = true ∧ (wLink 0).leaf 0 0 = heldLeaf 100 ∧
    (∃ u, (wLink 3).Arrives 0 (rxF frFetch) 2 u 0 (peer3 0) (hd 2) (fetchHead 0 2 3)) ∧
    (hd 2).seq < ((wLink 3).link 0 3).rxNext ∧ ((wLink 3).link 0 3).accepts < 15 := by
  have h : frameOk (hd 2) frFetch (fetchHead 0 2 3) = true := by decide +kernel
  exact ⟨IsNextMsg_of h (by omega) (by omega) (by omega) (by omega) (by omega), by decide +kernel, by decide +kernel, by decide +kernel,
    by decide +kernel, by decide +kernel, by decide +kernel, ⟨_, arrives_of h (by omega) (by omega) (by omega) (by omega)⟩,
    by decide +kernel, by decide +kernel⟩

/-- A PULL_REQ of folio 0 for phase 0, where that phase is in force and where phase 1 is. -/
theorem witness_pullReq : IsNextMsg 0 frPull 4 (moveHead 0 0 0) ∧ IsNextMsg 2 frPull 4 (moveHead 0 0 0) ∧
    (moveHead 0 0 0).length = 16 ∧ be (moveHead 0 0 0) 0 8 = 0 ∧ be (moveHead 0 0 0) 8 1 = 0 ∧ be (moveHead 0 0 0) 9 1 = 0 ∧
    allZero (slice (moveHead 0 0 0) 10 6) = true ∧ ((wLink 0).part 0).ph = .opn ∧ ((wLink 0).part 0).phase = 0 ∧
    ((wLink 2).part 0).ph = .opn ∧ ((wLink 2).part 0).phase = 1 := by
  have h : frameOk (hd 4) frPull (moveHead 0 0 0) = true := by decide +kernel
  exact ⟨IsNextMsg_of h (by omega) (by omega) (by omega) (by omega) (by omega), IsNextMsg_of h (by omega) (by omega) (by omega) (by omega) (by omega),
    by decide +kernel⟩

/-- A CONFIRM of folio 0. -/
theorem witness_confirm : IsNextMsg 0 frConfirm 4 (moveHead 0 1 0) ∧ (moveHead 0 1 0).length = 16 ∧ be (moveHead 0 1 0) 0 8 = 0 ∧
    be (moveHead 0 1 0) 8 1 = 1 ∧ be (moveHead 0 1 0) 9 1 = 0 ∧ allZero (slice (moveHead 0 1 0) 10 6) = true ∧
    (wLink 0).peer 0 3 = some (peer3 0) := by
  have h : frameOk (hd 4) frConfirm (moveHead 0 1 0) = true := by decide +kernel
  exact ⟨IsNextMsg_of h (by omega) (by omega) (by omega) (by omega) (by omega), by decide +kernel⟩

/-- An ACK that acknowledges nothing new. -/
theorem witness_ack : (∃ u, (wLink 0).Arrives 0 (rxF frAck) 0 u 0 (peer3 0) (hd 0 true) (zeros 16)) ∧ (hd 0 true).ackValid = true ∧
    (hd 0 true).ack ≤ ((wLink 0).link 0 3).txSeq ∧ ((wLink 0).link 0 3).rekey = false := by
  have h : frameOk (hd 0 true) frAck (zeros 16) = true := by decide +kernel
  exact ⟨⟨_, arrives_of h (by omega) (by omega) (by omega) (by omega)⟩, by decide +kernel⟩

/-- A SUBMIT of one segment of template 0 by contributor 1, through a relay. -/
theorem witness_submit : ∃ b, IsNextMsg 1 frSubmit 1 b ∧ submitOk b = true ∧ (submitSeg 0 3 0 b).template = 0 ∧
    ((wLink 1).countUp (aRytPortRxFrames 0) 1).segRank (submitSeg 0 3 0 b) = some 0 := by
  have h : frameOk (hd 1) frSubmit (toBE 4 1 ++ toBE 4 9 ++ toBE 4 0 ++ toBE 2 8 ++ zeros 10) = true := by decide +kernel
  exact ⟨_, IsNextMsg_of h (by omega) (by omega) (by omega) (by omega) (by omega), by decide +kernel⟩

/-- A REFUSE of the pull of folio 0. -/
theorem witness_refuse : IsNextMsg 4 frRefuse 4 (moveHead 0 2 0) ∧ (moveHead 0 2 0).length = 16 ∧ be (moveHead 0 2 0) 0 8 = 0 ∧
    be (moveHead 0 2 0) 8 1 = 2 ∧ be (moveHead 0 2 0) 9 1 = 0 ∧ allZero (slice (moveHead 0 2 0) 10 6) = true ∧
    ∃ m, (wLink 4).peerMove 0 3 (hd 4).flow = some m ∧ m.kind = .pull ∧ m.vfn = 0 := by
  have h : frameOk (hd 4) frRefuse (moveHead 0 2 0) = true := by decide +kernel
  exact ⟨IsNextMsg_of h (by omega) (by omega) (by omega) (by omega) (by omega), by decide +kernel, by decide +kernel, by decide +kernel,
    by decide +kernel, by decide +kernel, _, rfl, by decide +kernel, by decide +kernel⟩

/-- What the FOLIO frame holds under the key of its stream. -/
def folioContent : Bytes :=
  xorBytes (slice (frFolio.drop 40) 32 8208) (aesCtr streamKey.1 (rytNonce streamKey.2 (hd 3)) 2 8208)

set_option maxRecDepth 1000000 in
theorem frFolio_open : openRyt streamKey (hd 3) (frFolio.drop 40) = some folioContent := by
  have h1 : (frFolio.drop 40).length - 48 = 8208 ∧ (frFolio.drop 40).length - 16 = 8240 ∧ ¬(frFolio.drop 40).length < 48 ∧
      (slice (frFolio.drop 40) 32 8208).length = 8208 := by decide +kernel
  have h2 : gcmTag streamKey.1 (rytNonce streamKey.2 (hd 3)) ((frFolio.drop 40).take 32) (slice (frFolio.drop 40) 32 8208) =
      (frFolio.drop 40).drop 8240 := by decide +kernel
  unfold openRyt
  rw [if_neg h1.2.2.1, h1.1, h1.2.1]
  unfold gcmOpen
  rw [if_pos h2, h1.2.2.2]
  rfl

set_option maxRecDepth 1000000 in
/-- Part 2 of folio 0, which is being fetched from the peer. -/
theorem witness_folio : IsNextMsg 5 frFolio 3 folioContent ∧ folioContent.length = 16 + 8192 ∧ be folioContent 0 8 = 0 ∧
    be folioContent 8 1 = 2 ∧ be folioContent 9 1 = 0 ∧ allZero (slice folioContent 10 6) = true ∧
    ∃ m, (wLink 5).peerMove 0 3 (hd 3).flow = some m ∧ m.kind = .fetch ∧ ((wLink 5).leaf 0 m.vfn).home / 1024 = 0 := by
  have h : frameOk (hd 3) frFolio folioContent = true := by
    simp only [frameOk, frFolio_open, BEq.rfl, Bool.and_true]
    decide +kernel
  exact ⟨IsNextMsg_of h (by omega) (by omega) (by omega) (by omega) (by omega), by decide +kernel, by decide +kernel, by decide +kernel,
    by decide +kernel, by decide +kernel, _, rfl, by decide +kernel, by decide +kernel⟩

/-! ### Witnesses: timers, ports and admission -/

/-- The same with the streams of peer 3 in a state, one time of REKEY_AT and FT LOCKED. -/
def wTx (l : Link) : State :=
  { wLink 0 with
    links := [(3, l)]
    parts := [(0, { ((wLink 0).part 0) with job := some { phases := [{ slices := 1 }], templates := [geo1], key := { rekeyAt := [5] } } })]
    ft := { (wLink 0).ft with lock := .locked } }

/-- A frame in flight on its try `n`. -/
def flight (n : Nat) : TxFrame := { try_ := n, msg := { type := 2, flow := 1, body := fetchHead 0 0 8 } }

theorem witness_strangers :
    let r : RxUdp := { addr := zeros 12 ++ [10, 0, 0, 2], srcPort := 0x4759, dstPort := 0x4759, body := frFetch.drop 40 }
    let s : State := { wLink 0 with parts := [] }
    let z : State := { wLink 0 with parts := [(0, { ((wLink 0).part 0) with
      adm := { ((wLink 0).part 0).adm with peers := [{ peer3 0 with address := zeros 16 }] } })] }
    s.rxFrame 0 (rxF frFetch) = .ryt (s.countUp (aRytPortRxFrames 0) 1) r (hd 2) ∧ (∀ q, q < 16 → s.admitted q = false) ∧
    z.rxFrame 0 (rxF frFetch) = .ryt (z.countUp (aRytPortRxFrames 0) 1) r (hd 2) ∧
    (List.range 16).find? (fun q => z.admitted q && z.jobId q == (hd 2).job && decide ((z.part q).adm.known ≤ z.cycles)) = some 0 ∧
    (∀ e, z.peer 0 (hd 2).peer = some e → e.address ≠ r.addr) := by
  have h1 : tagOk ent0 frFetch = true ∧ readRyt (frFetch.drop 40) = some (hd 2) := by decide +kernel
  have h2 : rxTail ent0 frFetch = some { addr := zeros 12 ++ [10, 0, 0, 2], srcPort := 0x4759, dstPort := 0x4759, body := frFetch.drop 40 } := by
    decide +kernel
  refine ⟨rxFrame_mac (by decide +kernel) (by decide +kernel) (by decide +kernel) h1.1 h2 (by decide +kernel) h1.2 (by decide), by decide +kernel,
    rxFrame_mac (by decide +kernel) (by decide +kernel) (by decide +kernel) h1.1 h2 (by decide +kernel) h1.2 (by decide), by decide +kernel, ?_⟩
  intro e he
  have : some e = some { peer3 0 with address := zeros 16 } := by
    rw [← he]
    decide +kernel
  cases this
  decide

theorem witness_frameTransmit :
    let x : TxMsg := { type := 2, flow := 1, body := fetchHead 0 0 8 }
    let c : State := { wTx {} with ports := [(0, { up := true, control := [{ raw := some [1, 2] }] })] }
    let s := wTx { queue := [x] }
    s = { s with ft := { s.ft with sub := (0 : Fin 820).val } } ∧
    c.portEnt 0 = some ent0 ∧ (c.port 0).up = true ∧ (c.port 0).control = [{ raw := some [1, 2] }] ∧
    s.portEnt 0 = some ent0 ∧ (s.port 0).up = true ∧ (s.port 0).control = [] ∧ (s.port 0).nextMac ≠ none ∧
    s.portNext 0 = some (0, 3, .first 0 x) ∧ s.peer 0 3 = some (peer3 0) ∧
    (s.link 0 3).txSeq + 1 < 2 ^ ((s.job 0).map (·.key.rekeyLog2)).getD 32 ∧ (s.link 0 3).txAck = 0 := by decide +kernel

theorem witness_ackDelayExpiry :
    let s := wTx { accepts := 1 }
    s.admitted 0 = true ∧ 0 < (s.link 0 3).accepts ∧ s.peer 0 3 = some (peer3 0) ∧ s.maySend 0 0 = true ∧ s.isRelay 0 3 = false ∧
    (s.link 0 3).txAck + 1 < 2 ^ ((s.job 0).map (·.key.rekeyLog2)).getD 32 ∧ (s.link 0 3).txSeq = 0 := by decide +kernel

theorem witness_rtoExpiry :
    let s := wTx { sent := [flight 0] }
    let u := wTx { sent := [flight 6] }
    s.admitted 0 = true ∧ (s.link 0 3).nextRto = some (flight 0) ∧ (flight 0).try_ < (flight 0).limit ∧ s.peer 0 3 = some (peer3 0) ∧
    (s.advanceToCycle (flight 0).expires).maySend 0 0 = true ∧ (s.advanceToCycle (flight 0).expires).msgMay 0 0 (flight 0).msg = true ∧
    u.admitted 0 = true ∧ (u.link 0 3).nextRto = some (flight 6) ∧
    (flight 6).limit ≤ (flight 6).try_ ∧ u.folio.moves = [] := by decide +kernel

theorem witness_rekeyAt_keygenRetire :
    let s := wTx { oldGen := some (1, 9), sent := [] }
    let u := wTx { sent := [flight 0] }
    s.admitted 0 = true ∧ s.nextRekey 0 = some 5 ∧ s.ft.lock ≠ .unlocked ∧ ((s.part 0).adm.peers.map (·.index)).Nodup ∧
    (s.link 0 3).sent = [] ∧ (u.link 0 3).sent ≠ [] ∧ u.nextRekey 0 = some 5 ∧ (s.link 0 3).oldGen = some (1, 9) := by decide +kernel

theorem witness_lanes :
    let s := wLink 0
    let u : State := { s with ports := [(0, { up := true, failed := 13 })] }
    modeLanes s.plan.mode = 4 ∧ (s.port 0).failed.testBit 1 = false ∧ s.portEnt 0 = some ent0 ∧ s.errs.length < 4096 ∧
    laneGroup 4 ((s.port 0).failed ||| 2 ^ 1) = some (2, 2) ∧ (u.port 0).failed.testBit 1 = false ∧
    laneGroup 4 ((u.port 0).failed ||| 2 ^ 1) = none ∧
    (({ s with ports := [(0, { retraining := true })] } : State).port 0).retraining = true := by decide +kernel

/-- An ARP request for 10.0.0.1, and a reply of the next hop 10.0.0.9, of operation `op` from the sender `spa`. -/
def arpFrame (op : Nat) (spa : Bytes) : Bytes :=
  withFcs ([255, 255, 255, 255, 255, 255, 2, 0, 0, 0, 0, 2, 0x81, 0, 0, 7, 8, 6, 0, 1, 8, 0, 6, 4] ++ toBE 2 op ++ [2, 0, 0, 0, 0, 2] ++ spa ++
    [0, 0, 0, 0, 0, 0, 10, 0, 0, 1])

theorem witness_arp : ∀ x ∈ [(1, ([10, 0, 0, 2] : Bytes)), (2, [10, 0, 0, 9])],
    let s := wLink 0
    let f := arpFrame x.1 x.2
    s.portEnt 0 = some ent0 ∧ (s.port 0).up = true ∧ fcsOk f = true ∧
    (rxEth ent0 f).any (fun e => e.ethertype == 0x0806 && ent0.ipv4 && decide (28 ≤ e.body.length) && e.body.take 6 == [0, 1, 8, 0, 6, 4] &&
      slice e.body 24 4 == ent0.address.drop 12 && be e.body 6 2 == x.1 && (x.1 == 1 || slice e.body 14 4 == ent0.nextHop.drop 12)) = true := by
  decide +kernel

/-- What follows the destination MAC of a whole message of job 0, with the checksums of its IPv4 and UDP heads. -/
def zeroTail (ipSum udpSum type : Nat) (content : Bytes) : Bytes :=
  [2, 0, 0, 0, 0, 2, 0x81, 0, 0, 7, 8, 0, 0x45, 0] ++ toBE 2 (76 + content.length) ++ [0, 0, 0x40, 0, 64, 17] ++ toBE 2 ipSum ++
    [10, 0, 0, 2, 10, 0, 0, 1, 0x47, 0x59, 0x47, 0x59] ++ toBE 2 (56 + content.length) ++ toBE 2 udpSum ++
    ({ type := type, flow := 6 } : Ryt).bytes ++ content ++ zeros 16

/-- The datagram that a message of job 0 comes in. -/
def zeroUdp (t : Bytes) : RxUdp := { addr := zeros 12 ++ [10, 0, 0, 2], srcPort := 0x4759, dstPort := 0x4759, body := t.drop 40 }

/-- The checks of a message of job 0, apart from the symbolic MAC. -/
def zeroOk (type : Nat) (t content : Bytes) : Bool :=
  tagOk ent0 t && rxTail ent0 t == some (zeroUdp t) && readRyt (t.drop 40) == some { type := type, flow := 6 } &&
    decide (48 ≤ (t.drop 40).length) && allZero ((t.drop 40).drop ((t.drop 40).length - 16)) &&
    content == slice (t.drop 40) 32 ((t.drop 40).length - 48)

theorem arrivesZero_of {s : State} {type : Nat} {t content : Bytes} (hz : zeroOk type t content = true) (hp : s.portEnt 0 = some ent0)
    (hup : (s.port 0).up = true) (hr : s.restarting = false) (hu : s.plan.udpPort = 0x4759) (ht : type < 11)
    (hq : ((s.countUp (aRytPortRxFrames 0) 1).zeroRate 0).2 = true)
    (hn : (((s.countUp (aRytPortRxFrames 0) 1).zeroRate 0).1.port 0).zero = []) :
    ∃ u, s.ArrivesZero 0 (rxF t) type u (zeroUdp t) { type := type, flow := 6 } content := by
  simp only [zeroOk, Bool.and_eq_true, beq_iff_eq, decide_eq_true_eq] at hz
  obtain ⟨⟨⟨⟨⟨a1, a2⟩, a3⟩, a4⟩, a5⟩, a6⟩ := hz
  exact ⟨((s.countUp (aRytPortRxFrames 0) 1).zeroRate 0).1,
    ⟨_, rxFrame_mac hp hup hr a1 a2 hu.symm a3 (by show ¬11 ≤ type; omega), Prod.ext rfl hq⟩, rfl, rfl, a4, a5, rfl, hn, a6⟩

/-- A package whose partition's job lists an admitter, of two packages, with an alias key. -/
def wAdm (pin : Bytes) (a : Admission) : State :=
  { wTal geo1 with
    dev := some { parts := [{ func := 1, coreMask := 3, folioFrames := 16, lpddrGib := 1, portMask := 15 }], plan := { ports := [ent0] } }
    parts := [(0, { job := some { phases := [{}], key := { admitterPin := pin } }, ph := .opn, keyLive := 1, adm := a })]
    ports := [(0, { up := true, lanes := 4, nextMac := some [2, 0, 0, 0, 0, 9] })]
    rng := { (wTal geo1).rng with st := .ready, key := zeros 32, v := zeros 16 }
    sbox := { (wTal geo1).sbox with alias_ := some 5 } }

/-- What every ADMIT message asks of the package. -/
theorem wAdm_facts (pin : Bytes) (a : Admission) : (wAdm pin a).portEnt 0 = some ent0 ∧ ((wAdm pin a).port 0).up = true ∧
    (wAdm pin a).restarting = false ∧ (wAdm pin a).plan.udpPort = 0x4759 ∧
    (((wAdm pin a).countUp (aRytPortRxFrames 0) 1).zeroRate 0).2 = true ∧
    ((((wAdm pin a).countUp (aRytPortRxFrames 0) 1).zeroRate 0).1.port 0).zero = [] := by
  have hd : (wAdm pin a).dev = (wAdm [] {}).dev := rfl
  refine ⟨?_, by rfl, by rfl, by rfl, ?_, by rfl⟩
  · simp only [State.portEnt, State.portCount, State.plan, hd]
    decide +kernel
  have hq : ((wAdm pin a).countUp (aRytPortRxFrames 0) 1).port 0 = { up := true, lanes := 4, nextMac := some [2, 0, 0, 0, 0, 9] } := rfl
  have hc : ((wAdm pin a).countUp (aRytPortRxFrames 0) 1).cycles = 0 := rfl
  simp [State.zeroRate, hq, hc]

/-- A HELLO for JOB_ID `j` with nothing else in it. -/
def emptyHello (j : Nat) : Bytes := toBE 3 j ++ zeros 1410

set_option maxRecDepth 1000000 in
/-- A HELLO for job 9, which the package has not, and one for its job whose key no charter pins. -/
theorem witness_hello_refused :
    (∃ u r h, (wAdm [] {}).ArrivesZero 0 (rxF (zeroTail 8474 12729 7 (emptyHello 9))) 7 u r h (emptyHello 9)) ∧
    (emptyHello 9).length = helloLen ∧ (wAdm [] {}).jobPart (helloJob (emptyHello 9)) = none ∧
    (∃ u r h, (wAdm [] {}).ArrivesZero 0 (rxF (zeroTail 8474 14777 7 (emptyHello 1))) 7 u r h (emptyHello 1)) ∧
    (emptyHello 1).length = helloLen ∧ (wAdm [] {}).jobPart (helloJob (emptyHello 1)) = some 0 ∧ (wAdm [] {}).helloCheck 0 (emptyHello 1) ≠ 0 := by
  obtain ⟨f1, f2, f3, f4, f5, f6⟩ := wAdm_facts [] {}
  have h9 : zeroOk 7 (zeroTail 8474 12729 7 (emptyHello 9)) (emptyHello 9) = true := by decide +kernel
  have h1 : zeroOk 7 (zeroTail 8474 14777 7 (emptyHello 1)) (emptyHello 1) = true := by decide +kernel
  obtain ⟨u, hu⟩ := arrivesZero_of h9 f1 f2 f3 f4 (by omega) f5 f6
  obtain ⟨v, hv⟩ := arrivesZero_of h1 f1 f2 f3 f4 (by omega) f5 f6
  exact ⟨⟨u, _, _, hu⟩, by decide +kernel, by decide +kernel, ⟨v, _, _, hv⟩, by decide +kernel, by decide +kernel, by decide +kernel⟩

/-- The public key of scalar 7. -/
def pinKey : Bytes :=
  toBE 32 0x8e533b6fa0bf7b4625bb30667c01fb607ef9f8b8a80fef5b300628703187b2a3 ++
    toBE 32 0x73eb1dbde03318366d069f83a6f5900053c73633cb041b21c55e1a86c1f400b4

/-- A HELLO for job 1 with the ephemeral key of scalar 11, signed with the key of scalar 7. -/
def goodHello : Bytes :=
  toBE 3 1 ++ zeros 33 ++ [4] ++ toBE 32 0x3ed113b7883b4c590638379db0c21cda16742ed0255048bf433391d374bc21d1 ++
    toBE 32 0x9099209accc4c8a224c843afa4f4c68a090d04da5e9889dae2f8eefce82a3740 ++ zeros 1184 ++ pinKey ++
    toBE 32 0x26efcebd0ee9e34a669187e18b3a9122b2f733945b649cc9f9f921e9f9dad812 ++
    toBE 32 0x14f902bcb921a6d1e19526c78914f67a76399e5d3d1a3ce9816e976823f8dff7

/-- A package whose charter pins that key. -/
def wPin : State := wAdm (toBE 32 0x2238f0e348c0445a60affd248bfe765db34318c0a10bfc9fc7423170e019d490) {}

set_option maxRecDepth 1000000 in
theorem goodHello_shared : ∃ z, helloShared (scalarOf (((wPin.dropReplies 0).draw 72).1.take 40)) goodHello = some z :=
  Option.isSome_iff_exists.mp (by decide +kernel)

set_option maxRecDepth 1000000 in
/-- A HELLO that passes every check, with what the generator gives under a key of zeros. -/
theorem witness_hello :
    (∃ u r h, wPin.ArrivesZero 0 (rxF (zeroTail 8474 61979 7 goodHello)) 7 u r h goodHello) ∧ goodHello.length = helloLen ∧
    wPin.jobPart (helloJob goodHello) = some 0 ∧ wPin.helloCheck 0 goodHello = 0 ∧ wPin.rngFailed = false ∧
    (wPin.dropReplies 0).rngServes = true ∧
    (∃ z, helloShared (scalarOf (((wPin.dropReplies 0).draw 72).1.take 40)) goodHello = some z) ∧
    ∃ ev, wPin.evidence 0 (helloNonce goodHello) = some ev := by
  obtain ⟨f1, f2, f3, f4, f5, f6⟩ := wAdm_facts (toBE 32 0x2238f0e348c0445a60affd248bfe765db34318c0a10bfc9fc7423170e019d490) {}
  have h : zeroOk 7 (zeroTail 8474 61979 7 goodHello) goodHello = true := by decide +kernel
  obtain ⟨u, hu⟩ := arrivesZero_of h f1 f2 f3 f4 (by omega) f5 f6
  exact ⟨⟨u, _, _, hu⟩, by decide +kernel, by decide +kernel, by decide +kernel, by decide +kernel, by decide +kernel,
    goodHello_shared, _, rfl⟩

/-- A sealed peer table: the package alone, with a job secret of zeros. -/
def confirmGood : Bytes :=
  [206, 167, 64, 61, 77, 96, 107, 110, 7, 78, 197, 211, 186, 243, 157, 24, 114, 96, 3, 202, 55, 166, 42, 116, 209, 162,
  245, 142, 117, 6, 53, 142, 221, 74, 177, 41, 77, 74, 225, 123, 65, 232, 89, 36, 71, 12, 54, 247, 71, 65, 203, 225,
  129, 187, 127, 48, 97, 124, 29, 227, 171, 12, 58, 31, 208, 196, 143, 115, 33, 168, 45, 55, 58, 150, 139, 38, 186, 83,
  78, 205, 121, 189, 226, 94, 193, 159, 242, 249]

/-- A sealed content of 39 zero bytes, which is no peer table. -/
def confirmBad : Bytes :=
  [206, 167, 64, 61, 77, 96, 107, 110, 7, 78, 197, 211, 186, 243, 157, 24, 114, 96, 3, 202, 55, 166, 42, 116, 209, 162,
  245, 142, 117, 6, 53, 142, 221, 74, 177, 40, 77, 74, 225, 45, 243, 245, 209, 26, 5, 173, 40, 89, 38, 215, 68, 211,
  197, 86, 128]

/-- The table that the first holds. -/
def peerTable : Bytes := zeros 32 ++ [0, 0, 0, 1, 0, 0, 0, 0] ++ zeros 32

/-- A pending handshake under keys of zeros. -/
def pendAdm : Admission := { st := .pending, kA2p := zeros 44, kP2a := zeros 44, source := zeros 12 ++ [10, 0, 0, 2], sourceUdp := 0x4759, deadline := 100 }

set_option maxRecDepth 1000000 in
/-- A CONFIRM whose table is right, and one of another length. -/
theorem witness_confirm_admit :
    (∃ u r h, (wAdm [] pendAdm).ArrivesZero 0 (rxF (zeroTail 9799 11925 9 confirmGood)) 9 u r h confirmGood) ∧
    ((wAdm [] pendAdm).part 0).adm = pendAdm ∧ pendAdm.st = .pending ∧ 16 ≤ confirmGood.length ∧
    gcmOpen (pendAdm.kA2p.take 32) (pendAdm.kA2p.drop 32) [] (confirmGood.take (confirmGood.length - 16))
      (confirmGood.drop (confirmGood.length - 16)) = some peerTable ∧ (wAdm [] pendAdm).cycles ≤ pendAdm.deadline ∧
    be peerTable 34 2 = 1 ∧ peerTable.length = 40 + 32 * 1 ∧ (wAdm [] pendAdm).peersOk 0 0 [readPeer (slice peerTable 40 32)] = true ∧
    (wAdm [] pendAdm).peerContexts + 1 ≤ 4096 ∧
    (∃ u r h, (wAdm [] pendAdm).ArrivesZero 0 (rxF (zeroTail 9832 43875 9 confirmBad)) 9 u r h confirmBad) ∧
    gcmOpen (pendAdm.kA2p.take 32) (pendAdm.kA2p.drop 32) [] (confirmBad.take (confirmBad.length - 16))
      (confirmBad.drop (confirmBad.length - 16)) = some (zeros 39) ∧ (zeros 39).length ≠ 40 + 32 * be (zeros 39) 34 2 := by
  obtain ⟨f1, f2, f3, f4, f5, f6⟩ := wAdm_facts [] pendAdm
  have hg : zeroOk 9 (zeroTail 9799 11925 9 confirmGood) confirmGood = true := by decide +kernel
  have hb : zeroOk 9 (zeroTail 9832 43875 9 confirmBad) confirmBad = true := by decide +kernel
  obtain ⟨u, hu⟩ := arrivesZero_of hg f1 f2 f3 f4 (by omega) f5 f6
  obtain ⟨v, hv⟩ := arrivesZero_of hb f1 f2 f3 f4 (by omega) f5 f6
  exact ⟨⟨u, _, _, hu⟩, by decide +kernel, rfl, by decide +kernel, by decide +kernel, by decide +kernel, by decide +kernel, by decide +kernel,
    by decide +kernel, by decide +kernel, ⟨v, _, _, hv⟩, by decide +kernel, by decide +kernel⟩

theorem witness_admitTimeout : ((wAdm [] pendAdm).part 0).adm.st = .pending := rfl

set_option maxRecDepth 1000000 in
theorem witness_evidenceReq :
    (∃ u r h, (wAdm [] {}).ArrivesZero 0 (rxF (zeroTail 9854 18305 5 (zeros 33))) 5 u r h (zeros 33)) ∧ 33 ≤ (zeros 33).length ∧
    be (zeros 33) 32 1 < 16 ∧ ∃ ev, (wAdm [] {}).evidence (be (zeros 33) 32 1) ((zeros 33).take 32) = some ev := by
  obtain ⟨f1, f2, f3, f4, f5, f6⟩ := wAdm_facts [] {}
  have h : zeroOk 5 (zeroTail 9854 18305 5 (zeros 33)) (zeros 33) = true := by decide +kernel
  obtain ⟨u, hu⟩ := arrivesZero_of h f1 f2 f3 f4 (by omega) f5 f6
  exact ⟨⟨u, _, _, hu⟩, by decide +kernel, by decide +kernel, _, rfl⟩


/-! ### Witnesses: the host port -/

/-- The body of a DMA operation: host address, virtual address and length. -/
def dmaBody (host va n : Nat) : Bytes := toLE 8 host ++ toLE 8 va ++ toLE 8 n

/-- A DMA operation of 64 bytes at folio 0, held in frame 3. -/
def wDma (oc n : Nat) : State := wFol (mkD oc 7 (dmaBody 0x40 0 n))

theorem witness_dma :
    (wDma 0x600 64).runningOp 0 7 0x600 = some (runOp (mkD 0x600 7 (dmaBody 0x40 0 64))) ∧
    (wDma 0x600 64).dmaCheck (runOp (mkD 0x600 7 (dmaBody 0x40 0 64))) true = stDone ∧
    (wDma 0x601 64).runningOp 0 7 0x601 = some (runOp (mkD 0x601 7 (dmaBody 0x40 0 64))) ∧
    (wDma 0x601 64).dmaCheck (runOp (mkD 0x601 7 (dmaBody 0x40 0 64))) true = stDone ∧
    dmaLen (mkD 0x600 7 (dmaBody 0x40 0 64)) = 64 ∧ dmaVa (mkD 0x600 7 (dmaBody 0x40 0 64)) = 0 ∧
    (∀ c, c = 0x600 ∨ c = 0x601 → (wDma c 64).FolioHeld (runOp (mkD c 7 (dmaBody 0x40 0 64))) 0 0) := by
  iterate 6 refine ⟨by decide +kernel, ?_⟩
  rintro c (rfl | rfl) <;> constructor <;> decide +kernel

/-- The four checks in their order: a length that is no multiple of 64, a function without Bus Master Enable, a key that is gone and a host
that fails. -/
theorem witness_dma_refused :
    dmaOk (mkD 0x600 7 (dmaBody 0x40 0 63)) = false ∧ (wDma 0x600 63).runningOp 0 7 0x600 ≠ none ∧
    dmaOk (mkD 0x601 7 (dmaBody 0x40 0 64)) = true ∧ ({ runOp (mkD 0x601 7 (dmaBody 0x40 0 64)) with bmeOff := true } : Op).bmeOff = true ∧
    ({ wDma 0x601 64 with sbox := {} } : State).memLive 0 (({ wDma 0x601 64 with sbox := {} } : State).part 0).keyCur = false ∧
    (wDma 0x601 64).memLive 0 ((wDma 0x601 64).part 0).keyCur = true := by decide +kernel

theorem witness_bme :
    let o := runOp (mkD 0x600 7 (dmaBody 0x40 0 64))
    let s : State := { w0 with msixHeld := [(1, 2)], msix := [(1024 + 4 * 2 + 3, 0)] }
    (wDma 0x600 64).dmaOf 1 = [o] ∧ (wDma 0x600 64).findOp o.part o.tag = some o ∧ (wDma 0x600 64).partOfFunc 1 = some o.part ∧
    ((wDma 0x600 64).part o.part).ph ≠ .draining ∧ s.restarting = false ∧ (s.func 1).discard = false ∧
    (∀ e ∈ s.msixHeld, e.1 = 1 ∧ (Tab.look msixInit s.msix (1024 * 1 + 4 * e.2 + 3)).getLsbD 0 = false) := by decide +kernel

theorem witness_config :
    ({ w0 with configReady := false } : State).configRetry = true ∧ w0.configRetry = false ∧ (0 : BitVec 12).toNat / 4 = 0 ∧
    (8 : BitVec 12).toNat / 4 = 2 ∧ (4 : BitVec 12).toNat / 4 = 1 := by decide +kernel

/-- The link up at width 16 and speed 6. -/
theorem witness_hostLink :
    let s := w0.setRegN aHostLink (2 ^ 31 + 16 * 2 ^ 16 + 6)
    (s.regN aHostLink).testBit 31 = true ∧ 8 < s.regN aHostLink / 2 ^ 16 % 32 ∧ 5 < s.regN aHostLink % 16 := by decide +kernel

/-- The package with the TDI of function 1 in a state, its job charter signed or not. -/
def wTdi (x : Tdi) (signed : Bool := true) : State :=
  { w0 with
    funcs := [(1, { bme := true, tdi := x, stream := 2 })]
    parts := [(0, { (w0.part 0) with job := some { phases := [{}], signed := signed } })]
    ide := [(2, true)] }

theorem witness_tdi :
    ((wTdi .unlocked).func 1).tdi = .unlocked ∧ (wTdi .unlocked).loadBars 1 = false ∧
    ((wTdi .locked).func 1).tdi = .locked ∧ (wTdi .locked).loadBars 1 = false ∧
    (((wTdi .locked).partOfFunc 1).bind (wTdi .locked).job).map (·.signed) = some true ∧
    (((wTdi .locked false).partOfFunc 1).bind (wTdi .locked false).job).map (·.signed) = some false ∧
    ((wTdi .error).func 1).tdi = .error ∧ ((wTdi .run).func 1).tdi = .run ∧ (wTdi .run).tdiHeld 1 = true ∧ (wTdi .unlocked).tdiHeld 1 = false ∧
    (wTdi .run).partOfFunc 1 = some 0 ∧ ((wTdi .run).part 0).ph ≠ .draining := by decide +kernel

theorem witness_load_bars :
    ∃ s : State, (s.func 1).tdi = .unlocked ∧ s.loadBars 1 = true := by
  refine ⟨{ wTdi .unlocked with load := some { charter := .job {}, toPause := [0], affects := [0] } }, ?_, ?_⟩ <;> decide +kernel

/-- The package with a connection of the PF, an alias key and the generator READY. -/
def wSpdm (conn : Nat) (ys : List SpdmSession := []) : State :=
  { w0 with
    funcs := [(0, { conn := conn, sessions := ys }), (1, { conn := conn, sessions := ys })]
    rng := { w0.rng with st := .ready, key := zeros 32, v := zeros 16 }
    sbox := { w0.sbox with alias_ := some 5 } }

/-- A request of SPDM 1.3. -/
def spdmReq (code p1 p2 n : Nat) (body : Bytes := []) : Bytes := [0x13, BitVec.ofNat 8 code, BitVec.ofNat 8 p1, BitVec.ofNat 8 p2] ++ fit (n - 4) body

theorem witness_spdm_hold :
    let s : State := { wSpdm 0 with tamperHold := true }
    s.configRetry = false ∧ s.tamperHold = true ∧
    (∀ c ∈ [0x84, 0xE1, 0xE3, 0x81, 0x82, 0x83, 0xE0, 0xE4, 0xE5, 0xE8, 0xE9, 0xEC, 0xFE], le (spdmReq c 0 0 4) 1 1 = c) := by decide +kernel

theorem witness_spdm_connect :
    (∀ n ∈ [0, 1, 2, 3], (wSpdm n).configRetry = false ∧ (wSpdm n).tamperHold = false ∧ ((wSpdm n).func 1).conn = n) ∧
    le ([0x10, 0x84, 0, 0] : Bytes) 0 1 = 0x10 ∧ le ([0x10, 0x84, 0, 0] : Bytes) 1 1 = 0x84 ∧
    le (spdmReq 0xE1 0 0 20) 0 1 = 0x13 ∧ le (spdmReq 0xE1 0 0 20) 1 1 = 0xE1 ∧ 20 ≤ (spdmReq 0xE1 0 0 20).length ∧
    (let m := spdmReq 0xE3 0 0 32 ([32, 0, 1, 0] ++ toLE 4 0x10 ++ toLE 4 1)
     le m 0 1 = 0x13 ∧ le m 1 1 = 0xE3 ∧ 32 ≤ m.length ∧ (le m 8 4).testBit 4 = true ∧ (le m 12 4).testBit 0 = true) ∧
    (wSpdm 3).sbox.alias_ = some 5 := by decide +kernel

theorem witness_spdm_evidence :
    le (spdmReq 0x81 0 0 4) 1 1 = 0x81 ∧ le (spdmReq 0x82 0 0 8) 1 1 = 0x82 ∧ le (spdmReq 0x82 0 0 8) 2 1 % 16 = 0 ∧
    le (spdmReq 0x82 0 0 8) 4 2 < (wSpdm 3).spdmChain.length ∧ le (spdmReq 0x83 0 0 44) 1 1 = 0x83 ∧ le (spdmReq 0x83 0 0 44) 2 1 % 16 = 0 ∧
    44 ≤ (spdmReq 0x83 0 0 44).length ∧ le (spdmReq 0xE0 1 1 45) 1 1 = 0xE0 ∧ le (spdmReq 0xE0 1 1 45) 2 1 % 2 = 1 ∧
    le (spdmReq 0xE0 1 1 45) 3 1 = 1 ∧ 45 ≤ (spdmReq 0xE0 1 11 45).length ∧ le (spdmReq 0xE0 1 11 45) 3 1 = 11 := by
  refine ⟨by decide +kernel, by decide +kernel, by decide +kernel, ?_, by decide +kernel⟩
  have h0 : le (spdmReq 0x82 0 0 8) 4 2 = 0 := by decide +kernel
  rw [h0]
  simp only [State.spdmChain, List.length_append, toLE_length, zeros_length]
  omega

/-- A KEY_EXCHANGE with the exchange data of a point of the curve. -/
def keMsg : Bytes := spdmReq 0xE4 0 0 106 (zeros 36 ++ pinKey)

set_option maxRecDepth 1000000 in
theorem keMsg_shared : ∃ z, ecdh (beNat (((wSpdm 3).draw 64).1.take 32) % (p256N - 1) + 1) (slice keMsg 40 64) = some z :=
  Option.isSome_iff_exists.mp (by decide +kernel)

theorem witness_keyExchange :
    le keMsg 0 1 = 0x13 ∧ le keMsg 1 1 = 0xE4 ∧ 3 ≤ ((wSpdm 3).func 1).conn ∧ le keMsg 3 1 % 16 = 0 ∧ 106 ≤ keMsg.length ∧
    (wSpdm 3).rngFailed = false ∧ (wSpdm 3).rngServes = true ∧ (wSpdm 3).sbox.alias_ = some 5 ∧ ((wSpdm 3).func 1).sessions = [] ∧
    ∃ z, ecdh (beNat (((wSpdm 3).draw 64).1.take 32) % (p256N - 1) + 1) (slice keMsg 40 64) = some z := by
  iterate 9 refine ⟨by decide +kernel, ?_⟩
  exact keMsg_shared

/-- The verify data of a FINISH on an empty transcript and a handshake secret of zeros. -/
def finVerify : Bytes := hmac (finishedKey (zeros 32) "req hs data" []) (sha256 [0x13, 0xE5, 0, 0])

set_option maxRecDepth 1000000 in
/-- A FINISH whose verify data is right, and one whose verify data is not. -/
theorem witness_finish :
    let y : SpdmSession := { id := 0x10001, handshakeSecret := zeros 32 }
    let m := [0x13, 0xE5, 0, 0] ++ finVerify
    le m 0 1 = 0x13 ∧ le m 1 1 = 0xE5 ∧ ((wSpdm 3 [y]).func 1).sessions = [y] ∧ y.established = false ∧ y.id = (0x10001 : W32).toNat ∧
    m.take 4 = [0x13, 0xE5, 0, 0] ∧ slice m 4 32 = finVerify ∧ slice ([0x13, 0xE5, 0, 0] : Bytes) 4 32 ≠ finVerify := by
  decide +kernel

/-- An established session: a heartbeat, key updates, its end, and a vendor request. -/
theorem witness_session :
    let y : SpdmSession := { id := 0x10001, established := true }
    let v := spdmReq 0xFE 0 0 32 ([3, 0, 2, 1, 0] ++ toLE 2 7 ++ [1, 0x10, 0x85, 0, 0, 1, 0])
    let b := slice v 11 (le v 9 2)
    ((wSpdm 3 [y]).func 0).sessions = [y] ∧ ((wSpdm 3 [y]).func 1).sessions = [y] ∧ y.established = true ∧
    le (spdmReq 0xE8 0 0 4) 1 1 = 0xE8 ∧ le (spdmReq 0xE9 1 0 4) 2 1 = 1 ∧ le (spdmReq 0xE9 3 0 4) 2 1 = 3 ∧ le (spdmReq 0xEC 0 0 4) 1 1 = 0xEC ∧
    le v 1 1 = 0xFE ∧ le v 4 2 = 3 ∧ le v 6 1 = 2 ∧ le v 7 2 = 1 ∧ le b 0 1 = 1 ∧ le b 1 1 = 0x10 ∧ le b 2 1 = 0x85 ∧ le b 5 2 % 256 = 1 := by
  decide +kernel

theorem witness_mctp :
    let m : Bytes := [0, 0x80, 1, 0, 9]
    let g : Bytes := [0, 0x80, 2, 0]
    le m 0 1 = 0 ∧ 128 ≤ le m 1 1 ∧ 4 ≤ m.length ∧ le m 2 1 = 1 ∧ le g 0 1 = 0 ∧ 128 ≤ le g 1 1 ∧ 4 ≤ g.length ∧ le g 2 1 = 2 := by
  decide +kernel


/-! ### Witnesses: the Strongbox and the generator -/

/-- An attribute word of partition 0 for HOST, world OPEN and SERVICE, with no parent: USAGE and LENGTH. -/
def kAttr (usage len : Nat) : Nat := 0x3FF * 2 ^ 38 + 4 * 2 ^ 29 + 2 ^ 27 + 2 ^ 20 + usage * 2 ^ 17 + len * 2 ^ 14

/-- A mailbox command word: OPCODE, SLOT and PARENT. -/
def mbxCmd (oc slot parent : Nat) : Nat := oc * 2 ^ 24 + slot * 2 ^ 14 + parent * 2 ^ 4

/-- The PF's mailbox busy with a command, in a package without a job; slots 5, 7 and 9 hold a DERIVE, a WRAP and a SIGN key. -/
def wMbx (cmd attr len : Nat) (data : Bytes := zeros 256) : State :=
  let s0 : State := { w0 with
    parts := [(0, { ph := .opn, keyLive := 1 })]
    rng := { w0.rng with st := .ready, key := zeros 32, v := zeros 16 }
    pwr := { w0.pwr with bootDue := false } }
  let s1 := ((s0.installKey 5 (kAttr 0 2) (zeros 32)).installKey 7 (kAttr 1 2) (zeros 32)).installKey 9 (kAttr 4 2) (zeros 31 ++ [9])
  { s1 with sbox := { s1.sbox with pf := { cmd := cmd, busy := true, attr := attr, len := len, data := data } } }

/-- The PF's mailbox runs the command of an opcode. -/
theorem wMbx_runs : ∀ x ∈ [(1, 3, 0), (2, 3, 5), (3, 9, 7), (4, 3, 7), (5, 5, 0), (6, 5, 0), (7, 5, 0), (8, 9, 0), (9, 0, 0), (11, 0, 0), (10, 0, 0)],
    (wMbx (mbxCmd x.1 x.2.1 x.2.2) 0 0).MbxRuns .pf x.1 := by
  have h : ∀ x ∈ [(1, 3, 0), (2, 3, 5), (3, 9, 7), (4, 3, 7), (5, 5, 0), (6, 5, 0), (7, 5, 0), (8, 9, 0), (9, 0, 0), (11, 0, 0), (10, 0, 0)],
      let s := wMbx (mbxCmd x.1 x.2.1 x.2.2) 0 0
      (s.mbx .pf).busy = true ∧ (s.mbx .pf).opcode = x.1 ∧ (s.mbx .pf).waitRng = false ∧ s.sbox.mp.busy = false ∧ s.tamperHold = false := by
    decide +kernel
  intro x hx
  obtain ⟨h1, h2, h3, h4, h5⟩ := h x hx
  exact ⟨h1, h2, h3, fun _ => h4, h5⟩

theorem witness_keyWrite :
    let s := wMbx (mbxCmd 1 3 0) (kAttr 4 2) 32
    let x := s.mbx .pf
    (x.opcode = 1 ∧ x.busy = true ∧ x.waitRng = false) ∧ x.slotNo = 3 ∧ attrOk x.attr = true ∧ x.len = lenBytes (atLength x.attr) ∧
    s.slotTakes 3 (atPart x.attr) = true ∧ hostAttrOk .pf x.attr = true ∧
    (wMbx (mbxCmd 1 5 0) (kAttr 4 2) 32).slotTakes 5 0 = false ∧ hostAttrOk .pf (kAttr 4 2 + 2 ^ 28) = false ∧
    (attrOk (kAttr 4 2 + 2 ^ 28) = true) ∧ 0x240 ≤ (wMbx (mbxCmd 1 0x240 0) 0 0).sbox.pf.slotNo ∧ attrOk (kAttr 4 3) = false := by
  decide +kernel

/-- A slot of the MRAM, which the read-back of a write concerns. -/
theorem witness_key_persistent : ∀ oc ∈ [1, 2, 4, 6],
    let s := wMbx (mbxCmd oc 520 (if oc = 2 then 5 else 7)) (kAttr 4 2) 32
    (s.mbx .pf).opcode = oc ∧ (s.mbx .pf).busy = true ∧ (s.mbx .pf).waitRng = false ∧ (s.mbx .pf).slotNo = 520 ∧
    s.slotTakes 520 0 = true ∧ attrOk (s.mbx .pf).attr = true ∧ (s.mbx .pf).len = lenBytes (atLength (s.mbx .pf).attr) ∧
    s.keyCheck 5 usDerive (mbxUnit .pf) 0 0 = stDone ∧ s.keyCheck 7 usWrap (mbxUnit .pf) 0 0 = stDone := by decide +kernel

theorem witness_keyDerive :
    let s := wMbx (mbxCmd 2 3 5) (kAttr 4 2) 8
    let x := s.mbx .pf
    x.slotNo = 3 ∧ x.parentNo = 5 ∧ attrOk x.attr = true ∧ 1 ≤ x.len ∧ x.len ≤ 64 ∧ s.slotTakes 3 (atPart x.attr) = true ∧
    s.keyCheck 5 usDerive (mbxUnit .pf) 0 0 = stDone ∧ s.keyCheck 7 usDerive (mbxUnit .pf) 0 0 ≠ stDone := by decide +kernel

/-- A wrap that is allowed, and one of a key that ORIGIN bars. -/
theorem witness_keyWrap :
    let s := wMbx (mbxCmd 3 9 7) 0 0
    let a := (s.slot 9).attr
    let b := (s.slot 7).attr
    (s.mbx .pf).slotNo = 9 ∧ (s.mbx .pf).parentNo = 7 ∧ s.keyCheck 7 usWrap (mbxUnit .pf) 0 0 = stDone ∧ s.keyLives 9 = true ∧
    atPart a = atPart b ∧ atWorld a &&& atWorld b = atWorld a ∧ atMaster a &&& atMaster b = atMaster a ∧ atOrigin a ≠ 2 ∧ s.rngServes = true ∧
    (let u : State := { s with rng := { s.rng with st := .startup } }; u.rngServes = false ∧ u.rngFailed = false) ∧
    (let u : State := { s with rng := { s.rng with st := .failed } }; u.rngFailed = true) ∧
    (let u := s.installKey 9 (kAttr 4 2 + 2 * 2 ^ 12) (zeros 32); atOrigin (u.slot 9).attr = 2 ∧ u.keyLives 9 = true) := by decide +kernel

/-- A blob of a SIGN key of zeros under slot 7. -/
def blobW : Bytes :=
  blobHead (kAttr 4 2) 7 1 (zeros 12) ++
  [206, 167, 64, 61, 77, 96, 107, 110, 7, 78, 197, 211, 186, 243, 157, 24, 114, 96, 3, 202, 55, 166, 42, 116, 209, 162, 245, 142, 117, 6, 53, 142,
    155, 79, 149, 215, 22, 81, 75, 122, 237, 229, 217, 212, 5, 224, 227, 6]

set_option maxRecDepth 100000 in
/-- The blob opens; with its last byte changed it does not. -/
theorem witness_keyUnwrap :
    let s := wMbx (mbxCmd 4 3 7) 0 80 (fit 256 blobW)
    let x := s.mbx .pf
    let d := x.data.take x.len
    let a := putBits (le d 8 8) 47 38 x.parentNo
    x.slotNo = 3 ∧ x.parentNo = 7 ∧ d = blobW ∧ lenBytes (le d 5 1) = 32 ∧ d.take 4 = ascii "GKKB" ∧ le d 4 1 = 1 ∧
    allZero (slice d 6 2) = true ∧ allZero (slice d 0x13 1) = true ∧ x.len = 48 + 32 ∧ attrOk a = true ∧ atLength a = le d 5 1 ∧
    s.slotTakes 3 (atPart a) = true ∧ hostAttrOk .pf a = true ∧ s.keyCheck 7 usWrap (mbxUnit .pf) 0 0 = stDone ∧
    le d 0x12 1 = atGen (s.slot 7).attr ∧
    gcmOpen (s.slot 7).key (slice d 0x14 12) (d.take 32) (slice d 32 32) (slice d 64 16) = some (zeros 32) ∧
    gcmOpen (s.slot 7).key (slice d 0x14 12) (d.take 32) (slice d 32 32) (zeros 16) = none := by decide +kernel

theorem witness_sign :
    let s := wMbx (mbxCmd 8 9 0) 0 32
    (s.mbx .pf).slotNo = 9 ∧ (s.mbx .pf).len = 32 ∧ s.keyCheck 9 usSign (mbxUnit .pf) 0 0 = stDone ∧
    s.keyCheck 5 usSign (mbxUnit .pf) 0 0 ≠ stDone := by decide +kernel

/-- A rotation that drops an old generation, one that leaves a generation in use, and one for which there is no room. -/
theorem witness_memRotate :
    let s := wMbx (mbxCmd 9 0 0) 0 0
    let u : State := { s with parts := [(0, { ph := .opn, keyLive := 3 })] }
    let v : State := { s with folio := { leaves := [(0, { cls := .host, state := .resident, hvalid := true })] } }
    bits (s.mbx .pf).cmd 7 4 = 0 ∧ ((s.part 0).keyCur + 1) % 4 = 1 ∧ (s.partRec 0).isSome = true ∧ s.hasPartKeys 0 = true ∧ s.removal = none ∧
    s.rngServes = true ∧ (s.part 0).keyLive.testBit 1 = false ∧ (s.part 0).keyLive.testBit 0 = true ∧ s.genRefs 0 0 = 0 ∧
    v.genRefs 0 0 ≠ 0 ∧ v.rngServes = true ∧ (v.part 0).keyLive.testBit 1 = false ∧
    (u.part 0).keyLive.testBit 1 = true ∧ u.hasPartKeys 0 = true := by decide +kernel

/-- SCRAPPED, a move that is refused, and the end of FACTORY. -/
theorem witness_lcAdvance :
    let s := wMbx (10 * 2 ^ 24 + 4 * 2 ^ 14) 0 0
    let u := wMbx (10 * 2 ^ 24 + 1 * 2 ^ 14) 0 0
    let x := wMbx (10 * 2 ^ 24 + 5 * 2 ^ 14) 0 0
    let b : State := { w0 with sbox := { lc := .blank }, rng := { w0.rng with st := .ready } }
    (s.mbx .pf).opcode = 10 ∧ bits s.sbox.pf.cmd 16 14 = 4 ∧ s.sbox.lc = .service ∧ (u.mbx .pf).opcode = 10 ∧
    u.lcMay .pf (bits u.sbox.pf.cmd 16 14) = none ∧ (x.mbx .pf).opcode = 10 ∧ bits x.sbox.pf.cmd 16 14 = 5 ∧ b.sbox.lc = .blank ∧ b.rngReady = true := by decide +kernel

/-- A token of either move: what Lotil's key has signed the manual leaves open, so that a token is signed is a hypothesis. -/
theorem witness_lcAdvance_token (d2 d3 : Bytes) (h2 : tokenSigned (d2.take 80) = true ∧ tokenFits d2 2 = true)
    (h3 : tokenSigned (d3.take 80) = true ∧ tokenFits d3 3 = true) :
    ∃ s u : State, s.MbxRuns .pf 10 ∧ s.sbox.lc = .factory ∧ bits s.sbox.pf.cmd 16 14 = 2 ∧
      tokenSigned (s.sbox.pf.data.take s.sbox.pf.len) = true ∧ tokenFits s.sbox.pf.data 2 = true ∧
      u.MbxRuns .pf 10 ∧ u.sbox.lc = .service ∧ bits u.sbox.pf.cmd 16 14 = 3 ∧ (∀ p, p < 16 → u.job p = none) ∧
      tokenSigned (u.sbox.pf.data.take u.sbox.pf.len) = true ∧ tokenFits u.sbox.pf.data 3 = true := by
  let v (lc : Lc) (k : Nat) (d : Bytes) : State :=
    { State.reset with sbox := { lc := lc, pf := { cmd := 10 * 2 ^ 24 + k * 2 ^ 14, busy := true, len := 80, data := d } } }
  have runs : ∀ lc k d, k < 8 → (v lc k d).MbxRuns .pf 10 := fun lc k d hk =>
    ⟨rfl, by show (10 * 2 ^ 24 + k * 2 ^ 14) / 2 ^ 24 % 2 ^ 8 = 10; omega, rfl, fun _ => rfl, rfl⟩
  have code : ∀ k d lc, k < 8 → bits (v lc k d).sbox.pf.cmd 16 14 = k := fun k d lc hk => by
    show (10 * 2 ^ 24 + k * 2 ^ 14) / 2 ^ 14 % 2 ^ 3 = k
    omega
  exact ⟨v .factory 2 d2, v .service 3 d3, runs _ _ _ (by omega), rfl, code 2 d2 .factory (by omega), h2.1, h2.2, runs _ _ _ (by omega), rfl,
    code 3 d3 .service (by omega), fun _ _ => rfl, h3.1, h3.2⟩

/-- The three responses of a tamper source, and a command in progress. -/
theorem witness_tamper :
    let s := fun r => (wMbx (mbxCmd 7 5 0) 0 0).setRegN aSecmbxTamperCfg r
    (∀ r ∈ [0, 1, 2], (s r).power ≠ .off ∧ (s r).sbox.alarms.testBit 0 = false ∧ (s r).pwr.bootDue = false ∧ (s r).mgmt.waiting = false ∧ (s r).load = none ∧
      (s r).tally.groups = [] ∧
      tamperField ((s r).regN aSecmbxTamperCfg) 0 = r) ∧ ((s 2).mbx .pf).busy = true ∧ w0.power ≠ .off := by decide +kernel

theorem witness_background :
    let s := (wMbx 0 0 0).orphan 5
    let u : State := { w0 with sbox := { w0.sbox with sweepPending := true } }
    s.orphaned = [5] ∧ u.sbox.sweepPending = true ∧ w0.sbox.sweepPending = false := by decide +kernel

/-- The generator in a state, with a caller. -/
def wRng (st : RngState) (cs : List Caller := []) (fails : Nat := 0) : State :=
  { w0 with rng := { w0.rng with st := st, waiting := cs, fails := fails } }

theorem witness_rng :
    (wRng .startup).rng.st = .startup ∧ (wRng .seeding [.mbx .pf]).rng.st = .seeding ∧ (wRng .seeding [.mbx .pf]).rng.waiting = [.mbx .pf] ∧
    (wRng .ready).rng.st ≠ .failed ∧ (wRng .ready).rng.fails + 1 < (wRng .ready).regN aRngCfg % 8 ∧
    (wRng .ready [.mbx .pf] 7).regN aRngCfg % 8 ≤ (wRng .ready [.mbx .pf] 7).rng.fails + 1 ∧
    (wRng .ready).rng.st = .ready ∧ (wRng .ready [.sec (.partKeys 0)]).rng.waiting = .sec (.partKeys 0) :: [] ∧
    (wRng .ready [.sec (.partKeys 0)]).rngReady = true ∧ (wRng .startup [.mbx .pf]).rngReady = false ∧
    (wRng .ready).writeServed (.fn 0) aRngTest = true ∧ (wRng .ready).sbox.lc ≠ .factory ∧
    (let f := fun st => ({ wRng st with sbox := { w0.sbox with lc := .factory } } : State)
     (f .ready).writeServed (.fn 0) aRngTest = true ∧ (f .ready).sbox.lc = .factory ∧ (f .ready).rng.st ≠ .failed ∧
     (f .failed).writeServed (.fn 0) aRngTest = true ∧ (f .failed).rng.st = .failed) ∧
    (∀ oc ∈ [3, 9], let s : State := { wMbx (mbxCmd oc 9 7) 0 0 with rng := { st := .ready, waiting := [.mbx .pf] } }
      s.rng.waiting = .mbx .pf :: [] ∧ s.rngReady = true ∧ (s.mbx .pf).opcode = oc) := by decide +kernel


/-! ### Witnesses: power, the start and updates -/

/-- The running package with the management domain in a state. -/
def wMg (m : MgmtSt) (p : Power := .active) : State :=
  { w0 with power := p, pwr := { w0.pwr with bootDue := false, perst := false }, mgmt := m }

/-- A package whose boot ROM is due. -/
def wBoot (m : MgmtSt) : State :=
  { w0 with pwr := { w0.pwr with bootDue := true, perst := false, good := true }, mgmt := m }

theorem witness_supply :
    let off : State := { w0 with power := .off }
    off.power = .off ∧ off.pwr.tripped = false ∧ (40000 ≤ (48000 : BitVec 16).toNat ∧ (48000 : BitVec 16).toNat ≤ 60000) ∧
    (60000 < (60001 : BitVec 16).toNat ∧ (64000 : BitVec 16).toNat ≤ 64000) ∧ (39999 : BitVec 16).toNat < 40000 ∧ w0.power ≠ .off ∧
    (64000 < (64001 : BitVec 16).toNat) := by decide +kernel

theorem witness_perst :
    (wMg {}).pwr.perst = false ∧ (wMg {}).power ≠ .off ∧ w0.pwr.perst = true ∧ warmKept aMgmtUpdStatus = true ∧
    warmKept (aSchedWinCtrl 0) = false := by decide +kernel

/-- Starts: without a boot record, with an erased slot, with a bad image on trial and with an alarm latched. -/
theorem witness_boot :
    let s := wBoot {}
    let e := wBoot { record := true }
    let k := ({ wBoot { upd := .checking, trialSlot := some 1 } with restarting := true } : State)
    let a : State := { s with sbox := { s.sbox with alarms := 1 } }
    (s.pwr.bootDue = true ∧ s.pwr.good = true ∧ s.pwr.perst = false ∧ s.power ≠ .off ∧ s.sbox.sweepPending = false ∧ s.sbox.lc ≠ .scrapped ∧
      s.restarting = false) ∧ s.sbox.alarms % 32 = 0 ∧ min 64 s.mgmt.confirmed ≤ s.mgmt.counter ∧ s.mgmt.upd = .idle ∧
    s.pwr.recoveryLow = false ∧ s.mgmt.record = false ∧ e.mgmt.record = true ∧ e.mgmt.recFallback = false ∧ e.mgmt.upd = .idle ∧
    (match e.checkSlot e.mgmt.active with | .error _ => true | .ok _ => false) = true ∧
    (k.restarting = true ∧ k.tamperHold = false ∧ k.mgmt.upd = .checking ∧ k.mgmt.trialSlot = some 1) ∧
    (match k.checkSlot 1 with | .error r => decide (r < 128) | .ok _ => false) = true ∧ a.sbox.alarms % 32 ≠ 0 := by decide +kernel

/-- A start of a good image: which keys sign one is open (log entry 14), so that the slot checks is a hypothesis. -/
theorem witness_boot_good (x : FwImage) (bs : List Bytes) (h : (wBoot { record := true }).checkSlot 0 = .ok (x, bs)) :
    (wBoot { record := true }).mgmt.record = true ∧ (wBoot { record := true }).mgmt.recFallback = false ∧
    (wBoot { record := true }).checkSlot (wBoot { record := true }).mgmt.active = .ok (x, bs) := ⟨rfl, rfl, h⟩

theorem witness_startComplete :
    let s := wMg { loaded := true, upd := .checking, trialSlot := some 1 }
    let u := wMg { loaded := true, upd := .fallback, trialSlot := some 1 }
    s.mgmt.loaded = true ∧ s.tamperHold = false ∧ s.schemaBad = false ∧ s.dev.isSome = true ∧ s.mgmt.upd = .checking ∧
    u.mgmt.loaded = true ∧ u.schemaBad = false ∧ u.mgmt.upd = .fallback := by decide +kernel

theorem witness_watchdog :
    let s := wMg { upd := .trial, trialSlot := some 1 }
    let u := wMg { wdt := [9, 8, 7] }
    s.power ≠ .off ∧ s.recoveryMode = false ∧ s.startDone = true ∧ s.mgmt.upd = .trial ∧ (wMg {}).mgmt.upd = .idle ∧ (wMg {}).mgmt.wdt.length < 3 ∧
    u.mgmt.upd = .idle ∧ u.mgmt.wdt.length = 3 ∧ u.cycles ≤ u.mgmt.wdt.getD 2 0 + 60 * 312500000 ∧
    (let w : State := { wMg {} with tally := { wins := [(0, { st := .opn })] } }; (w.win 0).st.active = true) := by decide +kernel

theorem witness_powerStates :
    (wMg {}).power = .active ∧ (wMg {}).quiesced = true ∧ (wMg {}).slotsHeld = false ∧ (wMg {} .doze).power = .doze ∧
    (wMg {} .waking).power = .waking ∧ (wMg {}).writeServed (.fn 0) aPwrCtrl = true ∧ (wMg {}).loadsBusy = false ∧
    (wMg {}).updateBusy = false ∧ ({ wMg {} with ops := [runOp (mkD 0x10 5)] } : State).quiesced = false := by decide +kernel

/-- The throttle, cold and hot, and a trip. -/
theorem witness_throttle :
    let s := wMg {}
    let u := s.advanceToCycle ((s.cycles / 312500 + 1) * 312500)
    s.power = .active ∧ u.pwr.steps = 0 ∧ (u.tjLimit : Int) ≤ sgn 8 (127 : Byte).toNat ∧ ¬((u.tjLimit : Int) ≤ sgn 8 (20 : Byte).toNat) ∧
    ¬(u.limitW < (10 : BitVec 16).toNat) ∧ sgn 8 (20 : Byte).toNat ≤ (u.tjLimit : Int) - 3 ∧ (10 : BitVec 16).toNat + u.hystW ≤ u.limitW ∧
    115 ≤ sgn 8 (115 : Byte).toNat := by decide +kernel

/-- MGMT_UPD_LEN set to a length. -/
def wUpd (m : MgmtSt) (n : Nat) : State := (wMg m).setRegN aMgmtUpdLen n

theorem witness_stage :
    let s := wUpd {} 4096
    reqIsPf (.fn 0) = true ∧ s.writeServed (.fn 0) aMgmtUpdCtrl = true ∧ s.mayStage (.fn 0) = true ∧ s.mgmt.upd = .idle ∧
    s.mgmt.legacyBlown = false ∧ s.updLen = 4096 ∧ (wUpd {} 4097).updLen = 4097 ∧ (wUpd {} 0).updLen = 0 ∧
    (wUpd {} (maxImage + 4096)).updLen = maxImage + 4096 := by decide +kernel

set_option maxRecDepth 100000 in
/-- An image that is none of the vendor's, one whose TRANSIT byte is 0, and a package that stages nothing. -/
theorem witness_stageComplete :
    let s := wMg { upd := .staging, stageLen := 160, stageEng := some 0 }
    let g : State := { s with hostMem := Mem.write [] 0 (ascii "GKFW") }
    let b (u : State) := Mem.read u.hostMem u.mgmt.stageAddr u.mgmt.stageLen
    s.mgmt.upd = .staging ∧ s.mgmt.stageEng.isSome = true ∧ (s.func 0).bme = true ∧ 160 ≤ (b s).length ∧
    ¬((b s).take 4 = ascii "GKFW" ∧ le (b s) 5 1 = 0) ∧ (b g).take 4 = ascii "GKFW" ∧ le (b g) 5 1 = 0 ∧ (wMg {}).mgmt.upd ≠ .staging := by
  decide +kernel

theorem witness_updates :
    let s := wMg { upd := .staged }
    let e := wMg { ledger := [{ event := 1 }, { event := 2, seq := 1 }] }
    let t := wMg { upd := .trial, trialSlot := some 1, bundle := some { svn := 3 } }
    reqIsPf (.fn 0) = true ∧ s.writeServed (.fn 0) aMgmtUpdCtrl = true ∧ s.loadsBusy = false ∧ s.mgmt.upd = .staged ∧ s.quiesced = true ∧
    (wMg {}).mgmt.upd ≠ .staged ∧ (wMg {}).writeServed (.fn 0) aMgmtUpdCtrl = true ∧ (e.func 0).bme = true ∧
    (e.mgmt.ledger.drop (e.mgmt.ledger.length - (2 : Byte).toNat)).length = 2 ∧ t.mgmt.upd = .trial ∧ t.mgmt.trialSlot = some 1 ∧
    t.mgmt.defaults = false ∧ t.writeServed (.fn 0) aMgmtUpdCtrl = true ∧
    (let l : State := { s with load := some { charter := .job {} } }
     l.writeServed (.fn 0) aMgmtUpdCtrl = true ∧ l.loadsBusy = true ∧ l.mgmt.upd ≠ .trial) := by decide +kernel

end Sys2Proof.Tests
end

section
/-!
PROOFS. Reads and writes of registers (00_scope R10 to R23, 02 R77 to R79, 05 R246): the rules of the register map, of
a read, of a write and of a ledger entry, and the statements about register access that follow from them.
-/
namespace Sys2Proof.Machine

variable (s : State)

/-! ### The register map -/

theorem mem_of_findRow {off : Nat} {rs : List RegRow} {r : RegRow} {ix : List Nat}
    (h : findRow off rs = some (r, ix)) : r ∈ rs := by
  induction rs with
  | nil => cases h
  | cons q rs ih =>
    unfold findRow at h
    split at h
    · cases h
      exact List.mem_cons_self
    · exact List.mem_cons_of_mem _ (ih h)

theorem blockRows_past_clusters {off : Nat} (h : 0x1800000 ≤ off) : blockRows off = [] := by
  have hb : 24 ≤ off / 0x100000 := by omega
  unfold blockRows
  split
  case h_14 => exact if_neg (by omega)
  all_goals omega

theorem lt_of_regAt {off : Nat} {x : RegRow × List Nat} (h : regAt off = some x) : off < 0x1800000 := by
  refine Nat.lt_of_not_le fun hge => ?_
  rw [regAt, blockRows_past_clusters hge] at h
  cases h

/-- No row of the map has both W1C and RWL fields. -/
theorem blockRows_w1c_not_rwl (off : Nat) : ∀ r ∈ blockRows off, r.w1c ≠ 0 → r.rwl = 0 := by
  unfold blockRows
  split
  case h_14 =>
    split
    · decide
    · exact fun r h => absurd h List.not_mem_nil
  all_goals decide

theorem rwl_eq_zero_of_w1c {off : Nat} {r : RegRow} {ix : List Nat} (hr : regAt off = some (r, ix))
    (hw : r.w1c ≠ 0) : r.rwl = 0 :=
  blockRows_w1c_not_rwl off r (mem_of_findRow hr) hw

theorem half_ftimeNowLo {r : RegRow} {ix : List Nat} (hr : regAt aFtimeNowLo = some (r, ix)) : r.half = .lo := by
  have h : (regAt aFtimeNowLo).map (·.1.half) = some .lo := by decide
  rw [hr] at h
  exact Option.some.inj h

theorem half_ftimeNowFrac {r : RegRow} {ix : List Nat} (hr : regAt aFtimeNowFrac = some (r, ix)) :
    r.half = .single := by
  have h : (regAt aFtimeNowFrac).map (·.1.half) = some .single := by decide
  rw [hr] at h
  exact Option.some.inj h

theorem pfTarget_nothing {off : Nat} (h : off < 0x700000) (hr : regAt off = none) : pfTarget off = .nothing := by
  rw [pfTarget, if_neg (by omega), if_neg (by omega), hr, if_neg (by simp), if_neg (by omega)]

/-! ### What a change leaves alone -/

/-- A state that has the memories of another reads as it does in every byte. -/
theorem SameMemory.of_eq {s t : State} (hf : t.folio = s.folio) (hc : t.scratch = s.scratch) (hw : t.slots = s.slots)
    (hh : t.hostMem = s.hostMem) (hm : t.mgmt = s.mgmt) : SameMemory s t :=
  ⟨fun _ _ => by rw [hf], fun _ _ => by rw [hf], fun _ _ => by rw [hc], fun _ _ => by rw [hw],
    fun _ _ => by rw [hh], fun _ => by rw [hm]⟩

theorem SameMemory.trans {s t u : State} (h : SameMemory s t) (k : SameMemory t u) : SameMemory s u := by
  obtain ⟨hoard, lpddr, scratch, slots, host, flash⟩ := h
  obtain ⟨hoard', lpddr', scratch', slots', host', flash'⟩ := k
  exact ⟨fun a n => (hoard' a n).trans (hoard a n), fun a n => (lpddr' a n).trans (lpddr a n),
    fun a n => (scratch' a n).trans (scratch a n), fun a n => (slots' a n).trans (slots a n),
    fun a n => (host' a n).trans (host a n), fun a => (flash' a).trans (flash a)⟩

theorem SameRegsBut.of_eq {s t : State} (but : Nat → Prop) (h : t.regs = s.regs) : SameRegsBut s t but :=
  fun _ _ => by rw [State.reg, h, State.reg]

theorem sameRegsBut_setReg (off : Nat) (v : W32) : SameRegsBut s (s.setReg off v) (fun a => a = off) :=
  fun a ha => s.reg_setReg_other off a v ha

theorem sameMemory_setReg (off : Nat) (v : W32) : SameMemory s (s.setReg off v) := .of_eq rfl rfl rfl rfl rfl

/-! ### Latches (R20) -/

theorem reqCode_inj {a b : Req} (h : reqCode a = reqCode b) : a = b := by
  have small : ∀ f : Fin 64, f.val < 0xFE := fun f => by omega
  cases a with
  | fn f =>
    cases b with
    | fn g => exact congrArg Req.fn (Fin.ext h)
    | mp => exact absurd h (Nat.ne_of_lt (small f))
    | jtag => exact absurd h (Nat.ne_of_lt (Nat.lt_succ_of_lt (small f)))
  | mp =>
    cases b with
    | fn g => exact absurd h.symm (Nat.ne_of_lt (small g))
    | mp => rfl
    | jtag => exact absurd h (by decide)
  | jtag =>
    cases b with
    | fn g => exact absurd h.symm (Nat.ne_of_lt (Nat.lt_succ_of_lt (small g)))
    | mp => exact absurd h (by decide)
    | jtag => rfl

/-- A requester's latches have keys of their own. -/
theorem latchKey_inj {a b : Req} {x y : Nat} (hx : x < 2 ^ 32) (hy : y < 2 ^ 32) (h : latchKey a x = latchKey b y) :
    a = b ∧ x = y := by
  have hcode : reqCode a = reqCode b := by simp only [latchKey] at h; omega
  have hplace : x = y := by simp only [latchKey] at h; omega
  exact ⟨reqCode_inj hcode, hplace⟩

@[simp] theorem State.latch_setLatch_self (req : Req) (hi : Nat) (v : W32) : (s.setLatch req hi v).latch req hi = v :=
  Tab.look_store_self _ _ _

theorem State.latch_setLatch_other {a b : Req} {x y : Nat} (v : W32) (h : latchKey b y ≠ latchKey a x) :
    (s.setLatch a x v).latch b y = s.latch b y := by
  unfold State.latch State.setLatch
  rw [Tab.look_store, if_neg h]

theorem State.latch_setLatch_of_ne {a b : Req} {x y : Nat} (v : W32) (hab : a ≠ b) (hx : x < 2 ^ 32) (hy : y < 2 ^ 32) :
    (s.setLatch a x v).latch b y = s.latch b y :=
  s.latch_setLatch_other v fun h => hab (latchKey_inj hx hy h.symm).1

/-! ### Reads (R10, R11, R19, R20) -/

/-- A read changes the latches and the count of open values drawn, and nothing else. -/
theorem State.readReg_frame (req : Req) (off : Nat) :
    ∃ l n, (s.readReg req off).2 = { s with latches := l, fresh := n } := by
  unfold State.readReg
  dsimp only
  split
  · split
    · dsimp only
      split <;> exact ⟨_, _, rfl⟩
    · split
      · exact ⟨_, _, rfl⟩
      · split <;> exact ⟨_, _, rfl⟩
  · split
    · exact ⟨_, _, rfl⟩
    · split <;> exact ⟨_, _, rfl⟩

theorem State.readBar_frame (req : Req) (off size : Nat) :
    ∃ l n, (s.readBar req off size).2 = { s with latches := l, fresh := n } := by
  unfold State.readBar
  split
  · exact ⟨_, _, rfl⟩
  · split
    · exact ⟨_, _, rfl⟩
    · split
      · exact s.readReg_frame req _
      all_goals exact ⟨_, _, rfl⟩

/-- A read by one requester keeps the latches of another. -/
theorem State.readReg_latch_other {a b : Req} (off : Nat) {hi : Nat} (hab : a ≠ b) (hhi : hi < 2 ^ 32) :
    (s.readReg a off).2.latch b hi = s.latch b hi := by
  have frac : aFtimeNowFrac < 2 ^ 32 := by decide
  unfold State.readReg
  dsimp only
  split
  next r ix hr =>
    have hoff := lt_of_regAt hr
    split
    · dsimp only
      split
      · rw [State.latch_setLatch_of_ne _ _ hab frac hhi, State.latch_setLatch_of_ne _ _ hab (by omega) hhi]
      · rw [State.latch_setLatch_of_ne _ _ hab (by omega) hhi]
    · split
      · rfl
      · split <;> rfl
  next =>
    split
    · exact s.latch_setLatch_of_ne _ hab (by omega) hhi
    · split <;> rfl

theorem State.readBar_latch_other {a b : Req} (off size : Nat) {hi : Nat} (hab : a ≠ b) (hhi : hi < 2 ^ 32) :
    (s.readBar a off size).2.latch b hi = s.latch b hi := by
  unfold State.readBar
  split
  · rfl
  · split
    · rfl
    · split
      · exact s.readReg_latch_other _ hab hhi
      all_goals rfl

section Read
variable {req : Req} {off : Nat} {r : RegRow} {ix : List Nat} (hr : regAt off = some (r, ix))
include hr

theorem State.readReg_value (hh : r.half ≠ .hi) (hf : off ≠ aFtimeNowFrac) :
    (s.readReg req off).1 = s.regValue (reqMbx req) off := by
  unfold State.readReg
  rw [hr]
  dsimp only
  split
  · rfl
  · rw [if_neg (by simp [hh, hf])]
    split <;> rfl

/-- _HI and FRAC answer what was latched. -/
theorem State.readReg_latched (hh : r.half = .hi ∨ off = aFtimeNowFrac) :
    s.readReg req off = (s.latch req off, s) := by
  have hlo : r.half ≠ .lo := by
    rcases hh with hh | rfl
    · simp [hh]
    · simp [half_ftimeNowFrac hr]
  unfold State.readReg
  rw [hr]
  dsimp only
  rw [if_neg hlo, if_pos hh]

theorem State.readReg_lo (hlo : r.half = .lo) :
    (s.readReg req off).2 = if off = aFtimeNowLo
      then (s.setLatch req (off + 4) (s.regValue (reqMbx req) (off + 4))).setLatch req aFtimeNowFrac
        (s.regValue (reqMbx req) aFtimeNowFrac)
      else s.setLatch req (off + 4) (s.regValue (reqMbx req) (off + 4)) := by
  unfold State.readReg
  rw [hr]
  dsimp only
  rw [if_pos hlo]

/-- A read of _LO latches its _HI. -/
theorem State.readReg_latches_hi (hlo : r.half = .lo) :
    (s.readReg req off).2.latch req (off + 4) = s.regValue (reqMbx req) (off + 4) := by
  rw [s.readReg_lo hr hlo]
  split
  next h =>
    subst h
    rw [State.latch_setLatch_other _ _ (by simp [latchKey, aFtimeNowLo, aFtimeNowFrac]), State.latch_setLatch_self]
  next => rw [State.latch_setLatch_self]

theorem State.readReg_latches_frac (hoff : off = aFtimeNowLo) :
    (s.readReg req off).2.latch req aFtimeNowFrac = s.regValue (reqMbx req) aFtimeNowFrac := by
  have hlo : r.half = .lo := by subst hoff; exact half_ftimeNowLo hr
  rw [s.readReg_lo hr hlo, if_pos hoff, State.latch_setLatch_self]

end Read

theorem State.reqUp_of_readServed {req : Req} {off : Nat} (h : s.readServed req off = true) : s.reqUp req = true := by
  simp only [State.readServed, Bool.and_eq_true] at h
  exact h.1.1

theorem State.readBar_reg {req : Req} {off o : Nat} (hs : s.readServed req off = true) (ha : off % 4 = 0)
    (ht : s.target req off = .reg o) : s.readBar req off 4 = s.readReg req o := by
  simp [State.readBar, s.reqUp_of_readServed hs, hs, ha, ht]

theorem State.readBar_misaligned (req : Req) {off size : Nat} (h : off % 4 ≠ 0 ∨ size ≠ 4) :
    s.readBar req off size = (BitVec.allOnes 32, s) := by
  rw [State.readBar, if_pos]
  rcases h with h | h <;> simp [h]

theorem State.readBar_reserved {req : Req} {off : Nat} (hu : s.reqUp req = true) (ha : off % 4 = 0)
    (ht : s.target req off = .nothing) : s.readBar req off 4 = (0, s) := by
  rw [State.readBar, if_neg (by simp [hu, ha]), ht]
  split <;> rfl

/-- The read of a register leaves the package as an answer. -/
theorem exec_pairLoRead (req : Req) {off : Nat} (size : Nat) (h : off < 2 ^ 32) :
    exec (.pairLoRead req off size) s =
      .next ((s.readBar req off size).2.emit (.readData req off (s.readBar req off size).1)) := by
  show execPairLoRead req off size s = _
  simp only [execPairLoRead, Nat.not_le.2 h, decide_false]

/-- What a read answers and latches, and that it changes no register and no byte of memory. -/
theorem answers_pairLoRead (req : Req) {off : Nat} (size : Nat) (h : off < 2 ^ 32) :
    Answers (.pairLoRead req off size) s fun t =>
      (∀ b hi, t.latch b hi = (s.readBar req off size).2.latch b hi) ∧
      t.out.getLast? = some (.readData req off (s.readBar req off size).1) ∧ SameRegsBut s t nowhere ∧ SameMemory s t := by
  obtain ⟨l, n, hframe⟩ := s.readBar_frame req off size
  refine ⟨_, exec_pairLoRead s req size h, fun _ _ => rfl, by simp, .of_eq _ ?_, .of_eq ?_ ?_ ?_ ?_ ?_⟩ <;>
    rw [hframe] <;> rfl

/-! ### Writes (R10, R13, R21, R22) -/

theorem State.writeBar_reg {req : Req} {off o : Nat} (v : W32) (hs : s.writeServed req off = true) (ha : off % 4 = 0)
    (ht : s.target req off = .reg o) : s.writeBar req off 4 v = s.writeReg req o v := by
  simp [State.writeBar, hs, ha, ht]

theorem State.writeBar_misaligned (req : Req) {off size : Nat} (v : W32) (h : size ≠ 4 ∨ off % 4 ≠ 0) :
    s.writeBar req off size v = s := by
  rw [State.writeBar, if_pos]
  rcases h with h | h <;> simp [h]

theorem State.writeBar_reserved {req : Req} {off : Nat} (size : Nat) (v : W32) (ht : s.target req off = .nothing) :
    s.writeBar req off size v = s := by
  rw [State.writeBar, ht]
  split <;> rfl

theorem exec_registerWrite_reg {req : Req} {off o : Nat} (v : W32) (same : Bool) (hs : s.writeServed req off = true)
    (ha : off % 4 = 0) (ht : s.target req off = .reg o) : exec (.registerWrite req off 4 v same) s =
      .next (s.writeReg req o (if same then s.sameCycle req off v else v)) :=
  congrArg Host.Outcome.next (s.writeBar_reg _ hs ha ht)

theorem exec_rwlWrite_reg {req : Req} {off o : Nat} (v : W32) (hs : s.writeServed req off = true)
    (ha : off % 4 = 0) (ht : s.target req off = .reg o) :
    exec (.rwlWrite req off 4 v) s = .next (s.writeReg req o v) :=
  congrArg Host.Outcome.next (s.writeBar_reg v hs ha ht)

section Write
variable {req : Req} {off : Nat} {r : RegRow} {ix : List Nat} (hr : regAt off = some (r, ix)) (v : W32)
include hr

theorem State.writeReg_rwl (h : r.rwl ≠ 0) : s.writeReg req off v = s.rwlWrite req off v := by
  unfold State.writeReg
  rw [hr]
  exact if_pos h

theorem State.writeReg_w1c (h : r.w1c ≠ 0) : s.writeReg req off v = s.clearBits r off v := by
  unfold State.writeReg
  rw [hr]
  dsimp only
  rw [if_neg (by simp [rwl_eq_zero_of_w1c hr h]), if_pos h]

/-- In the cycle of the hardware's own set, the bits that it sets are not cleared (R23). -/
theorem State.sameCycle_w1c (ht : s.target req off = .reg off) (h : r.w1c ≠ 0) :
    s.sameCycle req off v = v &&& ~~~(s.hwSetNow off) := by
  simp [State.sameCycle, ht, hr, h]

/-- A locked register takes no write (02 R78). -/
theorem State.rwlWrite_locked (hw : r.rwl ≠ 0) (hl : s.rwlLocked (s.rwlOwner r ix v.toNat) = true) :
    s.rwlWrite req off v = s.regErrOf (some (s.rwlOwner r ix v.toNat).1) stNotPermitted req off := by
  simp [State.rwlWrite, hr, hw, hl]

section Unlocked
variable (hw : r.rwl ≠ 0) (hm : s.rwlMay req (s.rwlOwner r ix v.toNat).1 = true)
  (hl : s.rwlLocked (s.rwlOwner r ix v.toNat) = false) (hlo : r.half ≠ .lo)
include hw hm hl hlo

/-- A value out of range is discarded. -/
theorem State.rwlWrite_bad {st : Nat} (hbad : s.rwlBad r ix v.toNat = some st) :
    s.rwlWrite req off v = s.regErrOf (some (s.rwlOwner r ix v.toNat).1) st req off := by
  simp [State.rwlWrite, hr, hw, hm, hl, hlo, hbad]

/-- A value in range takes effect outside a pause, and is declared (02 R79). -/
theorem State.rwlWrite_taken (hbad : s.rwlBad r ix v.toNat = none)
    (hp : (s.part (s.rwlOwner r ix v.toNat).1).paused = false) :
    s.rwlWrite req off v = (s.putRwl off r ix v).markExpert (s.rwlOwner r ix v.toNat) := by
  simp [State.rwlWrite, hr, hw, hm, hl, hlo, hbad, hp]

end Unlocked
end Write

/-! ### Ledger entries (19 R730 to R733) -/

/-- An MSI-X message changes no more than what waits and what has left. -/
theorem State.sendMsix_frame (f v : Nat) :
    ∃ held pba out, s.sendMsix f v = { s with msixHeld := held, pba := pba, out := out } := by
  unfold State.sendMsix
  split
  · exact ⟨_, _, _, rfl⟩
  · split
    · exact ⟨_, _, _, rfl⟩
    · split <;> exact ⟨_, _, _, rfl⟩

theorem State.raise_frame (ev : Nat) :
    ∃ held pba out, s.raise ev = { s with msixHeld := held, pba := pba, out := out } :=
  s.sendMsix_frame 0 (s.eventVector ev)

@[simp] theorem State.reg_raise (ev a : Nat) : (s.raise ev).reg a = s.reg a := by
  obtain ⟨_, _, _, h⟩ := s.raise_frame ev
  rw [h]
  rfl

@[simp] theorem State.raise_errs (ev : Nat) : (s.raise ev).errs = s.errs := by
  obtain ⟨_, _, _, h⟩ := s.raise_frame ev
  rw [h]

@[simp] theorem State.raise_parts (ev : Nat) : (s.raise ev).parts = s.parts := by
  obtain ⟨_, _, _, h⟩ := s.raise_frame ev
  rw [h]

theorem State.raise_sameMemory (ev : Nat) : SameMemory s (s.raise ev) := by
  obtain ⟨_, _, _, h⟩ := s.raise_frame ev
  rw [h]
  exact .of_eq rfl rfl rfl rfl rfl

@[simp] theorem State.setBitsHw_errs (off mask : Nat) : (s.setBitsHw off mask).errs = s.errs := rfl

@[simp] theorem State.setRegN_errs (off v : Nat) : (s.setRegN off v).errs = s.errs := rfl

@[simp] theorem State.setBitsHw_parts (off mask : Nat) : (s.setBitsHw off mask).parts = s.parts := rfl

@[simp] theorem State.setRegN_parts (off v : Nat) : (s.setRegN off v).parts = s.parts := rfl

theorem sameMemory_setRegN (off v : Nat) : SameMemory s (s.setRegN off v) := .of_eq rfl rfl rfl rfl rfl

theorem State.setBitsHw_sameMemory (off mask : Nat) : SameMemory s (s.setBitsHw off mask) := .of_eq rfl rfl rfl rfl rfl

theorem State.reg_setRegN_other {off a : Nat} (v : Nat) (h : a ≠ off) : (s.setRegN off v).reg a = s.reg a :=
  s.reg_setReg_other off a _ h

theorem State.reg_setBitsHw_other {off a : Nat} (mask : Nat) (h : a ≠ off) : (s.setBitsHw off mask).reg a = s.reg a :=
  State.reg_setReg_other _ off a _ h

section Ledger
variable (status source reason : Nat) (part : Option Nat) (func : Nat) (detail : Bytes)

theorem State.addErr_sameMemory : SameMemory s (s.addErr status source reason part func detail) := by
  unfold State.addErr
  dsimp only
  split
  · refine .trans (.trans (.trans ?_ (sameMemory_setRegN ..)) (sameMemory_setRegN ..)) (State.setBitsHw_sameMemory ..)
    exact .of_eq rfl rfl rfl rfl rfl
  · refine .trans (.trans (.trans (.trans ?_ (sameMemory_setRegN ..)) (sameMemory_setRegN ..))
      (State.setBitsHw_sameMemory ..)) (State.raise_sameMemory ..)
    exact .of_eq rfl rfl rfl rfl rfl

theorem State.addErr_parts : (s.addErr status source reason part func detail).parts = s.parts := by
  unfold State.addErr
  dsimp only
  split
  · simp
  · simp

/-- Of the registers, GLOBAL_ERR_COUNT and GLOBAL_ERR_STATUS change. -/
theorem State.addErr_sameRegs : SameRegsBut s (s.addErr status source reason part func detail)
    (fun a => a = aGlobalErrCount ∨ a = aGlobalErrStatus) := by
  intro a ha
  obtain ⟨hcount, hstatus⟩ := not_or.1 ha
  unfold State.addErr
  dsimp only
  split
  · rw [State.reg_setBitsHw_other _ _ hstatus, State.reg_setRegN_other _ _ hstatus, State.reg_setRegN_other _ _ hcount]
    rfl
  · rw [State.reg_raise, State.reg_setBitsHw_other _ _ hstatus, State.reg_setRegN_other _ _ hstatus,
      State.reg_setRegN_other _ _ hcount]
    rfl

/-- The newest entry is the one that was added. -/
theorem State.addErr_getLast? : (s.addErr status source reason part func detail).errs.getLast? =
    some { seq := s.regN aGlobalErrCount, status := status, source := source, reason := reason, ftNs := s.ftNs,
           part := part, func := func, detail := fit 12 detail } := by
  unfold State.addErr
  dsimp only
  split
  · simp
  · simp

end Ledger

/-! ### SCHED_PART_CTRL (05 R244, R246) -/

/-- The row of SCHED_PART_CTRL. -/
def schedPartCtrlRow : RegRow := ⟨"SCHED_PART_CTRL", 0x200104, [(16, 0x20)], 0x80008, 0, 0xf03ff, 0, 0, 0, .single⟩

theorem regAt_schedPartCtrl : ∀ p : Fin 16, regAt (aSchedPartCtrl p) = some (schedPartCtrlRow, [p.val]) := by decide

theorem aligned_schedPartCtrl (p : Nat) : aSchedPartCtrl p % 4 = 0 := by unfold aSchedPartCtrl; omega

theorem schedPartCtrl_not_errReg (p : Nat) : ¬(aSchedPartCtrl p = aGlobalErrCount ∨ aSchedPartCtrl p = aGlobalErrStatus) := by
  unfold aSchedPartCtrl aGlobalErrCount aGlobalErrStatus
  omega

theorem pfTarget_schedPartCtrl : ∀ p : Fin 16, pfTarget (aSchedPartCtrl p) = .reg (aSchedPartCtrl p) := by decide

theorem State.rwlOwner_schedPartCtrl (p v : Nat) : s.rwlOwner schedPartCtrlRow [p] v = (p, []) := rfl

theorem State.rwlBad_schedPartCtrl (p v : Nat) :
    s.rwlBad schedPartCtrlRow [p] v = if outside 1 1000 (v % 1024) then some stMalformed else none := by
  simp [State.rwlBad, schedPartCtrlRow, aSchedPartCtrl, bits]

theorem State.putRwl_schedPartCtrl (off p : Nat) (v : W32) :
    s.putRwl off schedPartCtrlRow [p] v = s.setReg off ((s.reg off &&& ~~~0xF03FF) ||| (v &&& 0xF03FF)) := rfl

theorem State.rwlLocked_single (p : Nat) : s.rwlLocked (p, []) = s.partTrusted p := by
  simp [State.rwlLocked]

theorem State.markExpert_single (p : Nat) : s.markExpert (p, []) = s.modPart p (fun x => { x with expert := true }) := rfl

section SchedPartCtrl
variable (p : Fin 16) (v : W32) (ht : s.partTrusted p = false)
include ht

theorem State.writeReg_schedPartCtrl_bad (h : v.toNat % 1024 = 0 ∨ 1000 < v.toNat % 1024) :
    s.writeReg (.fn 0) (aSchedPartCtrl p) v = s.regErrOf (some p.val) stMalformed (.fn 0) (aSchedPartCtrl p) := by
  have hbad : s.rwlBad schedPartCtrlRow [p.val] v.toNat = some stMalformed := by
    rw [State.rwlBad_schedPartCtrl, if_pos]
    simp only [outside, Bool.or_eq_true, decide_eq_true_eq]
    omega
  have hr := regAt_schedPartCtrl p
  have h := s.rwlWrite_bad (req := .fn 0) hr v (by decide) rfl ((s.rwlLocked_single p).trans ht) (by decide) hbad
  rw [s.writeReg_rwl hr v (by decide), h, State.rwlOwner_schedPartCtrl]

theorem State.writeReg_schedPartCtrl_taken (hp : (s.part p).paused = false)
    (h : 1 ≤ v.toNat % 1024 ∧ v.toNat % 1024 ≤ 1000) :
    s.writeReg (.fn 0) (aSchedPartCtrl p) v =
      (s.setReg (aSchedPartCtrl p) ((s.reg (aSchedPartCtrl p) &&& ~~~0xF03FF) ||| (v &&& 0xF03FF))).modPart p
        (fun x => { x with expert := true }) := by
  have hok : s.rwlBad schedPartCtrlRow [p.val] v.toNat = none := by
    rw [State.rwlBad_schedPartCtrl, if_neg]
    simp only [outside, Bool.or_eq_true, decide_eq_true_eq]
    omega
  have hr := regAt_schedPartCtrl p
  have h := s.rwlWrite_taken (req := .fn 0) hr v (by decide) rfl ((s.rwlLocked_single p).trans ht) (by decide) hok hp
  rw [s.writeReg_rwl hr v (by decide), h, State.rwlOwner_schedPartCtrl, State.putRwl_schedPartCtrl,
    State.markExpert_single]

end SchedPartCtrl

/-! ### Pairs with access code RW (R21, R22) -/

/-- A write of _LO waits for its _HI. -/
theorem State.putPair_lo {r : RegRow} (h : r.half = .lo) (off : Nat) (v : W32) :
    s.putPair r off v =
      { s with pendLo := Tab.store (fun _ => none) s.pendLo off (some (v &&& BitVec.ofNat 32 r.rw)) } := if_pos h

/-- A write of _HI takes the _LO that waits with it. -/
theorem State.putPair_hi {r : RegRow} (h : r.half ≠ .lo) (off : Nat) (v : W32) :
    s.putPair r off v = ((s.takeLo (off - 4) (s.reg (off - 4))).2.setReg (off - 4)
      (s.takeLo (off - 4) (s.reg (off - 4))).1).putRw r off v := if_neg h

theorem State.takeLo_waiting {lo : Nat} {w : W32} (stored : W32) (h : Tab.look (fun _ => none) s.pendLo lo = some w) :
    (s.takeLo lo stored).1 = w := by
  simp [State.takeLo, h]

theorem State.putPair_sameMemory (r : RegRow) (off : Nat) (v : W32) : SameMemory s (s.putPair r off v) := by
  unfold State.putPair
  split <;> exact .of_eq rfl rfl rfl rfl rfl

section PairHi
variable {r : RegRow} (h : r.half ≠ .lo) {off : Nat} (v : W32)
include h

theorem State.reg_putPair_hi (hoff : 4 ≤ off) : (s.putPair r off v).reg off =
    (s.reg off &&& ~~~BitVec.ofNat 32 (r.rw ||| r.rws)) ||| (v &&& BitVec.ofNat 32 (r.rw ||| r.rws)) := by
  rw [s.putPair_hi h, State.putRw, State.reg_setReg, State.reg_setReg_other _ _ _ _ (by omega)]
  rfl

theorem State.reg_putPair_lo (hoff : 4 ≤ off) :
    (s.putPair r off v).reg (off - 4) = (s.takeLo (off - 4) (s.reg (off - 4))).1 := by
  rw [s.putPair_hi h, State.putRw, State.reg_setReg_other _ _ _ _ (by omega), State.reg_setReg]

theorem State.reg_putPair_other {a : Nat} (hhi : a ≠ off) (hlo : a ≠ off - 4) :
    (s.putPair r off v).reg a = s.reg a := by
  rw [s.putPair_hi h, State.putRw, State.reg_setReg_other _ _ _ _ hhi, State.reg_setReg_other _ _ _ _ hlo]
  rfl

end PairHi

/-- The row of MGMT_UPD_ADDR_LO. -/
def mgmtUpdAddrLoRow : RegRow := ⟨"MGMT_UPD_ADDR_LO", 0xa00008, [], 0, 0xfffff000, 0, 0, 0, 0, .lo⟩

/-- The row of MGMT_UPD_ADDR_HI. -/
def mgmtUpdAddrHiRow : RegRow := ⟨"MGMT_UPD_ADDR_HI", 0xa0000c, [], 0, 0xffffffff, 0, 0, 0, 0, .hi⟩

theorem State.writeReg_mgmtUpdAddrLo (req : Req) (v : W32) :
    s.writeReg req aMgmtUpdAddrLo v = s.putPair mgmtUpdAddrLoRow aMgmtUpdAddrLo v := rfl

theorem State.writeReg_mgmtUpdAddrHi (req : Req) (v : W32) :
    s.writeReg req aMgmtUpdAddrHi v = s.putPair mgmtUpdAddrHiRow aMgmtUpdAddrHi v := rfl

/-- A write of MGMT_UPD_ADDR_LO changes nothing that is read, until _HI is written. -/
theorem answers_pairWrite_mgmtUpdAddr (lo : W32) (hs : s.writeServed (.fn 0) aMgmtUpdAddrLo = true) :
    Answers (.pairLoWrite (.fn 0) aMgmtUpdAddrLo lo) s fun t =>
      SameRegsBut s t nowhere ∧ SameMemory s t ∧
      ∀ hi : W32, Answers (.pairHiWrite (.fn 0) aMgmtUpdAddrHi hi) t fun u =>
        u.reg aMgmtUpdAddrLo = lo &&& 0xFFFFF000 ∧ u.reg aMgmtUpdAddrHi = hi ∧
        SameRegsBut s u (fun a => a = aMgmtUpdAddrLo ∨ a = aMgmtUpdAddrHi) ∧ SameMemory s u := by
  obtain ⟨t, ht⟩ : ∃ t, t = s.putPair mgmtUpdAddrLoRow aMgmtUpdAddrLo lo := ⟨_, rfl⟩
  have hexec : exec (.pairLoWrite (.fn 0) aMgmtUpdAddrLo lo) s = .next t := by
    rw [ht, ← s.writeReg_mgmtUpdAddrLo (.fn 0)]
    exact congrArg Host.Outcome.next (s.writeBar_reg lo hs rfl rfl)
  have hmem : SameMemory s t := ht ▸ s.putPair_sameMemory _ _ _
  rw [s.putPair_lo (by decide)] at ht
  have hregs : t.regs = s.regs := by rw [ht]
  have hs' : t.writeServed (.fn 0) aMgmtUpdAddrHi = true := by rw [ht]; exact hs
  have hwait : Tab.look (fun _ => none) t.pendLo (aMgmtUpdAddrHi - 4) = some (lo &&& 0xFFFFF000) := by
    rw [ht]
    exact Tab.look_store_self s.pendLo aMgmtUpdAddrLo (some (lo &&& 0xFFFFF000))
  refine ⟨t, hexec, .of_eq _ hregs, hmem, fun hi => ?_⟩
  refine ⟨_, congrArg Host.Outcome.next (t.writeBar_reg hi hs' rfl rfl), ?_⟩
  rw [State.writeReg_mgmtUpdAddrHi]
  refine ⟨?_, ?_, fun a ha => ?_, hmem.trans (t.putPair_sameMemory _ _ _)⟩
  · exact (t.reg_putPair_lo (by decide) hi (by decide)).trans (t.takeLo_waiting _ hwait)
  · rw [t.reg_putPair_hi (by decide) hi (by decide)]
    show t.reg aMgmtUpdAddrHi &&& ~~~BitVec.allOnes 32 ||| hi &&& BitVec.allOnes 32 = hi
    rw [BitVec.not_allOnes, BitVec.and_zero, BitVec.zero_or, BitVec.and_allOnes]
  · obtain ⟨hlo, hhi⟩ := not_or.1 ha
    rw [t.reg_putPair_other (by decide) hi hhi hlo, State.reg, hregs, State.reg]

/-! ### The statements -/

/-- Settles O31: a latch is kept under its requester, so that a read loads none of another. -/
theorem latchesAreSeparate : Obligations.LatchesAreSeparate := by
  unfold Obligations.LatchesAreSeparate
  intro a b off size hi s hab hhi
  have hread := s.readBar_latch_other off size hab hhi
  show ∃ t, execPairLoRead a off size s = .next t ∧ t.latch b hi = s.latch b hi
  unfold execPairLoRead
  refine ⟨_, rfl, ?_⟩
  split
  · split <;> rfl
  · exact hread

/-- Settles O27: a read changes the latches alone (`readBar_frame`), and what it answers is read off by the half of the
pair that lies at its offset. -/
theorem registerReadsAndPairs : Obligations.RegisterReadsAndPairs := by
  unfold Obligations.RegisterReadsAndPairs
  refine ⟨?value, ?latched, ?reserved, fun v s hs => answers_pairWrite_mgmtUpdAddr s v hs⟩
  case value =>
    intro off r ix s hr ha ht hs hhi hfrac
    have hb := s.readBar_reg hs ha ht
    have hoff := lt_of_regAt hr
    obtain ⟨t, hexec, hlatch, hout, hregs, hmem⟩ := answers_pairLoRead s (.fn 0) (off := off) 4 (by omega)
    rw [hb] at hlatch hout
    rw [s.readReg_value hr hhi hfrac] at hout
    exact ⟨t, hexec, hout, fun h => (hlatch ..).trans (s.readReg_latches_hi hr h),
      fun h => (hlatch ..).trans (s.readReg_latches_frac hr h), hregs, hmem⟩
  case latched =>
    intro off r ix s hr ha ht hs hh
    have hoff := lt_of_regAt hr
    obtain ⟨t, hexec, -, hout, hregs, hmem⟩ := answers_pairLoRead s (.fn 0) (off := off) 4 (by omega)
    rw [s.readBar_reg hs ha ht, s.readReg_latched hr hh] at hout
    exact ⟨t, hexec, hout, hregs, hmem⟩
  case reserved =>
    intro off size s hu hoff hcase
    obtain ⟨t, hexec, -, hout, hregs, hmem⟩ := answers_pairLoRead s (.fn 0) size hoff
    refine ⟨t, hexec, fun hbad => ?_, fun ⟨ha, hsize⟩ => ?_, hregs, hmem⟩
    · rwa [s.readBar_misaligned _ hbad] at hout
    · subst hsize
      have hnone : off < 0x700000 ∧ regAt off = none := by simpa [ha] using hcase
      rwa [s.readBar_reserved hu ha (pfTarget_nothing hnone.1 hnone.2)] at hout

/-- Settles O28, by the access code of the register that the write reaches. -/
theorem registerWrites : Obligations.RegisterWrites := by
  unfold Obligations.RegisterWrites
  refine ⟨?w1c, ?misaligned, ?reserved, ?locked, ?partCtrl⟩
  case w1c =>
    intro off v same s r ix hr hw ha ht hs
    have hexec := exec_registerWrite_reg s (req := .fn 0) v same hs ha ht
    rw [s.writeReg_w1c hr _ hw, s.sameCycle_w1c (req := .fn 0) hr v ht hw] at hexec
    exact ⟨_, hexec, s.reg_setReg .., sameRegsBut_setReg s off _, sameMemory_setReg ..⟩
  case misaligned =>
    intro req off size v same s h
    exact ⟨congrArg Host.Outcome.next (s.writeBar_misaligned req _ h),
      congrArg Host.Outcome.next (s.writeBar_misaligned req _ h)⟩
  case reserved =>
    intro off size v same s hoff hr
    exact congrArg Host.Outcome.next (s.writeBar_reserved size _ (pfTarget_nothing hoff hr))
  case locked =>
    intro off v s r ix hr hw ha ht hs hl
    have hexec := exec_rwlWrite_reg s (req := .fn 0) v hs ha ht
    rw [s.writeReg_rwl hr v hw, s.rwlWrite_locked hr v hw hl] at hexec
    exact ⟨_, hexec, ⟨_, s.addErr_getLast? .., rfl, rfl, rfl⟩, s.addErr_sameRegs _ _ _ _ _ _, s.addErr_sameMemory ..,
      s.addErr_parts ..⟩
  case partCtrl =>
    intro p v s hs ht hp
    have hexec := exec_rwlWrite_reg s (req := .fn 0) v hs (aligned_schedPartCtrl p) (pfTarget_schedPartCtrl p)
    refine ⟨_, hexec, ?_⟩
    by_cases hv : 1 ≤ v.toNat % 1024 ∧ v.toNat % 1024 ≤ 1000
    · rw [s.writeReg_schedPartCtrl_taken p v ht hp hv]
      refine ⟨fun _ => ⟨s.reg_setReg .., ?_, sameRegsBut_setReg s _ _⟩, fun hbad => absurd hbad (by omega),
        .of_eq rfl rfl rfl rfl rfl⟩
      rw [State.part_modPart]
    · have hbad : v.toNat % 1024 = 0 ∨ 1000 < v.toNat % 1024 := by omega
      rw [s.writeReg_schedPartCtrl_bad p v ht hbad]
      exact ⟨fun hok => absurd hok hv,
        fun _ => ⟨s.addErr_sameRegs _ _ _ _ _ _ _ (schedPartCtrl_not_errReg p), s.addErr_parts ..,
          _, s.addErr_getLast? .., rfl⟩,
        s.addErr_sameMemory ..⟩

end Sys2Proof.Machine
end
